-- ==== Sys2Proof/Word.lean ====
section
/-!
DEFINITION. The words of the Oluham H8: register words, addresses, lines, agent identifiers and the names of
the units of a Range (spec/00_scope.md, spec/01_the_range.md R10, R15, R16, R32).
-/

namespace Sys2Proof

/-- One byte. -/
abbrev Byte := BitVec 8

/-- A 32-bit register, packet or fuse word. -/
abbrev Word := BitVec 32

/-- A physical address (02 R43: 52 bits). -/
abbrev Addr := BitVec 52

/-- A line address, a[51:6] (03 R78). -/
abbrev Line := BitVec 46

/-- The 64 bytes of a line, byte n at bits [8n+7:8n] (02 R64). -/
abbrev LineData := BitVec 512

/-- A byte mask of a line. -/
abbrev LineMask := BitVec 64

/-- An agent identifier: DIE in [9:7], LOCAL in [6:0] (01 R32). -/
abbrev AgentId := BitVec 10

/-- A transaction identifier (02 R41). -/
abbrev TxId := BitVec 12

/-- A byte address of the register space (18 R466). -/
abbrev RegAddr := BitVec 26

/-- The tag of a memory-port request (19 R510). -/
abbrev MemTag := BitVec 9

/-- A position of the die grid, which names the die strapped to it (01 R10). -/
abbrev Die := Fin 8

/-- A physical fold of a paddock (00 R7). -/
abbrev PFold := Fin 5

/-- A logical fold of a paddock (00 R7). -/
abbrev LFold := Fin 4

/-- A Gate of a paddock (01 R16). -/
abbrev GateN := Fin 4

/-- A Stile of a paddock (01 R16). -/
abbrev StileN := Fin 24

/-- A core of a cluster (08, before R199). -/
abbrev Core := Fin 4

/-- A Confluence module of a die (10 R282). -/
abbrev ModN := Fin 4

/-- A transaction class, C0 to C3 (02 R43). -/
abbrev Cls := Fin 4

/-- A sluice of a paddock (09 R256): Gate 0 to 3, Stile 4 to 27, the Tether 28, the Shepherd 29. -/
abbrev SluiceN := Fin 30

/-- An agent port with cluster or device channels: Gate 0 to 3, Stile 4 to 27 (numbered as its sluice). -/
abbrev AgentN := Fin 28

/-- An operating point, P0 to P3 (01 R34). -/
abbrev Point := Fin 4

/-- A trained UCIe rate: 8, 16, 24, 32 GT/s (10 R282). -/
abbrev Rate := Fin 4

/-- A power domain of a paddock: FL0-4, FA0-4, SD, SH (14 R365). -/
abbrev DomN := Fin 12

/-- A supply rail: VFOLD 0, VSRAM 1 (14 R372). -/
abbrev RailN := Fin 2

/-- A command queue, reply queue, host ring or MSI-X vector number. -/
abbrev QN := Fin 64

/-- An event queue number. -/
abbrev EQN := Fin 32

/-- A transaction-table index (03 R78). -/
abbrev TTIdx := Fin 512

end Sys2Proof
end

