-- ==== Sys2Proof/Syntax.lean ====
section
/-!
DEFINITION. The commands of the Oluham H8: one constructor of `Instr` per row of spec/opcode_table.json, with
what the event or access carries from outside as operands.
-/

namespace Sys2Proof

/-- The four physical networks of the Stream (09, before R231). -/
inductive Net where
  | req | snp | rsp | dat
  deriving DecidableEq, Repr

/-- The four rings of each network on a die (09 R231). -/
inductive Ring where
  | xcw | xccw | ycw | yccw
  deriving DecidableEq, Repr

/-- Where a flit stands on a die: at a ford position of a ring, or in the hand-over stage between two agents of
one ford, which enters no ring (09 R233). -/
inductive Spot where
  | ring (r : Ring) (pos : Fin 16)
  | hand (pos : Fin 16)
  deriving DecidableEq, Repr

/-- REQ opcodes (02 R47). -/
inductive ReqOp where
  | getShared | getOwned | getOnce | upgrade | claim | putDirty | putCopy | putClean | pushIO | pushFull
  | atomicOp | sweep | purge | sweepPurge | devRead | devWrite
  | reserved (opc : BitVec 6)
  deriving DecidableEq, Repr

/-- Cache states, with their encodings (02, before R36). -/
inductive CacheState where
  | i | s | e | m
  deriving DecidableEq, Repr

/-- Memory types of an access (08 R199). -/
inductive MemType where
  | normalWB | normalWT | normalNC | device
  deriving DecidableEq, Repr

/-- Barrier kinds (08 R209). -/
inductive BKind where
  | load | store | full
  deriving DecidableEq, Repr

/-- Barrier scopes that reach a Gate (08 R209). -/
inductive BScope where
  | cluster | system
  deriving DecidableEq, Repr

/-- What a C2G_REQ item asks for (19 R504): a coherent request of R47, or an access of R199. -/
inductive ItemKind where
  | coherent (op : ReqOp)   -- a request of R47 that the agent names itself
  | ncLoad                  -- NORMAL-NC load
  | ntStore                 -- NORMAL-NC store, or a non-temporal store of any NORMAL type
  | devLoad                 -- DEVICE read
  | devStore                -- DEVICE write
  deriving DecidableEq, Repr

/-- A C2G_REQ item (19 R503, R504). `core` is none for CORE 7 (writebacks and prefetches); on a Stile channel
MTYPE and CORE are absent and are ignored (R508). -/
structure ReqItem where
  kind : ItemKind
  addr : Addr
  len : BitVec 7
  mtype : MemType
  core : Option Core
  ctag : BitVec 8
  victimWay : BitVec 4
  victimValid : Bool
  victimDirty : Bool
  atop : BitVec 4
  asize : BitVec 3
  deriving DecidableEq, Repr

/-- A C2G_RSP item (19 R503): a snoop answer, named by the Gate's STAG, or a CompAck, named by its CTAG. -/
inductive RspItem where
  | snpAck (stag : BitVec 4) (state : CacheState) (data : Bool)
  | snpAckWB (stag : BitVec 4) (state : CacheState)
  | compAck (ctag : BitVec 8)
  deriving DecidableEq, Repr

/-- A C2G_DAT item (19 R503). -/
inductive DatItem where
  | putData (ctag : BitVec 8) (data : LineData) (poison : Bool)
  | pushData (ctag : BitVec 8) (data : LineData) (be : LineMask) (poison : Bool)
  | storeData (ctag : BitVec 8) (data : LineData) (be : LineMask) (poison : Bool)
  | snpData (stag : BitVec 4) (data : LineData) (poison : Bool)
  deriving DecidableEq, Repr

/-- Arrays of a fold, encoded as ARRAY in R330 (12). -/
inductive ArrayKind where
  | tally | emTagA | emTagB | emPayload | poolTag | poolData | poolSet | pred
  deriving DecidableEq, Repr

/-- What a self-test or an array initialisation covers: the paddock's own checkers and lanes, or one fold. -/
inductive TestUnit where
  | paddock
  | fold (p : PFold)
  deriving DecidableEq, Repr

/-- A failing checker: its structure as DROVER_STAT.CHECKER names it, and the first vector misclassified
(12 R341). -/
structure SelfTestFail where
  checker : BitVec 4
  vector : BitVec 6
  deriving DecidableEq, Repr

/-- Bits inverted on the way across a module: of the Confluence flit (10 R260), and of the ring flits in its slots before
they were packed. -/
structure ConfNoise where
  flit : Nat
  slots : List (Fin 8 × Nat)
  deriving DecidableEq, Repr

/-- What array initialisation or the lane test found failing (12 R321, R328); `fold`: the initialisation as a whole (12
R327). -/
inductive InitFail where
  | row (a : ArrayKind) (bank : BitVec 8) (index : BitVec 11)
  | column (a : ArrayKind) (bank : BitVec 8) (index : BitVec 11)
  | lane (net : Net) (stage : BitVec 8) (lane : BitVec 11)
  | fold
  deriving DecidableEq, Repr

/-- What reaches its abandon limit in a fold (11 R292): a pen item, named by source and TXID, or an entry. -/
inductive AbandonWhat where
  | item (src : AgentId) (txid : TxId)
  | entry (idx : TTIdx)
  deriving DecidableEq, Repr

/-- How a host-ring read ends (16 R442, R443). -/
inductive RingAnswer where
  | words (w : List Word)
  | unsupported
  | abort
  | poisoned
  deriving DecidableEq, Repr

/-- Who makes a register access (18 R470, R477, R478): the paddock of the port, the domain tag, the byte
strobes of a write, and whether it came through BAR0. -/
structure Who where
  via : Die
  dom : BitVec 2
  strb : BitVec 4 := 15#4
  bar0 : Bool := false
  deriving DecidableEq, Repr

/-- A TLP to BAR4 (16 R435), its offset and tag apart: its length in DWs, for a write the data, and the byte enables. -/
structure BarPayload where
  dws : BitVec 10 := 1#10
  write : Option (BitVec 64) := none
  be : BitVec 8 := 0x0F#8
  deriving DecidableEq, Repr

/-- The commands: one constructor per row of spec/opcode_table.json, in the table's order. -/
inductive Instr where
  /-- PORESET_N_RELEASE (R423). -/
  | poresetRelease (bootMode testMode romOk : BitVec 8)
  /-- PORESET_N_ASSERT (R494). -/
  | poresetAssert
  /-- PADRESET_N_RELEASE (R495). -/
  | padresetRelease (d : Die) (bootMode testMode romOk : Bool)
  /-- PADRESET_N_ASSERT (R495). -/
  | padresetAssert (d : Die)
  /-- STARTUP_RETRY (R424). -/
  | startupRetry (d : Die) (romOk : Bool)
  /-- FUSE_ACK (R499). -/
  | fuseAck (d : Die) (data : Word)
  /-- FUSE_TIMEOUT (R499). -/
  | fuseTimeout (d : Die)
  /-- CHECKER_SELF_TEST (R313). -/
  | checkerSelfTest (d : Die) (unit : TestUnit) (answers : List (BitVec 4 × BitVec 64))
  /-- ARRAY_INITIALISATION (R321). -/
  | arrayInitialisation (d : Die) (unit : TestUnit) (bad : List InitFail)
  /-- HCLK_ACK (R492). -/
  | hclkAck (d : Die) (level : Bool) (opack : Point)
  /-- HCLK_ACK_TIMEOUT (R423). -/
  | hclkAckTimeout (d : Die)
  /-- RELEASE (R425). -/
  | release (w : Who) (v : Word)
  /-- ASSEMBLY_DEADLINE (R269). -/
  | assemblyDeadline
  /-- FORMED (R269). -/
  | formed
  /-- MODULE_TRAINED (R263). -/
  | moduleTrained (d : Die) (m : ModN) (rate : Rate) (x32 : Bool) (repaired : List (BitVec 11))
  /-- TRAINING_FAILED (R263). -/
  | trainingFailed (d : Die) (m : ModN)
  /-- TRAINING_RETRY (R263). -/
  | trainingRetry (d : Die) (m : ModN)
  /-- MODULE_DOWN (R265). -/
  | moduleDown (d : Die) (m : ModN)
  /-- DIE_READY (R271). -/
  | dieReady (d : Die) (ready : Die)
  /-- CONFLUENCE_FLIT (R267). -/
  | confluenceFlit (d : Die) (m : ModN) (noise : ConfNoise)
  /-- EDGE_FLIT_ACCEPT (R262). -/
  | edgeFlitAccept (d : Die) (net : Net) (r : Ring) (outbound : Bool)
  /-- CONFLUENCE_FLIT_SEND (R261). -/
  | confluenceFlitSend (d : Die) (m : ModN)
  /-- ROUTE_EPOCH_SWITCH_CYCLE (R273). -/
  | routeEpochSwitchCycle
  /-- ENVELOPE_RECHECK (R302). -/
  | envelopeRecheck
  /-- REQ_FLIT_ARRIVAL (R240). -/
  | reqFlitArrival (d : Die) (a : Spot) (noise : Nat)
  /-- SNP_FLIT_ARRIVAL (R240). -/
  | snpFlitArrival (d : Die) (a : Spot) (noise : Nat)
  /-- TURN (R236). -/
  | turn (d : Die) (net : Net) (a : Spot)
  /-- FLIT_INJECT (R243). -/
  | flitInject (d : Die) (net : Net) (a : Spot)
  /-- STARVE_RESERVATION (R244). -/
  | starveReservation (d : Die) (net : Net) (a : Spot)
  /-- CULVERT_FLIT (R249). -/
  | culvertFlit (d : Die) (net : Net) (a : Spot) (noise : Nat)
  /-- SLUICE_ADMIT (R245). -/
  | sluiceAdmit (d : Die) (n : SluiceN)
  /-- STREAM_SLUICE_RATE (R245). -/
  | streamSluiceRate (w : Who) (d : Die) (n : SluiceN) (c : Cls) (v : Word)
  /-- STREAM_SLUICE_BURST (R245). -/
  | streamSluiceBurst (w : Who) (d : Die) (n : SluiceN) (c : Cls) (v : Word)
  /-- FENCE_ACK (R250). -/
  | fenceAck (d : Die) (pos : Fin 16)
  /-- GET_SHARED (R90). -/
  | getShared (d : Die) (p : PFold)
  /-- GET_OWNED (R90). -/
  | getOwned (d : Die) (p : PFold)
  /-- GET_ONCE (R90). -/
  | getOnce (d : Die) (p : PFold)
  /-- UPGRADE (R90). -/
  | upgrade (d : Die) (p : PFold)
  /-- CLAIM (R90). -/
  | claim (d : Die) (p : PFold)
  /-- PUT_DIRTY (R90). -/
  | putDirty (d : Die) (p : PFold)
  /-- PUT_COPY (R90). -/
  | putCopy (d : Die) (p : PFold)
  /-- PUT_CLEAN (R90). -/
  | putClean (d : Die) (p : PFold)
  /-- PUSH_IO (R155). -/
  | pushIO (d : Die) (p : PFold)
  /-- PUSH_FULL (R90). -/
  | pushFull (d : Die) (p : PFold)
  /-- ATOMIC_OP (R184). -/
  | atomicOp (d : Die) (p : PFold)
  /-- SWEEP (R166). -/
  | sweep (d : Die) (p : PFold)
  /-- PURGE (R166). -/
  | purge (d : Die) (p : PFold)
  /-- SWEEP_PURGE (R166). -/
  | sweepPurge (d : Die) (p : PFold)
  /-- DEV_READ (R94). -/
  | devRead (d : Die) (p : PFold)
  /-- DEV_WRITE (R94). -/
  | devWrite (d : Die) (p : PFold)
  /-- RESERVED_OPCODE (R47). -/
  | reservedOpcode (d : Die) (p : PFold)
  /-- SNPACK (R91). -/
  | snpAck (d : Die) (a : Spot) (noise : Nat)
  /-- SNPACKWB (R81). -/
  | snpAckWB (d : Die) (a : Spot) (noise : Nat)
  /-- SNPDATA (R86). -/
  | snpData (d : Die) (a : Spot) (noise : Nat)
  /-- COMPACK (R80). -/
  | compAck (d : Die) (a : Spot) (noise : Nat)
  /-- PUT_DATA (R48). -/
  | putData (d : Die) (a : Spot) (noise : Nat)
  /-- PUSH_DATA (R48). -/
  | pushData (d : Die) (a : Spot) (noise : Nat)
  /-- MEMORY_REQUEST_ISSUE (R511). -/
  | memoryRequestIssue (d : Die) (p : PFold)
  /-- MEMORY_READ_DATA (R149). -/
  | memoryReadData (d : Die) (n : LFold) (tag : MemTag) (data : LineData) (poison err : Bool)
  /-- MEMORY_WRITE_RESPONSE (R154). -/
  | memoryWriteResponse (d : Die) (n : LFold) (tag : MemTag) (err : Bool)
  /-- MEMORY_CREDIT_RETURN (R511). -/
  | memoryCreditReturn (d : Die) (n : LFold) (write : Bool)
  /-- DOZE_GATE (R367). -/
  | dozeGate (d : Die) (p : PFold)
  /-- UNSURE_WINDOW_END (R122). -/
  | unsureWindowEnd (d : Die) (p : PFold)
  /-- DEADLINE_MISSED (R288). -/
  | deadlineMissed (d : Die) (n : SluiceN) (txid : TxId)
  /-- FOLD_SHARE_EXCEEDED (R290). -/
  | foldShareExceeded (d : Die) (p : PFold) (idx : TTIdx)
  /-- TRANSACTION_ABANDONED (R83). -/
  | transactionAbandoned (d : Die) (p : PFold) (what : AbandonWhat)
  /-- ABANDON_BEFORE_INJECTION (R292). -/
  | abandonBeforeInjection (d : Die) (n : SluiceN) (txid : TxId)
  /-- WAY_SWEEP (R163). -/
  | waySweep (d : Die) (p : PFold)
  /-- MILLPOND_CONVERSION (R170). -/
  | millpondConversion (d : Die)
  /-- WAY_COPY (R322). -/
  | wayCopy (d : Die) (p : PFold) (k : ArrayKind)
  /-- RACE_SWITCH (R324). -/
  | raceSwitch (d : Die) (n : LFold)
  /-- SCRUB_READ (R317). -/
  | scrubRead (d : Die) (p : PFold)
  /-- CLEAR (R196). -/
  | clear (w : Who) (d : Die) (p : PFold) (v : Word)
  /-- BW_PEEK (R198). -/
  | bwPeek (w : Who) (d : Die) (p : PFold)
  /-- C2G_REQ (R504). -/
  | c2gReq (d : Die) (n : AgentN) (item : ReqItem)
  /-- COMBINING_BUFFER_AGE (R207). -/
  | combiningBufferAge (d : Die) (g : GateN) (line : Line)
  /-- BARRIER (R209). -/
  | barrier (d : Die) (g : GateN) (core : Core) (kind : BKind) (scope : BScope) (ctag : BitVec 8)
  /-- SPLIT_CANCEL (R214). -/
  | splitCancel (d : Die) (g : GateN) (ctag : BitVec 8)
  /-- HOME_QUERY (R505). -/
  | homeQuery (d : Die) (n : AgentN) (page : BitVec 40)
  /-- C2G_RSP (R506). -/
  | c2gRsp (d : Die) (n : AgentN) (item : RspItem)
  /-- C2G_DAT (R504). -/
  | c2gDat (d : Die) (n : AgentN) (item : DatItem)
  /-- COMP (R67). -/
  | comp (d : Die) (a : Spot) (noise : Nat)
  /-- ORDERED (R61). -/
  | ordered (d : Die) (a : Spot) (noise : Nat)
  /-- ERR (R60). -/
  | err (d : Die) (a : Spot) (noise : Nat)
  /-- DATATOREQ (R66). -/
  | dataToReq (d : Die) (a : Spot) (noise : Nat)
  /-- STILE_DEVICE_ACCESS (R223). -/
  | stileDeviceAccess (d : Die) (n : StileN)
  /-- DR (R509). -/
  | dr (d : Die) (n : StileN) (tag : BitVec 5) (err : Bool) (data : LineData)
  /-- STILE_ABANDON (R212). -/
  | stileAbandon (d : Die) (n : StileN) (src : AgentId) (txid : TxId)
  /-- MEMORY_READ_TLP (R438). -/
  | memoryReadTlp (off : BitVec 36) (bytes : BitVec 13) (tag : BitVec 10)
  /-- MEMORY_WRITE_TLP (R438). -/
  | memoryWriteTlp (off : BitVec 36) (data : List (Option Byte)) (relaxed : Bool)
  /-- BAR0_ACCESS (R433). -/
  | bar0Access (off : BitVec 26) (dws : BitVec 10) (write : Option (BitVec 64)) (be : BitVec 8) (tag : BitVec 10)
  /-- H4_ALIAS_ACCESS (R435). -/
  | h4AliasAccess (off : BitVec 16) (x : BarPayload) (tag : BitVec 10)
  /-- CHARTER_READ (R436). -/
  | charterRead (off : BitVec 16) (dws : BitVec 10) (tag : BitVec 10)
  /-- FLR (R449). -/
  | flr
  /-- FLR_COMPLETE (R449). -/
  | flrComplete
  /-- HOT_RESET (R450). -/
  | hotReset
  /-- LINK_DOWN (R450). -/
  | linkDown
  /-- TETHER_PERST_N (R516). -/
  | tetherPerst
  /-- BUS_MASTER_ENABLE (R448). -/
  | busMasterEnable (on : Bool)
  /-- HOST_RING_FETCH (R442). -/
  | hostRingFetch (q : QN)
  /-- HOST_RING_COMPLETION (R442). -/
  | hostRingCompletion (q : QN) (tag : BitVec 10) (answer : RingAnswer)
  /-- TAIL (R442). -/
  | tail (w : Who) (q : QN) (v : Word)
  /-- MSIX_VECTOR_DUE (R445). -/
  | msixVectorDue (v : QN)
  /-- MSIX_SEND (R445). -/
  | msixSend (v : QN)
  /-- TETHER_MSIX_EOI (R445). -/
  | tetherMsixEoi (w : Who) (v : Word)
  /-- L1_ENTRY (R446). -/
  | l1Entry (sub : BitVec 2)
  /-- TETHER_LTR (R446). -/
  | tetherLtr (w : Who) (v : Word)
  /-- COMMIT (R441). -/
  | commit (w : Who) (v : Word)
  /-- WINDOW_SWAP (R441). -/
  | windowSwap
  /-- CQ_PUSH (R398). -/
  | cqPush (w : Who) (q : QN) (v : Word)
  /-- CQ_PUSH_LAST (R398). -/
  | cqPushLast (w : Who) (q : QN) (v : Word)
  /-- CQ_FLUSH (R404). -/
  | cqFlush (w : Who) (q : QN) (v : Word)
  /-- MODE (R404). -/
  | mode (w : Who) (q : QN) (v : Word)
  /-- RQ_FLUSH (R404). -/
  | rqFlush (w : Who) (q : QN) (v : Word)
  /-- EQ_FLUSH (R404). -/
  | eqFlush (w : Who) (e : EQN) (v : Word)
  /-- RQ_POP (R428). -/
  | rqPop (w : Who) (q : QN)
  /-- EQ_POP (R428). -/
  | eqPop (w : Who) (e : EQN)
  /-- PACKET_TAKE (R400). -/
  | packetTake (d : Die)
  /-- HELD_REPLY_POST (R403). -/
  | heldReplyPost (d : Die) (q : QN)
  /-- WATCHDOG (R420). -/
  | watchdog (d : Die)
  /-- PING (R414). -/
  | ping (d : Die)
  /-- QUERY_CHARTER (R414). -/
  | queryCharter (d : Die)
  /-- PATCH_LOAD (R421). -/
  | patchLoad (d : Die)
  /-- TT_DUMP (R416). -/
  | ttDump (d : Die)
  /-- FOLD_POWER (R368). -/
  | foldPower (d : Die)
  /-- FOLD_RETIRE (R327). -/
  | foldRetire (d : Die)
  /-- FOLD_SPARE_IN (R327). -/
  | foldSpareIn (d : Die)
  /-- SCRUB_RANGE (R316). -/
  | scrubRange (d : Die)
  /-- MAINT_RANGE (R167). -/
  | maintRange (d : Die)
  /-- MAINT_SETWAY (R168). -/
  | maintSetway (d : Die)
  /-- MILLPOND_CONFIG (R169). -/
  | millpondConfig (d : Die)
  /-- REGION_SET (R415). -/
  | regionSet (d : Die)
  /-- REGION_SWITCH (R29). -/
  | regionSwitch
  /-- DIE_JOIN (R272). -/
  | dieJoin (d : Die)
  /-- DIE_FENCE (R276). -/
  | dieFence (d : Die)
  /-- FENCE_DRAINED (R276). -/
  | fenceDrained
  /-- NIGHTFOLD_PROGRAM (R375). -/
  | nightfoldProgram (d : Die)
  /-- NIGHTFOLD_ENTER (R378). -/
  | nightfoldEnter (d : Die)
  /-- HURDLE_LOG_LOAD (R334). -/
  | hurdleLogLoad (d : Die)
  /-- HURDLE_LOG_READ (R335). -/
  | hurdleLogRead (d : Die)
  /-- OPPOINT_SET (R373). -/
  | oppointSet (d : Die)
  /-- CENSUS_CONFIG (R459). -/
  | censusConfig (d : Die)
  /-- DEADLINE_SET (R294). -/
  | deadlineSet (d : Die)
  /-- FACTORY_UNLOCK (R358). -/
  | factoryUnlock (d : Die)
  /-- INJECT_FAULT (R359). -/
  | injectFault (d : Die)
  /-- BELL_REPORT (R349). -/
  | bellReport (d : Die)
  /-- STORM_ENTRY_RETIRE (R348). -/
  | stormEntryRetire (d : Die)
  /-- BELL_CLEAR (R355). -/
  | bellClear (w : Who) (d : Die) (v : Word)
  /-- TESTMODE_FALL (R358). -/
  | testmodeFall (d : Die)
  /-- PSW_ACK (R366). -/
  | pswAck (d : Die) (i : DomN) (level : Bool)
  /-- PSW_ACK_TIMEOUT (R366). -/
  | pswAckTimeout (d : Die) (i : DomN)
  /-- FOLD_DRAIN_COMPLETE (R369). -/
  | foldDrainComplete (d : Die) (p : PFold)
  /-- WAKE_COMPLETE (R367). -/
  | wakeComplete (d : Die) (p : PFold)
  /-- AVSBUS_ACK (R372). -/
  | avsbusAck (d : Die) (rail : RailN)
  /-- AVSBUS_RETRY (R372). -/
  | avsbusRetry (d : Die) (rail : RailN)
  /-- HCLK_OPACK (R493). -/
  | hclkOpack (d : Die) (pt : Point)
  /-- OPPOINT_SWITCH (R373). -/
  | oppointSwitch
  /-- N1 (R378). -/
  | n1
  /-- N2 (R378). -/
  | n2
  /-- N3 (R378). -/
  | n3
  /-- N4 (R378). -/
  | n4
  /-- EBB_WAKE (R393). -/
  | ebbWake (w : Who) (d : Die) (v : Word)
  /-- EBB_ALARM (R393). -/
  | ebbAlarm (d : Die)
  /-- SENTINEL_SAMPLE (R381). -/
  | sentinelSample (d : Die) (bad : Option (BitVec 13))
  /-- AUTOWAKE_TIMEOUT (R386). -/
  | autowakeTimeout (d : Die)
  /-- LCLK_ABSENT (R286). -/
  | lclkAbsent (d : Die)
  /-- CENSUS_PERIOD_BOUNDARY (R460). -/
  | censusPeriodBoundary (d : Die)
  /-- CENSUS_CLR (R464). -/
  | censusClr (w : Who) (d : Die) (p : PFold) (v : Word)
  /-- CENSUS_CTR_LO (R464). -/
  | censusCtrLo (w : Who) (addr : RegAddr)
  /-- TIDE_NOW_LO (R304). -/
  | tideNowLo (w : Who)
  /-- REPLICATED_REGISTER_WRITE (R471). -/
  | replicatedRegisterWrite (w : Who) (addr : RegAddr) (v : Word)
  /-- REGISTER_WRITE (R478). -/
  | registerWrite (w : Who) (addr : RegAddr) (v : Word)
  /-- REGISTER_READ (R478). -/
  | registerRead (w : Who) (addr : RegAddr)
  /-- CONFIGURATION_REQUEST (R431). -/
  | configurationRequest (off : BitVec 12) (write : Option (Word × BitVec 4)) (tag : BitVec 10)
  /-- COMPLETION_TIMEOUT (R443). -/
  | completionTimeout (q : QN) (tag : BitVec 10)
  /-- TETHER_PERST_N_RELEASE (R516). -/
  | tetherPerstRelease
  /-- LINK_UP (R451). -/
  | linkUp (rate : BitVec 3) (width : BitVec 5) (flit : Bool)
  /-- LCLK_TICK (R284). -/
  | lclkTick
  deriving DecidableEq, Repr

end Sys2Proof
end

