-- ==== Sys2Proof/Machine/State.lean ====
section
/-!
DEFINITION. The state of a Range as plain data, its faults and refusals, and the state right after reset.
INVENTORY.md, '## State', lists every field with the rule of spec/ that names it.
-/

namespace Sys2Proof.Machine

/-- A sparse array: entries by key in one canonical form (keys strictly rising, no entry equal to what an
unlisted key reads as); Machine/SMap.lean holds its operations. -/
abbrev SMap (α : Type) := List (Nat × α)

/-! ### The parameter set (01 R16) -/

/-- The edges of a die (10 R281): west, east, towards the other row. -/
inductive Edge where
  | west | east | vert
  deriving DecidableEq, Repr

/-- A device window (08 R202, R203). -/
structure DevWin where
  base : Addr := 0
  limit : Addr := 0
  agent : AgentId := 0
  enable : Bool := false
  deriving DecidableEq, Repr

/-- What Krovol fixes for a Range (01 R16, 16 R436). No command changes it. -/
structure Krovol where
  planned : BitVec 8
  tether : Option Die
  gates : Vector (BitVec 4) 8
  stiles : Vector (Fin 25) 8
  caching : Vector (BitVec 24) 8
  modEdge : Vector (Vector (Option Edge) 4) 8
  maxRate : Vector (Vector Rate 4) 8
  phy : Vector (Vector Nat 3) 8
  mNs : Vector Nat 8
  cNs : Vector Nat 8
  cs : Vector (Vector Nat 24) 8
  dietab : Vector Die 64
  devwin : Vector DevWin 32
  sets : BitVec 2
  ways : Nat
  asmDeadline : Nat
  unlock : BitVec 16
  paramId : Word
  gateCredits : Nat
  otherCredits : Nat
  rcred : Nat
  wcred : Nat
  rails : Bool
  aperLog2 : BitVec 6
  vendor : BitVec 16
  device : BitVec 16
  subVendor : BitVec 16
  subDevice : BitVec 16
  classCode : BitVec 24
  flitMode : Bool
  linkWidth : Nat
  deriving DecidableEq, Repr

/-! ### Flits (02) -/

/-- SNP opcodes (02 R56). -/
inductive SnpOp where
  | share | claim | check | wayProbe | purge | sweep
  deriving DecidableEq, Repr

/-- RSP opcodes (02 R58). -/
inductive RspOp where
  | snpAck | snpAckWB | comp | compAck | ordered | err
  deriving DecidableEq, Repr

/-- DAT opcodes (02 R64). -/
inductive DatOp where
  | dataToReq | snpData | putData | pushData
  deriving DecidableEq, Repr

/-- A REQ flit (02 R43, R44), its CRC apart. -/
structure ReqFlit where
  op : ReqOp
  src : AgentId
  tgt : AgentId
  txid : TxId
  cls : Cls
  dl : BitVec 16
  addr : Addr
  rev : BitVec 5 := 0
  vway : BitVec 4 := 0
  vvalid : Bool := false
  vdirty : Bool := false
  atop : BitVec 4 := 0
  asize : BitVec 3 := 0
  nocache : Bool := false
  len : BitVec 7 := 0
  deriving DecidableEq, Repr

/-- An SNP flit (02 R54). For a WayProbe `laddr` holds the set index in [12:0] and the way in [16:13]. -/
structure SnpFlit where
  op : SnpOp
  src : AgentId
  tgt : AgentId
  txid : TxId
  laddr : Line
  muster : Bool := false
  rev : BitVec 5 := 0
  deriving DecidableEq, Repr

/-- An RSP flit (02 R58). -/
structure RspFlit where
  op : RspOp
  src : AgentId
  tgt : AgentId
  txid : TxId
  aux : TxId := 0
  state : CacheState := .i
  data : Bool := false
  ackreq : Bool := false
  superseded : Bool := false
  ecode : BitVec 4 := 0
  deriving DecidableEq, Repr

/-- A DAT flit (02 R64). -/
structure DatFlit where
  op : DatOp
  src : AgentId
  tgt : AgentId
  txid : TxId
  payload : LineData
  poison : Bool := false
  state : CacheState := .i
  deriving DecidableEq, Repr

/-- A flit of one of the four networks. -/
inductive Flit where
  | req (f : ReqFlit)
  | snp (f : SnpFlit)
  | rsp (f : RspFlit)
  | dat (f : DatFlit)
  deriving DecidableEq, Repr

/-! ### Always-on island (14 R365) -/

/-- A Nightfold program (14 R375). -/
structure NfProgram where
  interval : Nat
  sentinels : Nat
  retain : BitVec 64
  wakeEn : BitVec 5
  deriving DecidableEq, Repr

/-- The first failing sentinel of a sample (14 R381). -/
structure NfMismatch where
  addr : Addr
  pfold : PFold
  tide : Nat
  deriving DecidableEq, Repr

/-- Counted failures of one physical way (06 R162, 12 R322) or link (12 R329): the last three stamps. -/
structure FailStamps where
  unit : Nat
  array : ArrayKind
  way : Nat
  stamps : List Nat
  deriving DecidableEq, Repr

/-- The always-on island of a paddock (14 R365). -/
structure AlwaysOn where
  tideFx : Nat := 0
  ticks : Nat := 0
  gapFx : Nat := 0
  soscGap : Nat := 0                      -- SOSC cycles since the last LCLK tick, while HCLK is stopped (11 R286)
  hcycle : Nat := 0
  sticky : BitVec 10 := 0
  bootAttempts : BitVec 24 := 0
  lastStep : BitVec 4 := 0
  stepFails : Vector Nat 16 := Vector.replicate 16 0  -- failures of each start-up step since it last passed (15 R424)
  modAttempts : Vector (BitVec 16) 4 := Vector.replicate 4 0
  wayFails : List FailStamps := []
  linkFails : List FailStamps := []
  hlog : List (BitVec 64) := []
  hlogUnread : BitVec 128 := 0            -- record by record (12 R339)
  nextSeq : Word := 0
  nfProg : Option NfProgram := none
  nfSig : Vector (Option (BitVec 16)) 4 := Vector.replicate 4 none
  nfMismatch : Option NfMismatch := none
  nfLastAbort : BitVec 3 := 0
  nfAborts : BitVec 12 := 0
  nfSkipped : BitVec 16 := 0
  nfSamples : Word := 0
  nfStart : Nat := 0                      -- Tide and samples when the entry in progress was accepted
  nfBefore : Word := 0
  alarm : BitVec 64 := 0xFFFFFFFF00000000#64
  rstPor : Bool := true
  rstPad : Bool := false
  rstShOn : Bool := false
  keyHash : BitVec 256 := 0
  islandOk : Bool := true
  unlockTries : BitVec 2 := 0
  deriving DecidableEq, Repr

/-! ### Replicated registers (18 R470) -/

/-- Region attributes (01 R27). -/
structure RegionAttr where
  enable : Bool := false
  local' : Bool := false
  homeDie : Die := 0
  wpolicy : BitVec 2 := 0
  prefetch : Bool := false
  bwMode : BitVec 2 := 0
  cls : Cls := 2
  mpAlias : Bool := false
  deriving DecidableEq, Repr

/-- A Range-map region (01 R26). -/
structure Region where
  base : Addr := 0
  limit : Addr := 0
  attr : RegionAttr := {}
  deriving DecidableEq, Repr

/-- PKG_FOLDMAP of one position (18 R485). -/
structure FoldMap where
  pfold : Vector PFold 4 := #v[0, 1, 2, 3]
  vacant : BitVec 4 := 0
  failed : BitVec 5 := 0
  deriving DecidableEq, Repr

/-- One paddock's copy of the replicated registers, with the fields of CONF_ASM that read alike in every member
(18 R470, 10 R280). -/
structure Repl where
  present : BitVec 8 := 0
  leader : Die := 0
  formed : Bool := false
  lockHash : Bool := false
  lockPriv : Bool := false
  dietab : Vector Die 64 := Vector.replicate 64 0
  foldmap : Vector FoldMap 8 := Vector.replicate 8 {}
  privBlk : BitVec 64 := 0x00FFFFFFFFFFFFFF#64
  privQp : Vector Word 8 := Vector.replicate 8 0xFFFFFFFF#32
  privEq : Vector Word 4 := Vector.replicate 4 0xFFFFFFFF#32
  regions : Vector Region 64 := Vector.replicate 64 {}
  regionDefault : RegionAttr := {}
  deadline : Vector Nat 4 := #v[600, 2000, 10000, 100000]
  share : Vector Nat 4 := #v[300, 1000, 5000, 50000]
  qAllow : BitVec 8 := 32
  jAllow : BitVec 8 := 8
  envBad : BitVec 64 := 0
  envBadDef : Bool := false
  envWorst : Nat := 0
  tideHi : Word := 0
  leaving : BitVec 8 := 0
  readyDies : BitVec 8 := 0
  joinBusy : Bool := false
  fenceBusy : Bool := false
  deriving DecidableEq, Repr

/-! ### Start-up and Ebb -/

/-- Start-up of a paddock, its reset pins, straps and fuse interface (15 R423 to R425, 19 R494 to R500). -/
structure Boot where
  poreset : Bool := true
  padreset : Bool := false
  step : BitVec 4 := 1
  ready : Bool := false
  backoff : Bool := false
  bootHold : Bool := false
  failTick : Nat := 0
  testmode : Bool := false
  bootMode : Bool := false
  fuseReq : Bool := false
  fuseAck : Bool := false
  fuseAddr : BitVec 12 := 0
  fuseTick : Nat := 0
  fuseWords : List Word := []
  frozen : Option (Nat × BitVec 3) := none
  romOk : Bool := true
  selfTested : BitVec 6 := 0
  arrayInit : BitVec 6 := 0
  a02Filed : Bool := false
  deriving DecidableEq, Repr

/-- Fold power states (14 R367, R389), numbered as EBB_FOLD_STAT.STATE. -/
inductive FoldState where
  | run | doze | drain | retain | off
  deriving DecidableEq, Repr

/-- EBB_FOLD_STAT of a physical fold (14 R389), its target from before Nightfold (R379), the cycle in which it
was last busy (R367), and whether the drain it is in ends in OFF. -/
structure FoldPower where
  state : FoldState := .run
  target : FoldState := .run
  woken : Bool := false
  heldWake : Bool := false
  beforeNf : FoldState := .run
  idleSince : Nat := 0
  gated : Bool := false
  waking : Option Nat := none
  deriving DecidableEq, Repr

/-- A domain switch in progress (14 R366). -/
structure DomSwitch where
  dom : DomN
  on : Bool
  tick : Nat
  late : Bool := false
  deriving DecidableEq, Repr

/-- An AVSBus write that waits for its acknowledgement (14 R372). -/
structure AvsWrite where
  mv : Nat
  tick : Nat
  retries : Nat := 0
  deriving DecidableEq, Repr

/-- Nightfold phases (14 R378, R383). -/
inductive NfPhase where
  | idle
  | step1 | step2 | step3 | step4
  | inside (tick : Nat)
  | exit1 | exit2 | exit3 | exit4 | exit5
  deriving DecidableEq, Repr

/-- An AUTOWAKE access that waits for its domain (14 R386). -/
structure AutoAccess where
  who : Who
  addr : RegAddr
  write : Option Word
  dom : DomN
  tide : Nat
  deriving DecidableEq, Repr

/-- How far a Nightfold sample has come (14 R381): waiting for 0.55 V, for the fold's logic, for the way back. -/
inductive SamplePhase where
  | rails | power | back
  deriving DecidableEq, Repr

/-- A Nightfold sample in progress (14 R381, R382): the fold, the sentinel whose line has decayed, and its phase. -/
structure SampleRun where
  n : LFold
  p : PFold
  bad : Option (BitVec 13) := none
  phase : SamplePhase := .rails
  deriving DecidableEq, Repr

/-- Ebb and the power pins of a paddock (14, 19 R492, R498). -/
structure Ebb where
  hclkReq : Bool := false
  hclkOp : Point := 0
  hclkAck : Bool := false
  hclkOpack : Point := 0
  hclkTick : Nat := 0
  pswReq : BitVec 12 := 0
  pswAck : BitVec 12 := 0
  iso : BitVec 12 := 0xFFF#12
  switching : List DomSwitch := []
  fold : Vector FoldPower 5 := Vector.replicate 5 {}
  autowake : BitVec 12 := 0
  offAccess : BitVec 16 := 0
  autoAcc : List AutoAccess := []
  point : Point := 0
  opTarget : Point := 0
  changing : Bool := false
  avs : Vector (Option AvsWrite) 2 := Vector.replicate 2 none
  volt : Vector Nat 2 := Vector.replicate 2 800
  nf : NfPhase := .idle
  nfAbort : Bool := false
  nfFailed : Bool := false
  nfNext : Nat := 1
  sample : Option SampleRun := none
  fenceReq : BitVec 16 := 0
  fenceAck : BitVec 16 := 0
  culvertEn : BitVec 16 := 0
  deriving DecidableEq, Repr

/-! ### Requester ports (02 R41, 11 R287, 09 R245) -/

/-- A sluice (09 R245, R256): its registers, the level in units of 2^-16 byte, the remainder, and the Tide ns up
to which the level has been brought. -/
structure Sluice where
  rate : BitVec 20 := 0
  enable : Bool := false
  burst : BitVec 17 := 4096
  level : Int := 268435456
  rem : Nat := 0
  upTo : Nat := 0
  deriving DecidableEq, Repr

/-- Why a port has a transaction open. -/
inductive Purpose where
  | agent (ctag : BitVec 8) (core : Option Core)
  | drain (line : Line) (cores : BitVec 4)
  | half (ctag : BitVec 8) (core : Option Core) (upper : Bool)
  | lowerOnly (ctag : BitVec 8) (core : Option Core)
  | tlp (id : Nat)
  | dump (period : Nat)
  | job (id : Nat)
  | patch (tag : Nat)   -- PatchOp.readTag
  deriving DecidableEq, Repr

/-- How far a transaction has come at its port. -/
inductive TxnPhase where
  | waiting    -- held by an ordering rule, for data, for a credit, for the quiesce of R29 or in the sluice
  | queued     -- admitted, in the injection queue of its ford
  | injected
  deriving DecidableEq, Repr

/-- An open transaction at its issuing port (11 R287, R288). -/
structure Txn where
  seq : Nat
  flit : ReqFlit
  stamp : Nat
  deadline : Nat
  abandon : Nat
  purpose : Purpose
  mtype : MemType
  phase : TxnPhase := .waiting
  data : LineData := 0
  haveData : Bool := false
  dataPoison : Bool := false
  credit : Bool := false
  dat : Option (LineData × Bool) := none
  comp : Option RspFlit := none
  ordered : Bool := false
  missed : Bool := false
  rob : Bool := false
  inOrder : Bool := false                 -- a write that a Stile received under WRITE_ORDER (08 R222)
  keptOnly : Bool := false                -- WRITE_ORDER was cleared while it waited: it keeps its place and no more
  deriving DecidableEq, Repr

/-- A requester port: its open transactions in issue order, the data credits it holds per package-wide logical
fold (03 R96), its four sluices and its own order counter. -/
structure ReqPort where
  txns : List Txn := []
  credits : Vector Nat 32 := Vector.replicate 32 0
  sluice : Vector Sluice 4 := Vector.replicate 4 {}
  nextSeq : Nat := 0
  deriving DecidableEq, Repr

/-! ### Gates and Stiles (08, 19 R503 to R509) -/

/-- What a Gate or caching Stile drives towards its agent (19 R503), in the order of its channels. POISON of a Comp is
that of the data that came before it or with it (08 R216). -/
inductive OutItem where
  | snp (op : SnpOp) (laddr : Line) (stag : BitVec 4)
  | comp (ctag : BitVec 8) (grant : CacheState) (data : Bool) (core : Option Core) (poison : Bool)
  | ordered (ctag : BitVec 8) (core : Option Core)
  | err (ctag : BitVec 8) (ecode : BitVec 4) (core : Option Core)
  | refused (ctag : BitVec 8) (core : Option Core)
  | lowerOnly (ctag : BitVec 8) (core : Option Core)
  | barrier (ctag : BitVec 8) (core : Core) (err : Bool)
  | data (ctag : BitVec 8) (data : LineData) (poison : Bool)
  deriving DecidableEq, Repr

/-- A combining-buffer entry (08 R206): line, bytes not yet issued, cores, allocation cycle, and whether it drains. -/
structure CbEntry where
  line : Line
  data : LineData
  be : LineMask
  cores : BitVec 4
  alloc : Nat
  draining : Bool := false
  drainSeq : Nat := 0                 -- its place in the order of the port once it drains
  poison : Bool := false
  deriving DecidableEq, Repr

/-- What an access held in the reorder buffer came to. -/
structure RobResult where
  data : Option (LineData × Bool) := none
  grant : CacheState := .i
  ecode : BitVec 4 := 0
  deriving DecidableEq, Repr

/-- A reorder-buffer entry (08 R205): its place in program order, its access, whether it is the lower or upper half
of a split access, or a lower half performed alone (R214), the bytes of an upper half, and the result to deliver.
`slot`: it takes one of the 128 entries; an access that ended in Err before it was issued takes none. -/
structure RobEntry where
  seq : Nat
  core : Option Core
  line : Line
  ctag : BitVec 8
  op : ReqOp
  half : Option Bool := none
  lower : Bool := false
  upLen : Nat := 0
  slot : Bool := true
  res : Option RobResult := none
  deriving DecidableEq, Repr

/-- A barrier that waits (08 R209, R210). -/
structure BarWait where
  core : Core
  kind : BKind
  scope : BScope
  ctag : BitVec 8
  seq : Nat
  deriving DecidableEq, Repr

/-- A store, or half of one, that waits (08 R206 to R209): for its data, for a combining-buffer entry, for an entry of
its line to drain, or behind a barrier of its core. Its bytes lie in one line. -/
structure StoreWait where
  seq : Nat
  ctag : BitVec 8
  core : Option Core
  line : Line
  off : Nat
  len : Nat
  upper : Bool := false
  data : Option (LineData × LineMask × Bool) := none
  conflict : Bool := false             -- it must wait until the drained requests of its line are answered (R208)
  deriving DecidableEq, Repr

/-- A snoop in a snoop inbox or at the agent, with its STAG (09 R240, 19 R503). -/
structure SnpIn where
  stag : BitVec 4
  flit : SnpFlit
  kept : Bool := false
  acked : Option CacheState := none   -- its SnpAck with DATA 1 went out; its SnpData is due
  deriving DecidableEq, Repr

/-- GATE_CORE_STAT and GATE_CORE_ERRADDR of one core (08 R227, R228). -/
structure CoreStat where
  barrierErr : Bool := false
  writeErr : Bool := false
  poisonSeen : Bool := false
  splitCancelled : Bool := false
  errCount : BitVec 16 := 0
  errAddr : Option Line := none
  errPending : Bool := false
  deriving DecidableEq, Repr

/-- A DEVICE access at its target Stile (08 R223): the request flit, its data, and the abandon limit (R212). -/
structure DevAcc where
  flit : ReqFlit
  data : Option (LineData × Bool)
  limit : Nat
  kept : Bool := false
  deriving DecidableEq, Repr

/-- An item driven on DQ (19 R509). -/
structure DqItem where
  tag : BitVec 5
  write : Bool
  addr : Addr
  len : BitVec 7
  data : LineData
  deriving DecidableEq, Repr

/-- A Gate or Stile: the requester port and the channels (08, 19 R503 to R509). A Gate uses the combining
buffer, reorder buffer, cores and barriers; a Stile uses WRITE_ORDER and the DEVICE target. -/
structure AgentPort where
  port : ReqPort := {}
  putCleanEn : Bool := false
  cbEn : Bool := true
  writeOrder : Bool := true
  cb : List CbEntry := []
  rob : List RobEntry := []
  core : Vector CoreStat 4 := Vector.replicate 4 {}
  bars : List BarWait := []
  stores : List StoreWait := []
  snpIn : List SnpIn := []
  hq : Option (BitVec 5) := none
  out : List OutItem := []
  dataIn : List DatItem := []
  devQ : List DevAcc := []
  devData : List DatFlit := []
  devOpen : List (BitVec 5 × DevAcc) := []
  devDead : List (BitVec 5 × DevAcc) := []
  devDrop : List (AgentId × TxId) := []   -- DAT flits still due of DEVICE writes abandoned here
  late : BitVec 16 := 0
  dq : List DqItem := []
  deriving DecidableEq, Repr

/-! ### Fold: pens, transaction table, arrays (03 to 07) -/

/-- A pen item (03 R73, R74) with D_f and A_f as the fold took them at its arrival (11 R289, R292). -/
structure PenItem where
  pen : Nat
  flit : ReqFlit
  port : Fin 4
  arrive : Nat
  df : Nat
  af : Nat
  kept : Bool := false                -- it sits in the item kept for escalated flits (09 R240)
  shadowHold : Bool := false          -- returned for want of a shadow entry (R76)
  notBefore : Nat := 0                -- a released hold: first cycle in which the item may be pulled
  deriving DecidableEq, Repr

/-- Who a snoop of a transaction goes to: an agent directly, a die's fan-out point, or one way of a cluster
(04 R118, R121). -/
inductive SnpTarget where
  | agent (a : AgentId)
  | muster (d : Die) (skip : BitVec 7)
  | probe (g : GateN) (way : Nat)
  deriving DecidableEq, Repr

/-- Phases of a transaction-table entry (03 R79); FREE is an absent entry. -/
inductive Phase where
  | lookup | snoop | data | ackwait | orphan
  deriving DecidableEq, Repr

/-- What an entry has of the memory side (03 R86, 06 R149 to R152). -/
inductive MemSide where
  | unneeded
  | needMr           -- no miss register free (R152)
  | refused          -- the 8 attachments are used (R150)
  | waiting          -- on a miss register
  | held (data : LineData) (poison : Bool)
  deriving DecidableEq, Repr

/-- How an entry stands to the Earmark way it needs (04 R114 to R116). -/
inductive WayNeed where
  | none
  | choose           -- waits until a way of the set can be chosen, or an entry for the back-invalidation
  | binv             -- waits for its back-invalidation
  | ready (way : Nat)
  deriving DecidableEq, Repr

/-- A transaction-table entry (03 R78, R79): the request as its flit gave it, the attributes sampled at
allocation (01 R28), and what its flow still needs. -/
structure TTEntry where
  idx : TTIdx
  flit : ReqFlit
  line : Line
  phase : Phase := .lookup
  seq : Nat := 0                       -- order of allocation
  arrive : Nat := 0                    -- its item's arrival cycle and port (R74), for the rank of R152
  port : Fin 4 := 0
  fetch : Bool := false
  far : Bool := false
  wpolicy : BitVec 2 := 0
  prefetch : Bool := false
  bwMode : BitVec 2 := 0
  mpAlias : Bool := false
  mpSlot : Option (Nat × Nat) := none  -- Millpond set and logical way (06 R171)
  isBinv : Bool := false               -- a back-invalidation (04 R115)
  binvFor : Option TTIdx := none       -- the entry it frees a way for, while that entry waits for it
  binvWay : Option Nat := none
  allocCycle : Nat := 0
  af : Nat := 0
  shareBy : Nat := 0
  shareMissed : Bool := false
  push : LineData := 0                 -- the request's own DAT flit
  pushPoison : Bool := false
  snpOp : SnpOp := .share
  waits : List SnpTarget := []         -- snoop answers still expected (SNPOUT)
  sent : List SnpTarget := []          -- every snoop sent
  wbAcks : Nat := 0
  putsAbsorbed : Nat := 0
  dataAcks : Nat := 0
  dataGot : Nat := 0
  probeData : List (GateN × Nat × CacheState) := []   -- WayProbe answers whose SnpData is still due
  probeEarly : List (GateN × LineData) := []          -- WayProbe data that came before its SnpAck
  couldDirty : Bool := false           -- a snoop that could return dirty data was sent (R87)
  dirty : Bool := false
  poison : Bool := false
  lb : LineData := 0
  commit : Bool := false
  mr : Option Nat := none
  ms : MemSide := .unneeded
  mus : Bool := false                  -- served by the MUS row
  suspect : Bool := false              -- served as a full Muster in a SUSPECT set (04 R126)
  musDies : BitVec 8 := 0
  keep : BitVec 8 := 0
  remain : Bool := false               -- some snooped holder keeps the line
  wayNeed : WayNeed := .none
  riding : Bool := false               -- a maintenance rider (05 R137)
  devOut : Bool := false               -- the device request at the memory port is open (R94)
  devErr : Bool := false
  dataSent : Bool := false
  grant : CacheState := .i
  deriving DecidableEq, Repr

/-- A Tally entry (04 R101). -/
structure TallyRec where
  tag : BitVec 35
  st : BitVec 2
  crc : BitVec 6
  deriving DecidableEq, Repr

/-- One copy of a Tally shadow entry (04 R106). -/
structure ShadowCopy where
  gate : GateN
  line : Line
  unreported : Bool
  crc : BitVec 6
  deriving DecidableEq, Repr

/-- A valid Tally shadow entry, both copies (04 R106, R109). -/
structure ShadowRec where
  a : ShadowCopy
  b : ShadowCopy
  deriving DecidableEq, Repr

/-- An Earmark entry (04 R111) with NRU and the dead mark of R125. -/
structure EmRec where
  tagA : BitVec 31
  crcA : BitVec 8
  tagB : BitVec 31
  crcB : BitVec 8
  pay : BitVec 32
  payCrc : BitVec 8
  nru : Bool := false
  dead : Bool := false
  deriving DecidableEq, Repr

/-- A Pool tag entry (06 R144). -/
structure PoolTagRec where
  tag : BitVec 32
  valid : Bool
  dirty : Bool
  suspect : Bool
  poison : Bool
  dcrc : BitVec 16
  tcrc : BitVec 8
  deriving DecidableEq, Repr

/-- A Pool set state word (06 R145). -/
structure PoolSetRec where
  plru : BitVec 15
  dv : BitVec 17
  crc : BitVec 8
  deriving DecidableEq, Repr

/-- A predictor entry (07 R188). -/
structure PredRec where
  ctr : BitVec 3
  valid : Bool
  near : Bool
  src : AgentId
  stamp : BitVec 64
  crc : BitVec 8
  deriving DecidableEq, Repr

/-- A miss register (06 R149 to R152, 05 R137). -/
structure MissReg where
  idx : Nat
  line : Line
  cls : Cls
  wpolicy : BitVec 2
  prefetch : Bool := false
  touch : Bool := true
  stale : Bool := false
  opener : Option TTIdx := none
  atts : List TTIdx := []
  count : Nat := 0
  rider : Option TTIdx := none
  noWrite : Bool := false              -- a SUSPECT refetch or a LOST set (R156, R159)
  lost : Bool := false
  scrub : Bool := false                -- a scrubber's refetch (12 R317)
  deriving DecidableEq, Repr

/-- An Eddy entry (06 R154). -/
structure EddyRec where
  line : Line
  data : LineData
  dcrc : BitVec 16
  poison : Bool
  deriving DecidableEq, Repr

/-- What a memory request is for. -/
inductive MemFor where
  | mr (idx : Nat)
  | eddy
  | commit
  | dev (idx : TTIdx)
  deriving DecidableEq, Repr

/-- Memory-port operations, numbered as MQ_OP (19 R510). -/
inductive MemOp where
  | lineRead | lineWrite | devRead | devWrite
  deriving DecidableEq, Repr

/-- A memory request in a memory queue or open at the port (03 R95, 19 R510). -/
structure MemReq where
  op : MemOp
  cls : Cls
  line : Line
  off : BitVec 6 := 0
  len : BitVec 7 := 0
  data : LineData := 0
  poison : Bool := false
  purpose : MemFor
  deriving DecidableEq, Repr

/-- A beat of write data at a memory port: MWD_DATA, MWD_BE and MWD_LAST (19 R510). -/
structure MwdBeat where
  data : BitVec 256
  be : BitVec 32
  last : Bool
  deriving DecidableEq, Repr

/-- A way sweep, conversion or copy of a Pool array (06 R163, R164, R170). -/
inductive PoolSweepKind where
  | disable            -- cache way to the standby way
  | retire             -- cache way out of service
  | millCopy           -- Millpond way to the standby way
  | convert            -- cache way becomes a Millpond way
  deriving DecidableEq, Repr

/-- A sweep in progress: the logical way, its old and new physical ways, and the set pointer. -/
structure PoolSweep where
  way : Fin 16
  old : Nat
  new : Nat
  ptr : Nat := 0
  kind : PoolSweepKind
  deriving DecidableEq, Repr

/-- A way copy of a Tally or Earmark array in progress (12 R322). -/
structure WayCopy where
  way : Nat
  old : Nat
  new : Nat
  ptr : Nat := 0
  deriving DecidableEq, Repr

/-- A scrub in progress at a fold (12 R316 to R319). -/
structure Scrub where
  array : Option ArrayKind            -- none: physical mode
  next : Nat                          -- next line address or entry index
  limit : Nat
  pace : Nat
  lastCycle : Nat
  record : Bool := false
  checked : Nat := 0
  ce : Nat := 0
  uc : Nat := 0
  firstBad : Option (Nat × Nat) := none   -- Tide, and line address or index
  done : Bool := false
  deriving DecidableEq, Repr

/-- A Tally entry that a scrub or a way copy has rebuilt from its cluster way (04 R121, 12 R317, R322): the WayProbe is
out; `st` once its answer came while its data is due, `early` data that came before it. -/
structure TallyFix where
  idx : TTIdx
  g : GateN
  row : Nat
  w : Nat
  st : Option CacheState := none
  early : Option LineData := none
  deriving DecidableEq, Repr

/-- A failing stored record found in an HCLK cycle (12 R318): its array and entry index (12 R316), and whether it could
not be repaired. -/
structure Found where
  cyc : Nat
  arr : ArrayKind
  idx : Nat
  uc : Bool
  deriving DecidableEq, Repr

/-- DROVER_STAT (12 R341). -/
structure Drover where
  pass : Bool := false
  firstBad : BitVec 6 := 0
  checker : BitVec 4 := 0
  deriving DecidableEq, Repr

/-- Refusal records of one ingress port (09 R242), and those made common by a route-epoch switch (10 R274). -/
structure RefuseRec where
  src : AgentId
  txid : TxId
  n : Nat                                  -- its place in the order in which the fold recorded
  common : Bool := false
  deriving DecidableEq, Repr

/-- A programmable Census counter (17 R464, R465): its 48-bit value, selector, unit and enable. -/
structure CensusCtr where
  val : BitVec 48 := 0
  sel : BitVec 6 := 0
  unit : BitVec 5 := 0
  en : Bool := false
  deriving DecidableEq, Repr

/-- A fold's Census bank (17 R455 to R457, R464). -/
structure FoldCensus where
  cycle : BitVec 64 := 0
  slot : Vector (BitVec 48) 4 := Vector.replicate 4 0
  ctr : Vector CensusCtr 8 := Vector.replicate 8 {}
  ovf : BitVec 13 := 0
  hi : Vector Word 13 := Vector.replicate 13 0   -- the captured _HI halves: cycle, slots, counters
  selchg : Bool := false
  restart : Bool := false
  deriving DecidableEq, Repr

/-- A pointer of the transaction table's free list, kept twice (03 R82). -/
structure PtrPair where
  a : BitVec 9 := 0
  b : BitVec 9 := 0
  deriving DecidableEq, Repr

/-- A physical fold. -/
structure Fold where
  orderedEn : Bool := true
  drain : Bool := false
  ftHalt : Bool := false
  ttStop : Bool := false
  refuseReq : Bool := false           -- the ford refuses REQ but Puts and Shepherd requests (12 R327, 14 R369)
  pens : List PenItem := []
  inbox : List DatFlit := []
  deadDat : List (AgentId × TxId) := []   -- DAT flits still due of requests abandoned here
  tt : List TTEntry := []
  ttSeq : Nat := 0
  ttHead : PtrPair := {}              -- free-list head and tail (03 R82)
  ttTail : PtrPair := {}
  unblocked : List Line := []         -- lines unblocked in cycle `unblockedAt` (03 R80)
  unblockedAt : Nat := 0
  pullFrom : Nat := 0                 -- first cycle in which pen arbitration may pull again (03 R77)
  slotNow : Option (Fin 4) := none    -- class of the issue slot of the cycle in progress, once it is known (17 R456)
  shadowFrom : Nat := 0               -- first cycle in which a VICTIM_DIRTY fill may be pulled (03 R76)
  tally : SMap TallyRec := []
  tallyPhys : Vector Nat 16 := #v[0,1,2,3,4,5,6,7,8,9,10,11,12,13,14,15]
  tallyOut : BitVec 17 := 0
  tallyCopy : List WayCopy := []
  tallyPend : List Nat := []          -- physical ways whose disable waits for the copy that fills them (12 R322)
  recomputes : BitVec 16 := 0
  fixes : List TallyFix := []
  found : List Found := []            -- failures found in the latest cycle that found any (12 R318)
  unsure : List (GateN × Nat) := []
  unsureEnd : Nat := 0
  shadow : List ShadowRec := []
  em : SMap EmRec := []
  emPhys : Vector Nat 16 := #v[0,1,2,3,4,5,6,7,8,9,10,11,12,13,14,15]
  emOut : BitVec 17 := 0
  emDropped : BitVec 16 := 0          -- logical ways out of service with no spare (12 R323)
  emCopy : List WayCopy := []         -- `new` equal to `old`: the way leaves service (12 R323)
  emPend : List Nat := []
  emSuspect : List Nat := []
  emReserved : List (Nat × Nat × TTIdx) := []
  emBinv : BitVec 32 := 0
  poolTag : SMap PoolTagRec := []
  poolData : SMap LineData := []
  poolSet : SMap PoolSetRec := []
  poolLost : List Nat := []
  poolPhys : Vector Nat 16 := #v[0,1,2,3,4,5,6,7,8,9,10,11,12,13,14,15]
  poolOut : BitVec 17 := 0
  poolDisabled : BitVec 16 := 0
  poolWorn : BitVec 17 := 0           -- disabled Millpond ways that stay in use with no standby left (06 R165)
  poolSpareFor : BitVec 5 := 31
  poolMpWays : Nat := 0
  poolConv : BitVec 16 := 0           -- ways becoming Millpond, ineligible from acceptance (06 R170)
  poolSweep : List PoolSweep := []
  poolPend : List Nat := []           -- physical ways whose disable waits for the end of a sweep that uses them
  millDirty : List Nat := []          -- Millpond sets written while a move copies them (12 R327)
  millLost : Bool := false            -- its Millpond ways lost their supply in Nightfold (06 R174)
  pfEn : Bool := true
  mrs : List MissReg := []
  eddy : List EddyRec := []
  pred : SMap PredRec := []
  peekIdx : BitVec 10 := 0
  peek : BitVec 16 := 0
  peekStamp : BitVec 32 := 0
  memQ : List MemReq := []
  mpOpen : List (MemTag × MemReq) := []
  memFrom : Nat := 0                  -- first cycle in which the port may issue again (19 R510)
  mwd : List MwdBeat := []            -- write-data beats not yet driven
  rcred : Nat := 128
  wcred : Nat := 64
  drover : Drover := {}
  scrub : Option Scrub := none
  refuse : Vector (List RefuseRec) 4 := Vector.replicate 4 []
  census : FoldCensus := {}
  deriving DecidableEq, Repr

/-! ### Stream (09) and Confluence (10) -/

/-- A flit on a ring stage. Stages count along the ring's own direction: 0 to 15 the ford positions, 16 the edge
stage of the outbound run, 17 to 24 the return run, 25 its edge stage (R231, R234). `resv` names the ford
position that reserved the stage (R244), which keeps its mark once its flit was ejected. `seen`: the flit's event at
this stage has happened and it passes on. -/
structure RingSlot where
  net : Net
  ring : Ring
  stage : Nat
  flit : Option Flit
  resv : Option (Die × Nat) := none
  seen : Bool := false
  deriving DecidableEq, Repr

/-- A flit in the hand-over between two agents of one ford (09 R233). -/
structure HandFlit where
  net : Net
  pos : Fin 16
  flit : Flit
  deriving DecidableEq, Repr

/-- A flit that waits to be injected: its ford position, the agent it comes from, its class and the cycle it began
to wait. A fold's snoop-out and completion queues (03 R95) are the items of its ford here. -/
structure InjItem where
  net : Net
  pos : Nat
  agent : AgentId
  cls : Cls
  flit : Flit
  since : Nat
  held : Bool := false        -- given while the ford was fenced: its agent keeps it (09 R250)
  deriving DecidableEq, Repr

/-- A flit in a turn buffer (09 R236): `toY` tells the turn kind. -/
structure TurnItem where
  net : Net
  pos : Nat
  toY : Bool
  flit : Flit
  since : Nat
  deriving DecidableEq, Repr

/-- The Stream segment of a paddock (09). -/
structure Stream where
  starve : BitVec 8 := 64
  turnW : Bool := true
  turnE : Bool := true
  turnV : Bool := true
  epoch : BitVec 8 := 0
  detour : BitVec 32 := 0
  slots : List RingSlot := []
  hand : List HandFlit := []
  inj : List InjItem := []
  turns : List TurnItem := []
  rr : List (Net × Nat × AgentId) := []    -- agent last served, by network and ford position (R243)
  hold : Bool := false                     -- REQ admission held (10 R273, 14 R378)
  sluice28 : Vector Sluice 4 := Vector.replicate 4 {}   -- sluice 28 of a die without the Tether (09 R256)
  deriving DecidableEq, Repr

/-- A ring flit in a crossing buffer, with the ring and the stream it rides (10 R260, R262). -/
structure CrossItem where
  ring : Ring
  ret : Bool
  flit : Option Flit
  resv : Option (Die × Nat) := none
  deriving DecidableEq, Repr

/-- A Confluence flit (10 R260): its slots and SEQ; `ord` counts the Confluence flits of its edge, in the order in which
they were packed (10 R235). -/
structure ConfFlit where
  seq : BitVec 12
  ord : Nat := 0
  slots : List (Net × CrossItem)
  deriving DecidableEq, Repr

/-- An edge of a die (10 R261, R262, R281). -/
structure EdgeStat where
  inUse : Bool := false
  pace : Nat := 0
  acc : Nat := 0
  buf : Vector (List CrossItem) 4 := Vector.replicate 4 []
  dam : Vector Bool 4 := Vector.replicate 4 false
  lost : Bool := false
  sent : Nat := 0                          -- Confluence flits packed by this end
  rx : List (Nat × Net × CrossItem) := []  -- received ring flits on their way to their entry stages, each with its `ord`
  deriving DecidableEq, Repr

/-- Module states, numbered as CONF_MOD_STAT.STATE (10 R282). -/
inductive ModState where
  | down | training | up | waiting
  deriving DecidableEq, Repr

/-- The FDI state that a module asks its adapter for (19 R515); `none` after reset. -/
inductive FdiAsk where
  | none | active | retrain | linkReset | l2
  deriving DecidableEq, Repr

/-- A Confluence module (10 R263, R282, 19 R515). -/
structure ModStat where
  state : ModState := .down
  fdi : FdiAsk := .none
  rate : Rate := 0
  x32 : Bool := false
  repaired : Bool := false
  upTick : Nat := 0
  waitTick : Nat := 0
  seqTx : BitVec 12 := 0
  seqRx : BitVec 12 := 0
  wire : List ConfFlit := []               -- Confluence flits sent towards this module and not yet received
  deriving DecidableEq, Repr

/-- A gather-table entry of the Muster fan-out point (04 R117 to R119). -/
structure GatherRec where
  idx : Nat
  src : AgentId
  txid : TxId
  op : SnpOp
  line : Line
  waits : List AgentId
  dataFrom : Option AgentId := none
  data : Option (LineData × Bool) := none
  sawWb : Bool := false
  wbE : Bool := false
  best : CacheState := .i
  kept : Bool := false
  deriving DecidableEq, Repr

/-- Confluence of a paddock (10, 04). -/
structure Conf where
  autoReinstate : Bool := true
  unreach : BitVec 8 := 0
  edge : Vector EdgeStat 3 := Vector.replicate 3 {}
  mod : Vector ModStat 4 := Vector.replicate 4 {}
  gather : List GatherRec := []
  fenced : BitVec 8 := 0
  readyReported : BitVec 8 := 0
  deriving DecidableEq, Repr

/-! ### Bell (13) -/

/-- A fault report (13 R342 to R346). -/
structure Report where
  code : BitVec 12
  reporter : AgentId
  subject : AgentId
  addr : Option Addr := none
  atype : BitVec 6 := 0x3F#6
  t : Nat := 0
  detail : BitVec 16 := 0
  fromFold : Option (Die × PFold) := none   -- the physical fold that filed it (R342)
  injected : Bool := false                  -- by INJECT_FAULT: no recovery, no FT_HALT (R359)
  deriving DecidableEq, Repr

/-- A record of the store (13 R347). -/
structure BellRec where
  slot : Nat
  seq : Word
  rep : Report
  merged : Bool := false
  later : Nat := 0
  reports : Nat := 1
  dies : BitVec 8 := 0
  lo : Nat := 0
  hi : Nat := 0
  kinds : BitVec 4 := 0
  deriving DecidableEq, Repr

/-- A storm entry (13 R348). -/
structure Storm where
  subject : AgentId
  code : BitVec 12
  first : Nat
  slot : Nat
  deriving DecidableEq, Repr

/-- The Bell of a paddock (13 R360 to R362). -/
structure Bell where
  recs : List BellRec := []
  storms : List Storm := []
  inbox : List Report := []
  nextSlot : Nat := 0
  ceToPin : Bool := false
  irqEn : BitVec 3 := 7
  ovf : BitVec 3 := 0
  lost : Nat := 0
  ftHalt : Bool := false
  unlocked : Bool := false
  deriving DecidableEq, Repr

/-! ### Hurdle, Census paddock bank and dumps, common registers -/

/-- Hurdle of a paddock (12 R339, R340). -/
structure Hurdle where
  exh : BitVec 6 := 0
  hourBase : BitVec 23 := 0
  switching : List LFold := []              -- channel groups that wait for R324, each towards the other fold
  queued : List (BitVec 64) := []           -- records to apply at the next initialisation (R334)
  spareUsed : List (Nat × Nat × Nat) := []  -- spare rows and columns in use: fold and array and bank, kind, mask
  laneBad : List (Net × Nat × Nat) := []    -- failing lanes steered onto their group's spare (12 R328)
  deriving DecidableEq, Repr

/-- A Census dump configuration (17 R459). -/
structure DumpCfg where
  en : Bool := false
  clear : Bool := false
  depth : Nat := 0
  base : Addr := 0
  period : Nat := 4294967295
  deriving DecidableEq, Repr

/-- The records of one bank under way (17 R461, R462): requests without Comp, their period, the Tide of its end, whether one
ended in Err, and whether the next record sets GAP. -/
structure DumpBank where
  open' : Nat := 0
  k : Option Nat := none
  till : Nat := 0
  failed : Bool := false
  gap : Bool := false
  deriving DecidableEq, Repr

/-- The paddock's Census bank and its dumps (17 R458 to R465); `bank` 0 to 3 are the logical folds' banks, 4 the
paddock's. -/
structure Census where
  ctr : Vector CensusCtr 16 := Vector.replicate 16 {}
  ovf : BitVec 16 := 0
  cycle : BitVec 64 := 0
  hi : Vector Word 17 := Vector.replicate 17 0  -- the captured _HI halves: counters, cycle
  cfg : DumpCfg := {}
  pendCfg : Option DumpCfg := none
  cfgSet : Bool := false
  nextK : Nat := 0
  bank : Vector DumpBank 5 := Vector.replicate 5 {}
  selchg : Bool := false
  cleared : Bool := false
  skipped : Nat := 0
  lastPeriod : Word := 0
  lastTill : Nat := 0                      -- the Tide at which that period ended
  capEnd : Nat := 0                        -- the Tide at which the last captured period ended
  deriving DecidableEq, Repr

/-- The paddock's common registers (18 R489). -/
structure Common where
  denied : BitVec 16 := 0
  absent : BitVec 16 := 0
  cap : Word := 0
  deriving DecidableEq, Repr

/-! ### Shepherd (15) -/

/-- A queue pointer, in words or entries modulo 1,024, kept twice (15 R405). -/
structure Ptr2 where
  a : BitVec 10 := 0
  b : BitVec 10 := 0
  deriving DecidableEq, Repr

/-- A command queue (15 R395 to R399, R427). `words` are the uncommitted words; `head` and `tail` the pointers of the
queue engine, each in two copies (R405); `flushed` the HCLK cycle of the last flush (R406). -/
structure CmdQueue where
  packets : List (List Word) := []
  words : List Word := []
  ringMode : Bool := false
  rewound : BitVec 16 := 0
  wrongMode : Bool := false
  lastSeq : BitVec 16 := 0
  stalled : List (Who × Bool × Word) := []   -- pushes that wait for space, LAST or not (R399)
  head : Ptr2 := {}
  tail : Ptr2 := {}
  flushed : Option Nat := none
  busyFirst : Bool := false              -- a taken packet has not yet its first reply posted (R400)
  deriving DecidableEq, Repr

/-- A reply (15 R401). -/
structure Reply where
  pri : BitVec 2
  words : List Word
  deriving DecidableEq, Repr

/-- A reply queue (15 R402, R403, R428). -/
structure ReplyQueue where
  replies : List Reply := []
  current : List Word := []              -- the rest of the reply being popped
  currentPri : BitVec 2 := 0
  held : List Reply := []
  irqEn : Bool := false
  popHi : Word := 0
  head : Ptr2 := {}
  tail : Ptr2 := {}
  deriving DecidableEq, Repr

/-- An event queue (15 R407, R428). -/
structure EventQueue where
  events : List (BitVec 64) := []
  mask : BitVec 8 := 0
  irqEn : Bool := false
  dropped : Nat := 0
  popHi : Word := 0
  head : Ptr2 := {}
  tail : Ptr2 := {}
  deriving DecidableEq, Repr

/-- A packet taken and not yet run by its own command. -/
structure Taken where
  q : QN
  opc : BitVec 8
  tag : BitVec 10
  pri : BitVec 2
  quiet : Bool
  seq : BitVec 16
  params : List Word
  deriving DecidableEq, Repr

/-- A move of a logical fold to another physical fold (12 R327); with `retire` the fold left is marked failed. -/
structure FoldMove where
  d : Die
  n : LFold
  src : PFold
  dst : PFold
  retire : Bool
  vacant : Bool := false                  -- no fold is left: the logical fold was vacant (12 R325, R326)
  silent : Bool := false                  -- for a loaded record (12 R334): no reply of its own
  step : Nat := 1
  mill : Nat := 0                         -- Millpond sets copied to the incoming fold
  deriving DecidableEq, Repr

/-- A MAINT_RANGE in progress (06 R167): the next line of each die's Shepherd and the totals. -/
structure MaintRange where
  op : ReqOp
  limit : Nat
  next : Vector Nat 8
  lines : Nat := 0
  skipped : Nat := 0
  failed : Nat := 0
  firstFail : Option Line := none
  deriving DecidableEq, Repr

/-- A MAINT_SETWAY in progress (06 R168): the next set and logical way (as set × 16 + way) and where it ends. -/
structure MaintSetway where
  d : Die
  n : LFold
  action : BitVec 2
  ways : BitVec 16
  next : Nat
  limit : Nat
  written : Nat := 0
  inval : Nat := 0
  deriving DecidableEq, Repr

/-- A REGION_SET in progress (01 R29, R30): the region after it, whether it needs the quiesce, and how far it is. -/
structure RegionOp where
  n : Nat
  new : Region
  full : Bool
  step : Nat := 1
  deriving DecidableEq, Repr

/-- How far an OPPOINT_SET has come (14 R373, R374): waiting for the new supply, for S, for HCLK, for the supply after
a lowering, and the way back after 0xE10. -/
inductive OppPhase where
  | supply | armed | clock | lowSupply | backArmed | backClock
  deriving DecidableEq, Repr

/-- What a deferred command is and how far it has come (15 R401, R417). -/
inductive DefKind where
  | foldPower (d : Die) (n : LFold) (target : FoldState)
  | move (m : FoldMove)
  | scrub (array : Bool) (skipped tide next limit : Nat)   -- the lines not yet counted under SKIPPED
  | maint (m : MaintRange)
  | setway (m : MaintSetway)
  | millpond (d : Die) (ways : Nat)
  | region (r : RegionOp)
  | join (d : Die) (started : Bool)
  | fence (d : Die) (step : Nat)
  | nightfold
  | hurdleLoad (todo : List (BitVec 64)) (ignored : Nat)
  | oppoint (pt old : Point) (ph : OppPhase) (since : Nat)   -- Tide of the last step
  | patch (addr : Addr) (bytes : Nat) (said : Bool) (next : Nat) (got : List (Nat × LineData))   -- DEFERRED answered, lines asked for, lines read
  deriving DecidableEq, Repr

/-- A deferred command: its own number, the packet it came in, and its state. -/
structure Deferred where
  id : Nat
  pkt : Taken
  kind : DefKind
  deriving DecidableEq, Repr

/-- A route-epoch switch in progress (10 R273): its start H, the population and leaving bits after it, and the
deferred command it serves. -/
structure EpochSwitch where
  start : Nat
  present : BitVec 8
  forOp : Option Nat
  held : BitVec 8 := 0                     -- paddocks that have confirmed the hold (phase 1)
  tabled : Bool := false                   -- tables, CONF_EDGE_STAT and paces are written (phase 2)
  deriving DecidableEq, Repr

/-- The patch in force (15 R421, R422). -/
structure Patch where
  level : BitVec 16 := 0
  image : List Byte := []
  deriving DecidableEq, Repr

/-- Requests that a Shepherd issues for a job of the leader's deferred command `id`: the lines still to do. -/
structure SweepJob where
  id : Nat
  todo : List Line
  deriving DecidableEq, Repr

/-- The Shepherd of a paddock (15). -/
structure Shep where
  cq : Vector CmdQueue 64 := Vector.replicate 64 {}
  rq : Vector ReplyQueue 64 := Vector.replicate 64 {}
  eq : Vector EventQueue 32 := Vector.replicate 32 {}
  taken : List Taken := []
  rrLast : QN := 63
  deferred : List Deferred := []
  nextId : Nat := 0
  sweeps : List SweepJob := []
  port : ReqPort := {}
  clkMode : BitVec 2 := 0
  patch : Patch := {}
  wdogTick : Nat := 0
  sw : Option EpochSwitch := none
  needSwitch : Bool := false              -- an edge lost or up again waits for a route-epoch switch (10 R265)
  envDoze : BitVec 8 := 0                 -- dies with a fold that may be in DOZE, as TIDE_ENV counts them (11 R299, R308)
  recheck : Option Nat := none            -- Tide of an event of 11 R302 not yet followed by its recheck
  regionHold : Bool := false              -- the quiesce of 01 R29 holds REQ at the ports
  deriving DecidableEq, Repr

/-! ### Tether (16) -/

/-- A peer window, as its registers and as in force (16 R437, R441, R452). -/
structure PeerWin where
  aperOff : BitVec 16 := 0
  sizeLog2 : BitVec 5 := 20
  enable : Bool := false
  target : Word := 0                       -- TARGET[31:0], bits [19:0] zero
  targetHi : BitVec 20 := 0
  deriving DecidableEq, Repr

/-- A read of host-ring words outstanding at the host (16 R442): its PCI Express tag, the words it asked for and
those that came. -/
structure RingRead where
  tag : BitVec 10
  want : Nat
  got : List Word := []
  deriving DecidableEq, Repr

/-- A host ring (16 R442, R453). -/
structure HostRing where
  base : BitVec 64 := 0
  sizeLog2 : BitVec 5 := 10
  tail : BitVec 16 := 0
  head : BitVec 16 := 0
  fault : Bool := false
  open' : List RingRead := []             -- in ring order
  deriving DecidableEq, Repr

/-- A host-ring read whose words are discarded as they come (16 R448, R449), and how many are still to come. -/
structure LateRead where
  tag : BitVec 10
  left : Nat
  deriving DecidableEq, Repr

/-- An MSI-X table entry (16 R454). -/
structure MsixEntry where
  addrLo : Word := 0
  addrHi : Word := 0
  data : Word := 0
  masked : Bool := true
  deriving DecidableEq, Repr

/-- A piece of an inbound read: its address, its bytes, and its answer. -/
structure TlpPiece where
  addr : Addr
  len : Nat
  res : Option (LineData × Bool) := none
  deriving DecidableEq, Repr

/-- An inbound read in progress (16 R438 to R440): the pieces whose completions are still to be sent. -/
structure TlpRead where
  id : Nat
  tag : BitVec 10
  pieces : List TlpPiece
  deriving DecidableEq, Repr

/-- A piece of an inbound TLP to issue (16 R438): opcode, address, bytes, data. -/
structure PieceReq where
  op : ReqOp
  addr : Addr
  len : Nat
  data : Option (LineData × Bool) := none
  deriving DecidableEq, Repr

/-- A piece that waits until fewer than 1,024 Range requests are open (16 R438): its TLP and Relaxed Ordering. -/
structure WaitPiece where
  id : Nat
  relaxed : Bool
  req : PieceReq
  deriving DecidableEq, Repr

/-- What the Tether sends to the host: completions and its own requests. -/
inductive TlpOut where
  | complD (tag : BitVec 10) (data : List Byte) (poison : Bool)
  | complUR (tag : BitVec 10)
  | complCA (tag : BitVec 10)
  | compl (tag : BitVec 10)
  | memRead (tag : BitVec 10) (addr : BitVec 64) (words : Nat)
  | memWrite (addr : BitVec 64) (data : Word)
  | cfgRetry (tag : BitVec 10)
  | ltr (v : Word)
  deriving DecidableEq, Repr

/-- A BAR0 access that is not done (16 R433, 18 R479): its tag, the register accesses still to make, the words read, and
whether one was denied. `held`: the first of them waits in the register fabric. -/
structure BarAcc where
  read : Option (BitVec 10)
  todo : List (RegAddr × Option (Word × BitVec 4))
  got : List Word := []
  denied : Bool := false
  held : Bool := false
  deriving DecidableEq, Repr

/-- The Tether (16): configuration space as the fields the model acts on, window registers and windows in force,
host rings, MSI-X, links and the TLPs in progress. -/
structure Tether where
  mse : Bool := false
  bme : Bool := false
  romEn : Bool := false
  bar : Vector (BitVec 64) 3 := Vector.replicate 3 0
  romBar : Word := 0
  cfg : SMap Word := []                    -- other writable configuration words (PCI Express Base 6.0)
  d3 : Bool := false
  msixEn : Bool := false
  msixMask : Bool := false
  l1En : Bool := false
  ltrEn : Bool := false
  aerSticky : BitVec 32 := 0
  aperLog2 : BitVec 6 := 30
  lock : Bool := false
  rate : BitVec 3 := 0
  width : BitVec 5 := 0
  flit : Bool := false
  lpm : BitVec 2 := 0
  linkUp : Bool := false
  quiescing : Bool := false
  flr : Option Nat := none
  l1Idle : BitVec 7 := 8
  idleSince : Nat := 0
  shadow : Vector PeerWin 4 := Vector.replicate 4 {}
  win : Vector PeerWin 4 := Vector.replicate 4 {}
  pending : Bool := false
  commitDone : Bool := false
  commitErr : Bool := false
  ring : Vector HostRing 64 := Vector.replicate 64 {}
  src : Vector (BitVec 8) 100 := Vector.replicate 100 0
  msix : Vector MsixEntry 64 := Vector.replicate 64 {}
  pba : BitVec 64 := 0
  cond : BitVec 64 := 0                    -- the vectors' conditions as last taken (R445)
  ltr : Word := 0
  ltrSent : Word := 0
  inbErr : BitVec 16 := 0
  inbOut : BitVec 16 := 0
  port : ReqPort := {}
  tlps : List TlpRead := []
  nextTlp : Nat := 0
  out : List TlpOut := []
  waiting : List WaitPiece := []           -- pieces of accepted TLPs not yet opened, oldest first (R438)
  dropTags : List LateRead := []           -- reads of a quiesce, whose completions are discarded (R448)
  deadTags : List LateRead := []           -- reads retired by an FLR (R449)
  perst : Bool := true
  stalled : List (Who × RegAddr × Word) := []   -- writes to shadows that wait for the swap (R441)
  noTlp : Bool := false                    -- no inbound TLP is taken (16 R447)
  bar0 : Option BarAcc := none
  barWait : List BarAcc := []              -- accepted after it, oldest first
  pciStat : BitVec 16 := 0                 -- Status of the header, its bits cleared by writing 1 (R431)
  deriving DecidableEq, Repr

/-- What the register port shows of its last access (19 R502), and whether it has an access open that waits (15 R399,
16 R441, 14 R386): RP_ACK then stays low. -/
structure RegPort where
  rdata : Word := 0
  resp : BitVec 2 := 0
  ack : Bool := false
  busy : Bool := false
  deriving DecidableEq, Repr

/-- A paddock (01 R15): everything of one die but its always-on island's clock source. -/
structure Paddock where
  aon : AlwaysOn := {}
  repl : Repl := {}
  boot : Boot := {}
  ebb : Ebb := {}
  folds : Vector Fold 5 := Vector.replicate 5 {}
  gates : Vector AgentPort 4 := Vector.replicate 4 {}
  stiles : Vector AgentPort 24 := Vector.replicate 24 {}
  stream : Stream := {}
  conf : Conf := {}
  shep : Shep := {}
  bell : Bell := {}
  hurdle : Hurdle := {}
  census : Census := {}
  common : Common := {}
  rp : RegPort := {}
  deriving DecidableEq, Repr

/-- The state of a Range and the queue of the commands that wait, first in first out. -/
structure State where
  krovol : Krovol
  pads : Vector Paddock 8
  tether : Tether
  fresh : Nat            -- the model's own: the argument of the next free value of Config
  pending : List Instr
  deriving DecidableEq, Repr

/-- Reasons for a fault. -/
inductive Fault where
  /-- Raised by no meaning: every command has an effect on every operand (log entry 74). Safe: nothing stops. -/
  | illFormed
  deriving DecidableEq, Repr

/-- Reasons for a refusal. -/
inductive Refusal where
  /-- Raised by an arm of Dispatch.lean whose command has no meaning yet. Safe: nothing is claimed of it. -/
  | notModelled (mnemonic : String)
  deriving DecidableEq, Repr

/-- The reset package's planned positions, in ascending order (20). -/
def resetPlanned : List Die := [0, 1, 2, 4, 5, 6]

/-- The die table Krovol fills round robin over the planned positions (01, after R20). -/
def resetDietab : Vector Die 64 :=
  #v[0, 1, 2, 4, 5, 6, 0, 1, 2, 4, 5, 6, 0, 1, 2, 4, 5, 6, 0, 1, 2, 4, 5, 6, 0, 1, 2, 4, 5, 6, 0, 1,
     2, 4, 5, 6, 0, 1, 2, 4, 5, 6, 0, 1, 2, 4, 5, 6, 0, 1, 2, 4, 5, 6, 0, 1, 2, 4, 5, 6, 0, 1, 2, 4]

/-- Module edges of the reset package: one module on each edge that faces a planned neighbour (10 R259). -/
def resetModEdge : Vector (Vector (Option Edge) 4) 8 :=
  #v[#v[some .east, some .vert, none, none],
     #v[some .west, some .east, some .vert, none],
     #v[some .west, some .vert, none, none],
     #v[none, none, none, none],
     #v[some .east, some .vert, none, none],
     #v[some .west, some .east, some .vert, none],
     #v[some .west, some .vert, none, none],
     #v[none, none, none, none]]

/-- The parameter set of the reset package (20_bringing_up; log entry 2). -/
def Krovol.reset : Krovol where
  planned := 0x77
  tether := some 0
  gates := #v[15, 15, 15, 0, 15, 15, 15, 0]
  stiles := #v[0, 3, 0, 0, 0, 0, 0, 0]
  caching := Vector.replicate 8 0
  modEdge := resetModEdge
  maxRate := Vector.replicate 8 (Vector.replicate 4 3)
  phy := Vector.replicate 8 #v[2, 2, 2]
  mNs := Vector.replicate 8 120
  cNs := Vector.replicate 8 20
  cs := Vector.replicate 8 (Vector.replicate 24 0)
  dietab := resetDietab
  devwin := Vector.replicate 32 {}
  sets := 1
  ways := 16
  asmDeadline := 50
  unlock := 0
  paramId := 0
  gateCredits := 8
  otherCredits := 1
  rcred := 128
  wcred := 64
  rails := true
  aperLog2 := 30
  vendor := 0
  device := 0
  subVendor := 0
  subDevice := 0
  classCode := 0x058000
  flitMode := true
  linkWidth := 16

/-- A paddock while PORESET_N is asserted (19 R494, R496): every field at its reset value, the replicated die
table at Krovol's value (01 R21), the ports' data credits full (03 R96), the memory ports holding every credit
(19 R511). -/
def Paddock.reset (k : Krovol) : Paddock :=
  let full (c : Nat) : ReqPort := { credits := Vector.replicate 32 c }
  { repl := { dietab := k.dietab }
    folds := Vector.replicate 5 { rcred := k.rcred, wcred := k.wcred }
    gates := Vector.replicate 4 { port := full k.gateCredits }
    stiles := Vector.replicate 24 { port := full k.otherCredits }
    shep := { port := full k.otherCredits } }

/-- The Range right after PORESET_N is asserted on every die (19 R494), no command waiting. -/
def State.reset : State where
  krovol := Krovol.reset
  pads := Vector.replicate 8 (Paddock.reset Krovol.reset)
  tether := { aperLog2 := Krovol.reset.aperLog2,
              port := { credits := Vector.replicate 32 Krovol.reset.otherCredits } }
  fresh := 0
  pending := []

end Sys2Proof.Machine
end

