-- ==== Sys2Proof/Machine/SMap.lean ====
section
/-!
DEFINITION. Sparse arrays in canonical form: reading an entry, writing one (writing the value an unlisted entry
reads as removes it), and the form itself.
-/

namespace Sys2Proof.Machine

/-- The stored entry of key `k`. -/
def smFind {α : Type} (m : SMap α) (k : Nat) : Option α :=
  match m with
  | [] => none
  | (k', v) :: t => if k = k' then some v else smFind t k

/-- The entry of key `k`, `d` where none is stored. -/
def smGet {α : Type} (m : SMap α) (d : α) (k : Nat) : α :=
  match smFind m k with
  | some v => v
  | none => d

/-- Write `v` at key `k`; writing the default `d` removes the entry. -/
def smSet {α : Type} [DecidableEq α] (m : SMap α) (d : α) (k : Nat) (v : α) : SMap α :=
  match m with
  | [] => if v = d then [] else [(k, v)]
  | (k', v') :: t =>
    if k < k' then (if v = d then (k', v') :: t else (k, v) :: (k', v') :: t)
    else if k = k' then (if v = d then t else (k, v) :: t)
    else (k', v') :: smSet t d k v

/-- The canonical form: keys strictly rising, no entry equal to the default. -/
def smWf {α : Type} [DecidableEq α] (d : α) (m : SMap α) : Bool :=
  match m with
  | [] => true
  | (k, v) :: t => decide (v ≠ d) && t.all (fun e => decide (k < e.1)) && smWf d t

end Sys2Proof.Machine
end

