-- ==== Sys2Proof/Machine/Crc.lean ====
section
/-!
DEFINITION. The checks of 12 R309 and the stored records they guard (R310): bits are taken from the most
significant to the least, with no reflection and no final XOR.
-/

namespace Sys2Proof.Machine

/-- One bit shifted into a register of width `w` under polynomial `poly` (normal form). -/
def crcStep (w poly reg : Nat) (bit : Bool) : Nat :=
  let sh := (reg * 2) % 2 ^ w
  if (reg.testBit (w - 1)) != bit then sh ^^^ poly else sh

/-- The register after the `n` low bits of `v`, bit n-1 first. -/
def crcBits (w poly : Nat) (n v reg : Nat) : Nat :=
  match n with
  | 0 => reg
  | m + 1 => crcBits w poly m v (crcStep w poly reg (v.testBit m))

/-- CRC-16 of an `n`-bit field (R309). -/
def crc16 (n v : Nat) : BitVec 16 := BitVec.ofNat 16 (crcBits 16 0x1021 n v 0xFFFF)

/-- CRC-8 of an `n`-bit field (R309). -/
def crc8 (n v : Nat) : BitVec 8 := BitVec.ofNat 8 (crcBits 8 0x2F n v 0xFF)

/-- CRC-6 of an `n`-bit field (R309). -/
def crc6 (n v : Nat) : BitVec 6 := BitVec.ofNat 6 (crcBits 6 0x2F n v 0x3F)

/-- A Boolean as a bit. -/
def bit (b : Bool) : Nat := if b then 1 else 0

/-- CRC-6 of a Tally entry's [36:0] (04 R101). -/
def tallyCrc (tag : BitVec 35) (st : BitVec 2) : BitVec 6 := crc6 37 (tag.toNat + st.toNat * 2 ^ 35)

/-- A Tally entry with its check. -/
def tallyRec (tag : BitVec 35) (st : BitVec 2) : TallyRec := ⟨tag, st, tallyCrc tag st⟩

/-- What an unlisted Tally entry reads as: I with a good check (12 R321). -/
def tallyDflt : TallyRec := ⟨0, 0, tallyCrc 0 0⟩

/-- The entry passes its check (04 R102). -/
def TallyRec.ok (r : TallyRec) : Bool := r.crc == tallyCrc r.tag r.st

/-- CRC-6 of a shadow entry's [49:0], VALID set (04 R106). -/
def shadowCrc (g : GateN) (line : Line) (unrep : Bool) : BitVec 6 :=
  crc6 50 (g.val + line.toNat * 4 + bit unrep * 2 ^ 48 + 2 ^ 49)

/-- A copy of a shadow entry with its check. -/
def shadowCopy (g : GateN) (line : Line) (unrep : Bool) : ShadowCopy := ⟨g, line, unrep, shadowCrc g line unrep⟩

/-- The copy passes its check. -/
def ShadowCopy.ok (c : ShadowCopy) : Bool := c.crc == shadowCrc c.gate c.line c.unreported

/-- CRC-8 of an Earmark tag (04 R111). -/
def emTagCrc (tag : BitVec 31) : BitVec 8 := crc8 31 tag.toNat

/-- CRC-8 of an Earmark payload's [31:0] (04 R111). -/
def emPayCrc (pay : BitVec 32) : BitVec 8 := crc8 32 pay.toNat

/-- An Earmark entry with good checks. -/
def emRec (tag : BitVec 31) (pay : BitVec 32) (nru : Bool) : EmRec :=
  ⟨tag, emTagCrc tag, tag, emTagCrc tag, pay, emPayCrc pay, nru, false⟩

/-- What an unlisted Earmark entry reads as: UNT with good checks, NRU 0. -/
def emDflt : EmRec := emRec 0 0 false

/-- Bits [51:0] of a Pool tag entry with its DCRC (06 R144). -/
def poolTagBits (r : PoolTagRec) : Nat :=
  r.tag.toNat + bit r.valid * 2 ^ 32 + bit r.dirty * 2 ^ 33 + bit r.suspect * 2 ^ 34 + bit r.poison * 2 ^ 35
    + r.dcrc.toNat * 2 ^ 36

/-- CRC-8 over [51:0] of a Pool tag entry (06 R144). -/
def poolTcrc (r : PoolTagRec) : BitVec 8 := crc8 52 (poolTagBits r)

/-- The entry with its TCRC made good. -/
def PoolTagRec.seal (r : PoolTagRec) : PoolTagRec := { r with tcrc := poolTcrc r }

/-- The entry passes its check. -/
def PoolTagRec.ok (r : PoolTagRec) : Bool := r.tcrc == poolTcrc r

/-- CRC-16 over the 512 data bits (06 R144). -/
def dataCrc (d : LineData) : BitVec 16 := crc16 512 d.toNat

/-- A Pool tag entry with its checks. -/
def poolTagRec (tag : BitVec 32) (valid dirty poison : Bool) (d : LineData) : PoolTagRec :=
  PoolTagRec.seal ⟨tag, valid, dirty, false, poison, dataCrc d, 0⟩

/-- What an unlisted Pool tag entry reads as: invalid, its data 0 with a good check (12 R321). -/
def poolTagDflt : PoolTagRec := poolTagRec 0 false false false 0

/-- CRC-8 over [31:0] of a set state word (06 R145). -/
def poolSetCrc (plru : BitVec 15) (dv : BitVec 17) : BitVec 8 := crc8 32 (plru.toNat + dv.toNat * 2 ^ 15)

/-- A set state word with its check. -/
def poolSetRec (plru : BitVec 15) (dv : BitVec 17) : PoolSetRec := ⟨plru, dv, poolSetCrc plru dv⟩

/-- What an unlisted set state word reads as. -/
def poolSetDflt : PoolSetRec := poolSetRec 0 0

/-- The word passes its check. -/
def PoolSetRec.ok (r : PoolSetRec) : Bool := r.crc == poolSetCrc r.plru r.dv

/-- CRC-8 over [78:0] of a predictor entry (07 R188). -/
def predCrc (ctr : BitVec 3) (valid near : Bool) (src : AgentId) (stamp : BitVec 64) : BitVec 8 :=
  crc8 79 (ctr.toNat + bit valid * 8 + bit near * 16 + src.toNat * 32 + stamp.toNat * 2 ^ 15)

/-- A predictor entry with its check. -/
def predRec (ctr : BitVec 3) (valid near : Bool) (src : AgentId) (stamp : BitVec 64) : PredRec :=
  ⟨ctr, valid, near, src, stamp, predCrc ctr valid near src stamp⟩

/-- What an unlisted predictor entry reads as (07 R188): CTR 0, VALID 0. -/
def predDflt : PredRec := predRec 0 false false 0 0

/-- The entry passes its check. -/
def PredRec.ok (r : PredRec) : Bool := r.crc == predCrc r.ctr r.valid r.near r.src r.stamp

/-- Every array of a fold is in canonical form. -/
def Fold.wf (f : Fold) : Bool :=
  smWf tallyDflt f.tally && smWf emDflt f.em && smWf poolTagDflt f.poolTag && smWf (0 : LineData) f.poolData
    && smWf poolSetDflt f.poolSet && smWf predDflt f.pred

/-- The addressed arrays of the Range are in canonical form. -/
def Memory.wf (s : State) : Bool := s.pads.all fun p => p.folds.all Fold.wf

end Sys2Proof.Machine
end

