-- ==== Sys2Proof/Machine/Operands.lean ====
section
/-!
DEFINITION. Operand forms: bits of words, positions and neighbours (01 R10), agent identifiers (01 R32), lines,
homes (01 R17 to R22), array indices (04 R100, R110, 06 R142, 07 R188), and byte places in a line (02 R64).
-/

namespace Sys2Proof

/-- Opcode values of REQ (02 R47). -/
def ReqOp.code (o : ReqOp) : BitVec 6 :=
  match o with
  | .getShared => 0x01
  | .getOwned => 0x02
  | .getOnce => 0x03
  | .upgrade => 0x04
  | .claim => 0x05
  | .putDirty => 0x08
  | .putCopy => 0x09
  | .putClean => 0x0A
  | .pushIO => 0x0C
  | .pushFull => 0x0D
  | .atomicOp => 0x10
  | .sweep => 0x14
  | .purge => 0x15
  | .sweepPurge => 0x16
  | .devRead => 0x18
  | .devWrite => 0x19
  | .reserved c => c

/-- The encoding of a cache state (02, before R36). -/
def CacheState.code (c : CacheState) : BitVec 2 :=
  match c with
  | .i => 0
  | .s => 1
  | .e => 2
  | .m => 3

/-- Requests that carry data of their own (02 R48). -/
def ReqOp.carriesData (o : ReqOp) : Bool :=
  match o with
  | .putDirty | .putCopy | .pushIO | .pushFull | .atomicOp | .devWrite => true
  | _ => false

/-- The three Puts. -/
def ReqOp.isPut (o : ReqOp) : Bool :=
  match o with
  | .putDirty | .putCopy | .putClean => true
  | _ => false

/-- DevRead and DevWrite. -/
def ReqOp.isDev (o : ReqOp) : Bool :=
  match o with
  | .devRead | .devWrite => true
  | _ => false

/-- Sweep, Purge and SweepPurge. -/
def ReqOp.isMaint (o : ReqOp) : Bool :=
  match o with
  | .sweep | .purge | .sweepPurge => true
  | _ => false

/-- Number of an array kind (12 R330). -/
def ArrayKind.no (a : ArrayKind) : Nat :=
  match a with
  | .tally => 0
  | .emTagA => 1
  | .emTagB => 2
  | .emPayload => 3
  | .poolTag => 4
  | .poolData => 5
  | .poolSet => 6
  | .pred => 7

/-- Tally encoding of a cache state (02, after R37). -/
def CacheState.tally (x : CacheState) : BitVec 2 :=
  match x with
  | .i => 0
  | .s => 1
  | .e => 2
  | .m => 2

end Sys2Proof

namespace Sys2Proof.Machine

/-- Bits [lo+len-1 : lo]. -/
def bits {n : Nat} (a : BitVec n) (lo len : Nat) : Nat := (a.toNat >>> lo) % 2 ^ len

/-- Bit `i`. -/
def bitAt {n : Nat} (a : BitVec n) (i : Nat) : Bool := a.getLsbD i

/-- `a` with bit `i` set to `b`. -/
def putBit {n : Nat} (a : BitVec n) (i : Nat) (b : Bool) : BitVec n :=
  if b then a ||| BitVec.ofNat n (2 ^ i) else a &&& ~~~(BitVec.ofNat n (2 ^ i))

/-- The number of set bits among the low `n` of `v`. -/
def popCount (n v : Nat) : Nat :=
  match n with
  | 0 => 0
  | m + 1 => bit (v.testBit m) + popCount m v

/-- Write element `i` of a vector. -/
def vset {α : Type} {n : Nat} (v : Vector α n) (i : Fin n) (x : α) : Vector α n := v.set i.val x i.isLt

/-- Change element `i` of a vector. -/
def vmod {α : Type} {n : Nat} (v : Vector α n) (i : Fin n) (f : α → α) : Vector α n := v.set i.val (f v[i]) i.isLt

/-! ### Positions (01 R10) -/

/-- Row of a position. -/
def rowOf (d : Die) : Nat := d.val / 4

/-- Column of a position. -/
def colOf (d : Die) : Nat := d.val % 4

/-- The position across an edge, where there is one (01 R10). -/
def neighbour (d : Die) (e : Edge) : Option Die :=
  match e with
  | .west => if 0 < colOf d then some (Fin.ofNat 8 (d.val - 1)) else none
  | .east => if colOf d < 3 then some (Fin.ofNat 8 (d.val + 1)) else none
  | .vert => some (Fin.ofNat 8 (if d.val < 4 then d.val + 4 else d.val - 4))

/-- The edge a neighbour faces back with. -/
def facing (e : Edge) : Edge :=
  match e with
  | .west => .east
  | .east => .west
  | .vert => .vert

/-- Number of an edge in CONF_EDGE_STAT (10 R281). -/
def edgeNo (e : Edge) : Fin 3 :=
  match e with
  | .west => 0
  | .east => 1
  | .vert => 2

/-- The three edges. -/
def edges : List Edge := [.west, .east, .vert]

/-- The eight positions in ascending order. -/
def dies : List Die := [0, 1, 2, 3, 4, 5, 6, 7]

/-- The five physical folds. -/
def pfolds : List PFold := [0, 1, 2, 3, 4]

/-- The four logical folds. -/
def lfolds : List LFold := [0, 1, 2, 3]

/-- The four Gates. -/
def gateNs : List GateN := [0, 1, 2, 3]

/-- The 24 Stiles. -/
def stileNs : List StileN := List.ofFn id

/-- The four modules. -/
def modNs : List ModN := [0, 1, 2, 3]

/-- Positions of a population, ascending. -/
def diesOf (pop : BitVec 8) : List Die := dies.filter fun d => bitAt pop d.val

/-- Grow a set of positions by the neighbours inside `pop`, `fuel` times. -/
def grow (pop : BitVec 8) (fuel : Nat) (set : BitVec 8) : BitVec 8 :=
  match fuel with
  | 0 => set
  | n + 1 =>
    grow pop n (dies.foldl (fun acc d =>
      if bitAt pop d.val && edges.any (fun e => match neighbour d e with
        | some x => bitAt set x.val
        | none => false) then putBit acc d.val true else acc) set)

/-- The positions of `pop` joined to `d` through neighbours inside `pop` (01 R11, R12). -/
def connected (pop : BitVec 8) (d : Die) : BitVec 8 := grow pop 8 (putBit 0 d.val true)

/-! ### Agents (01 R32) -/

/-- The agent identifier of a local index on a die. -/
def agent (d : Die) (l : Nat) : AgentId := BitVec.ofNat 10 (d.val * 128 + l)

/-- The die of an agent. -/
def dieOf (a : AgentId) : Die := Fin.ofNat 8 (a.toNat / 128)

/-- The local index of an agent. -/
def localOf (a : AgentId) : Nat := a.toNat % 128

/-- Logical fold n of a die. -/
def foldAgent (d : Die) (n : LFold) : AgentId := agent d (64 + n.val)

/-- A Gate or Stile port's agent identifier. -/
def portAgent (d : Die) (n : AgentN) : AgentId := agent d (if n.val < 4 then n.val else n.val + 4)

/-- The local index is a Gate's. -/
def isGate (a : AgentId) : Bool := localOf a < 4

/-- The local index is a Stile's. -/
def isStile (a : AgentId) : Bool := 8 ≤ localOf a && localOf a < 32

/-- The local index is a logical fold's. -/
def isFold (a : AgentId) : Bool := 64 ≤ localOf a && localOf a < 68

/-- The number of a Gate's local index. -/
def gateOf (a : AgentId) : GateN := Fin.ofNat 4 (localOf a)

/-- The number of a Stile's local index. -/
def stileOf (a : AgentId) : StileN := Fin.ofNat 24 (localOf a - 8)

/-- The number of a logical fold's local index. -/
def lfoldOf (a : AgentId) : LFold := Fin.ofNat 4 (localOf a - 64)

/-- Gate g of die d is configured (01 R16). -/
def Krovol.hasGate (k : Krovol) (d : Die) (g : Nat) : Bool := g < 4 && bitAt k.gates[d] g

/-- Stile s of die d is configured. -/
def Krovol.hasStile (k : Krovol) (d : Die) (s : Nat) : Bool := decide (s < k.stiles[d].val)

/-- Stile s of die d is a configured caching Stile (08 R221). -/
def Krovol.isCaching (k : Krovol) (d : Die) (s : Nat) : Bool := k.hasStile d s && bitAt k.caching[d] s

/-- An agent with a cache: a Gate or a caching Stile. -/
def Krovol.caches (k : Krovol) (a : AgentId) : Bool :=
  isGate a || (isStile a && k.isCaching (dieOf a) (stileOf a).val)

/-- The agent exists (01 R16, R33): Krovol configured it, and a fold index names one of the four. -/
def Krovol.configured (k : Krovol) (a : AgentId) : Bool :=
  let l := localOf a
  if l < 4 then k.hasGate (dieOf a) l
  else if l < 8 then false
  else if l < 32 then k.hasStile (dieOf a) (l - 8)
  else if 64 ≤ l && l < 68 then true
  else if l = 120 then k.tether == some (dieOf a)
  else l = 124 || l = 127

/-- Ford position of an agent's local index; a logical fold's follows from the fold map (09 R232). -/
def fordOfLocal (l : Nat) : Nat :=
  if l = 0 then 1 else if l = 1 then 4 else if l = 2 then 10 else if l = 3 then 13
  else if l < 14 then 3 else if l < 20 then 6 else if l < 26 then 9 else if l < 32 then 12
  else if l = 120 then 7 else if l = 127 then 15 else 0

/-- Ford position of a physical fold (09 R232). -/
def fordOfFold (p : PFold) : Nat :=
  match p with
  | 0 => 2
  | 1 => 5
  | 2 => 11
  | 3 => 14
  | 4 => 8

/-! ### Lines and homes -/

/-- The line of an address, a[51:6]. -/
def lineOf (a : Addr) : Line := a.extractLsb' 6 46

/-- The first address of a line. -/
def lineAddr (l : Line) : Addr := BitVec.ofNat 52 (l.toNat * 64)

/-- The offset of an address in its line. -/
def offOf (a : Addr) : Nat := a.toNat % 64

/-- The hash h of 01 R17. -/
def homeHash (a : Addr) : Nat := bits a 12 6 ^^^ bits a 18 6 ^^^ bits a 24 6 ^^^ bits a 30 2

/-- The logical home fold (01 R22). -/
def homeFold (a : Addr) : LFold :=
  Fin.ofNat 4 (bits a 6 2 ^^^ bits a 8 2 ^^^ bits a 10 2 ^^^ bits a 16 2)

/-- The region that holds an address, if one is enabled there (01 R26). -/
def Repl.regionOf (r : Repl) (a : Addr) : Option (Fin 64) :=
  (List.finRange 64).find? fun i =>
    (r.regions[i]).attr.enable && decide ((r.regions[i]).base.toNat ≤ a.toNat)
      && decide (a.toNat < (r.regions[i]).limit.toNat)

/-- The attributes of an address (01 R26, R27). -/
def Repl.attrOf (r : Repl) (a : Addr) : RegionAttr :=
  match r.regionOf a with
  | some i => (r.regions[i]).attr
  | none => { r.regionDefault with local' := false }

/-- The home die of an address (01 R17, R18). -/
def Repl.homeDie (r : Repl) (a : Addr) : Die :=
  let at' := r.attrOf a
  if at'.local' then at'.homeDie else r.dietab[Fin.ofNat 64 (homeHash a)]

/-- The home of an address as an agent (01 R17, R18, R22). -/
def Repl.home (r : Repl) (a : Addr) : AgentId := foldAgent (r.homeDie a) (homeFold a)

/-- The package-wide logical fold of an agent that names a fold (00 R7). -/
def pkgFold (a : AgentId) : Fin 32 := Fin.ofNat 32 ((dieOf a).val * 4 + (lfoldOf a).val)

/-- The device window that holds an address (08 R202). -/
def Krovol.devwinOf (k : Krovol) (a : Addr) : Option DevWin :=
  k.devwin.toList.find? fun w => w.enable && decide (w.base.toNat ≤ a.toNat) && decide (a.toNat < w.limit.toNat)

/-! ### Array indices -/

/-- Rows a Tally slice uses (04 R100). -/
def Krovol.rows (k : Krovol) : Nat := if k.sets = 2 then 2048 else 1024

/-- The Tally row of a line (04 R100). -/
def Krovol.rowOfLine (k : Krovol) (l : Line) : Nat :=
  let a := lineAddr l
  if k.sets = 0 then bits a 7 10 else if k.sets = 1 then bits a 8 10 else bits a 8 11

/-- The cluster set index of a line (01 R23). -/
def Krovol.setOfLine (k : Krovol) (l : Line) : Nat := bits (lineAddr l) 6 (11 + k.sets.toNat)

/-- The Tally tag of a line, a[51:17] (04 R101). -/
def tallyTag (l : Line) : BitVec 35 := (lineAddr l).extractLsb' 17 35

/-- The address bits [7:6] that the fold number and the other bits fix (04 R100). -/
def lowBits (n : LFold) (a : Nat) : Nat :=
  n.val ^^^ ((a >>> 8) % 4) ^^^ ((a >>> 10) % 4) ^^^ ((a >>> 16) % 4)

/-- The line that a Tally entry records (04 R100, R101). -/
def Krovol.lineOfTally (k : Krovol) (n : LFold) (row : Nat) (tag : BitVec 35) : Line :=
  let hi := tag.toNat * 2 ^ 17
  if k.sets = 0 then
    let a := hi + row * 2 ^ 7
    let b6 := (n.val % 2) ^^^ ((a >>> 8) % 2) ^^^ ((a >>> 10) % 2) ^^^ ((a >>> 16) % 2)
    BitVec.ofNat 46 ((a + b6 * 64) / 64)
  else
    let a := hi + (row % 512) * 2 ^ 8
    BitVec.ofNat 46 ((a + lowBits n a * 64) / 64)

/-- The Earmark set of a line (04 R110). -/
def emSet (l : Line) : Nat := bits (lineAddr l) 8 13 ^^^ bits (lineAddr l) 21 13

/-- The Earmark tag of a line (04 R110). -/
def emTag (l : Line) : BitVec 31 := (lineAddr l).extractLsb' 21 31

/-- The line an Earmark entry records (04 R110). -/
def lineOfEm (n : LFold) (set : Nat) (tag : BitVec 31) : Line :=
  let hi := tag.toNat * 2 ^ 21
  let a := hi + (set ^^^ (tag.toNat % 8192)) * 256
  BitVec.ofNat 46 ((a + lowBits n a * 64) / 64)

/-- The Pool set of a line (06 R142). -/
def poolSet (l : Line) : Nat := bits (lineAddr l) 8 12 ^^^ bits (lineAddr l) 20 12

/-- The Pool tag of a line (06 R142). -/
def poolTag (l : Line) : BitVec 32 := (lineAddr l).extractLsb' 20 32

/-- The line a Pool tag entry records (06 R142). -/
def lineOfPool (n : LFold) (set : Nat) (tag : BitVec 32) : Line :=
  let hi := tag.toNat * 2 ^ 20
  let a := hi + (set ^^^ (tag.toNat % 4096)) * 256
  BitVec.ofNat 46 ((a + lowBits n a * 64) / 64)

/-- The predictor index of a line (07 R188). -/
def predIdx (l : Line) : Nat := bits (lineAddr l) 8 10 ^^^ bits (lineAddr l) 18 10

/-- The Millpond set and logical way of an address in an MP_ALIAS region (06 R171). -/
def Repl.mpSlot (r : Repl) (a : Addr) : Option (Nat × Nat) :=
  match r.regionOf a with
  | none => none
  | some i =>
    let reg := r.regions[i]
    if reg.attr.mpAlias then
      let before := (List.finRange 64).foldl (fun acc j =>
        let x := r.regions[j]
        if x.attr.enable && x.attr.mpAlias && x.attr.homeDie == reg.attr.homeDie
            && decide (x.base.toNat < reg.base.toNat)
        then acc + (x.limit.toNat - x.base.toNat) else acc) 0
      let m := (a.toNat - reg.base.toNat) + before
      some (bits a 8 12, 15 - m / 2 ^ 20)
    else none

/-! ### Bytes of a line (02 R64) -/

/-- The mask of bytes [off, off + len) as a bit mask of the line's 512 bits. -/
def byteMask (off len : Nat) : LineData := BitVec.ofNat 512 ((2 ^ (8 * len) - 1) * 2 ^ (8 * off))

/-- `new` in bytes [off, off + len), `old` elsewhere. -/
def mergeBytes (old new : LineData) (off len : Nat) : LineData :=
  (old &&& ~~~(byteMask off len)) ||| (new &&& byteMask off len)

/-- Only bytes [off, off + len) kept. -/
def keepBytes (d : LineData) (off len : Nat) : LineData := d &&& byteMask off len

/-- Byte `i` of a line. -/
def byteOf (d : LineData) (i : Nat) : Byte := d.extractLsb' (8 * i) 8

/-- The bit mask of the bytes that a byte mask names. -/
def maskBits (be : LineMask) (n : Nat) : LineData :=
  match n with
  | 0 => 0
  | m + 1 => (if bitAt be m then byteMask m 1 else 0) ||| maskBits be m

/-- A line with the bytes of `be` taken from `new`. -/
def mergeMask (old new : LineData) (be : LineMask) : LineData :=
  let m := maskBits be 64
  (old &&& ~~~m) ||| (new &&& m)

/-- Opcode values of SNP (02 R56). -/
def SnpOp.code (o : SnpOp) : BitVec 6 :=
  match o with
  | .share => 1
  | .claim => 2
  | .check => 3
  | .wayProbe => 4
  | .purge => 5
  | .sweep => 6

/-- The sluice charge of a request in bytes (09 R246). -/
def reqCharge (o : ReqOp) (len : Nat) : Nat :=
  match o with
  | .getShared | .getOwned | .upgrade | .atomicOp | .putDirty | .putCopy | .pushFull => 64
  | .getOnce | .pushIO | .devRead | .devWrite => (len + 15) / 16 * 16
  | .claim | .putClean | .sweep | .purge | .sweepPurge => 16
  | .reserved _ => 64

/-- The byte count of an ASIZE encoding, none where it is reserved (02 R44). -/
def asizeBytes (z : BitVec 3) : Option Nat := if z.toNat ≤ 4 then some (2 ^ z.toNat) else none

end Sys2Proof.Machine
end

