-- ==== Sys2Proof/Machine/Flits.lean ====
section
/-!
DEFINITION. The layouts of the flits on the wires (02 R43, R44, R54, R58, R64) and of the Confluence flit (10 R260), with
their CRC-16 (12 R309, R310). The machine holds a flit by its fields; `noise`, the bits inverted on the way, decides what
arrives.
-/

namespace Sys2Proof

/-- The opcode has victim fields (02 R44). -/
def ReqOp.hasVictim (o : ReqOp) : Bool :=
  match o with
  | .getShared | .getOwned | .claim | .upgrade | .atomicOp => true
  | _ => false

/-- The opcode has LEN (02 R44). -/
def ReqOp.hasLen (o : ReqOp) : Bool :=
  match o with
  | .getOnce | .pushIO | .devRead | .devWrite => true
  | _ => false

end Sys2Proof

namespace Sys2Proof.Machine

/-- A word from the lowest bit and the value of each field. -/
def packed (l : List (Nat × Nat)) : Nat := (l.map fun x => x.2 * 2 ^ x.1).sum

/-- The field of `n` bits at bit `lo` of a word. -/
def cut (v lo n : Nat) : Nat := v / 2 ^ lo % 2 ^ n

/-- `n` bits with their CRC-16 above them. -/
def sealed (n v : Nat) : Nat := v + (crc16 n v).toNat * 2 ^ n

/-- The CRC-16 above `n` bits agrees. -/
def sealOk (n w : Nat) : Bool := (crc16 n (cut w 0 n)).toNat == cut w n 16

/-! ### Opcode values -/

/-- The request opcode of a value (02 R47). -/
def reqOpOf (c : Nat) : ReqOp :=
  match c with
  | 0x01 => .getShared
  | 0x02 => .getOwned
  | 0x03 => .getOnce
  | 0x04 => .upgrade
  | 0x05 => .claim
  | 0x08 => .putDirty
  | 0x09 => .putCopy
  | 0x0A => .putClean
  | 0x0C => .pushIO
  | 0x0D => .pushFull
  | 0x10 => .atomicOp
  | 0x14 => .sweep
  | 0x15 => .purge
  | 0x16 => .sweepPurge
  | 0x18 => .devRead
  | 0x19 => .devWrite
  | c => .reserved (BitVec.ofNat 6 c)

/-- The snoop opcode of a value (02 R56), none where it is reserved. -/
def snpOpOf (c : Nat) : Option SnpOp :=
  match c with
  | 1 => some .share
  | 2 => some .claim
  | 3 => some .check
  | 4 => some .wayProbe
  | 5 => some .purge
  | 6 => some .sweep
  | _ => none

/-- The value of a response opcode (02 R58). -/
def RspOp.code (o : RspOp) : BitVec 4 :=
  match o with
  | .snpAck => 1
  | .snpAckWB => 2
  | .comp => 3
  | .compAck => 4
  | .ordered => 5
  | .err => 6

/-- The response opcode of a value, none where it is reserved. -/
def rspOpOf (c : Nat) : Option RspOp :=
  match c with
  | 1 => some .snpAck
  | 2 => some .snpAckWB
  | 3 => some .comp
  | 4 => some .compAck
  | 5 => some .ordered
  | 6 => some .err
  | _ => none

/-- The value of a data opcode (02 R64). -/
def DatOp.code (o : DatOp) : BitVec 2 :=
  match o with
  | .dataToReq => 0
  | .snpData => 1
  | .putData => 2
  | .pushData => 3

/-- The data opcode of a value. -/
def datOpOf (c : Nat) : DatOp :=
  match c with
  | 0 => .dataToReq
  | 1 => .snpData
  | 2 => .putData
  | _ => .pushData

/-- The cache state of an encoding. -/
def cacheStateOf (c : Nat) : CacheState :=
  match c with
  | 0 => .i
  | 1 => .s
  | 2 => .e
  | _ => .m

/-! ### Fields in their bits, CRC apart -/

/-- Bits [127:0] of a REQ flit (02 R43, R44): of the OPARG fields those of its opcode, every other OPARG bit 0. -/
def ReqFlit.body (f : ReqFlit) : Nat :=
  let victim := if f.op.hasVictim then [(113, f.vway.toNat), (117, bit f.vvalid), (118, bit f.vdirty)] else []
  let atomic := if f.op == .atomicOp then [(119, f.atop.toNat), (123, f.asize.toNat), (126, bit f.nocache)] else []
  let len := if f.op.hasLen then [(113, f.len.toNat)] else []
  packed ([(0, f.op.code.toNat), (6, f.src.toNat), (16, f.tgt.toNat), (26, f.txid.toNat), (38, f.cls.val),
    (40, f.dl.toNat), (56, f.addr.toNat), (108, f.rev.toNat)] ++ victim ++ atomic ++ len)

/-- A REQ flit of bits [127:0]. -/
def reqFlitOf (w : Nat) : ReqFlit :=
  let op := reqOpOf (cut w 0 6)
  let v (lo n : Nat) : Nat := if op.hasVictim then cut w lo n else 0
  let a (lo n : Nat) : Nat := if op == .atomicOp then cut w lo n else 0
  { op := op, src := BitVec.ofNat 10 (cut w 6 10), tgt := BitVec.ofNat 10 (cut w 16 10), txid := BitVec.ofNat 12 (cut w 26 12)
    cls := Fin.ofNat 4 (cut w 38 2), dl := BitVec.ofNat 16 (cut w 40 16), addr := BitVec.ofNat 52 (cut w 56 52)
    rev := BitVec.ofNat 5 (cut w 108 5), vway := BitVec.ofNat 4 (v 113 4), vvalid := v 117 1 == 1, vdirty := v 118 1 == 1
    atop := BitVec.ofNat 4 (a 119 4), asize := BitVec.ofNat 3 (a 123 3), nocache := a 126 1 == 1
    len := BitVec.ofNat 7 (if op.hasLen then cut w 113 7 else 0) }

/-- Bits [95:0] of an SNP flit (02 R54). -/
def SnpFlit.body (f : SnpFlit) : Nat :=
  packed [(0, f.op.code.toNat), (6, f.src.toNat), (16, f.tgt.toNat), (26, f.txid.toNat), (38, f.laddr.toNat),
    (84, bit f.muster), (85, f.rev.toNat)]

/-- An SNP flit of bits [95:0]. -/
def snpFlitOf (w : Nat) : Option SnpFlit :=
  (snpOpOf (cut w 0 6)).map fun op =>
    { op := op, src := BitVec.ofNat 10 (cut w 6 10), tgt := BitVec.ofNat 10 (cut w 16 10)
      txid := BitVec.ofNat 12 (cut w 26 12), laddr := BitVec.ofNat 46 (cut w 38 46), muster := cut w 84 1 == 1
      rev := BitVec.ofNat 5 (cut w 85 5) }

/-- Bits [63:0] of an RSP flit (02 R58); CSTAT is 0b00 or, superseded, 0b01. -/
def RspFlit.body (f : RspFlit) : Nat :=
  packed [(0, f.op.code.toNat), (4, f.src.toNat), (14, f.tgt.toNat), (24, f.txid.toNat), (36, f.aux.toNat),
    (48, f.state.code.toNat), (50, bit f.data), (51, bit f.ackreq), (52, bit f.superseded), (54, f.ecode.toNat)]

/-- An RSP flit of bits [63:0]. -/
def rspFlitOf (w : Nat) : Option RspFlit :=
  (rspOpOf (cut w 0 4)).map fun op =>
    { op := op, src := BitVec.ofNat 10 (cut w 4 10), tgt := BitVec.ofNat 10 (cut w 14 10)
      txid := BitVec.ofNat 12 (cut w 24 12), aux := BitVec.ofNat 12 (cut w 36 12), state := cacheStateOf (cut w 48 2)
      data := cut w 50 1 == 1, ackreq := cut w 51 1 == 1, superseded := cut w 52 2 == 1
      ecode := BitVec.ofNat 4 (cut w 54 4) }

/-- Bits [559:0] of a DAT flit (02 R64). -/
def DatFlit.body (f : DatFlit) : Nat :=
  packed [(0, f.payload.toNat), (512, f.op.code.toNat), (514, f.src.toNat), (524, f.tgt.toNat), (534, f.txid.toNat),
    (546, bit f.poison), (547, f.state.code.toNat)]

/-- A DAT flit of bits [559:0]. -/
def datFlitOf (w : Nat) : DatFlit :=
  { op := datOpOf (cut w 512 2), src := BitVec.ofNat 10 (cut w 514 10), tgt := BitVec.ofNat 10 (cut w 524 10)
    txid := BitVec.ofNat 12 (cut w 534 12), payload := BitVec.ofNat 512 (cut w 0 512), poison := cut w 546 1 == 1
    state := cacheStateOf (cut w 547 2) }

/-! ### Flits on the wire -/

/-- Bits of a network's flits that their CRC-16 protects (12 R310). -/
def netBits (n : Net) : Nat :=
  match n with
  | .req => 128
  | .snp => 96
  | .rsp => 64
  | .dat => 560

/-- The network of a flit. -/
def Flit.net (f : Flit) : Net :=
  match f with
  | .req _ => .req
  | .snp _ => .snp
  | .rsp _ => .rsp
  | .dat _ => .dat

/-- The protected bits of a flit. -/
def Flit.body (f : Flit) : Nat :=
  match f with
  | .req x => x.body
  | .snp x => x.body
  | .rsp x => x.body
  | .dat x => x.body

/-- A flit as it stands on its wires, its CRC-16 in the top bits. -/
def Flit.word (f : Flit) : Nat := sealed (netBits f.net) f.body

/-- What a position reads from the wires of a network: none where the check fails, or where the opcode is a reserved value
(log entry 69). -/
def readFlit (n : Net) (w : Nat) : Option Flit :=
  if sealOk (netBits n) w then
    match n with
    | .req => some (.req (reqFlitOf w))
    | .snp => (snpFlitOf w).map Flit.snp
    | .rsp => (rspFlitOf w).map Flit.rsp
    | .dat => some (.dat (datFlitOf w))
  else none

/-- What arrives of a flit whose bits `noise` were inverted on the way. -/
def Flit.heard (f : Flit) (noise : Nat) : Option Flit :=
  if noise = 0 then some f else readFlit f.net (f.word ^^^ noise % 2 ^ (netBits f.net + 16))

/-! ### The Confluence flit (10 R260) -/

/-- Slot n of a Confluence flit: its network and its lowest bit. -/
def confSlot (n : Fin 8) : Net × Nat :=
  match n with
  | 0 => (.dat, 0)
  | 1 => (.dat, 576)
  | 2 => (.req, 1152)
  | 3 => (.req, 1296)
  | 4 => (.snp, 1440)
  | 5 => (.snp, 1552)
  | 6 => (.rsp, 1664)
  | 7 => (.rsp, 1744)

/-- What slot n of a Confluence flit carries: the ring flits of a network fill its slots in order. -/
def ConfFlit.slot (f : ConfFlit) (n : Fin 8) : Option CrossItem :=
  ((f.slots.filter fun x => x.1 == (confSlot n).1).map fun x => x.2)[n.val % 2]?

/-- Bits [2031:0] of a Confluence flit, `hurt` the bits of a slot's ring flit inverted before it was packed. -/
def ConfFlit.body (f : ConfFlit) (hurt : Fin 8 → Nat) : Nat :=
  packed ((1840, f.seq.toNat) :: (List.finRange 8).flatMap fun n =>
    match f.slot n with
    | some c => (match c.flit with
        | some x => [((confSlot n).2, x.word ^^^ hurt n % 2 ^ (netBits x.net + 16)), (1824 + n.val, 1),
            (1832 + n.val, bit c.ret)]
        | none => [])
    | none => [])

/-- A ring flit of a received Confluence flit: its slot, whether it rides the return run, and the flit, none where its
own check fails (09 R251). -/
structure ConfItem where
  slot : Fin 8
  ret : Bool
  flit : Option Flit
  deriving DecidableEq, Repr

/-- What the receiving end reads from the 2,048 bits of a Confluence flit: its SEQ and ring flits, none where the
check fails (10 R267). -/
def readConf (w : Nat) : Option (BitVec 12 × List ConfItem) :=
  if sealOk 2032 w then
    let item (n : Fin 8) : Option ConfItem :=
      if cut w (1824 + n.val) 1 = 1 then
        some ⟨n, cut w (1832 + n.val) 1 == 1,
          readFlit (confSlot n).1 (cut w (confSlot n).2 (netBits (confSlot n).1 + 16))⟩
      else none
    some (BitVec.ofNat 12 (cut w 1840 12), (List.finRange 8).filterMap item)
  else none

/-- What the receiving end has of a Confluence flit of which `noise` was inverted on the link. -/
def ConfFlit.heard (f : ConfFlit) (noise : Nat) (hurt : Fin 8 → Nat) : Option (BitVec 12 × List ConfItem) :=
  if noise = 0 then
    let item (n : Fin 8) : Option ConfItem :=
      (f.slot n).bind fun c => c.flit.map fun x => ⟨n, c.ret, x.heard (hurt n)⟩
    some (f.seq, (List.finRange 8).filterMap item)
  else readConf (sealed 2032 (f.body hurt) ^^^ noise % 2 ^ 2048)

end Sys2Proof.Machine
end

