-- ==== Sys2Proof/Config.lean ====
section
/-!
DEFINITION. What an implementation fixes outside the parameter set, and the free values: opaque constants with no
body, of which nothing can be proved.
-/

namespace Sys2Proof

/-- SHA-256 of a byte string (15 R421 names the function; FIPS 180 defines it). A free value: log entry 7. -/
opaque Config.sha256 : List Byte → BitVec 256

/-- Whether an ECDSA P-256 signature (key, then signature, as bytes) verifies over a digest (15 R421). A free
value: log entry 7. -/
opaque Config.ecdsaOk : List Byte → List Byte → BitVec 256 → Bool

/-- What a diagnostic register, one that the spec does not lay out, returns while the paddock is unlocked
(18 R482: outside every guarantee). Its first argument is the counter `fresh`. A free value: log entry 8. -/
opaque Config.diagRead : Nat → RegAddr → Word

/-- A configuration byte whose value PCI Express Base 6.0 fixes and the spec does not state (16 R431). A free
value: log entry 22. -/
opaque Config.pcieByte : Nat → Byte

/-- The encoding of a transaction-table entry's PHASE (03 R78, R79: six phases in three bits, not numbered), LOOKUP 0
to ORPHAN 4 in the order of R79. A free value: log entry 13. -/
opaque Config.phaseCode : Nat → BitVec 3

/-- What TT_DUMP shows of an entry that is not allocated, above its VALID bit (15 R416). A free value: log entry 13. -/
opaque Config.ttStale : Nat → BitVec 123

/-- A word, or part of one, of a reply that the spec does not state in the case at hand, such as the address of a
failure where none was found. A free value, its argument the counter `fresh`: log entry 16. -/
opaque Config.openWord : Nat → Word

/-- Bank and row of an array entry (12 R330): the spec numbers neither. A free value of the array's number and the
entry index of 12 R316: log entry 19. -/
opaque Config.bankOf : Nat → Nat → BitVec 8 × BitVec 11

/-- Field `i` of the fixed pseudo-random sequence that a checker's self-test vectors are built from, by its width (12
R314 does not state the sequence). A free value: log entry 67. -/
opaque Config.testField : Nat → Nat → Nat

/-- The depth of a fold's memory (0), snoop-out (1) and completion (2) queues, at which stage 12 is held (03 R95, 17 R456:
the spec gives none). A free value: log entry 38. -/
opaque Config.queueDepth : Nat → Nat

/-- TESTMODE rises at a die in an LCLK tick (19 R497: an input, of whose rise the table has no row). A free value: log
entry 96. -/
opaque Config.testmodeRises : Nat → Nat → Bool

/-- The HCLK period of an operating point in units of 2^-24 ns (11 R284, 01 R34): 0.625, 0.8333, 1.25, 2.5 ns.
P1's is cut to 24 fraction bits (log entry 9). -/
def Config.period (pt : Point) : Nat :=
  match pt with
  | 0 => 10485760
  | 1 => 13981013
  | 2 => 20971520
  | 3 => 41943040

/-- HCLK in MHz (01 R34). -/
def Config.mhz (pt : Point) : Nat :=
  match pt with
  | 0 => 1600
  | 1 => 1200
  | 2 => 800
  | 3 => 400

/-- The supply of an operating point in mV (01 R34). -/
def Config.supplyMv (pt : Point) : Nat :=
  match pt with
  | 0 => 800
  | 1 => 700
  | 2 => 620
  | 3 => 550

/-- The retention supply in mV (01 R34). -/
def Config.retentionMv : Nat := 450

/-- The supply of a Nightfold sample in mV (14 R381). -/
def Config.sampleMv : Nat := 550

end Sys2Proof
end

