-- ==== Sys2Proof/Machine/Ops.lean ====
section
/-!
DEFINITION. The named operations every meaning is built from: paddocks and their parts, Tide, membership, flits
handed to a ford for injection, fault reports and sticky bits, events, and Census counts.
-/

namespace Sys2Proof.Machine

/-- Paddock d. -/
def State.pad (s : State) (d : Die) : Paddock := s.pads[d]

/-- Change paddock d. -/
def State.modPad (s : State) (d : Die) (f : Paddock → Paddock) : State := { s with pads := vmod s.pads d f }

/-- Change every paddock. -/
def State.modPads (s : State) (f : Die → Paddock → Paddock) : State :=
  dies.foldl (fun t d => t.modPad d (f d)) s

/-- Whole Tide ns of a paddock (11 R283, R284). -/
def Paddock.now (p : Paddock) : Nat := p.aon.tideFx / 2 ^ 24

/-- LCLK ticks since the release. -/
def Paddock.ticks (p : Paddock) : Nat := p.aon.ticks

/-- The period whose boundaries count (17 R460): the one in force, or the first one to come. -/
def Census.periodNow (x : Census) : Nat := if x.cfgSet then x.cfg.period else (x.pendCfg.getD x.cfg).period

/-- HCLK runs in the paddock (19 R492). -/
def Paddock.running (p : Paddock) : Bool := !p.boot.poreset && !p.boot.padreset && p.ebb.hclkAck

/-- The switched domain is on: its acknowledgement is high and its isolation released (14 R366). -/
def Paddock.domOn (p : Paddock) (i : DomN) : Bool := bitAt p.ebb.pswAck i.val && !bitAt p.ebb.iso i.val

/-- Domain FL of a physical fold (14 R365). -/
def domFL (p : PFold) : DomN := Fin.ofNat 12 p.val

/-- Domain FA of a physical fold. -/
def domFA (p : PFold) : DomN := Fin.ofNat 12 (p.val + 5)

/-- Domain SD. -/
def domSD : DomN := 10

/-- Domain SH. -/
def domSH : DomN := 11

/-- Die x is a member of the Range, as paddock d's copy shows (01 R13). -/
def State.member (s : State) (d x : Die) : Bool := bitAt (s.pad d).repl.present x.val

/-- The members, as paddock d's copy shows. -/
def State.members (s : State) (d : Die) : List Die := diesOf (s.pad d).repl.present

/-- The leader, as paddock d's copy shows (01 R12). -/
def State.leader (s : State) (d : Die) : Die := (s.pad d).repl.leader

/-- Paddock d is a member of a formed Range. -/
def State.inRange (s : State) (d : Die) : Bool := (s.pad d).repl.formed && s.member d d

/-- The paddocks that lead a formed Range: two where groups of dies could not exchange their views (10 R269). -/
def State.leaders (s : State) : List Die := dies.filter fun d => s.inRange d && s.leader d == d

/-- Die d can reach member x (10 R266). -/
def State.reaches (s : State) (d x : Die) : Bool :=
  d == x || (s.member d x && !bitAt (s.pad d).conf.unreach x.val)

/-- The leader that a member still has a way to (01 R12, 10 R266). -/
def State.leadOf (s : State) (d : Die) : Option Die :=
  if s.inRange d && s.reaches d (s.leader d) then some (s.leader d) else none

/-- The members that paddock d reaches. -/
def State.live (s : State) (d : Die) : List Die := (s.members d).filter fun x => s.reaches d x

/-- The logical fold that a physical fold of a paddock carries (01 R15, 18 R485). -/
def Repl.carries (r : Repl) (d : Die) (p : PFold) : Option LFold :=
  let m := r.foldmap[d]
  lfolds.find? fun n => m.pfold[n] == p && !bitAt m.vacant n.val

/-- The physical fold behind a logical fold, none where it is vacant (12 R325). -/
def Repl.pfoldOf (r : Repl) (d : Die) (n : LFold) : Option PFold :=
  let m := r.foldmap[d]
  if bitAt m.vacant n.val then none else some m.pfold[n]

/-- The standby fold of a position (18 R485): carries no logical fold and is not marked failed. -/
def FoldMap.standby (m : FoldMap) : Option PFold :=
  pfolds.find? fun p =>
    !(lfolds.any fun n => m.pfold[n] == p && !bitAt m.vacant n.val) && !bitAt m.failed p.val

/-- Change a fold. -/
def State.modFold (s : State) (d : Die) (p : PFold) (f : Fold → Fold) : State :=
  s.modPad d fun q => { q with folds := vmod q.folds p f }

/-- The port of a Gate or Stile, numbered as its sluice. -/
def Paddock.agent (p : Paddock) (n : AgentN) : AgentPort :=
  if n.val < 4 then p.gates[Fin.ofNat 4 n.val] else p.stiles[Fin.ofNat 24 (n.val - 4)]

/-- Change the port of a Gate or Stile. -/
def Paddock.modAgent (p : Paddock) (n : AgentN) (f : AgentPort → AgentPort) : Paddock :=
  if n.val < 4 then { p with gates := vmod p.gates (Fin.ofNat 4 n.val) f }
  else { p with stiles := vmod p.stiles (Fin.ofNat 24 (n.val - 4)) f }

/-- Change the port of a Gate or Stile of die d. -/
def State.modAgent (s : State) (d : Die) (n : AgentN) (f : AgentPort → AgentPort) : State :=
  s.modPad d fun p => p.modAgent n f

/-! ### Fault codes (13 R357) -/

/-- Fault classes (12 R312), numbered as the CLASS field. -/
inductive FaultClass where
  | ce | uc | ft
  deriving DecidableEq, Repr

/-- Codes of class FT. -/
def ftCodes : List Nat := [0x110, 0x211, 0x805]

/-- Codes of class CE. -/
def ceCodes : List Nat :=
  [0x201, 0x210, 0x220, 0x301, 0x302, 0x320, 0x401, 0x404, 0x406, 0x410, 0x501, 0x612, 0x801, 0x802, 0x804, 0x902,
   0xA01, 0xB01, 0xB02, 0xB03, 0xC01, 0xC21]

/-- Codes of class UC that create records. -/
def ucCodes : List Nat :=
  [0x120, 0x203, 0x303, 0x402, 0x403, 0x405, 0x407, 0x502, 0x601, 0x611, 0x701, 0x702, 0x803, 0x806, 0x901, 0x903,
   0x904, 0xA02, 0xA10, 0xB05, 0xB10, 0xC20, 0xD01, 0xD02, 0xD03, 0xD05, 0xF01]

/-- Sticky codes (13 R357, R363) with their BELL_STICKY bit. -/
def stickyCodes : List (Nat × Nat) :=
  [(0xE01, 0), (0xE10, 1), (0x703, 3), (0xD04, 4), (0xC30, 5), (0xF20, 6)]

/-- The fixed class of a code (13 R342, R357). -/
def codeClass (c : BitVec 12) : FaultClass :=
  if ftCodes.contains c.toNat then .ft else if ceCodes.contains c.toNat then .ce else .uc

/-- The code is in the table of R357. -/
def codeKnown (c : BitVec 12) : Bool :=
  ftCodes.contains c.toNat || ceCodes.contains c.toNat || ucCodes.contains c.toNat
    || stickyCodes.any (fun e => e.1 == c.toNat)

/-- Number of a class: CE 0, UC 1, FT 2 (13 R354). -/
def FaultClass.no (c : FaultClass) : Nat :=
  match c with
  | .ce => 0
  | .uc => 1
  | .ft => 2

/-- The FT reaction of 13 R342: the fold that filed the report stops pen arbitration. An injected report has none
(R359). -/
def State.ftReact (s : State) (r : Report) : State :=
  match r.fromFold with
  | some (x, p) =>
    if codeClass r.code == .ft && !r.injected then
      (s.modFold x p fun f => { f with ftHalt := true }).modPad x fun q => { q with bell := { q.bell with ftHalt := true } }
    else s
  | none => s

/-- Hand a report to its home Bell (13 R345): the subject's paddock where the reporter's can reach it, else the
reporter's own. BELL_REPORT files it there; the reaction of R342 does not wait for that. -/
def State.file (s : State) (own : Die) (r : Report) : State :=
  let h := dieOf r.subject
  let home := if own != h && s.inRange own && s.reaches own h then h else own
  (s.modPad home fun p => { p with bell := { p.bell with inbox := p.bell.inbox ++ [r] } }).ftReact r

/-- Hand over several reports in order. -/
def State.fileAll (s : State) (own : Die) (rs : List Report) : State := rs.foldl (fun t r => t.file own r) s

/-! ### The wake of the package (14 R379, R380) -/

/-- A domain goes off: isolation, reset, PSW_REQ low (14 R366). -/
def Ebb.domOff (e : Ebb) (i : DomN) (ticks : Nat) : Ebb :=
  { e with
    iso := putBit e.iso i.val true
    pswReq := putBit e.pswReq i.val false
    switching := (e.switching.filter fun x => x.dom != i) ++ [{ dom := i, on := false, tick := ticks }] }

/-- A Nightfold entry is in progress in a paddock, before N4. -/
def Ebb.entering (e : Ebb) : Bool := e.nf == .step1 || e.nf == .step2 || e.nf == .step3 || e.nf == .step4

/-- A sample ends (14 R382): the logic of its fold goes off again. -/
def Ebb.endSample (e : Ebb) (ticks : Nat) : Ebb :=
  match e.sample with
  | none => e
  | some x =>
    let e := { e with sample := none }
    if bitAt e.pswReq (domFL x.p).val && bitAt e.pswAck (domFL x.p).val then e.domOff (domFL x.p) ticks else e

/-- Ebb writes the supply of the operating point in force (E1). -/
def Ebb.supplyBack (e : Ebb) (rails : Bool) (ticks : Nat) : Ebb :=
  let w : AvsWrite := { mv := Config.supplyMv e.point, tick := ticks }
  { e.endSample ticks with nf := .exit1, avs := #v[some w, if rails then some w else none] }

/-- An entry is abandoned at an abort point in a paddock (14 R379, R392). -/
def AlwaysOn.aborted (a : AlwaysOn) (point : BitVec 3) : AlwaysOn :=
  { a with nfLastAbort := point, nfAborts := if a.nfAborts == 0xFFF then 0xFFF else a.nfAborts + 1 }

/-- A wake of the package: an entry is abandoned at its next abort point, and Nightfold ends (14 R379, R380). A wake in the
LCLK tick of N4's acknowledgement counts as arriving before it (R379). The island checks its own state at a wake from
Nightfold (R365). -/
def State.nfWake (s : State) : State :=
  s.modPads fun _ q =>
    let e := q.ebb
    match e.nf with
    | .inside a =>
      if a = q.ticks then
        { q with ebb := { e.supplyBack s.krovol.rails q.ticks with nfAbort := true }, aon := q.aon.aborted 4 }
      else
        { q with
          ebb := e.supplyBack s.krovol.rails q.ticks
          aon := { q.aon with sticky := if q.aon.islandOk then q.aon.sticky else putBit q.aon.sticky 6 true } }
    | _ => if e.entering then { q with ebb := { e with nfAbort := true } } else q

/-- A wake source of WAKEEN is enabled (14 R380). -/
def Paddock.wakeEn (q : Paddock) (i : Nat) : Bool :=
  match q.aon.nfProg with
  | some p => bitAt p.wakeEn i
  | none => false

/-- Set a bit of BELL_STICKY (13 R351). A bit of class UC is a condition of R353 and wakes the package where WAKEEN bit 3 is
set (14 R380); the HELD bits carry on conditions that stood before. -/
def State.stick (s : State) (d : Die) (i : Nat) : State :=
  let s := s.modPad d fun p => { p with aon := { p.aon with sticky := putBit p.aon.sticky i true } }
  if decide (i < 7) && (s.pad d).wakeEn 3 then s.nfWake else s

/-! ### Census (17) -/

/-- One count of a counter, with whether it wrapped (17 R455). -/
def censusBump (c : CensusCtr) : CensusCtr × Bool := ({ c with val := c.val + 1 }, c.val == BitVec.allOnes 48)

/-- Count event `sel` at counters [0, n) of a fold's bank (17 R457). -/
def foldCount (sel : Nat) (n : Nat) (c : FoldCensus) : FoldCensus :=
  match n with
  | 0 => c
  | m + 1 =>
    let c := foldCount sel m c
    if h : m < 8 then
      let x := c.ctr[m]
      if x.en && x.sel.toNat == sel then
        let b := censusBump x
        { c with ctr := c.ctr.set m b.1, ovf := if b.2 then putBit c.ovf m true else c.ovf }
      else c
    else c

/-- A counter's UNIT names the instance of an event (17 R458): events without a unit match every UNIT (the gather table
is one per paddock, 04 R117), 0x2B its low four bits. -/
def unitMatches (sel unit u : Nat) : Bool :=
  if sel = 0x2B then u % 16 == unit
  else if (0x20 ≤ sel && sel ≤ 0x2A) || sel = 0x1E || sel = 0x1F || sel = 0x32 || sel = 0x33 || 0x38 ≤ sel then true
  else u == unit

/-- Count an event at every matching counter below `n` of a paddock's bank (17 R458). -/
def padCount (sel unit : Nat) (n : Nat) (c : Census) : Census :=
  match n with
  | 0 => c
  | m + 1 =>
    let c := padCount sel unit m c
    if h : m < 16 then
      let x := c.ctr[m]
      if x.en && x.sel.toNat == sel && unitMatches sel unit x.unit.toNat then
        let b := censusBump x
        { c with ctr := c.ctr.set m b.1, ovf := if b.2 then putBit c.ovf m true else c.ovf }
      else c
    else c

/-- Count a paddock event of a unit (17 R458). -/
def State.pcount (s : State) (d : Die) (sel unit : Nat) : State :=
  s.modPad d fun p => { p with census := padCount sel unit 16 p.census }

/-- Number of a network as a Census unit and in DETAIL fields (13 R357). -/
def netNo (n : Net) : Fin 4 :=
  match n with
  | .req => 0
  | .snp => 1
  | .rsp => 2
  | .dat => 3

/-! ### Flits -/

/-- Target of a flit. For a Muster snoop it is the target die's fan-out point (02 R54). -/
def Flit.tgt (f : Flit) : AgentId :=
  match f with
  | .req x => x.tgt
  | .snp x => if x.muster then agent (dieOf x.tgt) 124 else x.tgt
  | .rsp x => x.tgt
  | .dat x => x.tgt

/-- Source of a flit. -/
def Flit.src (f : Flit) : AgentId :=
  match f with
  | .req x => x.src
  | .snp x => x.src
  | .rsp x => x.src
  | .dat x => x.src

/-- REV of a flit (02 R43, R54). -/
def Flit.rev (f : Flit) : BitVec 5 :=
  match f with
  | .req x => x.rev
  | .snp x => x.rev
  | _ => 0

/-- The flit with REV one higher, kept at 31 (09 R240, R241). -/
def Flit.bump (f : Flit) : Flit :=
  match f with
  | .req x => .req { x with rev := if x.rev == 31 then 31 else x.rev + 1 }
  | .snp x => .snp { x with rev := if x.rev == 31 then 31 else x.rev + 1 }
  | .rsp x => .rsp x
  | .dat x => .dat x

/-- The ford position where an agent of die d attaches, a logical fold's through the fold map (09 R232). -/
def Repl.fordOf (r : Repl) (d : Die) (a : AgentId) : Nat :=
  if isFold a then
    match r.pfoldOf d (lfoldOf a) with
    | some p => fordOfFold p
    | none => fordOfFold (Fin.ofNat 5 (lfoldOf a).val)
  else fordOfLocal (localOf a)

/-- Agents hand flits to the injection queues of their fords (09 R243); a fenced ford takes none, and its agent keeps them
(R250). -/
def Paddock.offer (q : Paddock) (l : List InjItem) : Paddock :=
  { q with stream := { q.stream with
      inj := q.stream.inj ++ l.map fun i => { i with held := bitAt q.ebb.fenceReq i.pos } } }

/-- Hand a flit to the injection queue of its agent's ford (09 R243). -/
def State.inject (s : State) (d : Die) (net : Net) (a : AgentId) (cls : Cls) (f : Flit) : State :=
  s.modPad d fun p => p.offer [{ net := net, pos := p.repl.fordOf d a, agent := a, cls := cls, flit := f, since := p.aon.hcycle }]

/-- Send an RSP flit from an agent of die d. -/
def State.sendRsp (s : State) (d : Die) (cls : Cls) (f : RspFlit) : State := s.inject d .rsp f.src cls (.rsp f)

/-- Send a DAT flit from an agent of die d. -/
def State.sendDat (s : State) (d : Die) (cls : Cls) (f : DatFlit) : State := s.inject d .dat f.src cls (.dat f)

/-- Send an SNP flit from an agent of die d. -/
def State.sendSnp (s : State) (d : Die) (cls : Cls) (f : SnpFlit) : State := s.inject d .snp f.src cls (.snp f)

/-! ### Events (15 R407) -/

/-- Both copies of a pointer move by `n`. -/
def Ptr2.add (p : Ptr2) (n : Nat) : Ptr2 := { a := p.a + BitVec.ofNat 10 n, b := p.b + BitVec.ofNat 10 n }

/-- Both copies of a pointer move back by `n`. -/
def Ptr2.back (p : Ptr2) (n : Nat) : Ptr2 := { a := p.a - BitVec.ofNat 10 n, b := p.b - BitVec.ofNat 10 n }

/-- The copies of a pointer agree. -/
def Ptr2.same (p : Ptr2) : Bool := p.a == p.b

/-- The larger of the counts that the two copies of a head and a tail give. -/
def ptrCount (head tail : Ptr2) : Nat := max (tail.a - head.a).toNat (tail.b - head.b).toNat

/-- The pointer copies of an event queue agree (15 R405). -/
def EventQueue.same (q : EventQueue) : Bool := q.head.same && q.tail.same

/-- An event queue whose pointer copies differ is reset to empty; the events dropped are counted (15 R405). -/
def EventQueue.reset (q : EventQueue) : EventQueue :=
  { q with events := [], head := {}, tail := {}, dropped := min 65535 (q.dropped + q.events.length) }

/-- An event queue selects a kind. -/
def EventQueue.wants (q : EventQueue) (kind : Nat) : Bool := bitAt q.mask (kind - 1)

/-- One event of a kind posted to an event queue that selects it; a full queue drops it (15 R407). -/
def EventQueue.post (q : EventQueue) (kind : Nat) (e : BitVec 64) : EventQueue :=
  if q.wants kind then
    if q.events.length < 128 then { q with events := q.events ++ [e], tail := q.tail.add 1 }
    else { q with dropped := min 65535 (q.dropped + 1) }
  else q

/-- The Shepherd of a die as an agent (01 R32). -/
def shepAgent (d : Die) : AgentId := agent d 127

/-- Change a paddock's Shepherd. -/
def State.modShep (s : State) (d : Die) (f : Shep → Shep) : State := s.modPad d fun q => { q with shep := f q.shep }

/-- File a report of a paddock's Shepherd about a queue (13 R346, R357). -/
def State.queueRep (s : State) (d : Die) (code detail : Nat) : State :=
  s.file d { code := BitVec.ofNat 12 code, reporter := shepAgent d, subject := shepAgent d, atype := 0x3D
             t := (s.pad d).now, detail := BitVec.ofNat 16 detail }

/-- The pointer copies of an event queue are compared (15 R405). -/
def State.eqCheck (s : State) (d : Die) (e : EQN) : State :=
  let x := (s.pad d).shep.eq[e]
  if x.same then s
  else (s.modShep d fun h => { h with eq := vset h.eq e x.reset }).queueRep d 0xC20 (e.val + 256)

/-- The pointer copies of the event queues that select a kind are compared, as an event is posted to them. -/
def State.eqChecks (s : State) (d : Die) (kind : Nat) : State :=
  (List.finRange 32).foldl (fun s e => if ((s.pad d).shep.eq[e]).wants kind then s.eqCheck d e else s) s

/-- An event word (15 R407). -/
def eventWord (kind : Nat) (d : Die) (arg tide : Nat) : BitVec 64 :=
  BitVec.ofNat 64 (tide % 2 ^ 32 + (arg % 2 ^ 21) * 2 ^ 32 + d.val * 2 ^ 53 + kind * 2 ^ 56 + 2 ^ 63)

/-- The leader's Shepherd posts an event of a kind that member `own` found (15 R407): position `d`, the Tide of `own`. -/
def State.eventFrom (s : State) (own : Die) (kind : Nat) (d : Die) (arg : Nat) : State :=
  match s.leadOf own with
  | none => s
  | some l =>
    let e := eventWord kind d arg (s.pad own).now
    (s.eqChecks l kind).modPad l fun p => { p with shep := { p.shep with eq := p.shep.eq.map fun q => q.post kind e } }

/-- An event about the paddock that found it. -/
def State.event (s : State) (kind : Nat) (d : Die) (arg : Nat) : State := s.eventFrom d kind d arg

/-- Take the oldest item that satisfies `f` out of a list. -/
def takeFirst {α : Type} (f : α → Bool) (l : List α) : Option (α × List α) :=
  match l with
  | [] => none
  | x :: t => if f x then some (x, t) else
    match takeFirst f t with
    | some (y, r) => some (y, x :: r)
    | none => none

/-- The least element by a rank. -/
def leastBy {α : Type} (r : α → Nat) (l : List α) : Option α :=
  match l with
  | [] => none
  | x :: t =>
    match leastBy r t with
    | some y => if r y < r x then some y else some x
    | none => some x

/-- Change the elements that satisfy `f`. -/
def updateWhere {α : Type} (f : α → Bool) (g : α → α) (l : List α) : List α :=
  l.map fun x => if f x then g x else x

end Sys2Proof.Machine
end

