-- ==== Sys2Proof/Machine/FoldBase.lean ====
section
/-!
DEFINITION. A fold at work: the fold, what it reads of its paddock, and what an event of it gives back (flits to
inject, fault reports, repairs for Hurdle). Every fold event is a function of `FC`; `State.runFold` applies one.
-/

namespace Sys2Proof.Machine

/-- What a fold event hands to Hurdle: a spare class exhausted (12 R337), or a repair to record (12 R333). -/
inductive HurdleAct where
  | exhausted (bit : Nat)
  | repair (kind : Nat) (array : ArrayKind) (way : Nat)
  | poolSweepDone
  deriving DecidableEq, Repr

/-- A fold at work: constants of the event first, then what it changes. -/
structure FC where
  k : Krovol
  die : Die
  p : PFold
  n : LFold
  carried : Bool
  repl : Repl
  unreach : BitVec 8
  now : Nat
  cyc : Nat
  f : Fold
  fails : List FailStamps
  /-- Stage 12 is held by a full snoop-out or completion queue (17 R456). -/
  outHeld : Bool := false
  /-- Access type of the event's transaction (13 R346); 0x3E without one. -/
  atype : BitVec 6 := 0x3E
  out : List InjItem := []
  reps : List Report := []
  acts : List HurdleAct := []
  deriving DecidableEq, Repr

/-- The fold's agent identifier: its logical fold's, or 68 as the standby fold (01 R33, 13 R344). -/
def FC.agent (c : FC) : AgentId := if c.carried then foldAgent c.die c.n else Machine.agent c.die 68

/-- File a report of this fold (13 R344). -/
def FC.rep (c : FC) (code : Nat) (subject : AgentId) (a : Option Addr) (atype : BitVec 6) : FC :=
  let r : Report := ⟨BitVec.ofNat 12 code, c.agent, subject, a, atype, c.now, BitVec.ofNat 16 c.p.val,
    some (c.die, c.p), false⟩
  let sel := 0x32 + (codeClass r.code).no
  { c with reps := c.reps ++ [r], f := { c.f with census := foldCount sel 8 c.f.census } }

/-- File a report about this fold's own structure. -/
def FC.repSelf (c : FC) (code : Nat) (a : Option Addr) (atype : BitVec 6) : FC := c.rep code c.agent a atype

/-- Count a Census event (17 R457). -/
def FC.ev (c : FC) (sel : Nat) : FC := { c with f := { c.f with census := foldCount sel 8 c.f.census } }

/-- Count an event `k` times. -/
def FC.evs (c : FC) (sel k : Nat) : FC :=
  match k with
  | 0 => c
  | j + 1 => (c.ev sel).evs sel j

/-- Count a cycle in its slot class (17 R456): 0 RETIRED, 1 WASTED, 2 STARVED_FRONT, 3 STARVED_BACK; with the
selectors 0x01 to 0x04 and the cycle conditions 0x09, 0x17, 0x18. -/
def FoldCensus.slotCycle (x : FoldCensus) (k : Fin 4) (ttFull mrsFull eddyFull : Bool) : FoldCensus :=
  let v := x.slot[k]
  let x := { x with
    cycle := x.cycle + 1
    slot := x.slot.set k.val (v + 1) k.isLt
    ovf := let o := if v == BitVec.allOnes 48 then putBit x.ovf (8 + k.val) true else x.ovf
           if x.cycle == BitVec.allOnes 64 then putBit o 12 true else o }
  let x := foldCount (k.val + 1) 8 x
  let x := if ttFull then foldCount 0x09 8 x else x
  let x := if mrsFull then foldCount 0x17 8 x else x
  if eddyFull then foldCount 0x18 8 x else x

/-- The class of the issue slot of this cycle (17 R456); the cycle is counted as it ends. -/
def FC.slot (c : FC) (k : Fin 4) : FC := { c with f := { c.f with slotNow := some k } }

/-- The end of a cycle in which the fold's clock ran: it counts once, under the class of its slot, `idle` where stage 1
pulled nothing (17 R455, R456). -/
def FC.endCycle (c : FC) (idle : Fin 4) : FC :=
  let x := c.f.census.slotCycle (c.f.slotNow.getD idle) (decide (512 - c.f.tt.length ≤ 16)) (decide (c.f.mrs.length = 128))
    (decide (c.f.eddy.length = 32))
  { c with f := { c.f with census := x, slotNow := none, mwd := c.f.mwd.tail } }

/-- Queue a flit for injection at this fold's ford (03 R95). -/
def FC.send (c : FC) (net : Net) (cls : Cls) (fl : Flit) : FC :=
  { c with out := c.out ++ [{ net := net, pos := fordOfFold c.p, agent := c.agent, cls := cls, flit := fl, since := c.cyc }] }

/-- Send an RSP flit to a requester. -/
def FC.rsp (c : FC) (cls : Cls) (op : RspOp) (tgt : AgentId) (txid aux : TxId) (st : CacheState)
    (data ackreq sup : Bool) (ecode : BitVec 4) : FC :=
  c.send .rsp cls (.rsp ⟨op, c.agent, tgt, txid, aux, st, data, ackreq, sup, ecode⟩)

/-- Send an Err (02 R59). -/
def FC.err (c : FC) (fl : ReqFlit) (ecode : BitVec 4) : FC := c.rsp fl.cls .err fl.src fl.txid 0 .i false false false ecode

/-- Send a DataToReq. -/
def FC.dataToReq (c : FC) (fl : ReqFlit) (d : LineData) (poison : Bool) : FC :=
  c.send .dat fl.cls (.dat ⟨.dataToReq, c.agent, fl.src, fl.txid, d, poison, .i⟩)

/-! ### The transaction table (03 R78) -/

/-- An entry by index. -/
def FC.entry (c : FC) (i : TTIdx) : Option TTEntry := c.f.tt.find? fun e => e.idx == i

/-- Change an entry. -/
def FC.modEntry (c : FC) (i : TTIdx) (g : TTEntry → TTEntry) : FC :=
  { c with f := { c.f with tt := updateWhere (fun e => e.idx == i) g c.f.tt } }

/-- The entry blocks its line (03 R80): every entry but those of DevRead and DevWrite. -/
def TTEntry.blocks (e : TTEntry) : Bool := !e.flit.op.isDev

/-- The entry that blocks a line. -/
def FC.blocker (c : FC) (l : Line) : Option TTEntry := c.f.tt.find? fun e => e.blocks && e.line == l

/-- The line is blocked (03 R80). -/
def FC.blocked (c : FC) (l : Line) : Bool := (c.blocker l).isSome

/-- The lowest transaction-table index not in use (log entry 10), neither by an entry nor as the TXID of a WayProbe that
has none (log entry 68). -/
def freeIdx (f : Fold) : Option TTIdx :=
  (List.finRange 512).find? fun i => !(f.tt.any fun e => e.idx == i) && !(f.fixes.any fun x => x.idx == i)

/-- The transaction was issued by a Shepherd. -/
def ReqFlit.fromShep (f : ReqFlit) : Bool := localOf f.src == 127

/-- One of `free` entries may go to the request under the reserve rule (03 R78). -/
def ReqFlit.mayTake (f : ReqFlit) (free : Nat) : Bool :=
  if f.op.isPut || f.fromShep then decide (0 < free) else decide (16 < free)

/-- An entry is free for the request, as stage 2 finds it (03 R84). -/
def FC.ttRoom (c : FC) (f : ReqFlit) : Bool := f.mayTake (512 - c.f.tt.length)

/-- An entry is free for the request, as pen arbitration sees it (03 R75): a back-invalidation that took an entry in
this cycle is not counted yet. -/
def FC.arbRoom (c : FC) (f : ReqFlit) : Bool :=
  f.mayTake (512 - (c.f.tt.filter fun e => !(e.isBinv && decide (c.cyc < e.allocCycle))).length)

/-! ### The free list's pointers (03 R82) -/

/-- Both copies advanced. -/
def PtrPair.next (p : PtrPair) : PtrPair := ⟨p.a + 1, p.b + 1⟩

/-- The copies agree. -/
def PtrPair.same (p : PtrPair) : Bool := p.a == p.b

/-- Compare the pointers' copies after a change of either: a mismatch is 0x110, and no entry is allocated after it. -/
def FC.ttCompare (c : FC) : FC :=
  if (c.f.ttHead.same && c.f.ttTail.same) || c.f.ttStop then c
  else FC.repSelf { c with f := { c.f with ttStop := true } } 0x110 none c.atype

/-- The access type of a request (13 R346). -/
def ReqFlit.atype (f : ReqFlit) : BitVec 6 := f.op.code

/-- The requester is a cluster of the fold's own die, recorded in Tally (02 R53). -/
def FC.localGate (c : FC) (a : AgentId) : Bool := dieOf a == c.die && isGate a

/-- The requester has no cache for the fold's purposes (02 R72). -/
def FC.nonCaching (c : FC) (a : AgentId) : Bool := !c.k.caches a

/-! ### Counted failures of ways (06 R162, 12 R322) -/

/-- The window of 24 h in ns. -/
def dayNs : Nat := 86400000000000

/-- Count a failure of a physical way: the stamps kept, and whether it disables the way (06 R162). -/
def countFail (l : List FailStamps) (u : Nat) (a : ArrayKind) (w now : Nat) : List FailStamps × Bool :=
  match takeFirst (fun x => x.unit == u && x.array == a && x.way == w) l with
  | none => (l ++ [⟨u, a, w, [now]⟩], false)
  | some (x, rest) =>
    let hit := match x.stamps with
      | t0 :: _ :: _ :: _ => decide (now < t0 + dayNs)
      | _ => false
    let st := x.stamps ++ [now]
    let st := if st.length > 3 then st.drop (st.length - 3) else st
    (rest ++ [{ x with stamps := st }], hit)

/-- Logical ways that hold Millpond (06 R169). -/
def Fold.isMill (f : Fold) (w : Nat) : Bool := decide (16 - f.poolMpWays ≤ w)

/-- Start what a disabled Pool way brings (06 R163 to R165): the sweep or copy to the standby way, or, with none
left, the sweep that takes a cache way out of service. A way that a running sweep fills or converts waits for the end of
that sweep. When DISABLED and EXH show it is log entry 79. -/
def FC.disablePoolWay (c : FC) (phys : Nat) : FC :=
  let later (c : FC) : FC :=
    if c.f.poolPend.contains phys then c else { c with f := { c.f with poolPend := c.f.poolPend ++ [phys] } }
  if c.f.poolSweep.any fun s => s.old == phys && s.kind != .convert then c
  else if c.f.poolSweep.any fun s => s.old == phys || s.new == phys then later c
  else
    match (List.finRange 16).find? fun w => c.f.poolPhys[w] == phys && !bitAt c.f.poolDisabled w.val with
    | none => { c with f := { c.f with poolOut := putBit c.f.poolOut phys true } }
    | some w =>
      let free := c.f.poolSpareFor == 31 && !bitAt c.f.poolOut 16 && !(c.f.poolSweep.any fun s => s.new == 16)
      let mill := c.f.isMill w.val || bitAt c.f.poolConv w.val
      if free then
        { c with f := { c.f with poolSweep := c.f.poolSweep ++
            [⟨w, phys, 16, 0, if mill then .millCopy else .disable⟩] } }
      else if mill then
        if bitAt c.f.poolWorn phys then c
        else
          let c := c.repSelf 0xB10 none 0x3E
          { c with acts := c.acts ++ [.exhausted 1], f := { c.f with poolWorn := putBit c.f.poolWorn phys true } }
      else
        let c := c.repSelf 0xB10 none 0x3E
        { c with
          acts := c.acts ++ [.exhausted 1]
          f := { c.f with
            poolDisabled := putBit c.f.poolDisabled w.val true
            poolSweep := c.f.poolSweep ++ [⟨w, phys, phys, 0, .retire⟩] } }

/-- Spare physical ways of the Tally array, in the order Hurdle takes them (12 R323). -/
def FC.tallySpare (c : FC) : Option Nat :=
  ((List.range 16).filter (fun w => decide (c.k.ways ≤ w)) ++ [16]).find? fun w =>
    !bitAt c.f.tallyOut w && !(c.f.tallyCopy.any fun x => x.new == w)
      && !((List.finRange 16).any fun l => decide (l.val < c.k.ways) && c.f.tallyPhys[l] == w)

/-- Start what a disabled Tally way brings (12 R322, R323); a way that a running copy fills waits for the end of the
copy. -/
def FC.disableTallyWay (c : FC) (phys : Nat) : FC :=
  match (List.finRange 16).find? fun l => decide (l.val < c.k.ways) && c.f.tallyPhys[l] == phys with
  | none =>
    if c.f.tallyCopy.any fun x => x.new == phys then
      { c with f := { c.f with tallyPend := (c.f.tallyPend.erase phys) ++ [phys] } }
    else { c with f := { c.f with tallyOut := putBit c.f.tallyOut phys true } }
  | some l =>
    if bitAt c.f.tallyOut phys || c.f.tallyCopy.any (fun x => x.old == phys) then c
    else
      match c.tallySpare with
      | some sp => { c with f := { c.f with tallyCopy := c.f.tallyCopy ++ [⟨l.val, phys, sp, 0⟩] } }
      | none =>
        let c := c.repSelf 0xB10 none 0x3E
        { c with acts := c.acts ++ [.exhausted 2], f := { c.f with tallyOut := putBit c.f.tallyOut phys true } }

/-- Start what a disabled Earmark way brings (12 R322, R323): the copy to the spare way, or, with none left, the
emptying of the way before it leaves service; a way that a running copy fills waits for the end of the copy. -/
def FC.disableEmWay (c : FC) (phys : Nat) : FC :=
  match (List.finRange 16).find? fun l => c.f.emPhys[l] == phys && !bitAt c.f.emDropped l.val with
  | none =>
    if c.f.emCopy.any fun x => x.new == phys then
      { c with f := { c.f with emPend := (c.f.emPend.erase phys) ++ [phys] } }
    else { c with f := { c.f with emOut := putBit c.f.emOut phys true } }
  | some l =>
    if bitAt c.f.emOut phys || c.f.emCopy.any (fun x => x.old == phys) then c
    else if !bitAt c.f.emOut 16 && !((List.finRange 16).any fun x => c.f.emPhys[x] == 16)
        && !(c.f.emCopy.any fun x => x.new == 16) then
      { c with f := { c.f with emCopy := c.f.emCopy ++ [⟨l.val, phys, 16, 0⟩] } }
    else
      let c := c.repSelf 0xB10 none 0x3E
      { c with acts := c.acts ++ [.exhausted 3], f := { c.f with emCopy := c.f.emCopy ++ [⟨l.val, phys, phys, 0⟩] } }

/-- The array whose physical way a failure counts for: the Pool's tags and data are one way, and so are the three parts
of an Earmark way (06 R162, 12 R322). -/
def wayArray (a : ArrayKind) : ArrayKind :=
  match a with
  | .emTagB | .emPayload => .emTagA
  | .poolTag => .poolData
  | a => a

/-- Count a failure of a physical way of an array and act on it (06 R162, 12 R322). -/
def FC.wayFail (c : FC) (a : ArrayKind) (phys : Nat) : FC :=
  let r := countFail c.fails c.p.val (wayArray a) phys c.now
  let c := { c with fails := r.1 }
  if r.2 then
    match a with
    | .tally => c.disableTallyWay phys
    | .emTagA | .emTagB | .emPayload => c.disableEmWay phys
    | .poolTag | .poolData => c.disablePoolWay phys
    | .poolSet | .pred => c
  else c

/-- Note a failing record found in this cycle (12 R318). -/
def FC.note (c : FC) (a : ArrayKind) (i : Nat) (uc : Bool) : FC :=
  { c with f := { c.f with found := (c.f.found.filter fun x => x.cyc == c.cyc) ++ [⟨c.cyc, a, i, uc⟩] } }

/-- A failure of the record was found in this cycle already (12 R318). -/
def FC.noted (c : FC) (a : ArrayKind) (i : Nat) : Bool := c.f.found.any fun x => x.cyc == c.cyc && x.arr == a && x.idx == i

/-- The record at entry `i` of an array failed its check (12 R311): the code is filed, the failure noted. -/
def FC.recBad (c : FC) (code : Nat) (addr : Option Addr) (a : ArrayKind) (i : Nat) : FC :=
  (c.repSelf code addr c.atype).note a i (codeClass (BitVec.ofNat 12 code) == .uc)

/-- The same in an array of ways, the failure counted against the physical way. -/
def FC.recFail (c : FC) (code : Nat) (addr : Option Addr) (a : ArrayKind) (i : Nat) : FC :=
  (c.recBad code addr a i).wayFail a (i % 17)

/-! ### Running an event on a fold -/

/-- The snoop-out or completion queue of an item: target die and class (03 R95). -/
def InjItem.queue (i : InjItem) : Bool × Die × Cls := (i.net == .snp, dieOf i.flit.tgt, i.cls)

/-- One of the queues that `key` sorts items into is full (17 R456); `kind` is 0 for memory, 1 for snoop-out, 2 for
completion queues, whose depths the spec does not give (log entry 38). -/
def queueFull {α κ : Type} [BEq κ] (kind : α → Nat) (key : α → κ) (l : List α) : Bool :=
  l.any fun x => decide (Config.queueDepth (kind x) ≤ (l.filter fun y => key y == key x).length)

/-- A snoop-out or completion queue of a fold is full. -/
def Paddock.outHeld (q : Paddock) (p : PFold) : Bool :=
  queueFull (fun i : InjItem => if i.net == .snp then 1 else 2) InjItem.queue
    (q.stream.inj.filter fun i => i.pos == fordOfFold p)

/-- The context of physical fold p of die d. -/
def State.fc (s : State) (d : Die) (p : PFold) : FC :=
  let q := s.pad d
  let n := q.repl.carries d p
  { k := s.krovol, die := d, p := p, n := n.getD 0, carried := n.isSome, repl := q.repl
    unreach := q.conf.unreach, now := q.now, cyc := q.aon.hcycle, f := q.folds[p], fails := q.aon.wayFails
    outHeld := q.outHeld p }

/-- Service hours for a record's STAMP_H (12 R331). -/
def Paddock.hours (q : Paddock) : Nat := q.hurdle.hourBase.toNat + q.now / 3600000000000

/-- A record of 12 R330 with its CRC. -/
def hurdleRec (kind : Nat) (d : Die) (pf arr bank index spare hours : Nat) : BitVec 64 :=
  let v := kind + d.val * 2 ^ 4 + pf * 2 ^ 7 + arr * 2 ^ 10 + bank * 2 ^ 13 + index * 2 ^ 21 + spare * 2 ^ 32
    + (hours % 2 ^ 23) * 2 ^ 33
  BitVec.ofNat 64 (v + (crc8 56 v).toNat * 2 ^ 56)

/-- Two records name the same repair: equal in bits [32:4] (12 R334). -/
def sameRec (a b : BitVec 64) : Bool := bits a 4 29 == bits b 4 29

/-- Two records name the same act: equal in KIND and in what they name. -/
def sameAct (a b : BitVec 64) : Bool := bits a 0 33 == bits b 0 33

/-- A report of a paddock's Hurdle (13 R344), with its subject. -/
def State.hurdleTell (s : State) (d : Die) (code : Nat) (subject : AgentId) : State :=
  s.file d ⟨BitVec.ofNat 12 code, agent d 127, subject, none, 0x3E#6, (s.pad d).now, 0, none, false⟩

/-- A report of a paddock's Hurdle about itself. -/
def State.hurdleRep (s : State) (d : Die) (code : Nat) : State := s.hurdleTell d code (agent d 127)

/-- A record enters a paddock's log shadow (12 R333, R334): event 0x07, or 0xB05 when it is full. -/
def State.hurdleStore (s : State) (d : Die) (r : BitVec 64) : State :=
  let q := s.pad d
  if q.aon.hlog.length < 128 then
    (s.modPad d fun q => { q with aon := { q.aon with
      hlog := q.aon.hlog ++ [r], hlogUnread := putBit q.aon.hlogUnread q.aon.hlog.length true } }).event
        7 d (q.aon.hlog.length + 1)
  else s.hurdleRep d 0xB05

/-- Append a record of a repair, or of a pending test, decided in the field: 0xB03 where it is recorded (12 R333). -/
def State.hurdleAppend (s : State) (d : Die) (r : BitVec 64) : State :=
  let t := s.hurdleStore d r
  if (s.pad d).aon.hlog.length < 128 then t.hurdleRep d 0xB03 else t

/-- A pending row test is recorded and waits for the next array initialisation of its fold (12 R329). -/
def State.pendingRow (s : State) (d : Die) (r : BitVec 64) : State :=
  if (s.pad d).hurdle.queued.any (sameAct r) then s
  else (s.hurdleAppend d r).modPad d fun q => { q with hurdle := { q.hurdle with queued := q.hurdle.queued ++ [r] } }

/-- An event of 11 R302 happened: the recheck of the envelopes is due (at the leader's Shepherd). -/
def State.recheckDue (s : State) (d : Die) : State :=
  match s.leadOf d with
  | none => s
  | some l => s.modPad l fun q => { q with shep := { q.shep with recheck :=
      match q.shep.recheck with
      | some t => some t
      | none => some (s.pad d).now } }

/-- What Hurdle does with one act of a fold (12 R333, R337). -/
def State.hurdleAct (s : State) (d : Die) (p : PFold) (a : HurdleAct) : State :=
  match a with
  | .exhausted b =>
    (s.modPad d fun q => { q with hurdle := { q.hurdle with exh := putBit q.hurdle.exh b true } }).recheckDue d
  | .repair kind arr way =>
    let r := hurdleRec kind d p.val arr.no 0 way 0 (s.pad d).hours
    if (s.pad d).aon.hlog.any (sameAct r) then s else s.hurdleAppend d r
  | .poolSweepDone => s

/-- Put a fold's context back: the fold, the failure stamps, its flits, then its reports and repairs. -/
def State.putFc (s : State) (c : FC) : State :=
  let s := s.modPad c.die fun q => Paddock.offer { q with
    folds := vset q.folds c.p c.f
    aon := { q.aon with wayFails := c.fails } } c.out
  let s := s.fileAll c.die c.reps
  c.acts.foldl (fun t a => t.hurdleAct c.die c.p a) s

/-- Run an event on physical fold p of die d. -/
def State.runFold (s : State) (d : Die) (p : PFold) (g : FC → FC) : State := s.putFc (g (s.fc d p))

end Sys2Proof.Machine
end

