-- ==== Sys2Proof/Machine/Holders.lean ====
section
/-!
DEFINITION. Finding the holders (04): the Tally lookup with its recomputation, the Tally shadow, Earmark with its
pointer rules, replacement and check failures.
-/

namespace Sys2Proof.Machine

/-! ### Tally (04 R100 to R105) -/

/-- The physical way that plays used way `w` at a row of a slice, a copy in progress considered (12 R322). -/
def Fold.tallyPhysAt (f : Fold) (g : GateN) (row w : Nat) : Nat :=
  match f.tallyCopy.head? with
  | some x =>
    if x.way = w then (if g.val * 2048 + row < x.ptr then x.new else x.old)
    else f.tallyPhys[Fin.ofNat 16 w]
  | none => f.tallyPhys[Fin.ofNat 16 w]

/-- Key of a Tally entry (12 R316). -/
def Fold.tallyKey (f : Fold) (g : GateN) (row w : Nat) : Nat :=
  (g.val * 2048 + row) * 17 + f.tallyPhysAt g row w

/-- Write a Tally entry with a good check. -/
def Fold.tallyWrite (f : Fold) (g : GateN) (row w : Nat) (tag : BitVec 35) (st : BitVec 2) : Fold :=
  let r := if st = 0 then tallyDflt else tallyRec tag st
  { f with tally := smSet f.tally tallyDflt (f.tallyKey g row w) r }

/-- A Tally match: cluster, way, state. -/
structure TallyHit where
  g : GateN
  w : Nat
  st : BitVec 2
  deriving DecidableEq, Repr

/-- The used (cluster, way) pairs of a row. -/
def FC.tallyWays (c : FC) : List (GateN × Nat) :=
  (gateNs.filter fun g => c.k.hasGate c.die g.val).flatMap fun g => (List.range c.k.ways).map fun w => (g, w)

/-- The matches of a line (04 R102). -/
def FC.tallyHits (c : FC) (l : Line) : List TallyHit :=
  let row := c.k.rowOfLine l
  let tag := tallyTag l
  c.tallyWays.filterMap fun (g, w) =>
    match smFind c.f.tally (c.f.tallyKey g row w) with
    | some r => if r.ok && r.st ≠ 0 && r.tag == tag then some ⟨g, w, r.st⟩ else none
    | none => none

/-- The entries of the line's row that fail their check. -/
def FC.tallyBad (c : FC) (l : Line) : List (GateN × Nat) :=
  let row := c.k.rowOfLine l
  c.tallyWays.filter fun (g, w) =>
    match smFind c.f.tally (c.f.tallyKey g row w) with
    | some r => !r.ok
    | none => false

/-- Set the state of every entry of cluster g that records the line. -/
def FC.tallySetState (c : FC) (l : Line) (g : GateN) (st : BitVec 2) : FC :=
  let row := c.k.rowOfLine l
  (c.tallyHits l).foldl (fun c h =>
    if h.g == g then { c with f := c.f.tallyWrite h.g row h.w (tallyTag l) st } else c) c

/-- The failing Tally entries of `l` are filed and counted, in the order of their physical ways (12 R322), those apart
that were found failing in this cycle already (12 R318). -/
def FC.tallyFail (c : FC) (row : Nat) (l : List (GateN × Nat)) : FC :=
  let at' (ph : Nat) : List (GateN × Nat) := l.filter fun x => c.f.tallyPhysAt x.1 row x.2 == ph
  let keys := (List.range 17).flatMap fun ph => (at' ph).map fun x => (x.1.val * 2048 + row) * 17 + ph
  (keys.filter fun i => !c.noted .tally i).foldl (fun c i => c.recFail 0x201 none .tally i) c

/-- The UNSURE marks of a window that is still open (04 R122). -/
def FC.unsureNow (c : FC) : List (GateN × Nat) := if c.now < c.f.unsureEnd then c.f.unsure else []

/-- Mark (g, row) UNSURE and open the window of 04 R122, restarted at the present Tide. -/
def FC.markUnsure (c : FC) (g : GateN) (row : Nat) : FC :=
  let u := c.unsureNow
  { c with f := { c.f with
      unsure := if u.contains (g, row) then u else u ++ [(g, row)]
      unsureEnd := c.now + 1000000 } }

/-! ### The Tally shadow (04 R106 to R109) -/

/-- Read the shadow: one bad copy is rewritten from the other (0x210); two bad or differing copies are 0x211. -/
def FC.shadowCheck (c : FC) : FC :=
  c.f.shadow.foldl (fun c e =>
    let i := c.f.shadow.findIdx (fun x => x == e)
    let a := some (lineAddr e.a.line)
    if e.a.ok && e.b.ok then
      if e.a == e.b then c else (c.repSelf 0x211 none c.atype)
    else if e.a.ok then
      { c.repSelf 0x210 a c.atype with f := { c.f with shadow := c.f.shadow.set i ⟨e.a, e.a⟩ } }
    else if e.b.ok then
      { c.repSelf 0x210 a c.atype with f := { c.f with shadow := c.f.shadow.set i ⟨e.b, e.b⟩ } }
    else c.repSelf 0x211 none c.atype) c

/-- The clusters that valid shadow entries name for a line. -/
def Fold.shadowGates (f : Fold) (l : Line) : List GateN :=
  ((f.shadow.filter fun e => e.a.line == l).map fun e => e.a.gate).eraseDups

/-- Add a shadow entry. -/
def Fold.shadowAdd (f : Fold) (g : GateN) (l : Line) (unrep : Bool) : Fold :=
  { f with shadow := f.shadow ++ [⟨shadowCopy g l unrep, shadowCopy g l unrep⟩] }

/-- A shadow entry that a Put matches (04 R108). -/
def ShadowRec.matches (e : ShadowRec) (g : GateN) (l : Line) (op : ReqOp) : Bool :=
  e.a.gate == g && e.a.line == l && (op == .putDirty || (op == .putClean && e.a.unreported))

/-- The shadow holds an entry that a Put matches. -/
def Fold.shadowHas (f : Fold) (g : GateN) (l : Line) (op : ReqOp) : Bool := f.shadow.any fun e => e.matches g l op

/-- Free the oldest entry that a Put matches (04 R108): the fills held for the shadow become eligible in the next
cycle (03 R76). -/
def FC.shadowFree (c : FC) (g : GateN) (l : Line) (op : ReqOp) : FC :=
  match takeFirst (fun e : ShadowRec => e.matches g l op) c.f.shadow with
  | some (_, rest) =>
    let free (i : PenItem) : PenItem := if i.shadowHold then { i with shadowHold := false, notBefore := c.cyc + 1 } else i
    { c with f := { c.f with
        shadow := rest
        shadowFrom := if 64 ≤ c.f.shadow.length then c.cyc + 1 else c.f.shadowFrom
        pens := c.f.pens.map free } }
  | none => c

/-! ### Earmark (04 R110 to R116) -/

/-- Earmark states (04 R111); SHR has its three pointers, each empty or not. -/
inductive EmState where
  | unt | shr (p0 p1 p2 : Option AgentId) | exc (a : AgentId) | mus (dies : BitVec 8)
  deriving DecidableEq, Repr

/-- An empty pointer: LOCAL 127 (04 R111). -/
def emNoPtr : Nat := 127

/-- A pointer field. -/
def emPtr (p : Option AgentId) : Nat :=
  match p with
  | some a => a.toNat
  | none => emNoPtr

/-- The pointer that a field holds. -/
def emPtrOf (a : AgentId) : Option AgentId := if localOf a = 127 then none else some a

/-- The payload word of a state (04 R111). -/
def EmState.pay (x : EmState) : BitVec 32 :=
  match x with
  | .unt => 0
  | .shr a b c => BitVec.ofNat 32 (1 + emPtr a * 2 ^ 2 + emPtr b * 2 ^ 12 + emPtr c * 2 ^ 22)
  | .exc a => BitVec.ofNat 32 (2 + a.toNat * 2 ^ 2 + emNoPtr * 2 ^ 12 + emNoPtr * 2 ^ 22)
  | .mus ds => BitVec.ofNat 32 (3 + ds.toNat * 2 ^ 2)

/-- The state a payload word holds. -/
def emStateOf (w : BitVec 32) : EmState :=
  let ptr (i : Nat) : AgentId := BitVec.ofNat 10 (bits w (2 + 10 * i) 10)
  match bits w 0 2 with
  | 0 => .unt
  | 1 => .shr (emPtrOf (ptr 0)) (emPtrOf (ptr 1)) (emPtrOf (ptr 2))
  | 2 => .exc (ptr 0)
  | _ => .mus (BitVec.ofNat 8 (bits w 2 8))

/-- The agents that an SHR state names. -/
def EmState.sharers (x : EmState) : List AgentId :=
  match x with
  | .shr a b c => [a, b, c].filterMap id
  | _ => []

/-- Empty the SHR pointers that `ok` does not keep, each of the others in its place; with none left the state is
UNT (04 R112). -/
def EmState.keepPtrs (x : EmState) (ok : AgentId → Bool) : EmState :=
  match x with
  | .shr a b c =>
    let f (p : Option AgentId) : Option AgentId := p.filter ok
    if (f a).isNone && (f b).isNone && (f c).isNone then .unt else .shr (f a) (f b) (f c)
  | x => x

/-- A way copy that takes its way out of service instead (12 R323). -/
def WayCopy.retires (x : WayCopy) : Bool := x.new == x.old

/-- The physical way that plays logical Earmark way `w` at a set, none when it is out of service. -/
def Fold.emPhysAt (f : Fold) (set w : Nat) : Option Nat :=
  if bitAt f.emDropped w then none
  else match f.emCopy.head? with
    | some x =>
      if x.way = w then (if set < x.ptr then (if x.retires then none else some x.new) else some x.old)
      else some f.emPhys[Fin.ofNat 16 w]
    | none => some f.emPhys[Fin.ofNat 16 w]

/-- Key of an Earmark entry. -/
def Fold.emKey (f : Fold) (set w : Nat) : Option Nat := (f.emPhysAt set w).map fun p => set * 17 + p

/-- The stored entry of a logical way. -/
def Fold.emAt (f : Fold) (set w : Nat) : EmRec :=
  match f.emKey set w with
  | some k => smGet f.em emDflt k
  | none => { emDflt with dead := true }

/-- Write an entry of a logical way. -/
def Fold.emPut (f : Fold) (set w : Nat) (r : EmRec) : Fold :=
  match f.emKey set w with
  | some k => { f with em := smSet f.em emDflt k r }
  | none => f

/-- Write a state into a way with good checks, or free it (04 R112). NRU is set for a new entry; a rewritten one keeps
its own (04 R114). -/
def Fold.emWrite (f : Fold) (set w : Nat) (tag : BitVec 31) (x : EmState) : Fold :=
  let old := f.emAt set w
  match x with
  | .unt => f.emPut set w { emDflt with nru := old.nru }
  | x => f.emPut set w (emRec tag x.pay (old.nru || old.pay.toNat % 4 = 0 || old.tagA != tag))

/-- The members of the Range as Earmark marks them. -/
def FC.presentDies (c : FC) : BitVec 8 := c.repl.present

/-- Check both tag copies of the entry of a set in a physical way (04 R125). -/
def FC.emTagCheck (c : FC) (set ph : Nat) : FC :=
  let i := set * 17 + ph
  match smFind c.f.em i with
  | none => c
  | some r =>
    if r.dead then c
    else
      let okA := r.crcA == emTagCrc r.tagA
      let okB := r.crcB == emTagCrc r.tagB
      if (!okA && !okB) || (okA && okB && r.tagA != r.tagB) then
        let c := c.recFail 0x303 none .emTagA i
        { c with f := { c.f with
            em := smSet c.f.em emDflt i { r with dead := true }
            emSuspect := if c.f.emSuspect.contains set then c.f.emSuspect else c.f.emSuspect ++ [set] } }
      else if okA && okB then c
      else
        let tag := if okA then r.tagA else r.tagB
        let r' : EmRec := { r with tagA := tag, crcA := emTagCrc tag, tagB := tag, crcB := emTagCrc tag }
        let c := c.recFail 0x302 (some (lineAddr (lineOfEm c.n set tag))) (if okA then .emTagB else .emTagA) i
        { c with f := { c.f with em := smSet c.f.em emDflt i r' } }

/-- Check the payload of the entry of a set in a physical way (04 R124). -/
def FC.emPayCheck (c : FC) (set ph : Nat) : FC :=
  let i := set * 17 + ph
  match smFind c.f.em i with
  | none => c
  | some r =>
    if r.dead || r.payCrc == emPayCrc r.pay then c
    else
      let pay := (EmState.mus c.presentDies).pay
      let c := c.recFail 0x301 (some (lineAddr (lineOfEm c.n set r.tagA))) .emPayload i
      { c with f := { c.f with em := smSet c.f.em emDflt i { r with pay := pay, payCrc := emPayCrc pay } } }

/-- Check one way of a set at a lookup (04 R124, R125). -/
def FC.emCheckWay (c : FC) (set w : Nat) : FC :=
  match c.f.emPhysAt set w with
  | none => c
  | some ph => (c.emTagCheck set ph).emPayCheck set ph

/-- Check every way of a set (04 R124, R125), in the order of the physical ways: of two that reach the rule of 12 R322
at one Tide the lower is disabled first. -/
def FC.emCheck (c : FC) (set : Nat) : FC :=
  (List.range 17).foldl (fun c ph =>
    match (List.range 16).find? fun w => c.f.emPhysAt set w == some ph with
    | some w => c.emCheckWay set w
    | none => c) c

/-- The valid way that records a line, with its state. -/
def FC.emFind (c : FC) (l : Line) : Option (Nat × EmState) :=
  let set := emSet l
  let tag := emTag l
  (List.range 16).findSome? fun w =>
    let r := c.f.emAt set w
    if !r.dead && r.pay.toNat % 4 ≠ 0 && r.tagA == tag then some (w, emStateOf r.pay) else none

/-- Mark a way as used (04 R114). -/
def Fold.emTouch (f : Fold) (set w : Nat) : Fold := f.emPut set w { f.emAt set w with nru := true }

/-- Replace the state that a line's entry holds; UNT frees the way (04 R112). -/
def FC.emSetState (c : FC) (l : Line) (w : Nat) (x : EmState) : FC :=
  { c with f := c.f.emWrite (emSet l) w (emTag l) x }

/-- Remove an agent from a record: SHR with no pointer left and EXC become UNT; MUS is unchanged (04 R112). -/
def EmState.without (x : EmState) (a : AgentId) : EmState :=
  match x with
  | .exc y => if y == a then .unt else .exc y
  | x => x.keepPtrs fun y => y != a

/-- Empty the pointer to an agent (04 R112). -/
def FC.emDropPtr (c : FC) (l : Line) (a : AgentId) : FC :=
  match c.emFind l with
  | some (w, x) => if x == x.without a then c else c.emSetState l w (x.without a)
  | none => c

/-- The dies of a list of agents. -/
def diesOfAgents (l : List AgentId) : BitVec 8 := l.foldl (fun ds a => putBit ds (dieOf a).val true) 0

/-- The state after agent `a` is granted S or E (04 R112). -/
def EmState.grant (x : EmState) (a : AgentId) (e : Bool) : EmState :=
  match x, e with
  | .mus ds, _ => .mus (putBit ds (dieOf a).val true)
  | _, true => .exc a
  | .unt, false => .shr (some a) none none
  | .exc y, false => if y == a then .exc a else .shr (some y) (some a) none
  | .shr p q r, false =>
    if (EmState.shr p q r).sharers.contains a then .shr p q r
    else
      match p, q, r with
      | none, q, r => .shr (some a) q r
      | some x, none, r => .shr (some x) (some a) r
      | some x, some y, none => .shr (some x) (some y) (some a)
      | some x, some y, some z => .mus (diesOfAgents [a, x, y, z])

/-- The way is reserved for a request (04 R115). -/
def Fold.emReservedBy (f : Fold) (set w : Nat) : Option TTIdx :=
  (f.emReserved.find? fun r => r.1 == set && r.2.1 == w).map fun r => r.2.2

/-- How 04 R114 answers: a free way, a way whose line must be back-invalidated first, or none eligible. -/
inductive WayChoice where
  | free (w : Nat)
  | evict (w : Nat)
  | none
  deriving DecidableEq, Repr

/-- Choose a way of a set (04 R114). -/
def FC.emChoose (c : FC) (set : Nat) : WayChoice × FC :=
  let usable (w : Nat) : Bool := (c.f.emPhysAt set w).isSome && !(c.f.emAt set w).dead
    && (c.f.emReservedBy set w).isNone
  let occupied (w : Nat) : Bool := (c.f.emAt set w).pay.toNat % 4 ≠ 0
  match (List.range 16).find? fun w => usable w && !occupied w with
  | some w => (.free w, c)
  | Option.none =>
    let elig := (List.range 16).filter fun w =>
      usable w && occupied w && !c.blocked (lineOfEm c.n set (c.f.emAt set w).tagA)
    match elig.find? fun w => !(c.f.emAt set w).nru with
    | some w => (.evict w, c)
    | Option.none =>
      match elig.head? with
      | Option.none => (.none, c)
      | some w =>
        let f := (List.range 16).foldl (fun f x => f.emPut set x { f.emAt set x with nru := false }) c.f
        (.evict w, { c with f := f })

/-- Reserve a way for an entry. -/
def FC.emReserve (c : FC) (set w : Nat) (i : TTIdx) : FC :=
  { c with f := { c.f with emReserved := c.f.emReserved ++ [(set, w, i)] } }

/-- End every reservation an entry holds. -/
def FC.emUnreserve (c : FC) (i : TTIdx) : FC :=
  { c with f := { c.f with emReserved := c.f.emReserved.filter fun r => r.2.2 ≠ i } }

end Sys2Proof.Machine
end

