-- ==== Sys2Proof/Machine/PoolOps.lean ====
section
/-!
DEFINITION. The memory side of a fold (06): Pool ways and their checks, replacement, commits and fills, the Eddy,
miss registers, prefetch, Millpond lines, and the memory queues (03 R95, R88).
-/

namespace Sys2Proof.Machine

/-! ### Ways (06 R143, R163) -/

/-- The physical way that plays a logical way at a set; none when it is out of service there. -/
def Fold.poolPhysAt (f : Fold) (set : Nat) (w : Fin 16) : Option Nat :=
  match f.poolSweep.find? fun s => s.way == w && s.kind ≠ .convert with
  | some s =>
    if s.kind = .retire then (if set < s.ptr then none else some s.old)
    else some (if set < s.ptr then s.new else s.old)
  | none => if bitAt f.poolDisabled w.val then none else some f.poolPhys[w]

/-- A logical way whose conversion to Millpond has passed a set (06 R170). -/
def Fold.converted (f : Fold) (set : Nat) (w : Fin 16) : Bool :=
  bitAt f.poolConv w.val && !(f.poolSweep.any fun s => s.way == w && s.kind = .convert && decide (s.ptr ≤ set))

/-- The logical way holds cache lines at a set. -/
def Fold.isCacheWay (f : Fold) (set : Nat) (w : Fin 16) : Bool := !f.isMill w.val && !f.converted set w

/-- The stored tag entry of a physical way. -/
def Fold.ptag (f : Fold) (set ph : Nat) : PoolTagRec := smGet f.poolTag poolTagDflt (set * 17 + ph)

/-- The stored data of a physical way. -/
def Fold.pdata (f : Fold) (set ph : Nat) : LineData := smGet f.poolData 0 (set * 17 + ph)

/-- The set state word. -/
def Fold.pset (f : Fold) (set : Nat) : PoolSetRec := smGet f.poolSet poolSetDflt set

/-- Write a set state word with a good check. -/
def Fold.psetPut (f : Fold) (set : Nat) (plru : BitVec 15) (dv : BitVec 17) : Fold :=
  { f with poolSet := smSet f.poolSet poolSetDflt set (poolSetRec plru dv) }

/-- Write a tag entry, sealed, with its second DIRTY copy in DV (06 R145). -/
def Fold.ptagPut (f : Fold) (set ph : Nat) (r : PoolTagRec) : Fold :=
  let w := f.pset set
  let f := { f with poolTag := smSet f.poolTag poolTagDflt (set * 17 + ph) r.seal }
  if bitAt w.dv ph = r.dirty then f else f.psetPut set w.plru (putBit w.dv ph r.dirty)

/-- Write a line into a physical way: data, DCRC, flags. -/
def Fold.pline (f : Fold) (set ph : Nat) (tag : BitVec 32) (d : LineData) (dirty poison : Bool) : Fold :=
  ({ f with poolData := smSet f.poolData 0 (set * 17 + ph) d }).ptagPut set ph
    ⟨tag, true, dirty, false, poison, dataCrc d, 0⟩

/-- Make a way invalid, its stored data kept under a good check. -/
def Fold.pinval (f : Fold) (set ph : Nat) : Fold :=
  let d := f.pdata set ph
  let t := if d = 0 then poolTagDflt else { poolTagDflt with dcrc := dataCrc d }
  f.ptagPut set ph t

/-! ### Pseudo-LRU (06 R147) -/

/-- `plru_touch` from node `n` for the `lvl` low bits of way `w`. -/
def plruTouch (lvl w n : Nat) (p : BitVec 15) : BitVec 15 :=
  match lvl with
  | 0 => p
  | m + 1 =>
    let right := w.testBit m
    plruTouch m w (2 * n + bit right) (putBit p (n - 1) !right)

/-- `plru_victim` from node `n` over the `2^lvl` ways from `lo`, among the eligible ways. -/
def plruVictim (lvl : Nat) (p : BitVec 15) (elig : Nat → Bool) (n lo : Nat) : Nat :=
  match lvl with
  | 0 => lo
  | m + 1 =>
    let half := 2 ^ m
    let anyIn (b : Nat) : Bool := (List.range half).any fun i => elig (b + i)
    let r0 := bitAt p (n - 1)
    let r1 := if r0 && !anyIn (lo + half) then false else r0
    let r2 := if !r1 && !anyIn lo then true else r1
    plruVictim m p elig (2 * n + bit r2) (if r2 then lo + half else lo)

/-- Touch a logical way of a set. -/
def Fold.ptouch (f : Fold) (set : Nat) (w : Fin 16) : Fold :=
  let s := f.pset set
  f.psetPut set (plruTouch 4 w.val 1 s.plru) s.dv

/-! ### Checks at a lookup (06 R158, R160) -/

/-- Check one physical way's tag entry (06 R158). -/
def FC.poolCheckWay (c : FC) (set : Nat) (ph : Nat) : FC :=
  match smFind c.f.poolTag (set * 17 + ph) with
  | none => c
  | some r =>
    if r.ok then c
    else
      let lw := (List.finRange 16).find? fun w => c.f.poolPhysAt set w == some ph
      let mill := match lw with
        | some w => !c.f.isCacheWay set w
        | none => false
      let d := c.f.pdata set ph
      let i := set * 17 + ph
      if mill then
        let t : PoolTagRec := ⟨0, true, false, false, r.poison, dataCrc d, 0⟩
        FC.recFail { c with f := c.f.ptagPut set ph t } 0x404 none .poolTag i
      else if bitAt (c.f.pset set).dv ph then
        let lost := if c.f.poolLost.contains set then c.f.poolLost else c.f.poolLost ++ [set]
        FC.recFail { c with f := { c.f.pinval set ph with poolLost := lost } } 0x405 none .poolTag i
      else FC.recFail { c with f := c.f.pinval set ph } 0x404 none .poolTag i

/-- Check the set state word of a set (06 R160). -/
def FC.poolSetCheck (c : FC) (set : Nat) : FC :=
  let w := c.f.pset set
  if w.ok then c
  else
    let dv := (List.range 17).foldl (fun (dv : BitVec 17) ph =>
      let r := c.f.ptag set ph
      putBit dv ph (if r.ok then r.dirty else true)) 0
    let c := c.recBad 0x406 none .poolSet set
    { c with f := c.f.psetPut set 0 dv }

/-- Check the set state word of a set and the tag entry of one way, before either is used (06 R158, R160, 12 R311). -/
def FC.poolCheckOne (c : FC) (set ph : Nat) : FC := (c.poolSetCheck set).poolCheckWay set ph

/-- Check the set state word and the tag entries of a set (06 R158, R160), those of the ways that `skip` names apart. -/
def FC.poolCheckBut (c : FC) (skip : Nat → Bool) (set : Nat) : FC :=
  (List.range 17).foldl (fun c ph => if skip ph then c else c.poolCheckWay set ph) (c.poolSetCheck set)

/-- Check the set state word and every tag entry of a set. -/
def FC.poolCheck (c : FC) (set : Nat) : FC := c.poolCheckBut (fun _ => false) set

/-- The logical cache way that holds a line, with its physical way. -/
def FC.poolFind (c : FC) (l : Line) : Option (Fin 16 × Nat) :=
  let set := poolSet l
  (List.finRange 16).findSome? fun w =>
    match c.f.poolPhysAt set w with
    | some ph =>
      let r := c.f.ptag set ph
      if c.f.isCacheWay set w && r.valid && r.tag == poolTag l then some (w, ph) else none
    | none => none

/-! ### Memory queues (03 R95, R88) -/

/-- The operation is a write, which spends a write credit. -/
def MemOp.isWrite (o : MemOp) : Bool := o == .lineWrite || o == .devWrite

/-- The memory queue of a request: class, read or write, a[14:12] (03 R95). -/
def MemReq.queue (m : MemReq) : Cls × Bool × Nat := (m.cls, m.op.isWrite, bits m.line 6 3)

/-- Stage 12 is held by a full memory, snoop-out or completion queue (17 R456). -/
def FC.held (c : FC) : Bool := c.outHeld || queueFull (fun _ => 0) MemReq.queue c.f.memQ

/-- Queue a memory request. -/
def FC.memPush (c : FC) (m : MemReq) : FC := { c with f := { c.f with memQ := c.f.memQ ++ [m] } }

/-- Queue a line write. -/
def FC.memWrite (c : FC) (cls : Cls) (l : Line) (d : LineData) (poison : Bool) (p : MemFor) : FC :=
  c.memPush ⟨.lineWrite, cls, l, 0, 0, d, poison, p⟩

/-! ### The Eddy (06 R154, 05 R136) -/

/-- All 32 Eddy entries are in use. -/
def Fold.eddyFull (f : Fold) : Bool := decide (32 ≤ f.eddy.length)

/-- A dirty line leaves its way for the Eddy and its write is queued. -/
def FC.toEddy (c : FC) (cls : Cls) (l : Line) (d : LineData) (dcrc : BitVec 16) (poison : Bool) : FC :=
  let ed : EddyRec := { line := l, data := d, dcrc := dcrc, poison := poison }
  let c : FC := { c with f := { c.f with eddy := c.f.eddy ++ [ed] } }
  c.memWrite cls l d poison .eddy

/-- Read the `k`-th Eddy entry of a line, in order of entry, its check included (06 R157). -/
def FC.eddyNth (c : FC) (l : Line) (k : Nat) : Option (FC × LineData × Bool) :=
  match (c.f.eddy.filter fun e => e.line == l)[k]? with
  | none => none
  | some e =>
    if e.poison then some (c, e.data, true)
    else if e.dcrc == dataCrc e.data then some (c, e.data, false)
    else
      let c := c.repSelf 0x402 (some (lineAddr l)) c.atype
      let ed := updateWhere (fun x : EddyRec => x == e)
        (fun x => { x with poison := true, dcrc := dataCrc x.data }) c.f.eddy
      some ({ c with f := { c.f with eddy := ed } }, e.data, true)

/-- Read the newest Eddy entry of a line. -/
def FC.eddyRead (c : FC) (l : Line) : Option (FC × LineData × Bool) :=
  c.eddyNth l ((c.f.eddy.filter fun e => e.line == l).length - 1)

/-! ### Choosing a way (06 R146) -/

/-- The way may take a line (06 R146). -/
def FC.poolElig (c : FC) (set : Nat) (w : Fin 16) : Bool :=
  match c.f.poolPhysAt set w with
  | none => false
  | some ph =>
    let r := c.f.ptag set ph
    !c.f.isMill w.val && !bitAt c.f.poolConv w.val && !bitAt c.f.poolDisabled w.val
      && !(c.f.poolSweep.any fun s => s.way == w)
      && !(r.valid && c.blocked (lineOfPool c.n set r.tag))
      && !(r.valid && r.dirty && c.f.eddyFull)

/-- The way that takes a new line (06 R146). -/
def FC.poolChoose (c : FC) (set : Nat) : Option (Fin 16) :=
  let elig (i : Nat) : Bool := if h : i < 16 then c.poolElig set ⟨i, h⟩ else false
  match (List.finRange 16).find? fun w => c.poolElig set w &&
      (match c.f.poolPhysAt set w with
       | some ph => !(c.f.ptag set ph).valid
       | none => false) with
  | some w => some w
  | none =>
    if (List.range 16).any elig then some (Fin.ofNat 16 (plruVictim 4 (c.f.pset set).plru elig 1 0)) else none

/-- Check the data of a dirty way that is read out (06 R157). -/
def FC.dirtyCheck (c : FC) (set ph : Nat) : FC :=
  let r := c.f.ptag set ph
  let d := c.f.pdata set ph
  if r.valid && r.dirty && !r.poison && r.dcrc != dataCrc d then
    FC.recFail { c with f := c.f.ptagPut set ph { r with poison := true, dcrc := dataCrc d } } 0x402
      (some (lineAddr (lineOfPool c.n set r.tag))) .poolData (set * 17 + ph)
  else c

/-- Empty a way for another line: a dirty line goes to the Eddy, a clean one is dropped (06 R148, R154). Its tag entry
is checked before it is used (06 R158, 12 R311). -/
def FC.poolEvict (c : FC) (cls : Cls) (set ph : Nat) : FC :=
  let c := (c.poolCheckOne set ph).dirtyCheck set ph
  let r := c.f.ptag set ph
  if r.valid && r.dirty then
    c.toEddy cls (lineOfPool c.n set r.tag) (c.f.pdata set ph) r.dcrc r.poison
  else c

/-- Write a line into a chosen way, evicting what it held. -/
def FC.poolAlloc (c : FC) (cls : Cls) (l : Line) (w : Fin 16) (d : LineData) (dirty poison touch : Bool) : FC :=
  let set := poolSet l
  match c.f.poolPhysAt set w with
  | none => c
  | some ph =>
    let c := c.poolEvict cls set ph
    let f := c.f.pline set ph (poolTag l) d dirty poison
    { c with f := if touch then f.ptouch set w else f }

/-! ### Commits and fills (06 R148, R151) -/

/-- Mark the line's open miss registers STALE and free their waiters (06 R151). -/
def FC.markStale (c : FC) (l : Line) : FC :=
  let mine := c.f.mrs.filter fun m => m.line == l && !m.stale && !m.scrub
  let ids := mine.flatMap fun m => m.atts
  let mrs := updateWhere (fun m : MissReg => m.line == l) (fun m => { m with stale := true, atts := [] }) c.f.mrs
  let tt := updateWhere (fun e : TTEntry => ids.contains e.idx && e.ms == MemSide.waiting)
    (fun e => { e with ms := .unneeded, mr := none }) c.f.tt
  let c : FC := { c with f := { c.f with mrs := mrs, tt := tt } }
  c.evs 0x19 mine.length

/-- Write a Millpond line (06 R172); during a move its set is to be copied again (12 R327, step 3). -/
def FC.millWrite (c : FC) (slot : Nat × Nat) (d : LineData) (poison : Bool) : FC :=
  match c.f.poolPhysAt slot.1 (Fin.ofNat 16 slot.2) with
  | none => c
  | some ph =>
    let c := c.poolSetCheck slot.1
    let f := c.f.pline slot.1 ph 0 d false poison
    let again := f.refuseReq && !f.millDirty.contains slot.1
    { c with f := { f with millDirty := if again then f.millDirty ++ [slot.1] else f.millDirty } }

/-- Commit a full line under a write policy (06 R148). -/
def FC.commit (c : FC) (l : Line) (d : LineData) (poison : Bool) (wpolicy : BitVec 2) (cls : Cls)
    (mp : Option (Nat × Nat)) : FC :=
  let c := (c.ev 0x1A).markStale l
  match mp with
  | some slot => c.millWrite slot d poison
  | none =>
    let c := c.poolCheck (poolSet l)
    let wb := wpolicy == 0
    let toMem (c : FC) : FC := c.memWrite cls l d poison .commit
    match c.poolFind l with
    | some (w, ph) =>
      let set := poolSet l
      let c := { c with f := (c.f.pline set ph (poolTag l) d wb poison).ptouch set w }
      if wb then c else toMem c
    | none =>
      if wpolicy == 2 then toMem c
      else
        match c.poolChoose (poolSet l) with
        | none => toMem c
        | some w =>
          let c := c.poolAlloc cls l w d wb poison true
          if wb then c else toMem c

/-- Commit straight to the memory port (06 R166: Purge and SweepPurge that returned dirty data). -/
def FC.commitMem (c : FC) (l : Line) (d : LineData) (poison : Bool) (cls : Cls) (mp : Option (Nat × Nat)) : FC :=
  match mp with
  | some slot => ((c.ev 0x1A).markStale l).millWrite slot d poison
  | none => ((c.ev 0x1A).markStale l).memWrite cls l d poison .commit

/-- Write read data into the Pool (06 R146, R148). -/
def FC.fill (c : FC) (l : Line) (d : LineData) (wpolicy : BitVec 2) (cls : Cls) (touch : Bool) : FC :=
  if wpolicy == 2 then c
  else
    let c := c.poolCheck (poolSet l)
    if (c.poolFind l).isSome then c
    else
      match c.poolChoose (poolSet l) with
      | none => c
      | some w => c.poolAlloc cls l w d false false touch

/-! ### Reading the memory side (03 R86, 06 R149 to R159) -/

/-- What a read of the memory side finds. -/
inductive MsFound where
  | data (d : LineData) (poison : Bool)
  | miss (noWrite : Bool)
  deriving DecidableEq, Repr

/-- Read a Millpond line (06 R172): a failed check poisons it under 0x403. The PLRU is not touched (log entry 100). -/
def FC.millRead (c : FC) (slot : Nat × Nat) (a : Addr) : FC × MsFound :=
  match c.f.poolPhysAt slot.1 (Fin.ofNat 16 slot.2) with
  | none => (c, .data 0 true)
  | some ph =>
    let c := c.ev 0x1C
    let r := c.f.ptag slot.1 ph
    let d := c.f.pdata slot.1 ph
    if r.poison then (c, .data d true)
    else if r.dcrc == dataCrc d then (c, .data d false)
    else
      let c : FC := { c with f := c.f.ptagPut slot.1 ph { r with poison := true, dcrc := dataCrc d } }
      (c.recFail 0x403 (some a) .poolData (slot.1 * 17 + ph), .data d true)

/-- Read a Pool way that holds the line: good or poisoned data, or a refetch (06 R156, R157). -/
def FC.wayRead (c : FC) (l : Line) (w : Fin 16) (ph : Nat) : FC × MsFound :=
  let set := poolSet l
  let r := c.f.ptag set ph
  let d := c.f.pdata set ph
  if r.suspect then (c.ev 0x16, .miss true)
  else if r.poison then ({ c.ev 0x10 with f := (c.ev 0x10).f.ptouch set w }, .data d true)
  else if r.dcrc == dataCrc d then ({ c.ev 0x10 with f := (c.ev 0x10).f.ptouch set w }, .data d false)
  else if r.dirty then
    let c := c.ev 0x10
    let f := (c.f.ptagPut set ph { r with poison := true, dcrc := dataCrc d }).ptouch set w
    (FC.recFail { c with f := f } 0x402 (some (lineAddr l)) .poolData (set * 17 + ph), .data d true)
  else
    let c := c.ev 0x16
    let f := c.f.ptagPut set ph { r with suspect := true }
    (FC.recFail { c with f := f } 0x401 (some (lineAddr l)) .poolData (set * 17 + ph), .miss true)

/-- Read the memory side of a line without a miss register: a Millpond way, a Pool way, or the Eddy, be it older than a
write that went straight to memory (05 R136, R140; log entry 91). -/
def FC.msLook (c : FC) (l : Line) (mp : Option (Nat × Nat)) : FC × MsFound :=
  match mp with
  | some slot => c.millRead slot (lineAddr l)
  | none =>
    match c.poolFind l with
    | some (w, ph) => c.wayRead l w ph
    | none =>
      match c.eddyRead l with
      | some (c, d, p) => (c.ev 0x15, .data d p)
      | none => (c, .miss false)

/-- The lowest miss register not in use. -/
def freeMr (mrs : List MissReg) : Option Nat := (List.range 128).find? fun i => !(mrs.any fun m => m.idx == i)

/-- The prefetch target of a line at a logical fold (06 R153). -/
def prefetchTarget (n : LFold) (l : Line) : Option Line :=
  let a := l.toNat * 64
  let b := a / 256 * 256 + 256
  if b % 4096 = 0 then none else some (BitVec.ofNat 46 (b / 64 + lowBits n b))

/-- Open the prefetch miss register that a miss on `l` brings, where 06 R153 allows it; the target's Pool set is read
under its checks (06 R158, 12 R311). -/
def FC.prefetch (c : FC) (l : Line) (wpolicy : BitVec 2) (cls : Cls) : FC :=
  match prefetchTarget c.n l with
  | none => c
  | some t =>
    let busy := (c.f.eddy.any fun e => e.line == t) || (c.f.mrs.any fun m => m.line == t) || c.blocked t || wpolicy == 2
      || !c.f.pfEn || decide (128 - c.f.mrs.length < 16)
    let c := if busy then c else c.poolCheck (poolSet t)
    if busy || (c.poolFind t).isSome then c
    else
      match freeMr c.f.mrs with
      | none => c
      | some i =>
        let c := c.ev 0x12
        let m : MissReg :=
          { idx := i, line := t, cls := cls, wpolicy := wpolicy, prefetch := true, touch := false }
        let c : FC := { c with f := { c.f with mrs := c.f.mrs ++ [m] } }
        c.memPush ⟨.lineRead, cls, t, 0, 0, 0, false, .mr i⟩

/-- Open or attach to a miss register for an entry (06 R149 to R153); the entry's memory side follows. -/
def FC.openMr (c : FC) (e : TTEntry) (noWrite : Bool) : FC :=
  let setMs (c : FC) (m : MemSide) (mr : Option Nat) : FC := c.modEntry e.idx fun x => { x with ms := m, mr := mr }
  match c.f.mrs.find? fun m => m.line == e.line && !m.stale && !m.scrub with
  | some m =>
    if m.count < 8 then
      let c := (if m.prefetch then c.ev 0x13 else c).ev 0x14
      let mrs := updateWhere (fun x : MissReg => x.idx == m.idx)
        (fun x => { x with atts := x.atts ++ [e.idx], count := x.count + 1, touch := true }) c.f.mrs
      let c : FC := { c with f := { c.f with mrs := mrs } }
      setMs c .waiting (some m.idx)
    else setMs c .refused none
  | none =>
    match freeMr c.f.mrs with
    | none => setMs c .needMr none
    | some i =>
      let m : MissReg :=
        { idx := i, line := e.line, cls := e.flit.cls, wpolicy := e.wpolicy, opener := some e.idx,
          atts := [e.idx], noWrite := noWrite }
      let c : FC := { c with f := { c.f with mrs := c.f.mrs ++ [m] } }
      let c := c.memPush ⟨.lineRead, e.flit.cls, e.line, 0, 0, 0, false, .mr i⟩
      let c := setMs c .waiting (some i)
      if e.prefetch then c.prefetch e.line e.wpolicy e.flit.cls else c

/-- Start the memory-side read of an entry (03 R86). -/
def FC.msStart (c : FC) (e : TTEntry) : FC :=
  let r := c.msLook e.line e.mpSlot
  match r.2 with
  | .data d p => r.1.modEntry e.idx fun x => { x with ms := .held d p }
  | .miss nw => ((r.1.ev 0x11).openMr e nw)

/-- Data of the line from memory is delivered poisoned: its Pool set is LOST, its region write-back, and no valid way
holds it (06 R159). -/
def FC.isLost (c : FC) (l : Line) (wpolicy : BitVec 2) : Bool :=
  wpolicy == 0 && c.f.poolLost.contains (poolSet l) && (c.poolFind l).isNone

/-! ### Pool-side maintenance (06 R166) -/

/-- Whether the Pool action of a maintenance opcode must wait for an Eddy entry (06 R154). -/
def FC.maintWaits (c : FC) (op : ReqOp) (l : Line) : Bool :=
  op == .sweepPurge && c.f.eddyFull &&
    (match c.poolFind l with
     | some (_, ph) => (c.f.ptag (poolSet l) ph).dirty
     | none => false)

/-- The Pool action of Sweep, Purge or SweepPurge on a valid way (06 R166). `newer` tells that newer data of the line
was just committed to memory, so that the way's own is not written (log entry 11). Gives the lines written and
invalidated. -/
def FC.wayMaint (c : FC) (op : ReqOp) (set ph : Nat) (cls : Cls) (newer : Bool) : FC × Nat × Nat :=
  let c := if op == .purge || newer then c else c.dirtyCheck set ph
  let r := c.f.ptag set ph
  let d := c.f.pdata set ph
  let l := lineOfPool c.n set r.tag
  if op == .sweep then
    if r.dirty then
      let c := c.memWrite cls l d r.poison .commit
      ({ c with f := c.f.ptagPut set ph { r with dirty := false } }, 1, 0)
    else (c, 0, 0)
  else if op == .sweepPurge && r.dirty && !newer then
    let c := c.toEddy cls l d r.dcrc r.poison
    ({ c with f := c.f.pinval set ph }, 1, 1)
  else ({ c with f := c.f.pinval set ph }, 0, 1)

/-- The Pool action of Sweep, Purge or SweepPurge on a line (06 R166). -/
def FC.poolMaint (c : FC) (op : ReqOp) (l : Line) (cls : Cls) (newer : Bool) : FC × Nat × Nat :=
  let c := c.poolCheck (poolSet l)
  match c.poolFind l with
  | none => (c, 0, 0)
  | some (_, ph) => c.wayMaint op (poolSet l) ph cls newer

end Sys2Proof.Machine
end

