-- ==== Sys2Proof/Machine/Lookup.lean ====
section
/-!
DEFINITION. Serving a request, first half: the pens (03 R73 to R77), the lookup of 03 R84 and 04, victim ways
(02 R53, 04 R105), the predictor (07), and the snoop set of each row of 03 R90.
-/

namespace Sys2Proof.Machine

/-! ### The rows of 03 R90 -/

/-- Which row of 03 R90 an entry is served by. -/
inductive Row where
  | share | own | once | pushIO | pushFull | far | sweep | purge | sweepPurge | put | dev
  deriving DecidableEq, Repr

/-- The row of an opcode; `far` tells how an AtomicOp runs. -/
def ReqFlit.row (f : ReqFlit) (far : Bool) : Row :=
  match f.op with
  | .getShared => .share
  | .getOwned | .upgrade | .claim => .own
  | .getOnce => .once
  | .putDirty | .putCopy | .putClean => .put
  | .pushIO => .pushIO
  | .pushFull => .pushFull
  | .atomicOp => if far then .far else .own
  | .sweep => .sweep
  | .purge => .purge
  | .sweepPurge => .sweepPurge
  | .devRead | .devWrite | .reserved _ => .dev

/-- The row of an entry; a back-invalidation is served like an ownership row without a requester (04 R115). -/
def TTEntry.row (e : TTEntry) : Row := if e.isBinv then .own else e.flit.row e.far

/-- The snoop a row sends (03 R90). -/
def Row.snp (r : Row) : SnpOp :=
  match r with
  | .share => .share
  | .once | .sweep => .sweep
  | .pushFull | .purge => .purge
  | .own | .pushIO | .far | .sweepPurge | .put | .dev => .claim

/-- Rows that snoop every holder, the requester included. -/
def Row.every (r : Row) : Bool :=
  match r with
  | .pushIO | .pushFull | .far | .purge | .sweepPurge => true
  | _ => false

/-- Rows that snoop holders in S too. -/
def Row.claims (r : Row) : Bool := r == .own || r.every

/-- Rows that snoop at all. -/
def Row.snoops (r : Row) : Bool := r != .put && r != .dev

/-- Rows that grant the requester S or E. -/
def Row.grants (r : Row) : Bool := r == .share || r == .own

/-- Rows with one commit of their own (03 R81). -/
def Row.ownCommit (r : Row) : Bool := r == .pushIO || r == .pushFull || r == .far

/-- The snoop takes every copy away. -/
def SnpOp.invalidates (o : SnpOp) : Bool := o == .claim || o == .purge

/-- The entry needs data from the memory side or its line buffer. -/
def TTEntry.needsData (e : TTEntry) : Bool :=
  match e.flit.op with
  | .getShared | .getOwned | .getOnce | .pushIO | .atomicOp => !e.isBinv
  | .upgrade => e.fetch
  | _ => false

/-- The access type of an entry (13 R346). -/
def TTEntry.atype (e : TTEntry) : BitVec 6 := if e.isBinv then 0x3E else e.flit.op.code

/-- A request that 02 R45, R47 or 07 R181 answers with Err PROTOCOL. -/
def ReqFlit.bad (f : ReqFlit) : Bool :=
  match f.op with
  | .reserved _ => true
  | .getOnce | .pushIO | .devRead | .devWrite =>
    decide (f.len.toNat = 0) || decide (64 < offOf f.addr + f.len.toNat)
  | .atomicOp =>
    match asizeBytes f.asize with
    | none => true
    | some n => decide (9 < f.atop.toNat) || (n == 16 && f.atop != 5) || decide (offOf f.addr % n ≠ 0)
  | _ => false

/-- The request runs without a cache of its requester: NOCACHE, or a non-caching requester (02 R72). -/
def FC.noCacheReq (c : FC) (f : ReqFlit) : Bool := c.nonCaching f.src || (f.op == .atomicOp && f.nocache)

/-- The request fills, or as a far atomic empties, a way of a cluster of this die (02 R53, 04 R139). -/
def FC.namesWay (c : FC) (f : ReqFlit) : Bool :=
  c.localGate f.src && (match f.op with
    | .getShared | .getOwned | .upgrade | .claim => true
    | .atomicOp => !f.nocache
    | _ => false)

/-! ### Pens (03 R73 to R77) -/

/-- Source group of a request at die p (03 R73). -/
def srcGroup (p : Die) (a : AgentId) : Nat :=
  let d := dieOf a
  let l := localOf a
  if d == p && l < 4 then l
  else if d == p && 8 ≤ l && l < 32 then 4 + (l - 8) / 2
  else if l < 4 then 16 + 2 * d.val
  else 17 + 2 * d.val

/-- The pen of a request (03 R73). -/
def penOf (p : Die) (f : ReqFlit) : Nat := srcGroup p f.src * 4 + f.cls.val

/-- A snoop of the entry reaches an agent (03 R81). -/
def FC.reaches (c : FC) (t : TTEntry) (a : AgentId) : Bool :=
  t.sent.any fun x =>
    match x with
    | .agent b => a == b
    | .muster d skip =>
      dieOf a == d && decide (localOf a ≠ skip.toNat) &&
        ((isStile a && c.k.isCaching d (stileOf a).val) || (isGate a && d != c.die))
    | .probe _ _ => false

/-- The item is a crossing Put (03 R81), with the entry that absorbs it. -/
def FC.crossing (c : FC) (f : ReqFlit) : Option TTEntry :=
  if f.op == .putDirty || f.op == .putCopy then
    match c.blocker (lineOf f.addr) with
    | some t => if c.reaches t f.src then some t else none
    | none => none
  else none

/-- The DAT flit of a request in the data inbox (02 R48). -/
def Fold.datOf (f : Fold) (r : ReqFlit) : Option DatFlit :=
  f.inbox.find? fun d => d.src == r.src && d.txid == r.txid

/-- Pen arbitration sees a block only from the cycle after the allocation (03 R84), and an unblock only in the cycle
after it (03 R80). -/
def FC.seenBlocked (c : FC) (l : Line) : Bool :=
  match c.blocker l with
  | some t => decide (t.allocCycle < c.cyc)
  | none => c.f.unblockedAt == c.cyc && c.f.unblocked.contains l

/-- A pen item is eligible (03 R75, R76, R82), `room` telling that a transaction-table entry is free for it. -/
def FC.eligibleIf (c : FC) (room : Bool) (earlier : List PenItem) (it : PenItem) : Bool :=
  let f := it.flit
  let x := (c.crossing f).isSome
  (f.op.isDev || x || !c.seenBlocked (lineOf f.addr))
    && (!f.op.carriesData || (c.f.datOf f).isSome)
    && !(earlier.any fun o => o.flit.src == f.src && lineOf o.flit.addr == lineOf f.addr)
    && (x || (room && !c.f.ttStop))
    && !it.shadowHold && decide (it.notBefore ≤ c.cyc)
    && !(c.namesWay f && f.vdirty && (decide (64 ≤ c.f.shadow.length) || decide (c.cyc < c.f.shadowFrom)))

/-- A pen item is eligible. -/
def FC.eligible (c : FC) (earlier : List PenItem) (it : PenItem) : Bool := c.eligibleIf (c.arbRoom it.flit) earlier it

/-- A pen item fails 03 R75 only for want of an entry (17 R456). -/
def FC.wantsEntry (c : FC) : Bool :=
  (List.range c.f.pens.length).any fun i =>
    match c.f.pens[i]? with
    | some it => !c.arbRoom it.flit && c.eligibleIf true (c.f.pens.take i) it
    | none => false

/-- Rank of a pen item (03 R77, 05 R135). -/
def FC.rank (c : FC) (it : PenItem) : Nat × Nat × Nat :=
  let aged := decide (it.arrive + 2048 ≤ c.cyc) || (c.crossing it.flit).isSome
  (if aged then 0 else 1 + it.flit.cls.val, it.arrive, it.port.val)

/-- Lexicographic order of ranks. -/
def rankLt (a b : Nat × Nat × Nat) : Bool :=
  decide (a.1 < b.1) || (a.1 == b.1 && (decide (a.2.1 < b.2.1) || (a.2.1 == b.2.1 && decide (a.2.2 < b.2.2))))

/-- The eligible item of the lowest rank among `rest`, `earlier` the items before them in order of arrival. -/
def FC.best (c : FC) (earlier rest : List PenItem) : Option PenItem :=
  match rest with
  | [] => none
  | it :: t =>
    let r := c.best (earlier ++ [it]) t
    if c.eligible earlier it then
      match r with
      | some o => if rankLt (c.rank o) (c.rank it) then some o else some it
      | none => some it
    else r

/-- The item the fold pulls in this cycle (03 R77): one a cycle, none while the fold is drained or halted (03 R97, 13
R342) or stage 12 is held (17 R456). -/
def FC.pull (c : FC) : Option PenItem :=
  if c.f.drain || c.f.ftHalt || decide (c.cyc < c.f.pullFrom) || c.held then none else c.best [] c.f.pens

/-- The pipeline slot of this cycle is idle: nothing was pulled in it and no pen item is eligible (06 R163, 12 R317). -/
def FC.idleNow (c : FC) : Bool := decide (c.f.pullFrom ≤ c.cyc) && c.pull.isNone

/-- Take an item out of its pen, with its DAT flit out of the data inbox. -/
def FC.takeItem (c : FC) (it : PenItem) : FC :=
  let pens := c.f.pens.erase it
  let inbox := c.f.inbox.filter fun d => !(it.flit.op.carriesData && d.src == it.flit.src && d.txid == it.flit.txid)
  { c with f := { c.f with pens := pens, inbox := inbox } }

/-! ### The predictor (07 R188 to R192) -/

/-- Read the predictor entry of an index; a bad entry is reset under 0x501 (07 R192). -/
def FC.predRead (c : FC) (i : Nat) (atype : BitVec 6) : FC × PredRec :=
  let r := smGet c.f.pred predDflt i
  if r.ok then (c, r)
  else
    let pred := smSet c.f.pred predDflt i predDflt
    (FC.note (FC.repSelf { c with f := { c.f with pred := pred } } 0x501 none atype) .pred i false, predDflt)

/-- The execution of an AtomicOp (07 R184). -/
def FC.chooseFar (c : FC) (f : ReqFlit) (bw : BitVec 2) (ctr : BitVec 3) : Bool :=
  if c.noCacheReq f then true
  else if bw == 1 then false
  else if bw == 2 then true
  else decide (4 ≤ ctr.toNat)

/-- The update of 07 R190, with its Census counts. -/
def FC.predUpdate (c : FC) (f : ReqFlit) (l : Line) (far : Bool) (targets : List SnpTarget) : FC :=
  let i := predIdx l
  let r := smGet c.f.pred predDflt i
  let recent := r.valid && r.src != f.src && decide (c.now < r.stamp.toNat + 2000)
  let put (c : FC) (x : PredRec) : FC := { c with f := { c.f with pred := smSet c.f.pred predDflt i x } }
  let up := if r.ctr == 7 then r.ctr else r.ctr + 1
  let down := if r.ctr == 0 then r.ctr else r.ctr - 1
  match f.op with
  | .atomicOp =>
    let ctr := if recent then up else down
    let c := if ctr.toNat > r.ctr.toNat then c.ev 0x2A else if ctr.toNat < r.ctr.toNat then c.ev 0x2B else c
    put c (predRec ctr true (!far) f.src (BitVec.ofNat 64 c.now))
  | .getOwned | .upgrade | .claim =>
    let hit := targets.any fun x =>
      match x with
      | .agent a => a == r.src
      | .muster d skip => dieOf r.src == d && decide (localOf r.src ≠ skip.toNat)
      | .probe _ _ => false
    if recent && r.near && hit then
      let c := if up != r.ctr then c.ev 0x2A else c
      put c (predRec up r.valid r.near r.src r.stamp)
    else c
  | _ => c

/-! ### Lookup (03 R84, 04) -/

/-- What the records show of a line, for one request. -/
structure Look where
  own : Option TallyHit            -- the requester's own Tally record
  others : List TallyHit           -- Tally records of other clusters
  unsure : List GateN              -- clusters treated as possible owners: 04 R107, R121, R122
  shadow : List GateN              -- those of them that a shadow entry names
  probes : List (GateN × Nat)
  em : Option (Nat × EmState)
  mus : Option (BitVec 8)          -- the dies a Muster goes to
  suspect : Bool
  deriving DecidableEq, Repr

/-- Rewrite the bad Tally entries of a row that open fills wrote in stage 12 (04 R121); each counts as a recomputation
(04 R129). -/
def FC.tallyRepair (c : FC) (row : Nat) : FC :=
  c.f.tt.foldl (fun c e =>
    if !e.isBinv && c.namesWay e.flit && e.row.grants && c.k.rowOfLine e.line == row && e.phase != .orphan
        && e.phase != .lookup then
      let g := gateOf e.flit.src
      let w := e.flit.vway.toNat
      match smFind c.f.tally (c.f.tallyKey g row w) with
      | some r =>
        if r.ok then c
        else
          let st := if e.phase == .ackwait then e.grant.tally
            else if e.flit.op == .getShared then 1 else 2
          let c := c.tallyFail row [(g, w)]
          let f := c.f.tallyWrite g row w (tallyTag e.line) st
          { c with f := { f with recomputes := f.recomputes + 1 } }
      | none => c
    else c) c

/-- Empty the pointers and bits of dies outside PKG_POP.PRESENT (04 R113). -/
def FC.emPresent (c : FC) (l : Line) : FC :=
  match c.emFind l with
  | none => c
  | some (w, x) =>
    let here (a : AgentId) : Bool := bitAt c.repl.present (dieOf a).val
    let y : EmState := match x with
      | .exc a => if here a then .exc a else .unt
      | .mus ds => .mus (ds &&& c.repl.present)
      | x => x.keepPtrs here
    if x == y then c else c.emSetState l w y

/-- The failing Tally entries of a line's row that a request has probed. `skip` is the way of the requester's slice
that the request is about to overwrite; its failing entry is not probed (04 R121). -/
def FC.badProbes (c : FC) (f : ReqFlit) (l : Line) (skip : Option Nat) : List (GateN × Nat) :=
  (c.tallyBad l).filter fun x => !(c.localGate f.src && x.1 == gateOf f.src && some x.2 == skip)

/-- The checks of a lookup, with their repairs and reports (04 R109, R113, R121, R124, R125, 06 R158, R160). -/
def FC.lookCheck (c : FC) (l : Line) : FC :=
  let row := c.k.rowOfLine l
  let c := c.shadowCheck.tallyRepair row
  let c := c.tallyFail row (c.tallyBad l)
  let set := emSet l
  let c := (c.emCheck set).emPresent l
  let c := match c.repl.mpSlot (lineAddr l) with
    | some m => c.poolCheck m.1
    | none => c.poolCheck (poolSet l)
  let c := match c.emFind l with
    | some (w, _) => { c with f := c.f.emTouch set w }
    | none => c
  let c := if (c.f.shadowGates l).isEmpty then c else c.ev 0x25
  if c.f.emSuspect.contains set then c.ev 0x27 else c

/-- What the checked records show of a line for a request. -/
def FC.view (c : FC) (f : ReqFlit) (l : Line) (skip : Option Nat) : Look :=
  let row := c.k.rowOfLine l
  let em := c.emFind l
  let hits := c.tallyHits l
  let isReq (x : GateN) : Bool := c.localGate f.src && x == gateOf f.src
  let sh := c.f.shadowGates l
  let bad := c.badProbes f l skip
  let doubt := ((bad.map fun x => x.1) ++ (c.unsureNow.filter (fun x => x.2 == row)).map (fun x => x.1)).filter
    fun x => !(hits.any fun h => h.g == x)
  let suspect := em.isNone && c.f.emSuspect.contains (emSet l)
  { own := hits.find? fun h => isReq h.g
    others := hits.filter fun h => !isReq h.g
    unsure := (sh ++ doubt).eraseDups
    shadow := sh
    probes := bad
    em := em
    mus := match em with
      | some (_, .mus ds) => some ds
      | _ => if suspect then some c.repl.present else none
    suspect := suspect }

/-- Possible owners among the directly snooped agents (03 R87): Tally E, shadow, unsure, EXC. -/
def Look.owners (k : Look) (d : Die) (req : AgentId) (every : Bool) : List AgentId :=
  let t := (k.others ++ (if every then k.own.toList else [])).filter fun h => h.st == 2
  let x : List AgentId := match k.em with
    | some (_, .exc a) => if a != req || every then [a] else []
    | _ => []
  ((t.map fun h => Machine.agent d h.g.val) ++ (k.unsure.map fun g => Machine.agent d g.val) ++ x).eraseDups

/-- Holders in S among the directly snooped agents. -/
def Look.sharers (k : Look) (d : Die) (req : AgentId) (every : Bool) : List AgentId :=
  let t := (k.others ++ (if every then k.own.toList else [])).filter fun h => h.st == 1
  let x : List AgentId := match k.em with
    | some (_, x) => x.sharers.filter fun a => every || a != req
    | none => []
  (t.map fun h => Machine.agent d h.g.val) ++ x

/-- The snoops of a row (03 R90), the requester skipped by a Muster where 02 R55 says so. -/
def FC.targets (c : FC) (k : Look) (r : Row) (req : AgentId) : List SnpTarget :=
  if !r.snoops then []
  else
    let o := k.owners c.die req r.every
    let s := if r.claims then k.sharers c.die req r.every else []
    let direct : List SnpTarget := ((o ++ s).eraseDups).map SnpTarget.agent
    let mus : List SnpTarget := match k.mus with
      | some ds => ((diesOf ds).filter fun d => bitAt c.repl.present d.val).map fun d =>
          SnpTarget.muster d (if r.grants && dieOf req == d then BitVec.ofNat 7 (localOf req) else 127)
      | none => []
    mus ++ direct

/-- The die a snoop goes to. -/
def SnpTarget.die (home : Die) (x : SnpTarget) : Die :=
  match x with
  | .agent a => dieOf a
  | .muster d _ => d
  | .probe _ _ => home

/-- The row needs a snoop to an unreachable die (10 R266). -/
def FC.cutOff (c : FC) (ts : List SnpTarget) : Bool := ts.any fun x => bitAt c.unreach (x.die c.die).val

/-- Send the snoop of a target. -/
def FC.sendSnoop (c : FC) (cls : Cls) (op : SnpOp) (i : TTIdx) (l : Line) (x : SnpTarget) : FC :=
  let t : TxId := BitVec.ofNat 12 i.val
  match x with
  | .agent a => (c.send .snp cls (.snp ⟨op, c.agent, a, t, l, false, 0⟩)).ev 0x20
  | .muster d skip =>
    (c.send .snp cls (.snp ⟨op, c.agent, Machine.agent d skip.toNat, t, l, true, 0⟩)).ev 0x21
  | .probe g w =>
    let la : Line := BitVec.ofNat 46 (c.k.setOfLine l + w * 8192)
    (c.send .snp cls (.snp ⟨.wayProbe, c.agent, Machine.agent c.die g.val, t + 512, la, false, 0⟩)).ev 0x26

/-! ### Victim ways (02 R53, 04 R105, R121, R139) -/

/-- The stored entry of the way a request names. -/
def FC.victimRec (c : FC) (f : ReqFlit) (l : Line) : TallyRec :=
  smGet c.f.tally tallyDflt (c.f.tallyKey (gateOf f.src) (c.k.rowOfLine l) f.vway.toNat)

/-- How the old contents of the named way are handled, and the line moved: to the shadow (KIND UNREPORTED or not),
or to the UNSURE mark (04 R121), or not at all. -/
inductive Victim where
  | nothing
  | shadow (line : Line) (unreported : Bool)
  | unsure
  deriving DecidableEq, Repr

/-- The row of 02 R53 for the named way. -/
def FC.victim (c : FC) (f : ReqFlit) (l : Line) : Victim :=
  let r := c.victimRec f l
  if r.ok then
    if r.st == 0 || r.tag == tallyTag l then .nothing
    else if f.vvalid && !f.vdirty then .nothing
    else .shadow (c.k.lineOfTally c.n (c.k.rowOfLine l) r.tag) !f.vvalid
  else if f.vvalid && !f.vdirty then .nothing
  else .unsure

/-- The ways other than the named one in which the requester's slice records the line (04 R105). -/
def FC.strayWays (c : FC) (f : ReqFlit) (l : Line) : List Nat :=
  ((c.tallyHits l).filter fun h => h.g == gateOf f.src && h.w != f.vway.toNat).map fun h => h.w

/-- Shadow entries a fill needs at its lookup. -/
def FC.shadowNeed (c : FC) (f : ReqFlit) (l : Line) (near : Bool) : Nat :=
  (match c.victim f l with
   | .shadow _ _ => 1
   | _ => 0) + (if near then (c.strayWays f l).length else 0)

/-- Move the old contents of the named way, and stray records of the line, to the shadow. -/
def FC.moveVictim (c : FC) (f : ReqFlit) (l : Line) (near : Bool) : FC :=
  let g := gateOf f.src
  let row := c.k.rowOfLine l
  let c := match c.victim f l with
    | .nothing => c
    | .shadow v u => { c with f := c.f.shadowAdd g v u }
    | .unsure => c.markUnsure g row
  if near then
    (c.strayWays f l).foldl (fun c w =>
      { c with f := (c.f.tallyWrite g row w 0 0).shadowAdd g l true }) c
  else c

/-- Write the named way in stage 12 (04 R103, R139). -/
def FC.writeVictim (c : FC) (f : ReqFlit) (l : Line) (near : Bool) : FC :=
  let g := gateOf f.src
  let row := c.k.rowOfLine l
  let w := f.vway.toNat
  if near then { c with f := c.f.tallyWrite g row w (tallyTag l) (if f.op == .getShared then 1 else 2) }
  else
    let r := c.victimRec f l
    if r.ok && r.st != 0 && r.tag == tallyTag l then c
    else { c with f := c.f.tallyWrite g row w 0 0 }

end Sys2Proof.Machine
end

