-- ==== Sys2Proof/Machine/Flow.lean ====
section
/-!
DEFINITION. Serving a request, second half: allocation, the rows of 03 R90 with their data, commits, end records and
answers, back-invalidation (04 R115), Puts (03 R81, R92, 04 R123), snoop answers, and abandonment (03 R83).
-/

namespace Sys2Proof.Machine

/-! ### Operands of AtomicOp (07 R181 to R183) -/

/-- Operand of `n` bytes at a byte offset of a line, as a number. -/
def operandAt (d : LineData) (off n : Nat) : Nat := (d.toNat / 2 ^ (8 * off)) % 2 ^ (8 * n)

/-- An `n`-byte operand read as two's complement. -/
def signedOf (n v : Nat) : Int := if v < 2 ^ (8 * n - 1) then (v : Int) else (v : Int) - (2 ^ (8 * n) : Nat)

/-- The new value of an operation (07 R181). -/
def atomicNew (atop : BitVec 4) (n old op cmp : Nat) : Nat :=
  let m := 2 ^ (8 * n)
  match atop.toNat with
  | 0 => (old + op) % m
  | 1 => old &&& op
  | 2 => old ||| op
  | 3 => old ^^^ op
  | 4 => op
  | 5 => if old = cmp then op else old
  | 6 => if signedOf n op < signedOf n old then op else old
  | 7 => if signedOf n old < signedOf n op then op else old
  | 8 => min old op
  | 9 => max old op
  | _ => old

/-- An `n`-byte value placed at a byte offset, every other byte 0. -/
def placeAt (v off : Nat) : LineData := BitVec.ofNat 512 (v * 2 ^ (8 * off))

/-- A far AtomicOp on a line: the new line, and the old value as DataToReq carries it (07 R183). -/
def atomicLine (f : ReqFlit) (line push : LineData) : LineData × LineData :=
  let off := offOf f.addr
  let n := (asizeBytes f.asize).getD 1
  let old := operandAt line off n
  let new := atomicNew f.atop n old (operandAt push off n) (operandAt push (off ^^^ 32) n)
  (mergeBytes line (placeAt new off) off n, placeAt old off)

/-! ### Entries -/

/-- Allocate an entry with the attributes of 01 R28; none while no index is free. -/
def FC.alloc (c : FC) (f : ReqFlit) (af arrive : Nat) (port : Fin 4) : FC × Option TTEntry :=
  match freeIdx c.f with
  | none => (c, none)
  | some i =>
    let a := c.repl.attrOf f.addr
    let e : TTEntry :=
      { idx := i, flit := f, line := lineOf f.addr, seq := c.f.ttSeq, arrive := arrive, port := port
        wpolicy := a.wpolicy, prefetch := a.prefetch, bwMode := a.bwMode, mpAlias := a.mpAlias
        mpSlot := c.repl.mpSlot f.addr, allocCycle := c.cyc + 1, af := af
        shareBy := c.now + c.repl.share[f.cls] }
    let c : FC := { c with f := { c.f with
      tt := c.f.tt ++ [e], ttSeq := c.f.ttSeq + 1, ttHead := c.f.ttHead.next } }
    (c.ttCompare.ev 0x08, some e)

/-- A back-invalidation no longer frees its way for entry `i`. -/
def TTEntry.forget (e : TTEntry) (i : TTIdx) : TTEntry :=
  if e.binvFor == some i then { e with binvFor := none } else e

/-- Nothing of the fold waits for entry `i` or serves it any more: its reservations, its back-invalidation's claim, its
miss register's places. -/
def FC.detach (c : FC) (i : TTIdx) : FC :=
  let c := c.emUnreserve i
  let mrs := c.f.mrs.map fun m =>
    { m with atts := m.atts.filter (fun x => x ≠ i), rider := if m.rider == some i then none else m.rider }
  { c with f := { c.f with mrs := mrs, tt := c.f.tt.map fun e => e.forget i } }

/-- Release an entry; its line unblocks in this cycle (03 R80). -/
def FC.free (c : FC) (i : TTIdx) : FC :=
  match c.entry i with
  | none => c
  | some e =>
    let c := c.detach i
    let before := if c.f.unblockedAt == c.cyc then c.f.unblocked else []
    let c : FC := { c with f := { c.f with
      tt := c.f.tt.filter fun x => x.idx ≠ i
      ttTail := c.f.ttTail.next
      unblocked := if e.blocks then before ++ [e.line] else before
      unblockedAt := c.cyc } }
    c.ttCompare

/-- Snoop answers and data flits are complete (03 R79). -/
def TTEntry.settled (e : TTEntry) : Bool :=
  e.waits.isEmpty && decide (e.wbAcks ≤ e.putsAbsorbed) && decide (e.dataAcks ≤ e.dataGot) && e.probeData.isEmpty

/-- The data an entry can supply: its line buffer after the commit, or the memory side (03 R86). -/
def TTEntry.copy (e : TTEntry) : Option (LineData × Bool) :=
  if e.dirty then some (e.lb, e.poison)
  else match e.ms with
    | .held d p => some (d, p)
    | _ => none

/-- Commit an entry's line buffer under the row (03 R81, R85, 06 R166). -/
def FC.commitLb (c : FC) (e : TTEntry) : FC :=
  let c := if e.row == .purge || e.row == .sweepPurge
    then c.commitMem e.line e.lb e.poison e.flit.cls e.mpSlot
    else c.commit e.line e.lb e.poison e.wpolicy e.flit.cls e.mpSlot
  c.modEntry e.idx fun x => { x with commit := true, ms := .unneeded, mr := none }

/-- What an entry has of the memory side once its line buffer holds dirty data: a read not begun is not needed. -/
def MemSide.superseded (m : MemSide) : MemSide :=
  match m with
  | .needMr | .refused => .unneeded
  | m => m

/-- Dirty data reaches an entry's line buffer, and is committed at once but for the rows with one commit of their
own (03 R81, R86); an orphan commits it always (03 R83). -/
def FC.takeDirty (c : FC) (i : TTIdx) (d : LineData) (poison : Bool) : FC :=
  let c := c.modEntry i fun x =>
    { x with lb := d, dirty := true, poison := poison, commit := false, ms := x.ms.superseded }
  match c.entry i with
  | some e => if e.row.ownCommit && e.phase != .orphan then c else c.commitLb e
  | none => c

/-! ### End records in Earmark (04 R112, R120, R123) -/

/-- What the records of an entry's line become in Earmark when it ends: `g` is what the requester is granted (true
E, false S), `ab` tells an abandonment, which leaves the requester its copy. -/
def FC.endState (c : FC) (e : TTEntry) (g : Option Bool) (ab : Bool) : EmState :=
  let req := e.flit.src
  let emReq := !e.isBinv && c.k.caches req && !c.localGate req
  let g := if emReq then g else none
  let cur : EmState := match c.emFind e.line with
    | some (_, x) => x
    | none => .unt
  let add (x : EmState) : EmState := match g with
    | some b => x.grant req b
    | none => x
  let snooped (a : AgentId) : Bool := e.sent.any fun x => x == .agent a
  let out (x : EmState) : EmState := if emReq && !ab && g.isNone && e.row.grants then x.without req else x
  match e.row with
  | .put =>
    if e.flit.op == .putCopy && emReq && e.grant == .e then
      match cur with
      | .unt => .exc req
      | .exc y => .mus (diesOfAgents [req, y])
      | .mus ds => .mus (putBit ds (dieOf req).val true)
      | x => .mus (diesOfAgents (req :: x.sharers))
    else cur
  | .dev => cur
  | r =>
    if e.mus then
      let keep := if ab && emReq && r.grants && bitAt e.musDies (dieOf req).val
        then putBit e.keep (dieOf req).val true else e.keep
      add (if keep == 0 then .unt else .mus keep)
    else
      match cur with
      | .mus ds => add (.mus ds)
      | .unt => add .unt
      | .shr p q t =>
        if r.claims then add ((EmState.shr p q t).keepPtrs fun a => ab && a == req && !snooped a)
        else out (add (.shr p q t))
      | .exc y =>
        if r.claims then
          if ab && y == req && !snooped y then .exc y else add .unt
        else if snooped y then
          if e.keep == 0 then add .unt
          else if r == .share then add (.shr (some y) none none) else .exc y
        else out (add (.exc y))

/-- The entry needs an Earmark way before it can end with record `x` (04 R114, R116, R126). -/
def FC.wantsWay (c : FC) (e : TTEntry) (x : EmState) : Bool := x != .unt && (c.emFind e.line).isNone

/-- Write the end record; a record that finds no entry takes the entry's way. -/
def FC.endRecord (c : FC) (e : TTEntry) (x : EmState) : FC :=
  let c := match c.emFind e.line with
    | some (w, y) => if x == y then c else c.emSetState e.line w x
    | none =>
      match x, e.wayNeed with
      | .unt, _ => c
      | x, .ready w => c.emSetState e.line w x
      | _, _ => c
  c.emUnreserve e.idx

/-! ### Back-invalidation (04 R114 to R116) -/

/-- An entry may be taken for a back-invalidation (04 R115). -/
def FC.binvRoom (c : FC) : Bool := decide (8 < 512 - c.f.tt.length) && !c.f.ttStop

/-- Take an entry for the back-invalidation of the line in way `w` of a set (04 R115, steps 1 and 2), with class and
deadline of `like`, for the entry `for'` that waits for the way; the snoops it needs (step 3). None while no index is
free. -/
def FC.openBinv (c : FC) (set w : Nat) (like : ReqFlit) (af arrive : Nat) (port : Fin 4) (for' : Option TTIdx) :
    FC × Option (TTIdx × List SnpTarget) :=
  let v := lineOfEm c.n set (c.f.emAt set w).tagA
  let f : ReqFlit := { op := .getOwned, src := c.agent, tgt := c.agent, txid := 0, cls := like.cls,
                       dl := like.dl, addr := lineAddr v }
  match c.alloc f af arrive port with
  | (c, none) => (c, none)
  | (c, some b) =>
    let c := c.emPresent v
    let st : EmState := match c.emFind v with
      | some (_, x) => x
      | none => .unt
    let ts : List SnpTarget := match st with
      | .exc a => [.agent a]
      | .mus ds => (diesOf ds).map fun d => .muster d 127
      | x => x.sharers.map SnpTarget.agent
    let c := c.modEntry b.idx fun x =>
      { x with isBinv := true, binvFor := for', binvWay := some w, phase := .snoop, snpOp := .claim
               waits := ts, sent := ts, couldDirty := true
               mus := match st with
                 | .mus _ => true
                 | _ => false }
    (c, some (b.idx, ts))

/-- Send the snoops of a back-invalidation. -/
def FC.sendBinv (c : FC) (cls : Cls) (b : TTIdx) (ts : List SnpTarget) : FC :=
  match c.entry b with
  | some x => ts.foldl (fun c y => c.sendSnoop cls .claim b x.line y) c
  | none => c

/-- Start the back-invalidation of the line in way `w` for entry `e`; where it needs a snoop to an unreachable die it
ends at once under 0xD02, and `e` chooses a way again (10 R266; log entry 93). -/
def FC.startBinv (c : FC) (e : TTEntry) (w : Nat) : FC :=
  let set := emSet e.line
  match c.openBinv set w e.flit e.af e.arrive e.port (some e.idx) with
  | (c, none) => c
  | (c, some (b, ts)) =>
    if c.cutOff ts then
      let v := match c.entry b with
        | some x => x.line
        | none => e.line
      let c := (c.rep 0xD02 c.agent (some (lineAddr v)) 0x3E).ev 0x31
      (c.free b).modEntry e.idx fun x => { x with wayNeed := .choose }
    else ((c.emReserve set w e.idx).modEntry e.idx fun x => { x with wayNeed := .binv }).sendBinv e.flit.cls b ts

/-- Choose a way for an entry (04 R114), the set's tags checked first (04 R125): a free one is reserved, an occupied one
is back-invalidated. -/
def FC.chooseWay (c : FC) (e : TTEntry) : FC :=
  let set := emSet e.line
  match (c.emCheck set).emChoose set with
  | (.free w, c) => (c.emReserve set w e.idx).modEntry e.idx fun x => { x with wayNeed := .ready w }
  | (.evict w, c) =>
    if c.binvRoom then c.startBinv e w else c.modEntry e.idx fun x => { x with wayNeed := .choose }
  | (.none, c) => c.modEntry e.idx fun x => { x with wayNeed := .choose }

/-- The record of a back-invalidated line becomes UNT and its way free. -/
def FC.binvRecord (c : FC) (b : TTEntry) : FC :=
  match c.emFind b.line with
  | some (w, _) => c.emSetState b.line w .unt
  | none => c

/-- A back-invalidation ends (04 R115, step 5): its way is free, and reserved for the entry that still waits for it. -/
def FC.endBinv (c : FC) (b : TTEntry) : FC :=
  let c := c.binvRecord b
  let c := (FC.free { c with f := { c.f with emBinv := c.f.emBinv + 1 } } b.idx).ev 0x0C
  match b.binvWay, b.binvFor with
  | some w, some t =>
    match c.entry t with
    | some e =>
      if e.wayNeed == .binv && c.f.emReservedBy (emSet b.line) w == some t
      then c.modEntry t fun x => { x with wayNeed := .ready w } else c
    | none => c
  | _, _ => c

/-! ### Ending a row (03 R89, R93, 05 R140) -/

/-- Send the Comp of an entry. -/
def FC.comp (c : FC) (e : TTEntry) (grant : CacheState) (data : Bool) : FC :=
  c.rsp e.flit.cls .comp e.flit.src e.flit.txid (BitVec.ofNat 12 e.idx.val) grant data (grant != .i) false 0

/-- End a row that grants (GetShared, GetOwned, Upgrade, Claim, near AtomicOp). -/
def FC.endGrant (c : FC) (e : TTEntry) (g : Option Bool) : FC :=
  let st : CacheState := match g with
    | some true => .e
    | some false => .s
    | none => .i
  let c := c.endRecord e (c.endState e g false)
  let t := c.f.tallyWrite (gateOf e.flit.src) (c.k.rowOfLine e.line) e.flit.vway.toNat (tallyTag e.line) st.tally
  let c := if c.namesWay e.flit then { c with f := t } else c
  let c := match e.needsData && !e.dataSent, e.copy with
    | true, some (d, p) => c.dataToReq e.flit d p
    | _, _ => c
  let c := c.comp e st e.needsData
  match g with
  | some _ => c.modEntry e.idx fun x => { x with phase := .ackwait, grant := st, dataSent := true }
  | none => c.free e.idx

/-- End a far AtomicOp (05 R140, 07 R183, R187). -/
def FC.endFar (c : FC) (e : TTEntry) (d : LineData) (p : Bool) : FC :=
  let c := c.endRecord e (c.endState e none false)
  if p then
    let c := if e.dirty && !e.commit then c.commitLb e else c
    let old := placeAt (operandAt d (offOf e.flit.addr) ((asizeBytes e.flit.asize).getD 1)) (offOf e.flit.addr)
    let c := (c.repSelf 0x502 (some e.flit.addr) e.atype).dataToReq e.flit old true
    (c.comp e .i true).free e.idx
  else
    let r := atomicLine e.flit d e.push
    let c := ((c.ev 0x1B).commit e.line r.1 e.pushPoison e.wpolicy e.flit.cls e.mpSlot).dataToReq e.flit r.2 false
    (c.comp e .i true).free e.idx

/-- End a PushIO: read-modify-write (06 R155). -/
def FC.endPushIO (c : FC) (e : TTEntry) (d : LineData) (p : Bool) : FC :=
  let c := c.endRecord e (c.endState e none false)
  let new := mergeBytes d e.push (offOf e.flit.addr) e.flit.len.toNat
  let c := (c.ev 0x1B).commit e.line new (p || e.pushPoison) e.wpolicy e.flit.cls e.mpSlot
  (c.comp e .i false).free e.idx

/-- End a maintenance row with its Pool action (06 R166). -/
def FC.endMaint (c : FC) (e : TTEntry) : FC :=
  let c := c.endRecord e (c.endState e none false)
  let c := if e.mpSlot.isSome then c else (c.poolMaint e.flit.op e.line e.flit.cls e.commit).1
  (c.comp e .i false).free e.idx

/-- End the row of a settled entry whose data is at hand and whose way is ready. -/
def FC.endRow (c : FC) (e : TTEntry) : FC :=
  let copy := e.copy.getD (0, true)
  match e.row with
  | .share => c.endGrant e (if copy.2 then none else some (!e.remain && e.keep == 0))
  | .own => c.endGrant e (if e.needsData && copy.2 then none else some true)
  | .once =>
    let c := c.endRecord e (c.endState e none false)
    let c := if e.dataSent then c else c.dataToReq e.flit copy.1 copy.2
    (c.comp e .i true).free e.idx
  | .pushIO => c.endPushIO e copy.1 copy.2
  | .pushFull =>
    let c := c.endRecord e (c.endState e none false)
    let c := c.commit e.line e.push e.pushPoison e.wpolicy e.flit.cls e.mpSlot
    (c.comp e .i false).free e.idx
  | .far => c.endFar e copy.1 copy.2
  | .sweep | .purge | .sweepPurge => c.endMaint e
  | .put =>
    let c := c.endRecord e (c.endState e none false)
    (c.comp e .i false).free e.idx
  | .dev => c

/-- What the requester of an entry would be granted now. -/
def TTEntry.granting (e : TTEntry) : Option Bool :=
  let bad := match e.copy with
    | some (_, p) => p && e.needsData
    | none => false
  match e.row with
  | .share => if bad then none else some (!e.remain && e.keep == 0)
  | .own => if bad || e.isBinv then none else some true
  | _ => none

/-! ### Progress -/

/-- Rank of an entry that waits for a miss register (06 R152). -/
def FC.entryRank (c : FC) (e : TTEntry) : Nat × Nat × Nat :=
  (if e.arrive + 2048 ≤ c.cyc then 0 else 1 + e.flit.cls.val, e.arrive, e.port.val)

/-- The entry is the first to take a free miss register. -/
def FC.firstForMr (c : FC) (e : TTEntry) : Bool :=
  decide (c.f.mrs.length < 128)
    && !(c.f.tt.any fun o => o.idx != e.idx && o.ms == .needMr && rankLt (c.entryRank o) (c.entryRank e))

/-- What a waiting entry tries again: a miss register, the Pool after a refused attachment, an Earmark way. -/
def FC.retry (c : FC) (e : TTEntry) : FC :=
  let look : FC := c.poolCheck (poolSet e.line)
  let c :=
    if e.ms == .needMr then (if c.firstForMr e then look.openMr e (look.poolFind e.line).isSome else c)
    else if e.ms == .refused then
      (if c.f.mrs.any fun m => m.line == e.line && !m.stale && !m.scrub then c else look.msStart e)
    else c
  if e.wayNeed == .choose then c.chooseWay e else c

/-- Send DataToReq before the last snoop answer where 03 R87 allows it. -/
def FC.earlyData (c : FC) (e : TTEntry) : FC :=
  match e.ms with
  | .held d p =>
    if e.needsData && (e.row.grants || e.row == .once) && !e.couldDirty && !e.dirty && !e.dataSent then
      (c.dataToReq e.flit d p).modEntry e.idx fun x => { x with dataSent := true }
    else c
  | _ => c

/-- The row can end, its Earmark way apart. A far AtomicOp waits for a memory-side read that is out (05 R140). -/
def FC.canEnd (c : FC) (e : TTEntry) : Bool :=
  e.settled && !e.riding
    && (!e.needsData || e.copy.isSome)
    && !(e.row == .far && e.ms == .waiting)
    && !(e.row == .sweepPurge && e.mpSlot.isNone && !e.commit && c.maintWaits e.flit.op e.line)

/-- Finish an orphan: its records follow its flow, nothing is sent (03 R83). -/
def FC.endOrphan (c : FC) (e : TTEntry) : FC :=
  if e.isBinv then (c.binvRecord e).free e.idx
  else (c.endRecord e (c.endState e none true)).free e.idx

/-- SNOOP ends with the last answer and data flit; what the entry still needs is DATA (03 R79). -/
def FC.leaveSnoop (c : FC) (i : TTIdx) : FC :=
  c.modEntry i fun e => if e.phase == .snoop && e.settled then { e with phase := .data } else e

/-- Let an entry go as far as it can; what it reads is read for its transaction (13 R346). -/
def FC.advance (c : FC) (i : TTIdx) : FC :=
  let c := c.leaveSnoop i
  match c.entry i with
  | none => c
  | some e =>
    let c : FC := { c with atype := e.atype }
    if e.phase == .ackwait || e.devOut then c
    else if e.phase == .orphan then (if e.settled then c.endOrphan e else c)
    else if e.isBinv then (if e.settled then c.endBinv e else c)
    else
      let c := c.retry e
      let c := match c.entry i with
        | some e => c.earlyData e
        | none => c
      match c.entry i with
      | none => c
      | some e =>
        if c.canEnd e then
          if c.wantsWay e (c.endState e e.granting false) then
            match e.wayNeed with
            | .ready _ => c.endRow e
            | .none => c.chooseWay e
            | _ => c
          else c.endRow e
        else c

/-- Let every entry go as far as it can, again while entries end. -/
def FC.pumpN (c : FC) (fuel : Nat) : FC :=
  match fuel with
  | 0 => c
  | n + 1 =>
    let d := c.f.tt.foldl (fun c e => c.advance e.idx) c
    let d := d.f.tt.foldl (fun c e => if e.wayNeed matches .ready _ then c.advance e.idx else c) d
    if d.f.tt.length == c.f.tt.length && d.f.ttSeq == c.f.ttSeq then d else d.pumpN n

/-- Let every entry go as far as it can. -/
def FC.pump (c : FC) : FC := { c.pumpN (c.f.tt.length + 1) with atype := c.atype }

/-! ### Serving a pulled item -/

/-- Leave an item in its pen with its arrival unchanged; the slot is WASTED (03 R76, R84). -/
def FC.returnItem (c : FC) (it : PenItem) (hold : Bool) : FC :=
  let pens := if hold then c.f.pens.map (fun i => if i == it then { i with shadowHold := true } else i) else c.f.pens
  (FC.ev { c with f := { c.f with pens := pens } } (if hold then 0x06 else 0x05)).slot 1

/-- Answer a request Err and release its entry at once. -/
def FC.refuseReq (c : FC) (it : PenItem) (e : TTEntry) (ecode : BitVec 4) : FC :=
  ((((c.takeItem it).err it.flit ecode).free e.idx).slot 0).pump

/-- Absorb a crossing Put into the entry that blocks its line (03 R81); the shadow is read for it (04 R108, R109). -/
def FC.absorb (c : FC) (it : PenItem) (t : TTEntry) : FC :=
  match c.f.datOf it.flit with
  | none => c
  | some d =>
    let f := it.flit
    let c := (c.shadowCheck.takeItem it).takeDirty t.idx d.payload d.poison
    let c := c.modEntry t.idx fun x => { x with putsAbsorbed := x.putsAbsorbed + 1 }
    let c := if c.localGate f.src then c.shadowFree (gateOf f.src) (lineOf f.addr) f.op else c
    let c := c.rsp f.cls .comp f.src f.txid (BitVec.ofNat 12 t.idx.val) .i false false true 0
    ((c.ev 0x0B).slot 0).pump

/-- Who a Put comes from, as the records show it (03 R90, R92, 04 R123, 05 R141). -/
inductive PutFrom where
  | shadow       -- a shadow entry matches it
  | owner        -- recorded owner, or its die is marked in MUS, or a SUSPECT set without a matching way
  | sharer       -- recorded only in S
  | stranger     -- no record names it and no other agent is recorded as owner
  | wrong        -- another agent is recorded as owner
  deriving DecidableEq, Repr

/-- The finding for a Put. -/
def FC.putFrom (c : FC) (f : ReqFlit) (k : Look) : PutFrom :=
  let a := f.src
  let l := lineOf f.addr
  if c.localGate a && c.f.shadowHas (gateOf a) l f.op then .shadow
  else
    let mine := match k.own with
      | some h => some h.st
      | none => match k.em with
        | some (_, .exc x) => if x == a then some 2 else none
        | some (_, x) => if x.sharers.contains a then some 1 else none
        | none => none
    let marked := match k.em with
      | some (_, .mus ds) => bitAt ds (dieOf a).val
      | _ => k.suspect
    let other := k.others.any (fun h => h.st == 2)
      || k.shadow.any (fun g => !(c.localGate a && gateOf a == g))
      || (match k.em with
          | some (_, .exc x) => x != a
          | _ => false)
    if mine == some 2 || marked then .owner
    else if mine == some 1 then .sharer
    else if other then .wrong
    else .stranger

/-- Serve a Put whose line is not blocked (03 R90), in entry `e`. -/
def FC.servePut (c : FC) (it : PenItem) (e : TTEntry) : FC :=
  let f := it.flit
  let l := lineOf f.addr
  let c := c.lookCheck l
  let k := c.view f l none
  let pf := c.putFrom f k
  let dat := c.f.datOf f
  if f.op != .putClean && (pf == .sharer || pf == .wrong) then
    let c := c.rep 0x120 f.src (some f.addr) f.op.code
    c.refuseReq it e 4
  else
    let c := c.takeItem it
    let c := match dat with
      | some d => if f.op == ReqOp.putClean then c
        else c.commit l d.payload d.poison e.wpolicy f.cls e.mpSlot
      | none => c
    let c := match pf with
      | .shadow => c.shadowFree (gateOf f.src) l f.op
      | _ =>
        if f.op == ReqOp.putCopy then c
        else if c.localGate f.src then c.tallySetState l (gateOf f.src) 0
        else c.emDropPtr l f.src
    let all := f.op == ReqOp.putCopy && pf == PutFrom.stranger && c.localGate f.src
    let probes : List (GateN × Nat) :=
      if all then ((List.range c.k.ways).map fun w => (gateOf f.src, w)) ++
        (k.probes.filter fun x => x.1 != gateOf f.src)
      else k.probes
    let ts := probes.map fun x => SnpTarget.probe x.1 x.2
    let c := c.modEntry e.idx fun x =>
      { x with phase := if ts.isEmpty then .data else .snoop, commit := dat.isSome, waits := ts, sent := ts
               grant := if f.op == ReqOp.putCopy && pf == PutFrom.stranger then .e else .i }
    let c := ts.foldl (fun c x => c.sendSnoop f.cls .wayProbe e.idx l x) c
    (c.slot 0).pump

/-- Serve DevRead and DevWrite (03 R94, 06 R173), in entry `e`. -/
def FC.serveDev (c : FC) (it : PenItem) (e : TTEntry) : FC :=
  let f := it.flit
  if f.bad then c.refuseReq it e 4
  else if (c.repl.mpSlot f.addr).isSome then
    (c.repSelf 0x407 (some f.addr) f.op.code).refuseReq it e 3
  else
    let dat := c.f.datOf f
    let c := (c.takeItem it).modEntry e.idx fun x => { x with phase := .data, devOut := true }
    let m : MemReq :=
      { op := if f.op == .devRead then .devRead else .devWrite
        cls := f.cls, line := lineOf f.addr, off := BitVec.ofNat 6 (offOf f.addr), len := f.len
        data := match dat with
          | some d => keepBytes d.payload (offOf f.addr) f.len.toNat
          | none => 0
        poison := match dat with
          | some d => d.poison
          | none => false
        purpose := .dev e.idx }
    (c.memPush m).slot 0

/-- The start state leaves holders in S that the row does not snoop (03 R90, GetShared). -/
def Look.staysShared (k : Look) (d : Die) (req : AgentId) : Bool := !(k.sharers d req false).isEmpty

/-- Ride an open miss register of the line (05 R137), one that still accepts data before one marked STALE. -/
def FC.ride (c : FC) (e : TTEntry) : FC :=
  let open' := c.f.mrs.filter fun m => m.line == e.line
  match (open'.find? fun m => !m.stale).or open'.head? with
  | none => c
  | some m =>
    let mrs := updateWhere (fun x : MissReg => x.idx == m.idx) (fun x => { x with rider := some e.idx }) c.f.mrs
    FC.modEntry { c with f := { c.f with mrs := mrs } } e.idx fun x => { x with riding := true }

/-- An Upgrade is served as a fetch: its requester is not recorded in S, or only in a MUS record (03 R90; log entry
66 for a requester in Tally beside MUS). -/
def Look.fetches (k : Look) (req : AgentId) : Bool :=
  let recS := match k.own with
    | some h => h.st == 1
    | none => match k.em with
      | some (_, x) => x.sharers.contains req
      | none => false
  !(recS && (k.own.isSome || k.mus.isNone))

/-- A snoop of `ts` could return dirty data (03 R87). -/
def Look.dirtyFrom (k : Look) (d : Die) (req : AgentId) (r : Row) (ts : List SnpTarget) : Bool :=
  r.snp != .purge && ts.any fun t =>
    match t with
    | .agent a => (k.owners d req r.every).contains a
    | .muster _ _ => true
    | .probe _ _ => false

/-- Send Ordered for a push whose entry is still open when its own cycle's work is done; one that completes in that
cycle is answered by its Comp alone (02 R61, 03 R93). -/
def FC.orderPush (c : FC) (e : TTEntry) : FC :=
  if c.f.orderedEn && (e.flit.op == .pushIO || e.flit.op == .pushFull) then
    match c.entry e.idx with
    | some x => if x.seq == e.seq then c.rsp e.flit.cls .ordered e.flit.src e.flit.txid 0 .i false false false 0 else c
    | none => c
  else c

/-- Serve every other request after its checks, in entry `e`: stages 11 and 12 (03 R84, R86, R90, R93). -/
def FC.serveRow (c : FC) (it : PenItem) (e : TTEntry) (far : Bool) (k : Look) (ts : List SnpTarget) : FC :=
  let f := it.flit
  let l := lineOf f.addr
  let dat := c.f.datOf f
  let r := f.row far
  let fetch := f.op == .upgrade && k.fetches f.src
  let c := c.takeItem it
  let c := if f.op == .atomicOp then c.ev (if far then 0x29 else 0x28) else c
  let c := if fetch then c.ev 0x0D else c
  let c := c.predUpdate f l far ts
  let c := if c.namesWay f then c.writeVictim f l r.grants else c
  let all := ts ++ k.probes.map fun x => SnpTarget.probe x.1 x.2
  let c := c.modEntry e.idx fun x =>
    { x with phase := if all.isEmpty then .data else .snoop, far := far, fetch := fetch, snpOp := r.snp
             waits := all, sent := all, couldDirty := k.dirtyFrom c.die f.src r ts
             mus := k.mus.isSome, suspect := k.suspect, musDies := k.mus.getD 0
             remain := r == .share && k.staysShared c.die f.src
             push := match dat with
               | some d => d.payload
               | none => 0
             pushPoison := match dat with
               | some d => d.poison
               | none => false }
  let c := all.foldl (fun c x => c.sendSnoop f.cls r.snp e.idx l x) c
  let c := match c.entry e.idx with
    | some x =>
      let c := if x.needsData then c.msStart x else c
      if f.op.isMaint && x.mpSlot.isNone then c.ride x else c
    | none => c
  let c := match c.entry e.idx with
    | some x =>
      if c.wantsWay x (c.endState x x.granting false) && r.grants then c.chooseWay x else c
    | none => c
  let c := if k.suspect then (c.ev 0x07).slot 1 else c.slot 0
  c.pump.orderPush e

/-- Serve a request other than a Put or a DEVICE access, in entry `e`; one refused before its row leaves the predictor
alone (log entry 81). -/
def FC.serveReq (c : FC) (it : PenItem) (e : TTEntry) : FC :=
  let f := it.flit
  let l := lineOf f.addr
  if f.bad then c.refuseReq it e 4
  else
    let names := c.namesWay f
    if names && decide (c.k.ways ≤ f.vway.toNat) then
      (c.rep 0x203 f.src (some f.addr) f.op.code).refuseReq it e 4
    else
      let skip : Option Nat := if names then some f.vway.toNat else none
      let c := c.lookCheck l
      let c := if f.op == .atomicOp || f.op == .getOwned || f.op == .upgrade || f.op == .claim
        then (c.predRead (predIdx l) f.op.code).1 else c
      let far := f.op == .atomicOp
        && c.chooseFar f (c.repl.attrOf f.addr).bwMode (smGet c.f.pred predDflt (predIdx l)).ctr
      let r := f.row far
      if names && decide (64 < c.f.shadow.length + c.shadowNeed f l r.grants) then
        ((c.free e.idx).returnItem it true).pump
      else
        let v := if names then c.moveVictim f l r.grants else c
        let k := v.view f l skip
        let ts := v.targets k r f.src
        if v.cutOff ts then
          ((c.repSelf 0xD02 (some f.addr) f.op.code).ev 0x31).refuseReq it e 2
        else v.serveRow it e far k ts

/-- Pull and serve an item: the block check, the reserve rule and the allocation of stage 2, then its row (03 R78, R84,
R90). -/
def FC.serve (c : FC) (it : PenItem) : FC :=
  let f := it.flit
  let c : FC := { c with atype := f.op.code, f := { c.f with pullFrom := c.cyc + 1 } }
  let c := if decide (it.arrive + 2048 ≤ c.cyc) then c.ev 0x0F else c
  match c.crossing f with
  | some t => c.absorb it t
  | none =>
    if !f.op.isDev && c.blocked (lineOf f.addr) then c.returnItem it false
    else if !c.ttRoom f then c.returnItem it false
    else
      match c.alloc f it.af it.arrive it.port with
      | (_, none) => c.returnItem it false
      | (c, some e) =>
        if f.op.isDev then c.serveDev it e
        else if f.op.isPut then c.servePut it e
        else c.serveReq it e

/-! ### Answers (03 R79, R91, 04 R104, R112, R119 to R123) -/

/-- An open fill, other than the transaction `skip`, has written the way of a row of a slice (04 R103, R121). -/
def FC.wayFilling (c : FC) (skip : Option TTIdx) (g : GateN) (row w : Nat) : Bool :=
  c.f.tt.any fun o => some o.idx != skip && !o.isBinv && o.row.grants && c.namesWay o.flit
    && gateOf o.flit.src == g && o.flit.vway.toNat == w && c.k.rowOfLine o.line == row

/-- The line and state that a cluster way holds are this fold's to record (04 R121, step 3). -/
def FC.ownLine (c : FC) (x : Line × CacheState) : Bool :=
  c.repl.home (lineAddr x.1) == foldAgent c.die c.n && x.2 != .i

/-- Write a Tally entry from what its cluster way holds: the line with S for S and E for E or M, or I (04 R121, step 3);
each counts as a recomputation where the entry had failed (04 R129). -/
def FC.probeStore (c : FC) (g : GateN) (row w : Nat) (held : Option (Line × CacheState)) : FC :=
  let was := smGet c.f.tally tallyDflt (c.f.tallyKey g row w)
  let f := match held.filter c.ownLine with
    | some x => c.f.tallyWrite g row w (tallyTag x.1) x.2.tally
    | none => c.f.tallyWrite g row w 0 0
  { c with f := if was.ok then f else { f with recomputes := f.recomputes + 1 } }

/-- The answer of a WayProbe that a failing entry brought: where its way holds no line of this fold, the row of the
cluster is marked UNSURE (04 R122). -/
def FC.probeMark (c : FC) (g : GateN) (row : Nat) (held : Option (Line × CacheState)) : FC :=
  if (held.filter c.ownLine).isSome then c else c.markUnsure g row

/-- A WayProbe of the entry serves a retained copy: every used way of the requester's slice is probed (04 R123), whether
its Tally entry is good or not. -/
def TTEntry.probesAll (e : TTEntry) (d : Die) (g : GateN) : Bool :=
  e.flit.op == .putCopy && dieOf e.flit.src == d && gateOf e.flit.src == g

/-- Write a probed entry from its answer (04 R121, step 3, R122, R123): `held` is the line and state the way holds. An
entry that was rewritten since, by an open fill or by an earlier answer, is kept (log entry 92). -/
def FC.probeWrite (c : FC) (e : TTEntry) (g : GateN) (w : Nat) (held : Option (Line × CacheState)) : FC :=
  let row := c.k.rowOfLine e.line
  let all := e.probesAll c.die g
  let ok := (smGet c.f.tally tallyDflt (c.f.tallyKey g row w)).ok
  let c' := if c.wayFilling (some e.idx) g row w || (ok && !all) then c else c.probeStore g row w held
  if all && ok then c' else c'.probeMark g row held

/-! ### Tally entries rebuilt outside a lookup (12 R317, R322) -/

/-- Change the rebuild of an index. -/
def FC.modFix (c : FC) (i : TTIdx) (g : TallyFix → TallyFix) : FC :=
  { c with f := { c.f with fixes := updateWhere (fun x => x.idx == i) g c.f.fixes } }

/-- A rebuild ends with what the way holds. -/
def FC.fixEnd (c : FC) (x : TallyFix) (held : Option (Line × CacheState)) : FC :=
  let c : FC := { c with f := { c.f with fixes := c.f.fixes.erase x } }
  let kept := c.wayFilling none x.g x.row x.w || (smGet c.f.tally tallyDflt (c.f.tallyKey x.g x.row x.w)).ok
  (if kept then c else c.probeStore x.g x.row x.w held).probeMark x.g x.row held

/-- The WayProbe answer of a rebuild. -/
def FC.fixAck (c : FC) (x : TallyFix) (r : RspFlit) : FC :=
  if !r.data then c.fixEnd x none
  else
    match x.early with
    | some d => c.fixEnd x (some (d.truncate 46, r.state))
    | none => c.modFix x.idx fun y => { y with st := some r.state }

/-- The data of a WayProbe answer of a rebuild. -/
def FC.fixData (c : FC) (x : TallyFix) (d : LineData) : FC :=
  match x.st with
  | some st => c.fixEnd x (some (d.truncate 46, st))
  | none => c.modFix x.idx fun y => { y with early := some d }

/-- The rebuild whose WayProbe a TXID names: its index is no entry's (log entry 68). -/
def FC.fixOf (c : FC) (t : TxId) : Option TallyFix :=
  if t.toNat / 512 = 1 then c.f.fixes.find? fun x => x.idx.val == t.toNat % 512 else none

/-- A WayProbe answer (04 R121, R123); the answers of one Gate are taken in the order of the probes. -/
def FC.probeAck (c : FC) (e : TTEntry) (g : GateN) (r : RspFlit) : FC :=
  match takeFirst (fun x : SnpTarget =>
      match x with
      | .probe y _ => y == g
      | _ => false) e.waits with
  | some (.probe _ w, rest) =>
    let c := c.modEntry e.idx fun x => { x with waits := rest }
    if r.data then
      match takeFirst (fun x : GateN × LineData => x.1 == g) e.probeEarly with
      | some (x, left) =>
        let c := c.modEntry e.idx fun y => { y with probeEarly := left }
        c.probeWrite e g w (some (x.2.truncate 46, r.state))
      | none => c.modEntry e.idx fun y => { y with probeData := y.probeData ++ [(g, w, r.state)] }
    else c.probeWrite e g w none
  | _ => c

/-- A row snoop's answer (03 R91). -/
def FC.rowAck (c : FC) (e : TTEntry) (r : RspFlit) : FC :=
  let wb := r.op == .snpAckWB
  let target (x : SnpTarget) : Bool :=
    match x with
    | .agent a => a == r.src
    | .muster d _ => r.src == Machine.agent d 124
    | .probe _ _ => false
  if !e.waits.any target then c
  else
    let kept := !e.snpOp.invalidates && (if wb then r.state == .e else r.state != .i)
    let own := !e.isBinv && r.src == e.flit.src && e.row.grants
    let em := !c.localGate r.src && localOf r.src != 124
    let data := r.data && !wb
    let c := if wb then c.ev 0x23 else if em && r.state == .i then c.ev 0x22 else c
    let c := c.modEntry e.idx fun x =>
      { x with waits := x.waits.filter fun y => !target y
               wbAcks := if wb then x.wbAcks + 1 else x.wbAcks
               dataAcks := if data then x.dataAcks + 1 else x.dataAcks
               keep := if kept && !c.localGate r.src then putBit x.keep (dieOf r.src).val true else x.keep
               remain := x.remain || kept }
    if c.localGate r.src then
      if own then c
      else if kept then (if e.snpOp == .share then c.tallySetState e.line (gateOf r.src) 1 else c)
      else c.tallySetState e.line (gateOf r.src) 0
    else if em && !wb && r.state == .i then c.emDropPtr e.line r.src
    else c

/-- SnpAck or SnpAckWB reaches the fold. -/
def FC.snpAnswer (c : FC) (r : RspFlit) : FC :=
  let i : TTIdx := Fin.ofNat 512 (r.txid.toNat % 512)
  match c.fixOf r.txid, c.entry i with
  | some x, _ => c.fixAck x r
  | none, none => c
  | none, some e =>
    let c : FC := { c with atype := e.atype }
    if r.txid.toNat / 512 = 1 then (c.probeAck e (gateOf r.src) r).pump
    else (c.rowAck e r).pump

/-- SnpData reaches the fold: a probed line's address, or dirty data (03 R86). -/
def FC.snpDataIn (c : FC) (d : DatFlit) : FC :=
  let i : TTIdx := Fin.ofNat 512 (d.txid.toNat % 512)
  match c.fixOf d.txid, c.entry i with
  | some x, _ => c.fixData x d.payload
  | none, none => c
  | none, some e =>
    let c : FC := { c with atype := e.atype }
    if d.txid.toNat / 512 = 1 then
      let g := gateOf d.src
      match takeFirst (fun x : GateN × Nat × CacheState => x.1 == g) e.probeData with
      | some (x, left) =>
        let c := c.modEntry i fun y => { y with probeData := left }
        (c.probeWrite e g x.2.1 (some (d.payload.truncate 46, x.2.2))).pump
      | none => c.modEntry i fun y => { y with probeEarly := y.probeEarly ++ [(g, d.payload)] }
    else if e.sent.isEmpty then c
    else
      let c := (c.ev 0x24).takeDirty i d.payload d.poison
      (c.modEntry i fun x => { x with dataGot := x.dataGot + 1 }).pump

/-- CompAck reaches the fold (02 R67, 03 R80); one of a closed transaction is discarded (02 R60). -/
def FC.compAckIn (c : FC) (r : RspFlit) : FC :=
  let i : TTIdx := Fin.ofNat 512 (r.txid.toNat % 512)
  match c.entry i with
  | none => c
  | some e => if e.phase == .ackwait && e.flit.src == r.src then (c.free i).pump else c

/-! ### Abandonment (03 R83, 02 R60, 11 R292) -/

/-- Take an entry at its abandon limit. -/
def FC.abandonEntry (c : FC) (e : TTEntry) : FC :=
  let c := (c.repSelf 0xD02 (some e.flit.addr) e.atype).ev 0x31
  if e.phase == .ackwait then (c.free e.idx).pump
  else
    let c := if e.isBinv then c else c.err e.flit 2
    let t := c.f.tallyWrite (gateOf e.flit.src) (c.k.rowOfLine e.line) e.flit.vway.toNat 0 0
    let c := if !e.isBinv && c.namesWay e.flit && e.row.grants then { c with f := t } else c
    let gone (m : MemReq) : MemReq := if m.purpose == .dev e.idx then { m with purpose := .commit } else m
    let memQ := c.f.memQ.map gone
    let mpOpen := c.f.mpOpen.map fun x => (x.1, gone x.2)
    let c : FC := { c with f := { c.f with memQ := memQ, mpOpen := mpOpen } }
    let c := if e.dirty && !e.commit then c.commitLb e else c
    let back := match e.binvFor with
      | some t => (c.emUnreserve t).modEntry t fun x => { x with wayNeed := .choose }
      | none => c
    if e.settled then (back.endOrphan e).pump
    else
      (((back.detach e.idx).modEntry e.idx fun x =>
        { x with phase := .orphan, ms := .unneeded, mr := none, wayNeed := .none, riding := false
                 binvFor := none }).ev 0x0A).pump

/-- Take a pen item at its abandon limit (11 R292); its DAT flit, there or still due, is discarded. -/
def FC.abandonItem (c : FC) (it : PenItem) : FC :=
  let due := it.flit.op.carriesData && (c.f.datOf it.flit).isNone
  let c := c.takeItem it
  let dead := if due then c.f.deadDat ++ [(it.flit.src, it.flit.txid)] else c.f.deadDat
  let c : FC := { c with f := { c.f with deadDat := dead } }
  ((c.repSelf 0xD02 (some it.flit.addr) it.flit.op.code).ev 0x31).err it.flit 2

/-! ### Memory side events (06 R149 to R154, 19 R512, R513) -/

/-- Release a miss register: its rider acts, its refused and waiting transactions try again. -/
def FC.freeMissReg (c : FC) (m : MissReg) : FC :=
  let mrs := c.f.mrs.filter fun x => x.idx ≠ m.idx
  let c : FC := { c with f := { c.f with mrs := mrs } }
  let c := match m.rider with
    | some t => c.modEntry t fun x => { x with riding := false }
    | none => c
  c.pump

end Sys2Proof.Machine
end

