-- ==== Sys2Proof/Machine/Power.lean ====
section
/-!
DEFINITION. Power domains and folds (14 R365 to R370): switching a domain on and off, what a fold loses with its
domains, wakes.
-/

namespace Sys2Proof.Machine

/-- Change a paddock's Ebb. -/
def State.modEbb (s : State) (d : Die) (f : Ebb → Ebb) : State := s.modPad d fun q => { q with ebb := f q.ebb }

/-- Change the power state of a physical fold. -/
def State.modPower (s : State) (d : Die) (p : PFold) (f : FoldPower → FoldPower) : State :=
  s.modEbb d fun e => { e with fold := vmod e.fold p f }

/-- Power state of a physical fold. -/
def State.power (s : State) (d : Die) (p : PFold) : FoldPower := (s.pad d).ebb.fold[p]

/-! ### What a fold loses (14 R367) -/

/-- A fold whose FL domain was switched on: arrays, way maps and marks kept, logic and registers reset, counters
restarted (17 R464). -/
def Fold.flReset (f : Fold) : Fold :=
  { ftHalt := f.ftHalt, ttStop := f.ttStop
    tally := f.tally, tallyPhys := f.tallyPhys, tallyOut := f.tallyOut, tallyCopy := f.tallyCopy, tallyPend := f.tallyPend
    unsure := f.unsure, unsureEnd := f.unsureEnd, shadow := f.shadow
    em := f.em, emPhys := f.emPhys, emOut := f.emOut, emDropped := f.emDropped, emCopy := f.emCopy, emPend := f.emPend
    emSuspect := f.emSuspect
    poolTag := f.poolTag, poolData := f.poolData, poolSet := f.poolSet, poolLost := f.poolLost, poolPhys := f.poolPhys
    poolOut := f.poolOut, poolWorn := f.poolWorn, poolDisabled := f.poolDisabled, poolSpareFor := f.poolSpareFor, poolMpWays := f.poolMpWays
    poolConv := f.poolConv, poolSweep := f.poolSweep, poolPend := f.poolPend, millLost := f.millLost
    pred := f.pred, rcred := f.rcred, wcred := f.wcred, scrub := f.scrub
    refuse := f.refuse
    census := { restart := true } }

/-- A fold whose arrays were initialised (12 R321): every entry at its reset value. -/
def Fold.arrayReset (f : Fold) : Fold :=
  { f with tally := [], shadow := [], em := [], emSuspect := [], unsure := [], poolTag := [], poolData := []
           poolSet := [], pred := [] }

/-! ### Switching domains (14 R366, 19 R498) -/

/-- Raise the PSW_REQ of the first domain that waits to be switched on, where none is being raised; one that was just
switched off waits for its acknowledgement to fall. -/
def Ebb.raiseNext (e : Ebb) (ticks : Nat) : Ebb :=
  let waits (x : DomSwitch) : Bool := x.on && !bitAt e.pswAck x.dom.val
  if e.switching.any fun x => waits x && bitAt e.pswReq x.dom.val then e
  else
    match e.switching.find? waits with
    | some x =>
      { e with
        pswReq := putBit e.pswReq x.dom.val true
        switching := updateWhere (fun y : DomSwitch => y.dom == x.dom && y.on) (fun y => { y with tick := ticks }) e.switching }
    | none => e

/-- Queue a domain to be switched on: at most one PSW_REQ rises at a time (19 R498). -/
def State.domOnReq (s : State) (d : Die) (i : DomN) : State :=
  let q := s.pad d
  if q.domOn i || q.ebb.switching.any fun x => x.dom == i && x.on then s
  else s.modEbb d fun e =>
    Ebb.raiseNext { e with switching := e.switching ++ [{ dom := i, on := true, tick := q.ticks }] } q.ticks

/-- Switch a domain off. -/
def State.domOffReq (s : State) (d : Die) (i : DomN) : State := s.modEbb d fun e => e.domOff i (s.pad d).ticks

/-- Fence a ford (09 R250). -/
def State.fencePos (s : State) (d : Die) (pos : Nat) : State :=
  s.modEbb d fun e => { e with fenceReq := putBit e.fenceReq pos true }

/-- A ford takes the flits that its agents kept while it was fenced (09 R250). -/
def Paddock.takeHeld (q : Paddock) (pos : Nat) : Paddock :=
  { q with stream := { q.stream with
      inj := updateWhere (fun i : InjItem => i.pos == pos && i.held) (fun i => { i with held := false, since := q.aon.hcycle })
        q.stream.inj } }

/-- Unfence a ford (09 R250). -/
def State.unfencePos (s : State) (d : Die) (pos : Nat) : State :=
  (s.modEbb d fun e => { e with
    fenceReq := putBit e.fenceReq pos false, fenceAck := putBit e.fenceAck pos false
    culvertEn := putBit e.culvertEn pos false }).modPad d fun q => q.takeHeld pos

/-- Fence the ford of a fold (09 R250). -/
def State.fenceFold (s : State) (d : Die) (p : PFold) : State := s.fencePos d (fordOfFold p)

/-- Unfence the ford of a fold. -/
def State.unfenceFold (s : State) (d : Die) (p : PFold) : State := s.unfencePos d (fordOfFold p)

/-- A fold goes to OFF (14 R366): behind a culvert at once, else once its ford is fenced. -/
def State.foldOff (s : State) (d : Die) (p : PFold) : State :=
  if bitAt (s.pad d).ebb.culvertEn (fordOfFold p) then
    (s.modPower d p fun x => { x with state := .off, target := .off, waking := none }).domOffReq d (domFL p)
  else
    (s.modPower d p fun x => { x with state := .drain, target := .off, gated := false, waking := none }).fenceFold d p

/-! ### Wakes (14 R370, R379, R380) -/

/-- Bring a fold's domains up towards its target. -/
def State.startWake (s : State) (d : Die) (p : PFold) : State :=
  if (s.power d p).waking.isSome then s
  else
    let s := s.modPower d p fun x => { x with waking := some (s.pad d).now }
    let s := if (s.pad d).domOn (domFA p) then s
      else (s.modPad d fun q => { q with boot := { q.boot with
        selfTested := putBit q.boot.selfTested p.val false, arrayInit := putBit q.boot.arrayInit p.val false } }).domOnReq d
          (domFA p)
    if (s.pad d).domOn (domFA p) then s.domOnReq d (domFL p) else s

/-- Bring a physical fold up for a logical fold (12 R313, R321, R327): its checkers are tested and its arrays initialised
again. -/
def State.bringUp (s : State) (d : Die) (p : PFold) : State :=
  let s := s.modPad d fun q => { q with boot := { q.boot with
    selfTested := putBit q.boot.selfTested p.val false, arrayInit := putBit q.boot.arrayInit p.val false } }
  (s.modPower d p fun x => { x with target := .run }).startWake d p

/-- A wake: target DOZE and WOKEN for a fold in RETAIN or OFF; held during DRAIN; a gated fold ungates. The standby fold
never wakes (18 R469). `unit` is the Census unit of the source. -/
def State.wakeFold (s : State) (d : Die) (p : PFold) (unit : Nat) : State :=
  let x := s.power d p
  match x.state with
  | .drain => (s.modPower d p fun x => { x with heldWake := true }).pcount d 0x31 unit
  | .retain | .off =>
    if ((s.pad d).repl.carries d p).isNone || x.waking.isSome then s
    else ((s.modPower d p fun x => { x with target := .doze, woken := true }).startWake d p).pcount d 0x31 unit
  | .run | .doze =>
    if x.gated then
      (s.modPower d p fun x => { x with gated := false, state := .run }).modFold d p fun f =>
        { f with census := foldCount 0x38 8 f.census }
    else s

end Sys2Proof.Machine
end

