-- ==== Sys2Proof/Machine/Stream.lean ====
section
/-!
DEFINITION. The Stream (09): fords, culverts and routes, flits on the rings and how they leave them, injection,
reservations, turns, edges, and the movement of one HCLK cycle.
-/

namespace Sys2Proof.Machine

/-! ### Places -/

/-- The ascending rings. -/
def ringUp (r : Ring) : Bool := r == .xcw || r == .ycw

/-- The X rings. -/
def ringX (r : Ring) : Bool := r == .xcw || r == .xccw

/-- The stage of a ford position along its ring (09 R231). -/
def stageOf (r : Ring) (pos : Nat) : Nat := if ringUp r then pos else 15 - pos

/-- The ford position of stages 0 to 15. -/
def posOf (r : Ring) (stage : Nat) : Nat := if ringUp r then stage else 15 - stage

/-- The edge a ring's outbound run leaves a die at, none at the edge of the grid (09 R234). -/
def outEdge (d : Die) (r : Ring) : Option Edge :=
  match r with
  | .xcw => some .east
  | .xccw => some .west
  | .ycw => if d.val < 4 then some .vert else none
  | .yccw => if d.val < 4 then none else some .vert

/-- The edge a ring's return run leaves a die at. -/
def retEdge (d : Die) (r : Ring) : Option Edge :=
  match r with
  | .xcw => some .west
  | .xccw => some .east
  | .ycw => if d.val < 4 then none else some .vert
  | .yccw => if d.val < 4 then some .vert else none

/-- The edge is turned back (09 R254). -/
def Stream.turned (q : Stream) (e : Edge) : Bool :=
  match e with
  | .west => q.turnW
  | .east => q.turnE
  | .vert => q.turnV

/-- The open edge of a stream, if it has one. -/
def Stream.openEdge (q : Stream) (d : Die) (r : Ring) (ret : Bool) : Option Edge :=
  match if ret then retEdge d r else outEdge d r with
  | some e => if q.turned e then none else some e
  | none => none

/-- The domain of a ford position (09 R232). -/
def posDom (pos : Nat) : DomN :=
  if pos = 2 then 0 else if pos = 5 then 1 else if pos = 11 then 2 else if pos = 14 then 3
  else if pos = 8 then 4 else if pos = 15 then domSH else domSD

/-- The physical fold of a ford position. -/
def posFold (pos : Nat) : Option PFold :=
  if pos = 2 then some 0 else if pos = 5 then some 1 else if pos = 11 then some 2 else if pos = 14 then some 3
  else if pos = 8 then some 4 else none

/-- Some agent of the position is configured (09 R232). -/
def Krovol.posUsed (k : Krovol) (d : Die) (pos : Nat) : Bool :=
  match pos with
  | 0 | 15 => true
  | 1 => k.hasGate d 0
  | 4 => k.hasGate d 1
  | 10 => k.hasGate d 2
  | 13 => k.hasGate d 3
  | 3 => k.hasStile d 0
  | 6 => k.hasStile d 6
  | 9 => k.hasStile d 12
  | 12 => k.hasStile d 18
  | 7 => k.tether == some d
  | _ => (posFold pos).isSome

/-- The ring uses the position's culvert (09 R248). -/
def State.culvert (s : State) (d : Die) (pos : Nat) : Bool :=
  let q := s.pad d
  !s.krovol.posUsed d pos || !q.domOn (posDom pos) || bitAt q.ebb.culvertEn pos

/-- A ford position is fenced (09 R250). -/
def State.fenced (s : State) (d : Die) (pos : Nat) : Bool := bitAt (s.pad d).ebb.fenceReq pos

/-! ### Routes (09 R236, R237) -/

/-- The next die of a flit at die d for another die: the detour entry, else X then Y. -/
def nextDie (detour : BitVec 32) (d t : Die) : Die :=
  let e := bits detour (4 * t.val) 4
  if 8 ≤ e then Fin.ofNat 8 (e % 8)
  else if colOf d < colOf t then Fin.ofNat 8 (d.val + 1)
  else if colOf t < colOf d then Fin.ofNat 8 (d.val - 1)
  else Fin.ofNat 8 (if d.val < 4 then d.val + 4 else d.val - 4)

/-- The ring that leads from a die to a neighbouring die. -/
def ringTo (d n : Die) : Ring :=
  if rowOf d = rowOf n then (if d.val < n.val then .xcw else .xccw)
  else if d.val < n.val then .ycw else .yccw

/-- The ford position where a flit leaves the Stream on its target die. -/
def State.destPos (s : State) (d : Die) (f : Flit) : Nat := (s.pad d).repl.fordOf (dieOf f.tgt) f.tgt

/-- The ring an injecting ford at `pos` uses; none is the hand-over to an agent of the same ford. -/
def State.routeFrom (s : State) (d : Die) (pos : Nat) (f : Flit) : Option Ring :=
  let t := dieOf f.tgt
  if t == d then
    let x := s.destPos d f
    if x = pos then none else if pos < x then some .xcw else some .xccw
  else some (ringTo d (nextDie (s.pad d).stream.detour d t))

/-- The flit turns at the entry position it stands at (09 R236). -/
def State.mustTurn (s : State) (d : Die) (r : Ring) (f : Flit) : Bool :=
  let t := dieOf f.tgt
  t != d && ringX (ringTo d (nextDie (s.pad d).stream.detour d t)) != ringX r

/-! ### Flits at a spot -/

/-- The slot of a stage. -/
def Stream.slot (q : Stream) (net : Net) (r : Ring) (stage : Nat) : Option RingSlot :=
  q.slots.find? fun x => x.net == net && x.ring == r && x.stage == stage

/-- The flit that stands at a spot and whose event has not happened yet. -/
def Stream.at' (q : Stream) (net : Net) (a : Spot) : Option Flit :=
  match a with
  | .ring r pos =>
    match q.slot net r (stageOf r pos.val) with
    | some x => if x.seen then none else x.flit
    | none => none
  | .hand pos => (q.hand.find? fun h => h.net == net && h.pos == pos).map fun h => h.flit

/-- Take the flit at a spot off; a reserved stage keeps its mark (09 R244). -/
def Stream.take (q : Stream) (net : Net) (a : Spot) : Stream :=
  match a with
  | .ring r pos =>
    let here (x : RingSlot) : Bool := x.net == net && x.ring == r && x.stage == stageOf r pos.val
    let slots := q.slots.map fun x => if here x then { x with flit := none, seen := false } else x
    { q with slots := slots.filter fun x => x.flit.isSome || x.resv.isSome }
  | .hand pos =>
    match takeFirst (fun h : HandFlit => h.net == net && h.pos == pos) q.hand with
    | some (_, rest) => { q with hand := rest }
    | none => q

/-- The flit at a spot passes on as `f`; in a hand-over it stays (09 R233, R240). -/
def Stream.pass (q : Stream) (net : Net) (a : Spot) (f : Flit) : Stream :=
  match a with
  | .ring r pos =>
    let here (x : RingSlot) : Bool := x.net == net && x.ring == r && x.stage == stageOf r pos.val
    { q with slots := updateWhere here (fun x => { x with flit := some f, seen := true }) q.slots }
  | .hand pos =>
    match takeFirst (fun h : HandFlit => h.net == net && h.pos == pos) q.hand with
    | some (_, rest) => { q with hand := rest ++ [⟨net, pos, f⟩] }
    | none => q

/-- Change a paddock's Stream. -/
def State.modStream (s : State) (d : Die) (f : Stream → Stream) : State :=
  s.modPad d fun q => { q with stream := f q.stream }

/-- Position of a spot. -/
def spotPos (a : Spot) : Nat :=
  match a with
  | .ring _ pos => pos.val
  | .hand pos => pos.val

/-- Ingress port of a spot (03, before R73). -/
def spotPort (a : Spot) : Fin 4 :=
  match a with
  | .ring .xcw _ => 0
  | .ring .xccw _ => 1
  | .ring .ycw _ => 2
  | .ring .yccw _ => 3
  | .hand _ => 0

/-- The paddock's Confluence and Stream segment as an agent (01 R32). -/
def streamAgent (d : Die) : AgentId := agent d 124

/-- A report of the Stream segment of a die about itself (13 R344). -/
def streamRep (s : State) (d : Die) (code : Nat) (detail : Nat) : Report :=
  { code := BitVec.ofNat 12 code, reporter := streamAgent d, subject := streamAgent d, atype := 0x3F
    t := (s.pad d).now, detail := BitVec.ofNat 16 detail }

/-- The ring stage of a spot, numbered along its ring as in 12 R330; a hand-over has its ford position (log entry 70). -/
def spotStage (a : Spot) : Nat :=
  match a with
  | .ring r pos => stageOf r pos.val
  | .hand pos => pos.val

/-- Number of a ring. -/
def ringNo (r : Ring) : Nat :=
  match r with
  | .xcw => 0
  | .xccw => 1
  | .ycw => 2
  | .yccw => 3

/-- The ring of a spot as a number; 4 is the hand-over. -/
def spotRing (a : Spot) : Nat :=
  match a with
  | .ring r _ => ringNo r
  | .hand _ => 4

/-- DETAIL of 0x701: network in [1:0], ring stage in [9:2] (13 R357). -/
def stageDetail (net : Net) (stage : Nat) : Nat := (netNo net).val + 4 * stage

/-- The access type of a report about a flit (13 R346). -/
def Flit.atype (f : Flit) : BitVec 6 :=
  match f with
  | .req x => x.op.code
  | .snp x => 0x20 + x.op.code
  | .rsp _ | .dat _ => 0x3F

/-- The line or byte address that a flit carries. -/
def Flit.addr (f : Flit) : Option Addr :=
  match f with
  | .req x => some x.addr
  | .snp x => if x.op == .wayProbe then none else some (lineAddr x.laddr)
  | .rsp _ | .dat _ => none

/-- The flit at a spot as the wires bring it: replaced where the inverted bits spell another flit with a good check,
`false` where its check fails (09 R251). -/
def State.wire (s : State) (d : Die) (net : Net) (a : Spot) (noise : Nat) : State × Bool :=
  match (s.pad d).stream.at' net a with
  | none => (s, true)
  | some f =>
    match f.heard noise with
    | none => (s, false)
    | some g =>
      if g == f then (s, true)
      else
        let put (q : Stream) : Stream := match a with
          | .ring r pos =>
            let here (x : RingSlot) : Bool := x.net == net && x.ring == r && x.stage == stageOf r pos.val
            { q with slots := updateWhere here (fun x => { x with flit := some g }) q.slots }
          | .hand _ => q.pass net a g
        (s.modPad d fun q => { q with stream := put q.stream }, true)

/-- What stands at a spot for an arrival event: nothing that is due, a flit whose check failed, a flit for an
agent that does not exist, or a flit for an agent here. -/
inductive Arrived where
  | none
  | badCrc
  | noAgent (f : Flit)
  | flit (f : Flit)
  deriving DecidableEq, Repr

/-- Classify the flit at a spot (09 R240, R251, R252). -/
def State.arrived (s : State) (d : Die) (net : Net) (a : Spot) (crcOk : Bool) : Arrived :=
  let q := s.pad d
  match q.stream.at' net a with
  | none => .none
  | some f =>
    if !q.running || s.culvert d (spotPos a) then .none
    else if !crcOk then .badCrc
    else if dieOf f.tgt != d || s.destPos d f != spotPos a then .none
    else if !s.krovol.configured f.tgt && localOf f.tgt != 124 then .noAgent f
    else .flit f

/-- Count a failure of the link whose receiving stage is stage `stage` of ring number `ring`; the rule of 06 R162 records a
pending link test (12 R329). -/
def State.linkFail (s : State) (d : Die) (net : Net) (ring stage : Nat) : State :=
  let q := s.pad d
  let r := countFail q.aon.linkFails (netNo net).val .tally (ring * 26 + stage) q.now
  let s := s.modPad d fun q => { q with aon := { q.aon with linkFails := r.1 } }
  let x := hurdleRec 8 d 7 (netNo net).val stage 0 0 q.hours
  if r.2 && !((s.pad d).aon.hlog.any (sameAct x)) then s.hurdleAppend d x else s

/-- A flit whose check failed is removed (0x701). -/
def State.dropFlit (s : State) (d : Die) (net : Net) (a : Spot) : State :=
  ((s.modStream d fun q => q.take net a).file d (streamRep s d 0x701 (stageDetail net (spotStage a)))).linkFail d net
    (spotRing a) (spotStage a)

/-- A flit for an agent that is not configured is removed (0x702): its sender is the subject (13 R344). -/
def State.dropStray (s : State) (d : Die) (net : Net) (a : Spot) (f : Flit) : State :=
  (s.modStream d fun q => q.take net a).file d
    { streamRep s d 0x702 (stageDetail net (spotStage a)) with subject := f.src, addr := f.addr, atype := f.atype }

/-! ### Injection (09 R243, R244), turns (R236) -/

/-- A ring leads to an edge whose dam stands for the network (10 R262). -/
def State.dammed (s : State) (d : Die) (net : Net) (r : Ring) : Bool :=
  let q := s.pad d
  let e := match q.stream.openEdge d r false with
    | some e => some e
    | none => q.stream.openEdge d r true
  match e with
  | some e => (q.conf.edge[edgeNo e]).dam[netNo net]
  | none => false

/-- What waits at a ford position for a ring (or the hand-over): the turn buffers, then the agents' flits of the
lowest class, agents in round robin after the one last served. -/
inductive Waiting where
  | turn (t : TurnItem)
  | item (i : InjItem)
  deriving DecidableEq, Repr

/-- The flits of the agents of a position that go out on `r`, the oldest of each agent and class only. -/
def State.candidates (s : State) (d : Die) (net : Net) (pos : Nat) (r : Option Ring) : List InjItem :=
  (s.pad d).stream.inj.filter fun i => i.net == net && i.pos == pos && !i.held && s.routeFrom d pos i.flit == r

/-- Rotate a list so that it starts after the agent last served. -/
def afterAgent (last : Option AgentId) (l : List InjItem) : List InjItem :=
  match last with
  | none => l
  | some a => (l.filter fun i => a.toNat < i.agent.toNat) ++ l.filter fun i => i.agent.toNat ≤ a.toNat

/-- The flit that injects next. One in a turn buffer takes the ring that its route has at this moment, which a
route-epoch switch may have changed (10 R273). -/
def State.nextInject (s : State) (d : Die) (net : Net) (pos : Nat) (r : Option Ring) : Option Waiting :=
  let q := (s.pad d).stream
  let turn : Option TurnItem := match r with
    | some r => q.turns.find? fun (t : TurnItem) => t.net == net && t.pos == pos && s.routeFrom d pos t.flit == some r
    | none => none
  match turn with
  | some t => some (.turn t)
  | none =>
    if s.culvert d pos then none
    else
      let c := s.candidates d net pos r
      match leastBy (fun i : InjItem => i.cls.val) c with
      | none => none
      | some m =>
        let same := c.filter fun i => i.cls == m.cls
        let last := (q.rr.find? fun x => x.1 == net && x.2.1 == pos).map fun x => x.2.2
        let agents := (same.map fun i => i.agent.toNat).eraseDups
        let pick := match last with
          | none => agents.min?
          | some a => match (agents.filter fun x => a.toNat < x).min? with
            | some x => some x
            | none => agents.min?
        match pick with
        | some a => (same.find? fun i => i.agent.toNat == a).map Waiting.item
        | none => none

/-- The REQ flit left its port: its transaction is injected (11 R293). -/
def ReqPort.injected (p : ReqPort) (txid : TxId) : ReqPort :=
  let mine (t : Txn) : Bool := t.flit.txid == txid && t.phase == .queued
  { p with txns := updateWhere mine (fun t => { t with phase := .injected }) p.txns }

/-- Change the requester port of an agent of die d. -/
def State.modPortOf (s : State) (d : Die) (a : AgentId) (f : ReqPort → ReqPort) : State :=
  let l := localOf a
  if l < 4 then s.modPad d fun q => { q with gates := vmod q.gates (Fin.ofNat 4 l) fun g => { g with port := f g.port } }
  else if 8 ≤ l && l < 32 then
    s.modPad d fun q => { q with stiles := vmod q.stiles (Fin.ofNat 24 (l - 8)) fun g => { g with port := f g.port } }
  else if l = 120 then { s with tether := { s.tether with port := f s.tether.port } }
  else if l = 127 then s.modPad d fun q => { q with shep := { q.shep with port := f q.shep.port } }
  else s

/-- The requester port of an agent of die d. -/
def State.portOf (s : State) (d : Die) (a : AgentId) : ReqPort :=
  let l := localOf a
  if l < 4 then ((s.pad d).gates[Fin.ofNat 4 l]).port
  else if 8 ≤ l && l < 32 then ((s.pad d).stiles[Fin.ofNat 24 (l - 8)]).port
  else if l = 120 then s.tether.port
  else (s.pad d).shep.port

/-- The DAT flit of a transaction whose REQ flit is injected, where its data is there (log entry 12): it goes to the
injection queue then, and waits from that cycle (R244). -/
def ReqPort.datFor (p : ReqPort) (f : ReqFlit) (i : InjItem) (cyc : Nat) : List InjItem :=
  match p.txns.find? fun (t : Txn) => t.flit.txid == f.txid && t.phase == .queued with
  | some t =>
    if f.op.carriesData && t.haveData then
      let x : DatFlit := { op := if f.op.isPut then .putData else .pushData, src := f.src, tgt := f.tgt,
                           txid := f.txid, payload := t.data, poison := t.dataPoison }
      [{ net := .dat, pos := i.pos, agent := i.agent, cls := f.cls, flit := .dat x, since := cyc }]
    else []
  | none => []

/-- The sluice number of an agent of a die (09 R256). -/
def sluiceOf (a : AgentId) : Nat :=
  let l := localOf a
  if l < 4 then l else if l < 32 then l - 4 else if l = 120 then 28 else 29

/-- Remove what was chosen from its queue; an agent's flit is marked as last served, and its request injected. -/
def State.uninject (s : State) (d : Die) (w : Waiting) : State :=
  match w with
  | .turn t => s.modStream d fun q => { q with turns := q.turns.erase t }
  | .item i =>
    let s := s.modStream d fun q =>
      { q with inj := q.inj.erase i
               rr := (i.net, i.pos, i.agent) :: q.rr.filter fun x => !(x.1 == i.net && x.2.1 == i.pos) }
    match i.flit with
    | .req f =>
      if i.agent == f.src then
        let dat := (s.portOf d f.src).datFor f i (s.pad d).aon.hcycle
        let s := (s.modPortOf d f.src fun p => p.injected f.txid).pcount d 0x08 (sluiceOf f.src)
        s.modPad d fun q => q.offer dat
      else s
    | _ => s

/-- The flit of what was chosen. -/
def Waiting.flit (w : Waiting) : Flit :=
  match w with
  | .turn t => t.flit
  | .item i => i.flit

/-- FLIT_INJECT: a flit injects into an empty stage at its position, or goes across in the hand-over. -/
def State.injectAt (s : State) (d : Die) (net : Net) (a : Spot) : State :=
  let q := s.pad d
  if !q.running then s
  else
    match a with
    | .hand pos =>
      match s.nextInject d net pos.val none with
      | none => s
      | some w => ((s.uninject d w).modStream d fun q => { q with hand := q.hand ++ [⟨net, pos, w.flit⟩] }).pcount d
          0x14 (netNo net).val
    | .ring r pos =>
      let st := stageOf r pos.val
      let free := match q.stream.slot net r st with
        | none => true
        | some x => x.flit.isNone && x.resv == some (d, pos.val)
      if !free || s.dammed d net r then s
      else
        match s.nextInject d net pos.val (some r) with
        | none => s
        | some w =>
          let s := (s.uninject d w).modStream d fun q =>
            let rest := q.slots.filter fun x => !(x.net == net && x.ring == r && x.stage == st)
            { q with slots := rest ++ [⟨net, r, st, some w.flit, none, true⟩] }
          s.pcount d 0x14 (netNo net).val

/-- A reservation of a position for a ring and network stands somewhere in a paddock: at a stage, in a crossing buffer or
in a crossing (09 R244). -/
def Paddock.holdsMark (q : Paddock) (net : Net) (r : Ring) (m : Die × Nat) : Bool :=
  let cross (c : CrossItem) : Bool := c.ring == r && c.resv == some m
  q.stream.slots.any (fun x => x.net == net && x.ring == r && x.resv == some m)
    || q.conf.edge.any (fun e => e.buf[netNo net].any cross || e.rx.any fun x => x.2.1 == net && cross x.2.2)
    || q.conf.mod.any fun m => m.wire.any fun w => w.slots.any fun x => x.1 == net && cross x.2

/-- STARVE_RESERVATION: the occupied stage at the position is marked (09 R244). -/
def State.reserveAt (s : State) (d : Die) (net : Net) (a : Spot) : State :=
  let q := s.pad d
  match a with
  | .hand _ => s
  | .ring r pos =>
    let lim := max 1 q.stream.starve.toNat
    let waited (since : Nat) : Bool := decide (since + lim ≤ q.aon.hcycle)
    let w := (s.candidates d net pos.val (some r)).any (fun i => waited i.since)
      || q.stream.turns.any fun t =>
        t.net == net && t.pos == pos.val && s.routeFrom d pos.val t.flit == some r && waited t.since
    let mine := dies.any fun x => (s.pad x).holdsMark net r (d, pos.val)
    let st := stageOf r pos.val
    match q.stream.slot net r st with
    | some x =>
      if q.running && w && !mine && x.flit.isSome && x.resv.isNone && !s.dammed d net r then
        let here (y : RingSlot) : Bool := y.net == net && y.ring == r && y.stage == st
        let mark (y : RingSlot) : RingSlot := { y with resv := some (d, pos.val) }
        (s.modStream d fun q => { q with slots := updateWhere here mark q.slots }).pcount d 0x12 (netNo net).val
      else s
    | none => s

/-- D_f of a REQ flit (11 R289): the unique value in [t − 948,576, t + 100,000) with D[19:4] = DL and D[3:0] = 0. -/
def deadlineFrom (dl : BitVec 16) (t : Nat) : Int :=
  let lo : Int := (t : Int) - 948576
  let m : Int := (dl.toNat * 16 : Nat)
  m + ((lo - m + 1048575) / 1048576) * 1048576

/-- A_f of a REQ flit (11 R292); a limit before Tide 0 is 0. -/
def abandonFrom (r : Repl) (f : ReqFlit) (t : Nat) : Nat :=
  let dl := r.deadline[f.cls]
  (deadlineFrom f.dl t - dl + (min (16 * dl) 1000000 : Nat)).toNat

/-- Send Err ABANDONED on behalf of the home fold, from a turn buffer of die d, and file 0xD02 (11 R291). A DAT flit of the
request that is under way stays so (log entry 101). -/
def State.abandonFlit (s : State) (d : Die) (pos : Nat) (f : ReqFlit) (pf : BitVec 16) : State :=
  let q := s.pad d
  let err : RspFlit := { op := .err, src := f.tgt, tgt := f.src, txid := f.txid, ecode := 2 }
  let item : InjItem := { net := .rsp, pos := pos, agent := f.tgt, cls := f.cls, flit := .rsp err, since := q.aon.hcycle }
  let s := s.modPad d fun q => q.offer [item]
  s.file d { code := 0xD02, reporter := f.tgt, subject := f.tgt, addr := some f.addr, atype := f.op.code,
             t := q.now, detail := pf }

/-- TURN: a flit at its entry position goes to the turn buffer, or passes on when it is full (09 R236). -/
def State.turnAt (s : State) (d : Die) (net : Net) (a : Spot) : State :=
  let q := s.pad d
  match a with
  | .hand _ => s
  | .ring r pos =>
    match q.stream.at' net a with
    | none => s
    | some f =>
      if !q.running || stageOf r pos.val != 0 || !s.mustTurn d r f then s
      else
        let toY := ringX r
        let n := (q.stream.turns.filter fun t => t.net == net && t.pos == pos.val && t.toY == toY).length
        if n < 4 then
          s.modStream d fun x => { x.take net a with turns := x.turns ++ [⟨net, pos.val, toY, f, q.aon.hcycle⟩] }
        else
          let s := s.pcount d 0x13 (netNo net).val
          match f with
          | .req g =>
            if abandonFrom q.repl g q.now ≤ q.now then
              (s.modStream d fun x => x.take net a).abandonFlit d pos.val g 0
            else s.modStream d fun x => x.pass net a f
          | _ => s.modStream d fun x => x.pass net a f

/-! ### Edges (09 R234, R235, 10 R262) -/

/-- The crossing buffer rises or falls past the dam's thresholds (10 R262). -/
def EdgeStat.damUpdate (e : EdgeStat) (n : Fin 4) : EdgeStat :=
  let k := (e.buf[n].filter fun x => x.flit.isSome).length
  if 32 ≤ k then { e with dam := vset e.dam n true }
  else if k ≤ 16 then { e with dam := vset e.dam n false }
  else e

/-- EDGE_FLIT_ACCEPT: the flit at an open edge enters the crossing buffer. -/
def State.edgeAccept (s : State) (d : Die) (net : Net) (r : Ring) (outbound : Bool) : State :=
  let q := s.pad d
  let st := if outbound then 16 else 25
  match q.stream.openEdge d r (!outbound), q.stream.slot net r st with
  | some e, some x =>
    if q.running then
      s.modPad d fun q =>
        let n := netNo net
        let add (g : EdgeStat) : EdgeStat :=
          EdgeStat.damUpdate { g with buf := vmod g.buf n fun l => l ++ [⟨r, !outbound, x.flit, x.resv⟩] } n
        let edge := vmod q.conf.edge (edgeNo e) add
        { q with stream := { q.stream with slots := q.stream.slots.erase x }, conf := { q.conf with edge := edge } }
    else s
  | _, _ => s

/-! ### Culverts (09 R249) -/

/-- CULVERT_FLIT: a culvert passes a REQ or SNP flit of the agent it bypasses, with a wake, or removes an RSP or DAT
flit under 0x703; a flit whose check fails is removed, with the sticky bit of its code, and one for an agent that is not
configured under 0x702 (09 R252). -/
def State.culvertAt (s : State) (d : Die) (net : Net) (a : Spot) (crcOk : Bool) : State :=
  let q := s.pad d
  let pos := spotPos a
  match q.stream.at' net a with
  | none => s
  | some f =>
    if !q.running || !s.culvert d pos then s
    else if !crcOk then (s.modStream d fun x => x.take net a).stick d 2
    else if dieOf f.tgt != d || s.destPos d f != pos then s.modStream d fun x => x.pass net a f
    else if !s.krovol.configured f.tgt && localOf f.tgt != 124 then s.dropStray d net a f
    else if net == .req || net == .snp then
      let s := (s.modStream d fun x => x.pass net a f).pcount d 0x15 (netNo net).val
      let s := if net == .req && localOf f.src != 127 && (s.pad d).wakeEn 0 then s.nfWake else s
      match posFold pos with
      | some p => s.wakeFold d p 0
      | none => s
    else (s.modStream d fun x => x.take net a).stick d 3

/-! ### One HCLK cycle on the rings (09 R233) -/

/-- An event is due for the slot's flit at its stage, so it does not move on by itself. -/
def State.due (s : State) (d : Die) (x : RingSlot) : Bool :=
  match x.flit with
  | none => (x.stage == 16 && ((s.pad d).stream.openEdge d x.ring false).isSome)
      || (x.stage == 25 && ((s.pad d).stream.openEdge d x.ring true).isSome)
  | some f =>
    if x.stage == 16 then ((s.pad d).stream.openEdge d x.ring false).isSome
    else if x.stage == 25 then ((s.pad d).stream.openEdge d x.ring true).isSome
    else if 16 < x.stage then false
    else if x.seen then false
    else
      let here := dieOf f.tgt == d && s.destPos d f == posOf x.ring x.stage
      here || (x.stage == 0 && s.mustTurn d x.ring f)

/-- The stage after a stage on a die: the culvert turn at a closed edge. -/
def nextStage (st : Nat) : Nat := if 25 ≤ st then 0 else st + 1

/-- The stage is free for the slot behind it in this cycle. -/
def Stream.frees (q : Stream) (held : RingSlot → Bool) (net : Net) (r : Ring) (st fuel : Nat) : Bool :=
  match fuel with
  | 0 => true
  | n + 1 =>
    match q.slot net r st with
    | none => true
    | some x => !held x && q.frees held net r (nextStage st) n

/-- Every slot of a paddock that can moves one stage on. -/
def State.moveRings (s : State) (d : Die) : State :=
  let q := (s.pad d).stream
  let held (x : RingSlot) : Bool := s.due d x
  let go (x : RingSlot) : RingSlot :=
    if !held x && q.frees held x.net x.ring (nextStage x.stage) 26 then
      { x with stage := nextStage x.stage, seen := false }
    else x
  if q.slots.isEmpty then s else s.modStream d fun q => { q with slots := q.slots.map go }

/-- The entry stage of a run: the first ford position, or the start of the return run. -/
def entryStage (ret : Bool) : Nat := if ret then 17 else 0

/-- The entry stage of a crossing item. -/
def CrossItem.entry (c : CrossItem) : Nat := entryStage c.ret


/-- The ring that leaves a die at an edge on its outbound (or return) run. -/
def ringAt (d : Die) (e : Edge) (ret : Bool) : Ring :=
  ([.xcw, .xccw, .ycw, .yccw].find? fun r => (if ret then retEdge d r else outEdge d r) == some e).getD .xcw

/-- The modules of a die on an edge (10 R259). -/
def Krovol.modsOn (k : Krovol) (d : Die) (e : Edge) : List ModN := modNs.filter fun m => (k.modEdge[d])[m] == some e

/-- An earlier Confluence flit of the edge is still on its way at one of its modules (10 R235). -/
def State.laterFirst (s : State) (d : Die) (e : Edge) (ord : Nat) : Bool :=
  (s.krovol.modsOn d e).any fun m => ((s.pad d).conf.mod[m]).wire.any fun w => decide (w.ord < ord)

/-- The first received ring flit of an edge whose entry stage is free enters it, in the order in which the edge's flits
were packed (09 R235, 10 R260, R262). -/
def State.enterOne (s : State) (d : Die) (e : Edge) : State :=
  let q := s.pad d
  let ready (x : Nat × Net × CrossItem) : Bool :=
    (q.stream.slot x.2.1 x.2.2.ring x.2.2.entry).isNone && !s.laterFirst d e x.1
  match takeFirst ready (q.conf.edge[edgeNo e]).rx with
  | none => s
  | some (x, rest) => s.modPad d fun q =>
      let c := x.2.2
      let slots := q.stream.slots ++ [⟨x.2.1, c.ring, c.entry, c.flit, c.resv, false⟩]
      let edge := vmod q.conf.edge (edgeNo e) fun y => { y with rx := rest }
      { q with conf := { q.conf with edge := edge }, stream := { q.stream with slots := slots } }

/-- Received ring flits of an edge enter their stages, at most one per stage. -/
def State.enterRings (s : State) (d : Die) (e : Edge) (fuel : Nat) : State :=
  match fuel with
  | 0 => s
  | n + 1 => (s.enterOne d e).enterRings d e n

/-- Flits on the rings of a die for a die that it can no longer reach are lost (10 R266). -/
def State.loseCutOff (s : State) (d : Die) : State :=
  let u := (s.pad d).conf.unreach
  if u == 0 then s
  else
    let gone (f : Flit) : Bool := bitAt u (dieOf f.tgt).val
    s.modStream d fun q => { q with
      slots := (q.slots.map fun x => { x with flit := x.flit.filter fun f => !gone f }).filter fun x =>
        x.flit.isSome || x.resv.isSome
      hand := q.hand.filter fun h => !gone h.flit
      turns := q.turns.filter fun t => !gone t.flit }

end Sys2Proof.Machine
end

