-- ==== Sys2Proof/Machine/FoldIn.lean ====
section
/-!
DEFINITION. Flits that arrive (09 R239 to R242): requests at a fold or a target Stile, snoops at a snoop inbox or at
the Muster fan-out point, answers and data at folds and at the fan-out point (04 R117 to R119).
-/

namespace Sys2Proof.Machine

/-- The fold is powered and HCLK runs: its memory port accepts what the controller offers, its own clock gated or not
(19 R511). -/
def Paddock.portRuns (q : Paddock) (p : PFold) : Bool := q.running && q.domOn (domFL p) && q.domOn (domFA p)

/-- The fold is powered and clocked (14 R365, R367). -/
def Paddock.foldRuns (q : Paddock) (p : PFold) : Bool := q.portRuns p && !(q.ebb.fold[p]).gated

/-- A flit or a register access that reaches a fold ungates its clock (14 R367). -/
def State.ungate (s : State) (d : Die) (p : PFold) : State :=
  if ((s.pad d).ebb.fold[p]).gated then
    (s.modPad d fun q => { q with ebb := { q.ebb with
      fold := vmod q.ebb.fold p fun x => { x with gated := false, state := .run } } }).modFold d p
      fun f => { f with census := foldCount 0x38 8 f.census }
  else s

/-- Which item of an inbox takes a flit (09 R240, R241): `size` items with one kept for escalated flits, `nk` of the
others and `kk` kept ones in use. `true` is the kept item. -/
def inboxRoom (size nk kk : Nat) (escalated : Bool) : Option Bool :=
  if escalated && kk == 0 then some true else if nk + 1 < size then some false else none

/-- A flit refused at ejection stays on its ring (09 R240, R241): REV rises by one, or stays for a fenced ford. -/
def State.refuseFlit (s : State) (d : Die) (net : Net) (a : Spot) (f : Flit) (fenced : Bool) : State :=
  (s.modStream d fun x => x.pass net a (if fenced then f else f.bump)).pcount d 0x10 (netNo net).val

/-- A flit that reaches its destination with REV 31 is escalated at each arrival (09 R241, 17 R458). -/
def State.escalate (s : State) (d : Die) (net : Net) (rev : BitVec 5) : State :=
  if rev = 31 then s.pcount d 0x11 (netNo net).val else s

/-! ### Requests at a fold -/

/-- The record of a request at one of the fold's ports. -/
def Fold.recordOf (x : Fold) (f : ReqFlit) : Option RefuseRec :=
  (x.refuse.toList.flatMap fun l => l).find? fun r => r.src == f.src && r.txid == f.txid

/-- A record of its source stands before a request at a port (09 R242, 10 R274): one of the port itself or a common one,
and where the request is itself recorded an older one. -/
def Fold.standing (x : Fold) (port : Fin 4) (f : ReqFlit) : Bool :=
  let before (r : RefuseRec) : Bool := match x.recordOf f with
    | some o => decide (r.n < o.n)
    | none => true
  (List.finRange 4).any fun k => x.refuse[k].any fun r => r.src == f.src && (k == port || r.common) && before r

/-- The ingress port lets a request through to the pens (09 R242). -/
def Fold.portTakes (x : Fold) (port : Fin 4) (f : ReqFlit) : Bool :=
  !x.standing port f && ((x.recordOf f).isSome || decide (x.refuse[port].length < 16))

/-- Forget a request's refusal records. -/
def Fold.unrecord (x : Fold) (f : ReqFlit) : Fold :=
  { x with refuse := x.refuse.map fun l => l.filter fun r => !(r.src == f.src && r.txid == f.txid) }

/-- Record a refused request, where the port has a record free. -/
def Fold.record (x : Fold) (port : Fin 4) (f : ReqFlit) : Fold :=
  let l := x.refuse[port]
  if (x.recordOf f).isSome || decide (16 ≤ l.length) then x
  else
    let n := ((x.refuse.toList.flatMap fun l => l.map fun r => r.n + 1).foldl max 0)
    { x with refuse := vset x.refuse port (l ++ [{ src := f.src, txid := f.txid, n := n }]) }

/-- Put an item into the pens in order of arrival cycle, then port (03 R74). -/
def penInsert (l : List PenItem) (it : PenItem) : List PenItem :=
  match l with
  | [] => [it]
  | x :: t =>
    if x.arrive < it.arrive || (x.arrive == it.arrive && x.port.val ≤ it.port.val) then x :: penInsert t it
    else it :: x :: t

/-- The room of a request's pen (03 R73). -/
def Fold.penRoom (x : Fold) (n : Nat) (escalated : Bool) : Option Bool :=
  inboxRoom 16 ((x.pens.filter fun i => i.pen == n && !i.kept).length)
    ((x.pens.filter fun i => i.pen == n && i.kept).length) escalated

/-- End a request that reached its abandon limit on the Stream (11 R291). -/
def FC.reqAtLimit (c : FC) (f : ReqFlit) : FC :=
  let due := f.op.carriesData && (c.f.datOf f).isNone
  let inbox := c.f.inbox.filter fun d => !(d.src == f.src && d.txid == f.txid)
  let dead := if due then c.f.deadDat ++ [(f.src, f.txid)] else c.f.deadDat
  let c : FC := { c with f := { c.f.unrecord f with inbox := inbox, deadDat := dead } }
  ((c.repSelf 0xD02 (some f.addr) f.op.code).ev 0x31).err f 2

/-- A REQ flit stands at the ford of its home fold (03 R73, R74, 09 R240 to R242, 11 R289, R291). -/
def State.reqAtFold (s : State) (d : Die) (a : Spot) (p : PFold) (f : ReqFlit) : State :=
  let s := (s.ungate d p).escalate d .req f.rev
  let q := s.pad d
  let x := q.folds[p]
  let port := spotPort a
  let af := abandonFrom q.repl f q.now
  let pen := penOf d f
  let esc := f.rev == 31
  if af ≤ q.now then
    (s.modStream d fun y => y.take .req a).runFold d p fun c => c.reqAtLimit f
  else if s.fenced d (spotPos a) then
    (s.modFold d p fun y => y.record port f).refuseFlit d .req a (.req f) true
  else
    match x.penRoom pen esc, x.portTakes port f && (!x.refuseReq || f.op.isPut || f.fromShep) with
    | some kept, true =>
      let it : PenItem :=
        { pen := pen, flit := f, port := port, arrive := q.aon.hcycle, df := (deadlineFrom f.dl q.now).toNat
          af := af, kept := kept }
      (s.modStream d fun y => y.take .req a).modFold d p fun y =>
        let y := y.unrecord f
        { y with
          pens := penInsert y.pens it
          census := if esc then foldCount 0x0E 8 y.census else y.census }
    | _, _ => (s.modFold d p fun y => y.record port f).refuseFlit d .req a (.req f) false

/-! ### Requests at a target Stile (08 R223, R212) -/

/-- File a report of an agent of die d about itself. -/
def State.selfRep (s : State) (d : Die) (a : AgentId) (code : Nat) (addr : Option Addr) (atype : BitVec 6) : State :=
  s.file d { code := BitVec.ofNat 12 code, reporter := a, subject := a, addr := addr, atype := atype
             t := (s.pad d).now, detail := 0 }

/-- A DevRead or DevWrite stands at its target Stile. -/
def State.reqAtStile (s : State) (d : Die) (a : Spot) (n : StileN) (f : ReqFlit) : State :=
  let q := s.pad d
  let x := q.stiles[n]
  let me := agent d (n.val + 8)
  let af := abandonFrom q.repl f q.now
  let answer (s : State) (ecode : BitVec 4) : State :=
    (s.modStream d fun y => y.take .req a).sendRsp d f.cls
      { op := .err, src := me, tgt := f.src, txid := f.txid, ecode := ecode }
  if af ≤ q.now then
    let drop (y : AgentPort) : AgentPort :=
      if f.op != .devWrite then y
      else if y.devData.any fun z => z.src == f.src && z.txid == f.txid then
        { y with devData := y.devData.filter fun z => !(z.src == f.src && z.txid == f.txid) }
      else { y with devDrop := y.devDrop ++ [(f.src, f.txid)] }
    ((answer s 2).selfRep d me 0xD02 (some f.addr) f.op.code).modPad d fun q => { q with stiles := vmod q.stiles n drop }
  else if s.fenced d (spotPos a) then s.refuseFlit d .req a (.req f) true
  else if !f.op.isDev || f.bad then answer s 4
  else
    match inboxRoom 64 ((x.devQ.filter fun i => !i.kept).length) ((x.devQ.filter fun i => i.kept).length)
        (f.rev == 31) with
    | some kept =>
      let early := x.devData.find? fun y => y.src == f.src && y.txid == f.txid
      let it : DevAcc :=
        { flit := f, data := if f.op == .devWrite then early.map fun y => (y.payload, y.poison) else none
          limit := af, kept := kept }
      (s.modStream d fun y => y.take .req a).modPad d fun q => { q with
        stiles := vmod q.stiles n fun y => { y with
          devQ := y.devQ ++ [it]
          devData := y.devData.filter fun z => !(f.op == .devWrite && z.src == f.src && z.txid == f.txid) } }
    | none => s.refuseFlit d .req a (.req f) false

/-- REQ_FLIT_ARRIVAL. -/
def State.reqArrival (s : State) (d : Die) (a : Spot) (crcOk : Bool) : State :=
  match s.arrived d .req a crcOk with
  | .none => s
  | .badCrc => s.dropFlit d .req a
  | .noAgent f => s.dropStray d .req a f
  | .flit (.req f) =>
    if isFold f.tgt then
      match posFold (spotPos a) with
      | some p => s.reqAtFold d a p f
      | none => s
    else if isStile f.tgt then (s.escalate d .req f.rev).reqAtStile d a (stileOf f.tgt) f
    else s.modStream d fun x => x.pass .req a (.req f)
  | .flit _ => s

/-! ### Snoops (09 R240, 19 R503) -/

/-- The lowest STAG not in use. -/
def freeStag (l : List SnpIn) : BitVec 4 :=
  match (List.range 16).find? fun i => !(l.any fun x => x.stag.toNat == i) with
  | some i => BitVec.ofNat 4 i
  | none => 0

/-- A snoop enters an agent's snoop inbox and is driven to the agent. -/
def AgentPort.takeSnoop (x : AgentPort) (f : SnpFlit) (kept : Bool) : AgentPort :=
  let t := freeStag x.snpIn
  let it : SnpIn := { stag := t, flit := f, kept := kept }
  { x with snpIn := x.snpIn ++ [it], out := x.out ++ [.snp f.op f.laddr t] }

/-- The agents that the fan-out point of die d snoops (04 R118). -/
def Krovol.fanOut (k : Krovol) (d : Die) (f : SnpFlit) : List AgentId :=
  let skip := localOf f.tgt
  let st := (stileNs.filter fun n => k.isCaching d n.val).map fun n => agent d (n.val + 8)
  let gt := if dieOf f.src == d then [] else (gateNs.filter fun g => k.hasGate d g.val).map fun g => agent d g.val
  (gt ++ st).filter fun a => localOf a != skip

/-- The lowest gather-table index not in use. -/
def freeGather (l : List GatherRec) : Option Nat := (List.range 64).find? fun i => !(l.any fun g => g.idx == i)

/-- A Muster snoop is accepted by the fan-out point (04 R117, R118). -/
def State.gather (s : State) (d : Die) (f : SnpFlit) (kept : Bool) : State :=
  let me := agent d 124
  let ags := s.krovol.fanOut d f
  if ags.isEmpty then
    s.sendRsp d 0 { op := .snpAck, src := me, tgt := f.src, txid := f.txid }
  else
    match freeGather (s.pad d).conf.gather with
    | none => s
    | some i =>
      let g : GatherRec :=
        { idx := i, src := f.src, txid := f.txid, op := f.op, line := f.laddr, waits := ags, kept := kept }
      let s := s.modPad d fun q => { q with conf := { q.conf with gather := q.conf.gather ++ [g] } }
      let one (s : State) (b : AgentId) : State :=
        s.sendSnp d 0 { op := f.op, src := me, tgt := b, txid := BitVec.ofNat 12 i, laddr := f.laddr }
      (ags.foldl one s).pcount d 0x1E 0

/-- SNP_FLIT_ARRIVAL. -/
def State.snpArrival (s : State) (d : Die) (a : Spot) (crcOk : Bool) : State :=
  match s.arrived d .snp a crcOk with
  | .none => s
  | .badCrc => s.dropFlit d .snp a
  | .noAgent f => s.dropStray d .snp a f
  | .flit (.snp f) =>
    let s := s.escalate d .snp f.rev
    let q := s.pad d
    if s.fenced d (spotPos a) then s.refuseFlit d .snp a (.snp f) true
    else if f.muster then
      let l := q.conf.gather
      match inboxRoom 64 ((l.filter fun g => !g.kept).length) ((l.filter fun g => g.kept).length) (f.rev == 31) with
      | some kept => (s.modStream d fun x => x.take .snp a).gather d f kept
      | none => s.refuseFlit d .snp a (.snp f) false
    else if isGate f.tgt || (isStile f.tgt && s.krovol.isCaching d (stileOf f.tgt).val) then
      let n : AgentN := Fin.ofNat 28 (sluiceOf f.tgt)
      let l := (q.agent n).snpIn
      match inboxRoom 16 ((l.filter fun g => !g.kept).length) ((l.filter fun g => g.kept).length) (f.rev == 31) with
      | some kept => (s.modStream d fun x => x.take .snp a).modAgent d n fun x => x.takeSnoop f kept
      | none => s.refuseFlit d .snp a (.snp f) false
    else s.modStream d fun x => x.pass .snp a (.snp f)
  | .flit _ => s

/-! ### Answers at the fan-out point (04 R119) -/

/-- Order of states in a summary. -/
def higherState (a b : CacheState) : CacheState := if a.code.toNat < b.code.toNat then b else a

/-- Send the summary of a gather entry whose answers are complete, with its data, and free it. -/
def State.summarise (s : State) (d : Die) (idx : Nat) : State :=
  match (s.pad d).conf.gather.find? fun g => g.idx == idx with
  | none => s
  | some g =>
    if !g.waits.isEmpty || (g.dataFrom.isSome && g.data.isNone) then s
    else
      let me := agent d 124
      let s := s.modPad d fun q => { q with conf := { q.conf with
        gather := q.conf.gather.filter fun x => x.idx != idx } }
      match g.dataFrom, g.data with
      | some _, some x =>
        let s := s.sendRsp d 0 { op := .snpAck, src := me, tgt := g.src, txid := g.txid, state := .m, data := true }
        s.sendDat d 0
          { op := .snpData, src := me, tgt := g.src, txid := g.txid, payload := x.1, poison := x.2, state := .m }
      | _, _ =>
        if g.sawWb then
          s.sendRsp d 0 { op := .snpAckWB, src := me, tgt := g.src, txid := g.txid, state := if g.wbE then .e else .i }
        else s.sendRsp d 0 { op := .snpAck, src := me, tgt := g.src, txid := g.txid, state := g.best }

/-- A snoop answer reaches the fan-out point. -/
def State.gatherAck (s : State) (d : Die) (r : RspFlit) : State :=
  let i := r.txid.toNat % 64
  let take (g : GatherRec) : GatherRec :=
    if g.idx == i && g.waits.contains r.src then
      let g := { g with waits := g.waits.filter fun x => x != r.src }
      if r.op == .snpAckWB then { g with sawWb := true, wbE := g.wbE || r.state == .e }
      else if r.data then { g with dataFrom := some r.src }
      else { g with best := higherState g.best r.state }
    else g
  (s.modPad d fun q => { q with conf := { q.conf with gather := q.conf.gather.map take } }).summarise d i

/-- SnpData reaches the fan-out point. -/
def State.gatherData (s : State) (d : Die) (x : DatFlit) : State :=
  let i := x.txid.toNat % 64
  let take (g : GatherRec) : GatherRec := if g.idx == i then { g with data := some (x.payload, x.poison) } else g
  (s.modPad d fun q => { q with conf := { q.conf with gather := q.conf.gather.map take } }).summarise d i

/-! ### Answers and data at folds -/

/-- Run an answer on the fold that stands at a position and is named by the flit. -/
def State.atFold (s : State) (d : Die) (a : Spot) (g : FC → FC) : State :=
  match posFold (spotPos a) with
  | some p => (s.ungate d p).runFold d p g
  | none => s

/-- A snoop answer leaves the Stream at the fan-out point or a fold (03 R91, 04 R119). -/
def State.snpAnswerAt (s : State) (d : Die) (a : Spot) (crcOk : Bool) (op : RspOp) : State :=
  match s.arrived d .rsp a crcOk with
  | .none => s
  | .badCrc => s.dropFlit d .rsp a
  | .noAgent f => s.dropStray d .rsp a f
  | .flit (.rsp r) =>
    if r.op != op then s
    else
      let s := s.modStream d fun x => x.take .rsp a
      if localOf r.tgt == 124 then s.gatherAck d r
      else if isFold r.tgt then s.atFold d a fun c => c.snpAnswer r
      else s
  | .flit _ => s

/-- COMPACK leaves the Stream at a fold (02 R67, 03 R80). -/
def State.compAckAt (s : State) (d : Die) (a : Spot) (crcOk : Bool) : State :=
  match s.arrived d .rsp a crcOk with
  | .none => s
  | .badCrc => s.dropFlit d .rsp a
  | .noAgent f => s.dropStray d .rsp a f
  | .flit (.rsp r) =>
    if r.op != .compAck then s
    else
      let s := s.modStream d fun x => x.take .rsp a
      if isFold r.tgt then s.atFold d a fun c => c.compAckIn r else s
  | .flit _ => s

/-- A request's DAT flit reaches the data inbox (02 R48, 03 R96); one of an abandoned request is discarded. -/
def FC.datIn (c : FC) (x : DatFlit) : FC :=
  if c.f.deadDat.contains (x.src, x.txid) then
    { c with f := { c.f with deadDat := c.f.deadDat.erase (x.src, x.txid) } }
  else { c with f := { c.f with inbox := c.f.inbox ++ [x] } }

/-- DAT of a DevWrite reaches its target Stile (08 R223). -/
def AgentPort.devDat (x : AgentPort) (y : DatFlit) : AgentPort :=
  let mine (i : DevAcc) : Bool :=
    i.flit.op == .devWrite && i.flit.src == y.src && i.flit.txid == y.txid && i.data.isNone
  if x.devDrop.contains (y.src, y.txid) then { x with devDrop := x.devDrop.erase (y.src, y.txid) }
  else if x.devQ.any mine then
    { x with devQ := updateWhere mine (fun i => { i with data := some (y.payload, y.poison) }) x.devQ }
  else { x with devData := x.devData ++ [y] }

/-- A DAT flit for a fold, the fan-out point or a target Stile leaves the Stream. -/
def State.datAt (s : State) (d : Die) (a : Spot) (crcOk : Bool) (op : DatOp) : State :=
  match s.arrived d .dat a crcOk with
  | .none => s
  | .badCrc => s.dropFlit d .dat a
  | .noAgent f => s.dropStray d .dat a f
  | .flit (.dat x) =>
    if x.op != op then s
    else
      let s := s.modStream d fun y => y.take .dat a
      if localOf x.tgt == 124 then s.gatherData d x
      else if isFold x.tgt then
        match op with
        | .snpData => s.atFold d a fun c => c.snpDataIn x
        | .putData | .pushData => s.atFold d a fun c => c.datIn x
        | .dataToReq => s
      else if isStile x.tgt && op == .pushData then
        s.modPad d fun q => { q with stiles := vmod q.stiles (stileOf x.tgt) fun y => y.devDat x }
      else s
  | .flit _ => s

/-! ### The pulls of pen arbitration (03 R77) -/

/-- The fold pulls its highest-ranked eligible item, where that item's opcode is the one wanted. -/
def State.pullOf (s : State) (d : Die) (p : PFold) (want : ReqOp → Bool) : State :=
  let c := s.fc d p
  if !(s.pad d).foldRuns p || !c.carried then s
  else
    match c.pull with
    | none => s
    | some it => if want it.flit.op then s.putFc (c.serve it) else s

end Sys2Proof.Machine
end

