-- ==== Sys2Proof/Machine/Memory.lean ====
section
/-!
DEFINITION. The memory ports (19 R510 to R513), what their answers do in a fold (06 R149 to R154, 03 R94), and the
times of a fold: UNSURE windows, shares, abandon limits, clock gating.
-/

namespace Sys2Proof.Machine

/-- The fold that memory port n of a die serves (12 R324). -/
def State.portFold (s : State) (d : Die) (n : LFold) : Option PFold := (s.pad d).repl.pfoldOf d n

/-- The fold holds a credit for the operation (19 R511). -/
def Fold.memCredit (f : Fold) (o : MemOp) : Bool := if o.isWrite then decide (0 < f.wcred) else decide (0 < f.rcred)

/-- What the memory port does next: issue a request, or, with neither credit nor tag, answer a read from the queued write
of its line that is newest before it (03 R88). -/
inductive MemNext where
  | issue (m : MemReq)
  | answer (m w : MemReq)
  deriving DecidableEq, Repr

/-- What a request can do behind the requests `pre` queued before it: only the head of its own queue goes, and no request
passes an earlier write of its line (03 R88, 05 R136). -/
def Fold.memCan (f : Fold) (pre : List MemReq) (m : MemReq) : Option MemNext :=
  if pre.any fun x => x.queue == m.queue then none
  else
    match (pre.filter fun x => x.op.isWrite && x.line == m.line).getLast? with
    | some w => if m.op == .lineRead && w.op == .lineWrite then some (.answer m w) else none
    | none => if f.memCredit m.op then some (.issue m) else none

/-- What the oldest request of class `c` in `rest` that can go does, `pre` being queued before `rest`. -/
def Fold.memOfClass (f : Fold) (c : Cls) (pre rest : List MemReq) : Option MemNext :=
  match rest with
  | [] => none
  | m :: t =>
    match if m.cls == c then f.memCan pre m else none with
    | some x => some x
    | none => f.memOfClass c (pre ++ [m]) t

/-- What the memory port does next (03 R95): the highest class first, in a class the oldest head that can go (log entry
40). -/
def Fold.nextMem (f : Fold) : Option MemNext := ([0, 1, 2, 3] : List Cls).findSome? fun c => f.memOfClass c [] f.memQ

/-- The lowest memory tag not in use. -/
def Fold.freeTag (f : Fold) : Option MemTag :=
  ((List.range 512).find? fun i => !(f.mpOpen.any fun x => x.1.toNat == i)).map fun i => BitVec.ofNat 9 i

/-- Writes of a line's Eddy entries that stand before a request: those open at the port and those in `pre`. -/
def Fold.eddyBefore (f : Fold) (pre : List MemReq) (l : Line) : Nat :=
  ((f.mpOpen.map Prod.snd ++ pre).filter fun m => m.purpose == .eddy && m.line == l).length

/-- What a queued write carries: an Eddy write the data of its entry, checked as it is read (06 R157), every other write
its own. -/
def FC.writeData (c : FC) (w : MemReq) : FC × LineData × Bool :=
  let pre := c.f.memQ.takeWhile fun x => x != w
  match if w.purpose == .eddy then c.eddyNth w.line (c.f.eddyBefore pre w.line) else none with
  | some r => r
  | none => (c, w.data, w.poison)

/-- Take an open request off its tag. -/
def FC.closeTag (c : FC) (t : MemTag) (write : Bool) : Option (FC × MemReq) :=
  match takeFirst (fun x : MemTag × MemReq => x.1 == t && x.2.op.isWrite == write) c.f.mpOpen with
  | some (x, rest) => some ({ c with f := { c.f with mpOpen := rest } }, x.2)
  | none => none

/-- The two beats of write data of a request: every byte of a line write, the named bytes of a device write (19 R510). -/
def MemReq.beats (m : MemReq) (d : LineData) : List MwdBeat :=
  let on (i : Nat) : Bool := m.op == .lineWrite || (decide (m.off.toNat ≤ i) && decide (i < m.off.toNat + m.len.toNat))
  let be (from' : Nat) : BitVec 32 := (List.range 32).foldl (fun b i => putBit b i (on (from' + i))) 0
  if m.op.isWrite then [⟨d.extractLsb' 0 256, be 0, false⟩, ⟨d.extractLsb' 256 256, be 32, true⟩] else []

/-- Issue a request under a tag, the only one of its cycle: it spends a credit and is open, and its write data follows
(19 R510, R511). -/
def FC.issueReq (c : FC) (m : MemReq) (t : MemTag) : FC :=
  let r := c.writeData m
  let c := r.1
  let f := { c.f with
    memQ := c.f.memQ.erase m, memFrom := c.cyc + 1, mwd := c.f.mwd ++ m.beats r.2.1
    mpOpen := c.f.mpOpen ++ [(t, { m with data := r.2.1, poison := r.2.2 })] }
  { c with f := if m.op.isWrite then { f with wcred := f.wcred - 1 } else { f with rcred := f.rcred - 1 } }

/-- A scrubber's refetch rewrites its SUSPECT way (12 R317, R318). -/
def FC.scrubFill (c : FC) (m : MissReg) (d : LineData) : FC :=
  let set := poolSet m.line
  let c := c.poolCheck set
  match c.poolFind m.line with
  | some (_, ph) =>
    let r := c.f.ptag set ph
    if r.suspect then
      let f : Fold := { c.f with poolData := smSet c.f.poolData 0 (set * 17 + ph) d }
      { c with f := f.ptagPut set ph { r with suspect := false, dcrc := dataCrc d } }
    else c
  | none => c

/-- A Sweep or SweepPurge that rides a fill whose data comes poisoned writes the line to memory with its poison (05
R137; log entry 88). -/
def FC.ridePoison (c : FC) (m : MissReg) (d : LineData) : FC :=
  match m.rider.bind c.entry with
  | some e => if e.flit.op == .sweep || e.flit.op == .sweepPurge then c.memWrite e.flit.cls m.line d true .commit else c
  | none => c

/-- The access type of what a miss register does: that of the first transaction it serves (13 R346). -/
def FC.mrAtype (c : FC) (m : MissReg) : BitVec 6 :=
  match (m.atts ++ m.rider.toList).findSome? c.entry with
  | some e => e.atype
  | none => 0x3E

/-- A miss register's data returns (06 R149 to R153, R156, R159, 19 R513). A rider writes what came poisoned, and not what
R159 poisons (log entry 88). -/
def FC.missData (c : FC) (m : MissReg) (d : LineData) (bad : Bool) : FC :=
  if m.stale then c.freeMissReg m
  else if m.scrub then (if bad then c else c.scrubFill m d).freeMissReg m
  else
    let c : FC := { c with atype := c.mrAtype m }
    let c := if m.wpolicy == 2 then c else c.poolCheck (poolSet m.line)
    let c := if bad then c.ridePoison m d else c
    let bad := bad || c.isLost m.line m.wpolicy
    let tt := updateWhere (fun e : TTEntry => m.atts.contains e.idx && e.ms == MemSide.waiting)
      (fun e => { e with ms := .held d bad, mr := none }) c.f.tt
    let c : FC := { c with f := { c.f with tt := tt } }
    let c := if bad || m.noWrite then c else c.fill m.line d m.wpolicy m.cls m.touch
    c.freeMissReg m

/-- A device request of an entry is answered (03 R94). -/
def FC.devDone (c : FC) (i : TTIdx) (data : Option LineData) (bad : Bool) : FC :=
  match c.entry i with
  | none => c
  | some e =>
    let c :=
      if bad then c.err e.flit 3
      else
        match data with
        | some d => (c.dataToReq e.flit (keepBytes d (offOf e.flit.addr) e.flit.len.toNat) false).comp e .i true
        | none => c.comp e .i false
    (c.free i).pump

/-- Data of a read reaches what asked for it. -/
def FC.readDone (c : FC) (m : MemReq) (d : LineData) (bad : Bool) : FC :=
  match m.purpose with
  | .mr i =>
    match c.f.mrs.find? fun x => x.idx == i with
    | some x => c.missData x d bad
    | none => c
  | .dev i => c.devDone i (some d) bad
  | .eddy | .commit => c

/-- Read data reaches the fold. -/
def FC.readData (c : FC) (t : MemTag) (d : LineData) (bad : Bool) : FC :=
  match c.closeTag t false with
  | none => c
  | some (c, m) => c.readDone m d bad

/-- The memory port's next act: a request issued under the lowest free tag, or a read answered from a queued write. -/
def FC.memIssue (c : FC) : FC :=
  match c.f.nextMem with
  | none => c
  | some (.issue m) =>
    match c.f.freeTag with
    | some t => if c.f.memFrom ≤ c.cyc then c.issueReq m t else c
    | none => c
  | some (.answer m w) =>
    let r := c.writeData w
    let c := r.1
    FC.readDone { c with f := { c.f with memQ := c.f.memQ.erase m } } m r.2.1 r.2.2

/-- A write's acknowledgement reaches the fold; an Eddy entry frees on it (06 R154, 19 R513). -/
def FC.writeAck (c : FC) (t : MemTag) (err : Bool) : FC :=
  match c.closeTag t true with
  | none => c
  | some (c, m) =>
    match m.purpose with
    | .eddy =>
      match takeFirst (fun e : EddyRec => e.line == m.line) c.f.eddy with
      | some (_, rest) => FC.pump { c with f := { c.f with eddy := rest } }
      | none => c
    | .dev i => c.devDone i none err
    | .mr _ | .commit => c

/-- MEMORY_REQUEST_ISSUE (19 R510, R511, 03 R95). -/
def execMemoryRequestIssue (d : Die) (p : PFold) (s : State) : Host.Outcome State Fault Refusal :=
  .next (if (s.pad d).foldRuns p && (s.fc d p).carried then s.runFold d p FC.memIssue else s)

/-- MEMORY_READ_DATA (06 R149, 19 R513): both beats of a read. -/
def execMemoryReadData (d : Die) (n : LFold) (tag : MemTag) (data : LineData) (poison err : Bool) (s : State) :
    Host.Outcome State Fault Refusal :=
  .next (match s.portFold d n with
    | some p => if (s.pad d).portRuns p then s.runFold d p fun c => c.readData tag data (poison || err) else s
    | none => s)

/-- MEMORY_WRITE_RESPONSE (06 R154, 19 R513). -/
def execMemoryWriteResponse (d : Die) (n : LFold) (tag : MemTag) (err : Bool) (s : State) :
    Host.Outcome State Fault Refusal :=
  .next (match s.portFold d n with
    | some p => if (s.pad d).portRuns p then s.runFold d p fun c => c.writeAck tag err else s
    | none => s)

/-- MEMORY_CREDIT_RETURN (19 R511): a credit beyond the initial count is ignored. -/
def execMemoryCreditReturn (d : Die) (n : LFold) (write : Bool) (s : State) : Host.Outcome State Fault Refusal :=
  .next (match s.portFold d n with
    | some p => s.modFold d p fun f =>
        if write then { f with wcred := min s.krovol.wcred (f.wcred + 1) }
        else { f with rcred := min s.krovol.rcred (f.rcred + 1) }
    | none => s)

/-! ### Times of a fold -/

/-- The fold holds work: pen items, entries, miss registers, Eddy entries, queued flits or scrub work (14 R367). -/
def State.foldBusy (s : State) (d : Die) (p : PFold) : Bool :=
  let q := s.pad d
  let f := q.folds[p]
  !f.pens.isEmpty || !f.tt.isEmpty || !f.mrs.isEmpty || !f.eddy.isEmpty || !f.memQ.isEmpty || !f.inbox.isEmpty
    || !f.fixes.isEmpty || (match f.scrub with
        | some x => !x.done
        | none => false)
    || q.stream.inj.any (fun i => i.pos == fordOfFold p) || q.stream.hand.any (fun h => h.pos.val == fordOfFold p)

/-- DOZE_GATE (14 R367). -/
def execDozeGate (d : Die) (p : PFold) (s : State) : Host.Outcome State Fault Refusal :=
  .next (
    let q := s.pad d
    let x := q.ebb.fold[p]
    if q.running && x.target == .doze && x.state == .run && !x.gated && !s.foldBusy d p
        && decide (x.idleSince + 64 ≤ q.aon.hcycle) then
      s.modPad d fun q => { q with ebb := { q.ebb with
        fold := vmod q.ebb.fold p fun x => { x with gated := true, state := .doze } } }
    else s)

/-- UNSURE_WINDOW_END (04 R122). -/
def execUnsureWindowEnd (d : Die) (p : PFold) (s : State) : Host.Outcome State Fault Refusal :=
  .next (
    let q := s.pad d
    if q.folds[p].unsureEnd ≤ q.now then s.modFold d p fun f => { f with unsure := [] } else s)

/-- The share check of one entry (11 R290). An abandoned back-invalidation is checked too: it has had no Err and its way
is not yet released. -/
def FC.shareMiss (c : FC) (i : TTIdx) : FC :=
  match c.entry i with
  | some e =>
    if e.shareBy ≤ c.now && !e.shareMissed && e.phase != .ackwait && (e.isBinv || e.phase != .orphan) then
      ((c.repSelf 0xD03 (some (lineAddr e.line)) e.atype).ev 0x30).modEntry i fun x => { x with shareMissed := true }
    else c
  | none => c

/-- FOLD_SHARE_EXCEEDED (11 R290). -/
def execFoldShareExceeded (d : Die) (p : PFold) (idx : TTIdx) (s : State) : Host.Outcome State Fault Refusal :=
  .next (if (s.pad d).foldRuns p then s.runFold d p fun c => c.shareMiss idx else s)

/-- What of a fold reaches its abandon limit (11 R292). -/
def FC.atLimit (c : FC) (w : AbandonWhat) : FC :=
  match w with
  | .item src txid =>
    match c.f.pens.find? fun i => i.flit.src == src && i.flit.txid == txid with
    | some it => if it.af ≤ c.now then c.abandonItem it else c
    | none => c
  | .entry i =>
    match c.entry i with
    | some e => if e.af ≤ c.now && e.phase != .orphan then FC.abandonEntry { c with atype := e.atype } e else c
    | none => c

/-- TRANSACTION_ABANDONED (11 R292, 03 R83, 02 R60). -/
def execTransactionAbandoned (d : Die) (p : PFold) (what : AbandonWhat) (s : State) :
    Host.Outcome State Fault Refusal :=
  .next (if (s.pad d).foldRuns p then s.runFold d p fun c => c.atLimit what else s)

end Sys2Proof.Machine
end

