-- ==== Sys2Proof/Machine/ReqPort.lean ====
section
/-!
DEFINITION. Requester ports: stamps and deadlines (11 R287, R288), transaction identifiers (02 R41), sluices
(09 R245 to R247), and which die answers (01 R20, 10 R266, R270, R276).
-/

namespace Sys2Proof.Machine

/-! ### Sluices -/

/-- BURST as it acts: a value below 64 acts as 64 (09 R256). -/
def Sluice.cap (x : Sluice) : Int := (max 64 x.burst.toNat * 65536 : Nat)

/-- Bring the level up to Tide `now` (09 R245): the exact gain of the ns since, capped at BURST. A disabled sluice
gains nothing. -/
def Sluice.upTo' (x : Sluice) (now : Nat) : Sluice :=
  if x.enable then
    let u := x.rate.toNat * 65536 * (now - x.upTo) + x.rem
    { x with level := min x.cap (x.level + (u / 1000 : Nat)), rem := u % 1000, upTo := now }
  else { x with upTo := now }

/-- A request of `bytes` is admissible (09 R245, R247). -/
def Sluice.admits (x : Sluice) (bytes : Nat) (put : Bool) : Bool :=
  put || !x.enable || decide (((bytes * 65536 : Nat) : Int) ≤ x.level)

/-- Charge a request; a Put stops the level at −BURST (09 R247). -/
def Sluice.charge (x : Sluice) (bytes : Nat) (put : Bool) : Sluice :=
  if x.enable then
    let l := x.level - ((bytes * 65536 : Nat) : Int)
    { x with level := if put then max (-x.cap) l else l }
  else x

/-- Write RATE and ENABLE (09 R245, R256): L becomes BURST and the remainder 0. -/
def Sluice.writeRate (x : Sluice) (w : Word) (now : Nat) : Sluice :=
  let x := { x with rate := w.extractLsb' 0 20, enable := bitAt w 31 }
  { x with level := x.cap, rem := 0, upTo := now }

/-- Write BURST (09 R245, R256). -/
def Sluice.writeBurst (x : Sluice) (w : Word) (now : Nat) : Sluice :=
  let x := { x with burst := w.extractLsb' 0 17 }
  { x with level := x.cap, rem := 0, upTo := now }

/-- Charge of a request in bytes (09 R246). -/
def ReqFlit.bytes (f : ReqFlit) : Nat := reqCharge f.op f.len.toNat

/-- The class to let in from among the transactions of one class that are ready, in issue order: the first, or a Put
that passes waiting requests for other lines (09 R245, R247). -/
def pickOfClass (x : Sluice) (l : List Txn) : Option Txn :=
  match l with
  | [] => none
  | t :: rest =>
    if x.admits t.flit.bytes t.flit.op.isPut then some t
    else
      let lines := l.map fun u => lineOf u.flit.addr
      (rest.zipIdx.find? fun u => u.1.flit.op.isPut && !(lines.take (u.2 + 1)).contains (lineOf u.1.flit.addr)).map
        fun u => u.1

/-- The sluices brought up to `now`. -/
def ReqPort.tick (p : ReqPort) (now : Nat) : ReqPort := { p with sluice := p.sluice.map fun x => x.upTo' now }

/-- The transaction the port admits next (09 R245): the lowest class with an admissible one. -/
def ReqPort.pick (p : ReqPort) (ready : Txn → Bool) : Option Txn :=
  let l := p.txns.filter fun t => t.phase == .waiting && ready t
  ([0, 1, 2, 3] : List Cls).findSome? fun c => pickOfClass (p.sluice[c]) (l.filter fun t => t.flit.cls == c)

/-- A transaction waits at its sluice (17 R458): it is ready and its class admits none. -/
def ReqPort.held (p : ReqPort) (ready : Txn → Bool) : Bool :=
  p.txns.any (fun t => t.phase == .waiting && ready t) && (p.pick ready).isNone

/-! ### Transactions -/

/-- The lowest TXID not in use (02 R41, log entry 6). -/
def ReqPort.freeTxid (p : ReqPort) : Option TxId :=
  ((List.range 4096).find? fun i => !(p.txns.any fun t => t.flit.txid.toNat == i)).map fun i => BitVec.ofNat 12 i

/-- D[19:4] (02 R43, R46). -/
def dlOf (deadline : Nat) : BitVec 16 := BitVec.ofNat 16 (deadline / 16)

/-- Stamp a request at Tide `at'` (11 R287, R292): its deadline and abandon limit. -/
def stampTxn (r : Repl) (f : ReqFlit) (seq at' : Nat) (purpose : Purpose) (mt : MemType) : Txn :=
  let dl := r.deadline[f.cls]
  { seq := seq, flit := { f with dl := dlOf (at' + dl) }, stamp := at', deadline := at' + dl
    abandon := at' + min (16 * dl) 1000000, purpose := purpose, mtype := mt }

/-- The transaction named by a TXID. -/
def ReqPort.txn (p : ReqPort) (x : TxId) : Option Txn := p.txns.find? fun t => t.flit.txid == x

/-- Change a transaction. -/
def ReqPort.modTxn (p : ReqPort) (x : TxId) (f : Txn → Txn) : ReqPort :=
  { p with txns := updateWhere (fun t => t.flit.txid == x) f p.txns }

/-- Close a transaction. -/
def ReqPort.close (p : ReqPort) (x : TxId) : ReqPort := { p with txns := p.txns.filter fun t => t.flit.txid != x }

/-- Return a transaction's data credit (03 R96). -/
def ReqPort.uncredit (p : ReqPort) (t : Txn) : ReqPort :=
  if t.credit && isFold t.flit.tgt then
    { p with credits := vmod p.credits (pkgFold t.flit.tgt) fun c => c + 1 }
  else p

/-- The request needs a data credit of its home fold before it issues (03 R96). -/
def Txn.needsCredit (t : Txn) : Bool := t.flit.op.carriesData && isFold t.flit.tgt && !t.credit

/-- A credit is there where one is needed. -/
def ReqPort.hasCredit (p : ReqPort) (t : Txn) : Bool :=
  !t.needsCredit || decide (0 < p.credits[pkgFold t.flit.tgt])

/-- Comp or Err is in, with the data the Comp announces (11 R288). -/
def Txn.answered (t : Txn) : Bool :=
  match t.comp with
  | some r => !r.data || t.dat.isSome
  | none => false

/-- Admit a transaction: its sluice is charged, its credit spent, its REQ flit queued for injection. -/
def ReqPort.admitNow (p : ReqPort) (t : Txn) : ReqPort :=
  let p := { p with sluice := vmod p.sluice t.flit.cls fun x => x.charge t.flit.bytes t.flit.op.isPut }
  let p := if t.needsCredit then
      { p with credits := vmod p.credits (pkgFold t.flit.tgt) fun c => c - 1 }
    else p
  p.modTxn t.flit.txid fun u => { u with phase := .queued, credit := u.credit || t.needsCredit }

/-! ### What answers at once (01 R20, 10 R266, R270, R276, 12 R325) -/

/-- The first port that computes the target answers NOT_PRESENT: the die is absent, unreachable or leaving, or the
logical fold vacant; so does every port of a die outside the Range, or leaving it but for its own Puts. -/
def Repl.absent (r : Repl) (unreach : BitVec 8) (me : Die) (tgt : AgentId) (put : Bool) : Bool :=
  let h := dieOf tgt
  !(r.formed && bitAt r.present me.val)
    || !bitAt r.present h.val || bitAt unreach h.val
    || (bitAt r.leaving h.val && !(put && h == me)) || (bitAt r.leaving me.val && !put)
    || (isFold tgt && (r.pfoldOf h (lfoldOf tgt)).isNone)

/-- A byte address lies in the interval of a region. -/
def Region.holds (g : Region) (a : Nat) : Bool := decide (g.base.toNat ≤ a) && decide (a < g.limit.toNat)

/-- A line lies in an interval of a region change: the new one, or the old one of an enabled region (01 R29). -/
def RegionOp.covers (r : RegionOp) (old : Region) (a : Nat) : Bool :=
  r.new.holds a || (old.attr.enable && old.holds a)

/-- A line lies in an interval of the region change that the Shepherds quiesce (01 R29). -/
def State.quiesced (s : State) (d : Die) (l : Line) : Bool :=
  (s.pad d).shep.regionHold &&
    (match s.leadOf d with
     | none => false
     | some x =>
       let a := (lineAddr l).toNat
       (s.pad x).shep.deferred.any fun o =>
         match o.kind with
         | .region r =>
           r.full && r.covers ((s.pad d).repl.regions[Fin.ofNat 64 r.n]) a
         | _ => false)

end Sys2Proof.Machine
end

