-- ==== Sys2Proof/Machine/ShepBase.lean ====
section
/-!
DEFINITION. The Shepherd's queue engine (15 R395 to R409): pushes, commits and rewinds, replies, pops and flushes,
taking packets with the checks of R410, and deferred commands.
-/

namespace Sys2Proof.Machine

/-! ### Command queues -/

/-- Words of committed packets. -/
def CmdQueue.committed (x : CmdQueue) : Nat := (x.packets.map List.length).sum

/-- CQ_SPACE.FREE (15 R427). -/
def CmdQueue.free (x : CmdQueue) : Nat := 512 - x.committed - x.words.length

/-- The CRC of a packet (15 R397): words 0 to LEN − 1, then bits [31:16] of the last word. -/
def packetCrc (l : List Word) : BitVec 16 :=
  let body := l.dropLast
  let last := l.getLastD 0
  let v := body.foldl (fun acc w => acc * 2 ^ 32 + w.toNat) 0
  crc16 (32 * body.length + 16) (v * 2 ^ 16 + last.toNat / 2 ^ 16)

/-- A packet passes the check of 15 R398. -/
def packetOk (l : List Word) : Bool :=
  let len := bits (l.headD 0) 8 6
  decide (l.length = len + 1) && decide (1 ≤ len) && decide (bits (l.getLastD 0) 0 16 = (packetCrc l).toNat)

/-- What a pushed word does. -/
inductive PushEnd where
  | taken | committed | rewound
  deriving DecidableEq, Repr

/-- The uncommitted packet of a queue vanishes (15 R398). -/
def CmdQueue.rewind (x : CmdQueue) : CmdQueue :=
  { x with words := [], rewound := x.rewound + 1, tail := x.tail.back x.words.length }

/-- Put a word into a queue that has room (15 R398). -/
def CmdQueue.put (x : CmdQueue) (w : Word) (last : Bool) : CmdQueue × PushEnd :=
  let l := x.words ++ [w]
  if last then
    if packetOk l then ({ x with packets := x.packets ++ [l], words := [], tail := x.tail.add 1 }, .committed)
    else (x.rewind, .rewound)
  else if 64 ≤ x.words.length then (x.rewind, .rewound)
  else ({ x with words := l, tail := x.tail.add 1 }, .taken)

/-- Take the first packet out of a queue (15 R400). -/
def CmdQueue.take (x : CmdQueue) : CmdQueue :=
  { x with packets := x.packets.tail, head := x.head.add (x.packets.headD []).length }

/-- Change command queue q. -/
def State.modCq (s : State) (d : Die) (q : QN) (f : CmdQueue → CmdQueue) : State :=
  s.modShep d fun x => { x with cq := vmod x.cq q f }

/-- Change reply queue q. -/
def State.modRq (s : State) (d : Die) (q : QN) (f : ReplyQueue → ReplyQueue) : State :=
  s.modShep d fun x => { x with rq := vmod x.rq q f }

/-- Put a word into queue q and act on what it ends (0xC21 for a rewound packet). -/
def State.cqPut (s : State) (d : Die) (q : QN) (w : Word) (last : Bool) : State :=
  let r := ((s.pad d).shep.cq[q]).put w last
  let s := s.modCq d q fun _ => r.1
  if r.2 == .rewound then (s.queueRep d 0xC21 q.val).pcount d 0x29 0 else s

/-- A BAR0 access goes past its first register access (18 R479). -/
def BarAcc.next (b : BarAcc) (resp : BitVec 2) (data : Word) : BarAcc :=
  { b with todo := b.todo.tail, got := b.got ++ [data], denied := b.denied || resp == 2, held := false }

/-- An access that waited completes at its register port, or in a BAR0 access (18 R477, R479). -/
def State.portEnds (s : State) (w : Who) (resp : BitVec 2) (data : Word) : State :=
  if w.bar0 then { s with tether := { s.tether with bar0 := s.tether.bar0.map fun b => b.next resp data } }
  else s.modPad w.via fun q => if q.rp.busy then { q with rp := { rdata := data, resp := resp, ack := true } } else q

/-- A stalled write completes. -/
def State.portDone (s : State) (w : Who) : State := s.portEnds w 0 0

/-- Pushes that waited for room complete in order while there is some (15 R399). -/
def State.cqUnstall (s : State) (d : Die) (q : QN) (fuel : Nat) : State :=
  match fuel with
  | 0 => s
  | n + 1 =>
    let x := (s.pad d).shep.cq[q]
    match x.stalled with
    | [] => s
    | (o, last, w) :: rest =>
      if x.free = 0 then s
      else ((((s.modCq d q fun y => { y with stalled := rest }).cqPut d q w last).portDone o).cqUnstall d q n)

/-- A software push (15 R398, R399, R409): it stalls while no word is free; a host-ring queue discards it. -/
def State.cqPush (s : State) (d : Die) (q : QN) (o : Who) (w : Word) (last : Bool) : State :=
  let x := (s.pad d).shep.cq[q]
  if x.ringMode then s.modCq d q fun y => { y with wrongMode := true }
  else if x.free = 0 || !x.stalled.isEmpty then s.modCq d q fun y => { y with stalled := y.stalled ++ [(o, last, w)] }
  else s.cqPut d q w last

/-- Empty a command queue (15 R404, R406): the words of stalled pushes are discarded. -/
def CmdQueue.flush (x : CmdQueue) : CmdQueue :=
  { x with packets := [], words := [], stalled := [], head := {}, tail := {} }

/-- Flush a command queue: its stalled pushes complete. -/
def State.cqFlush (s : State) (d : Die) (q : QN) : State :=
  let l := ((s.pad d).shep.cq[q]).stalled
  l.foldl (fun s x => s.portDone x.1) (s.modCq d q CmdQueue.flush)

/-! ### Replies -/

/-- Words a reply queue holds (15 R428). -/
def ReplyQueue.used (x : ReplyQueue) : Nat := x.current.length + ((x.replies.map fun r => r.words.length).sum)

/-- Post a reply, or hold it while it does not fit (15 R403). -/
def ReplyQueue.post (x : ReplyQueue) (r : Reply) : ReplyQueue :=
  if x.held.isEmpty && decide (x.used + r.words.length ≤ 256) then
    { x with replies := x.replies ++ [r], tail := x.tail.add r.words.length }
  else { x with held := x.held ++ [r] }

/-- Post the oldest held reply where it fits (15 R403). -/
def ReplyQueue.postHeld (x : ReplyQueue) : ReplyQueue :=
  match x.held with
  | [] => x
  | r :: rest =>
    if x.used + r.words.length ≤ 256 then
      { x with replies := x.replies ++ [r], held := rest, tail := x.tail.add r.words.length }
    else x

/-- Empty a reply queue (15 R404, R406). -/
def ReplyQueue.flush (x : ReplyQueue) : ReplyQueue := { x with replies := [], current := [], head := {}, tail := {} }

/-- Pop one word (15 R402, R428): the word, and the queue with the upper half captured. -/
def ReplyQueue.pop (x : ReplyQueue) : Word × ReplyQueue :=
  let hi (pri : BitVec 2) (head : Bool) : Word :=
    BitVec.ofNat 32 (2 ^ 31 + pri.toNat * 2 ^ 29 + bit head * 2 ^ 28)
  match x.current with
  | w :: rest => (w, { x with current := rest, popHi := hi x.currentPri false, head := x.head.add 1 })
  | [] =>
    match leastBy (fun r : Reply => r.pri.toNat) x.replies with
    | none => (0, { x with popHi := 0 })
    | some r => (r.words.headD 0, { x with replies := x.replies.erase r, current := r.words.tail, currentPri := r.pri
                                           popHi := hi r.pri true, head := x.head.add 1 })

/-- Pop one event (15 R428). -/
def EventQueue.pop (x : EventQueue) : Word × EventQueue :=
  match x.events with
  | [] => (0, { x with popHi := 0 })
  | e :: rest => (e.extractLsb' 0 32, { x with events := rest, popHi := e.extractLsb' 32 32, head := x.head.add 1 })

/-- Empty an event queue (15 R404, R428). -/
def EventQueue.flush (x : EventQueue) : EventQueue := { x with events := [], dropped := 0, head := {}, tail := {} }

/-- Status codes (15 R411). -/
inductive Status where
  | done | deferred | busy | badOpcode | badParam | notPermitted | notPresent | failed | partial' | lost
  deriving DecidableEq, Repr

/-- Encoding of a status. -/
def Status.code (x : Status) : Nat :=
  match x with
  | .done => 0x00
  | .deferred => 0x01
  | .busy => 0x02
  | .badOpcode => 0x10
  | .badParam => 0x11
  | .notPermitted => 0x12
  | .notPresent => 0x13
  | .failed => 0x20
  | .partial' => 0x21
  | .lost => 0x22

/-- The words of a reply (15 R401). -/
def replyWords (opc : BitVec 8) (tag : BitVec 10) (pri : BitVec 2) (seq : BitVec 16) (st : Status) (data : List Word) :
    List Word :=
  let len := data.length + 1
  let final := bit (st != .deferred)
  BitVec.ofNat 32 (opc.toNat + len * 2 ^ 8 + tag.toNat * 2 ^ 14 + pri.toNat * 2 ^ 24 + final * 2 ^ 26)
    :: BitVec.ofNat 32 (st.code + seq.toNat * 2 ^ 8) :: data

/-! ### Pointer copies (15 R405) -/

/-- The pointer copies of a command queue agree. -/
def CmdQueue.same (x : CmdQueue) : Bool := x.head.same && x.tail.same

/-- The pointer copies of a reply queue agree. -/
def ReplyQueue.same (x : ReplyQueue) : Bool := x.head.same && x.tail.same

/-- A LOST reply. -/
def lostWords (items words : Nat) : Reply :=
  { pri := 0, words := replyWords 0 0x3FF 0 0 .lost [BitVec.ofNat 32 (items % 65536 + words % 65536 * 65536)] }

/-- The pointer copies of a reply queue are compared, in a cycle that changes them: a queue reset to empty holds a LOST
reply first. -/
def State.rqCheck (s : State) (d : Die) (q : QN) : State :=
  let x := (s.pad d).shep.rq[q]
  if x.same then s
  else
    let n := x.replies.length + bit (!x.current.isEmpty)
    let s := (s.modRq d q fun y => { y.flush with held := [] }).queueRep d 0xC20 (q.val + 128)
    s.modRq d q fun y => { y.post (lostWords n x.used) with held := x.held }

/-- Post a reply in a reply queue, its pointer copies compared. -/
def State.post (s : State) (d : Die) (q : QN) (r : Reply) : State := (s.rqCheck d q).modRq d q fun x => x.post r

/-- A command queue whose pointer copies differ is reset to empty (15 R405); pushes that are stalled go on waiting. Where
the two copies of the words give different counts, the larger is reported. -/
def State.cqReset (s : State) (d : Die) (q : QN) : State :=
  let x := (s.pad d).shep.cq[q]
  if x.same then s
  else
    let s := s.modCq d q fun y => { y.flush with stalled := y.stalled }
    (s.queueRep d 0xC20 q.val).post d q (lostWords x.packets.length (ptrCount x.head x.tail))

/-- The pointer copies of a command queue are compared, in a cycle that changes them; a reset makes room for stalled pushes
(15 R399). -/
def State.cqCheck (s : State) (d : Die) (q : QN) : State :=
  if ((s.pad d).shep.cq[q]).same then s else (s.cqReset d q).cqUnstall d q 513

/-- FLUSH of a command queue, its pointer copies compared: the reset of R405 with its LOST reply comes first (15 R406). -/
def State.cqEmpty (s : State) (d : Die) (q : QN) : State := (s.cqReset d q).cqFlush d q

/-- FLUSH of a reply queue, its pointer copies compared: the reset of R405 applies in its place (15 R406). -/
def State.rqEmpty (s : State) (d : Die) (q : QN) : State :=
  if ((s.pad d).shep.rq[q]).same then s.modRq d q ReplyQueue.flush else s.rqCheck d q

/-- FLUSH of an event queue, its pointer copies compared: the reset of R405 applies in its place (15 R406). -/
def State.eqEmpty (s : State) (d : Die) (e : EQN) : State :=
  if ((s.pad d).shep.eq[e]).same then s.modShep d fun x => { x with eq := vmod x.eq e EventQueue.flush } else s.eqCheck d e

/-- Every queue of a Shepherd is flushed. -/
def State.queuesEmpty (s : State) (d : Die) : State :=
  let s := (List.finRange 64).foldl (fun s q => (s.cqEmpty d q).rqEmpty d q) s
  (List.finRange 32).foldl (fun s e => s.eqEmpty d e) s

/-- A word fetched from a host ring (15 R409): the packet's LEN + 1st word is its last. -/
def State.cqFetched (s : State) (d : Die) (q : QN) (w : Word) : State :=
  let s := s.cqCheck d q
  let x := (s.pad d).shep.cq[q]
  let l := x.words ++ [w]
  s.cqPut d q w (decide (bits (l.headD 0) 8 6 + 1 ≤ l.length))

/-- Answer a packet (15 R401, R412): QUIET suppresses a final DONE. `first` tells the packet's first reply. -/
def State.answer (s : State) (d : Die) (k : Taken) (st : Status) (data : List Word) (first : Bool) : State :=
  let s := if first then s.modCq d k.q fun x => { x with busyFirst := false } else s
  if k.quiet && st == .done then s
  else s.post d k.q { pri := k.pri, words := replyWords k.opc k.tag k.pri k.seq st data }

/-- Answer a packet with its only reply. -/
def State.reply (s : State) (d : Die) (k : Taken) (st : Status) : State := s.answer d k st [] true

/-! ### Taking packets (15 R397, R400, R410, R426) -/

/-- The Shepherd of a paddock runs: its domain is on and its clock is not forced to a stopped HCLK; start-up steps 1 to
7 run on SOSC whatever MODE says (15 R419). -/
def Paddock.shepRuns (q : Paddock) : Bool :=
  !q.boot.poreset && !q.boot.padreset && q.domOn domSH && !(q.shep.clkMode == 2 && !q.ebb.hclkAck && decide (7 < q.boot.step.toNat))

/-- The Shepherd of die d takes packets: the leader's from READY, a non-member's own from step 7. -/
def State.shepTakes (s : State) (d : Die) : Bool :=
  let q := s.pad d
  q.shepRuns && (if s.inRange d then s.leader d == d && q.boot.ready else decide (7 ≤ q.boot.step.toNat))
    && !(q.shep.deferred.any fun o => o.kind == .nightfold)

/-- A queue's next packet can be taken. -/
def Shep.takeable (x : Shep) (q : QN) : Bool :=
  let c := x.cq[q]
  !c.packets.isEmpty && !c.busyFirst && (x.rq[q]).held.isEmpty

/-- PRI of a packet. -/
def packetPri (l : List Word) : Nat := bits (l.headD 0) 24 2

/-- The queue served next: lowest PRI, ties round robin after the queue served last (15 R400). -/
def Shep.nextQueue (x : Shep) : Option QN :=
  let order := (List.finRange 64).map fun i => (Fin.ofNat 64 (x.rrLast.val + 1 + i.val) : QN)
  leastBy (fun q : QN => packetPri ((x.cq[q]).packets.headD [])) (order.filter fun q => x.takeable q)

/-- A packet as taken. -/
def takenOf (q : QN) (l : List Word) : Taken :=
  let h := l.headD 0
  { q := q, opc := h.extractLsb' 0 8, tag := h.extractLsb' 14 10, pri := h.extractLsb' 24 2, quiet := bitAt h 26
    seq := (l.getLastD 0).extractLsb' 16 16, params := l.tail.dropLast }

/-- Parameter word `i` of a packet, counted from 1. -/
def Taken.p (k : Taken) (i : Nat) : Word := k.params.getD (i - 1) 0

/-- The bits that a command's layout defines, word by word; none for an opcode not in the table (15 R413). Words
beyond the list are free of reserved bits. -/
def paramMasks (k : Taken) : Option (List Nat) :=
  let range := [0xFFFFFFC0, 0xFFFFF, 0xFFFFFFC0, 0xFFFFF]
  match k.opc.toNat with
  | 0x01 | 0x61 => some []
  | 0x02 => some [0xFFFFF]
  | 0x03 => some [0xFFFFFFC0, 0xFFFFF, 0x1FFFF]
  | 0x06 => some [0x7FFFF]
  | 0x10 | 0x12 => some [0xFF]
  | 0x11 => some [0x3F]
  | 0x20 => some (if bitAt (k.p 1) 0 then [0x3F, 0x1FF, 0x3FFFF, 0x3FFFF, 0] else 0x3F :: range)
  | 0x30 => some [0xFFFFFFC3, 0xFFFFF, 0xFFFFFFC0, 0xFFFFF]
  | 0x31 => some [0x7FFFF, 0x1FFFFFFF]
  | 0x32 => some [0x7F]
  | 0x40 => some (if bits (k.p 1) 0 7 = 64 || !bitAt (k.p 6) 0
      then [0x7F, 0xFFFFFFFF, 0xFFFFFFFF, 0xFFFFFFFF, 0xFFFFFFFF, 0x1FFF]
      else [0x7F, 0xFFFFF000, 0xFFFFF, 0xFFFFF000, 0xFFFFF, 0x1FFF])
  | 0x50 | 0x51 => some [0x7]
  | 0x60 => some [0x1FFFFFFF, 0xFFFFFFFF, 0xFFFFFFFF, 0xF]
  | 0x70 => some [0x1F]
  | 0x71 => some [0x7FFF]
  | 0x80 => some [0x3]
  | 0x90 => some [0xFFFFC03F, 0xFFFFF, 0xFFFFFFFF]
  | 0xA0 => some [0x7, 0x1FFFF, 0x1FFFF, 0xFFFF]
  | 0xF0 => some [0xFFFF]
  | 0xF1 => some [0xFFFFF, 0x3FFFFFF, 0xFFFFFFFF, 0xFFFFF]
  | _ => none

/-- The parameter count of a packet is one that 15 R413 allows. -/
def countOk (k : Taken) (masks : List Nat) : Bool :=
  let n := k.params.length
  match k.opc.toNat with
  | 0x70 => decide (n = 1 + 2 * bits (k.p 1) 0 5) && decide (3 ≤ n) && decide (n ≤ 61)
  | 0xA0 => decide (n = (if bitAt (k.p 1) 2 then 4 else 3))
  | _ => decide (n = masks.length)

/-- No reserved parameter bit is set. -/
def reservedOk (params : List Word) (masks : List Nat) : Bool :=
  (params.zip masks).all fun x => x.1.toNat &&& x.2 == x.1.toNat

/-- The answer of the checks of 15 R410 and of the duplicate-TAG rule of R401; none lets the command run. -/
def State.formCheck (s : State) (d : Die) (k : Taken) (header : Word) : Option Status :=
  match paramMasks k with
  | none => some .badOpcode
  | some m =>
    if !countOk k m || bits header 27 5 != 0 then some .badParam
    else if !reservedOk k.params m then some .badParam
    else if (s.pad d).shep.deferred.any fun o => o.pkt.q == k.q && o.pkt.tag == k.tag then some .busy
    else if !s.inRange d && !([0x01, 0x02, 0x71].contains k.opc.toNat) then some .notPresent
    else none

/-- PACKET_TAKE: the Shepherd takes the next packet and checks its form. -/
def State.takePacket (s : State) (d : Die) : State :=
  if !s.shepTakes d then s
  else
    match (s.pad d).shep.nextQueue with
    | none => s
    | some q =>
      match ((s.pad d).shep.cq[q]).packets with
      | [] => s
      | l :: _ =>
        let k := takenOf q l
        let s := s.modShep d fun x => { x with
          rrLast := q
          wdogTick := (s.pad d).ticks
          cq := vmod x.cq q fun c => { c.take with lastSeq := k.seq, busyFirst := true } }
        let s := ((s.pcount d 0x28 0).pcount d 0x2B (k.opc.toNat / 16)).cqCheck d q
        let s := s.cqUnstall d q 513
        match s.formCheck d k (l.headD 0) with
        | some st => s.reply d k st
        | none => s.modShep d fun x => { x with taken := x.taken ++ [k] }

/-- Run the oldest taken packet of an opcode. -/
def State.runTaken (s : State) (d : Die) (opc : Nat) (f : Taken → State → State) : State :=
  if !(s.pad d).shepRuns then s
  else
    match takeFirst (fun k : Taken => k.opc.toNat == opc) (s.pad d).shep.taken with
    | none => s
    | some (k, rest) => f k (s.modShep d fun x => { x with taken := rest, wdogTick := (s.pad d).ticks })

/-! ### Deferred commands (15 R401, R417) -/

/-- Answer DEFERRED and keep the command; its number is `nextId`. -/
def State.defer (s : State) (d : Die) (k : Taken) (kind : DefKind) : State :=
  let s := s.answer d k .deferred [] true
  s.modShep d fun x => { x with
    nextId := x.nextId + 1
    deferred := x.deferred ++ [{ id := x.nextId, pkt := k, kind := kind }] }

/-- Send the final reply of a deferred command and forget it. -/
def State.finish (s : State) (d : Die) (id : Nat) (st : Status) (data : List Word) : State :=
  match takeFirst (fun o : Deferred => o.id == id) (s.pad d).shep.deferred with
  | none => s
  | some (o, rest) => (s.modShep d fun x => { x with deferred := rest }).answer d o.pkt st data false

/-- Change a deferred command. -/
def State.modDef (s : State) (d : Die) (id : Nat) (f : DefKind → DefKind) : State :=
  s.modShep d fun x => { x with
    deferred := updateWhere (fun o => o.id == id) (fun o => { o with kind := f o.kind }) x.deferred }

/-- Some deferred command of the leader's Shepherd satisfies `f`. -/
def State.anyDef (s : State) (d : Die) (f : DefKind → Bool) : Bool := (s.pad d).shep.deferred.any fun o => f o.kind

/-- The deferred command of a leader that satisfies `f`. -/
def State.defAt (s : State) (lead : Die) (f : DefKind → Bool) : Option Deferred :=
  (s.pad lead).shep.deferred.find? fun o => f o.kind

/-- A deferred command that satisfies `f`, with its leader. -/
def State.findDef (s : State) (f : DefKind → Bool) : Option (Die × Deferred) :=
  s.leaders.findSome? fun l => (s.defAt l f).map fun o => (l, o)

/-- The number of the Shepherd requests of a deferred command. -/
def jobOf (id : Nat) : Nat := 2 * id

/-- The number of the Shepherd requests of a fold's drain. -/
def drainJob (d : Die) (p : PFold) : Nat := 2 * (5 * d.val + p.val) + 1

/-- Planned position (15 R410 and the commands' own rules). -/
def State.planned (s : State) (d : Die) : Bool := bitAt s.krovol.planned d.val

/-- The die that bits [2:0] of a word name. -/
def dieAt (w : Word) (lo : Nat) : Die := Fin.ofNat 8 (bits w lo 3)

end Sys2Proof.Machine
end

