-- ==== Sys2Proof/Machine/SysPort.lean ====
section
/-!
DEFINITION. The requester ports of the Tether and the Shepherds (01 R32): opening a transaction, and its answers,
with the CompAck that such a port sends by itself (02 R67).
-/

namespace Sys2Proof.Machine

/-- What an answer did to a transaction. -/
inductive PortEnd where
  | none
  | ordered (t : Txn)
  | done (t : Txn)
  | err (t : Txn) (ecode : BitVec 4)
  deriving DecidableEq, Repr

/-- A request of a port without a cache (02 R72): its home and class are those of its address (01 R28). -/
def Repl.request (r : Repl) (src : AgentId) (op : ReqOp) (addr : Addr) (len : Nat) : ReqFlit :=
  { op := op, src := src, tgt := r.home addr, txid := 0, cls := (r.attrOf addr).cls, dl := 0, addr := addr
    len := BitVec.ofNat 7 len }

/-- Open a transaction, stamped now (11 R287). -/
def ReqPort.openTxn (p : ReqPort) (r : Repl) (f : ReqFlit) (now : Nat) (u : Purpose) (d : Option (LineData × Bool))
    (inOrder : Bool) : ReqPort :=
  match p.freeTxid with
  | none => p
  | some x =>
    let t := stampTxn r { f with txid := x } p.nextSeq now u .normalWB
    let t : Txn := { t with inOrder := inOrder }
    let t := match d with
      | some (b, q) => { t with data := b, haveData := true, dataPoison := q }
      | none => t
    { p with txns := p.txns ++ [t], nextSeq := p.nextSeq + 1 }

/-- Comp, Ordered or Err at such a port. -/
def ReqPort.rspIn (p : ReqPort) (r : RspFlit) : ReqPort × PortEnd :=
  match p.txn r.txid with
  | none => (p, .none)
  | some t =>
    match r.op with
    | .comp =>
      let t' : Txn := { t with comp := some r, credit := false }
      let p := p.uncredit t
      if t'.answered then (p.close r.txid, .done t') else (p.modTxn r.txid fun _ => t', .none)
    | .ordered =>
      let t' : Txn := { t with ordered := true }
      (p.modTxn r.txid fun _ => t', .ordered t')
    | .err => ((p.uncredit t).close r.txid, .err t r.ecode)
    | .snpAck | .snpAckWB | .compAck => (p, .none)

/-- DataToReq at such a port. -/
def ReqPort.dataIn (p : ReqPort) (x : DatFlit) : ReqPort × PortEnd :=
  match p.txn x.txid with
  | none => (p, .none)
  | some t =>
    let t' : Txn := { t with dat := some (x.payload, x.poison) }
    if t'.answered then (p.close x.txid, .done t') else (p.modTxn x.txid fun _ => t', .none)

/-- Send the CompAck that an answer asks for. -/
def State.autoAck (s : State) (d : Die) (e : PortEnd) : State :=
  match e with
  | .done t =>
    match t.comp with
    | some r =>
      if r.ackreq then
        s.sendRsp d t.flit.cls { op := .compAck, src := t.flit.src, tgt := t.flit.tgt, txid := r.aux }
      else s
    | none => s
  | _ => s

/-- The transaction was ordered or answered (16 R439). -/
def Txn.placed (t : Txn) : Bool := t.ordered || t.comp.isSome

end Sys2Proof.Machine
end

