-- ==== Sys2Proof/Machine/Env.lean ====
section
/-!
DEFINITION. Which edges carry crossings, route tables (09 R237), chain paces (10 R261), and the C0 envelopes with their
feasibility test (11 R296 to R302). Times of an envelope are exact, in units of 1/(mhz × k) ns.
-/

namespace Sys2Proof.Machine

/-! ### Open edges -/

/-- Some module of the edge is up. -/
def State.edgeUp (s : State) (d : Die) (e : Edge) : Bool :=
  (s.krovol.modsOn d e).any fun m => ((s.pad d).conf.mod[m]).state == .up

/-- The bit of an edge in a set of edges. -/
def edgeBit (d : Die) (e : Edge) : Nat := 3 * d.val + (edgeNo e).val

/-- The edge may carry crossings for a population (09 R234, 10 R265): both dies belong to it, modules are up at both
ends, and an edge that was lost may be reinstated. -/
def State.edgeOk (s : State) (pop : BitVec 8) (d : Die) (e : Edge) : Bool :=
  let may (x : Die) (f : Edge) : Bool :=
    let c := (s.pad x).conf
    s.edgeUp x f && (!(c.edge[edgeNo f]).lost || c.autoReinstate)
  match neighbour d e with
  | some x => bitAt pop d.val && bitAt pop x.val && may d e && may x (facing e)
  | none => false

/-- The open edges of a population. -/
def State.openEdges (s : State) (pop : BitVec 8) : BitVec 24 :=
  dies.foldl (fun o d => edges.foldl (fun o e => if s.edgeOk pop d e then putBit o (edgeBit d e) true else o) o) 0

/-- The die across an open edge. -/
def across (o : BitVec 24) (d : Die) (e : Edge) : Option Die := if bitAt o (edgeBit d e) then neighbour d e else none

/-- Dies from which some open edge leads into a set, with the set. -/
def growOpen (o : BitVec 24) (set : BitVec 8) : BitVec 8 :=
  dies.foldl (fun acc d => if edges.any (fun e => match across o d e with
    | some x => bitAt set x.val
    | none => false) then putBit acc d.val true else acc) set

/-- Crossings from d to a set over open edges; `fuel` where there is no path. -/
def openDist (o : BitVec 24) (d : Die) (fuel : Nat) (set : BitVec 8) : Nat :=
  match fuel with
  | 0 => 0
  | n + 1 => if bitAt set d.val then 0 else 1 + openDist o d n (growOpen o set)

/-- Dies that d reaches over open edges. -/
def openReach (o : BitVec 24) (d : Die) (fuel : Nat) (set : BitVec 8) : BitVec 8 :=
  match fuel with
  | 0 => set
  | n + 1 => openReach o d n (growOpen o set)

/-! ### Route tables (09 R237) -/

/-- The first step of the X-then-Y path from d to x. -/
def xyStep (d x : Die) : Edge :=
  if colOf d < colOf x then .east else if colOf x < colOf d then .west else .vert

/-- The X-then-Y path from d to x stays on open edges. -/
def xyOpen (o : BitVec 24) (x : Die) (fuel : Nat) (d : Die) : Bool :=
  match fuel with
  | 0 => true
  | n + 1 =>
    if d == x then true
    else
      match across o d (xyStep d x) with
      | some y => xyOpen o x n y
      | none => false

/-- The detour of die d for destination x: the neighbour on a shortest path, column neighbour first. -/
def detourTo (o : BitVec 24) (d x : Die) : Option Die :=
  let target : BitVec 8 := putBit 0 x.val true
  let far := openDist o d 9 target
  if d == x || far = 9 || xyOpen o x 8 d then none
  else
    ([.vert, .west, .east] : List Edge).findSome? fun e =>
      match across o d e with
      | some y => if openDist o y 9 target + 1 = far then some y else none
      | none => none

/-- STREAM_DETOUR of die d (09 R237, R255). -/
def detourWord (o : BitVec 24) (pop : BitVec 8) (d : Die) : BitVec 32 :=
  if !bitAt pop d.val then 0
  else
    BitVec.ofNat 32 ((dies.map fun x =>
      match (if bitAt pop x.val then detourTo o d x else none) with
      | some y => (8 + y.val) * 2 ^ (4 * x.val)
      | none => 0).sum)

/-! ### Chain paces (10 R261) -/

/-- pace_edge at an HCLK frequency. -/
def State.edgePace (s : State) (mhz : Nat) (d : Die) (e : Edge) : Nat :=
  let sum := ((s.krovol.modsOn d e).map fun m =>
    let x := (s.pad d).conf.mod[m]
    if x.state == .up then (if x.x32 then 32 else 64) * (8 * (x.rate.val + 1)) else 0).sum
  min 1024 (sum * 1000 / (2 * mhz))

/-- The crossings of the chain that an open edge belongs to. -/
def chainOf (o : BitVec 24) (d : Die) (e : Edge) : List (Die × Edge) :=
  let es : List Edge := if e == .vert then [.vert] else [.west, .east]
  let inChain (acc : List Die) (x : Die) : Bool := acc.contains x ||
    es.any fun f => match across o x f with
      | some y => acc.contains y
      | none => false
  let step (acc : List Die) : List Die := dies.filter fun x => inChain acc x
  (step (step (step [d]))).flatMap fun x => (es.filter fun f => (across o x f).isSome).map fun f => (x, f)

/-- The chain pace of an edge, 0 where it carries no crossing. -/
def State.chainPace (s : State) (o : BitVec 24) (mhz : Nat) (d : Die) (e : Edge) : Nat :=
  if bitAt o (edgeBit d e) then
    (chainOf o d e).foldl (fun p x => min p (s.edgePace mhz x.1 x.2)) 1024
  else 0

/-- The edges that carry crossings now. -/
def State.edgesInUse (s : State) : BitVec 24 :=
  dies.foldl (fun o d => edges.foldl (fun o e =>
    if ((s.pad d).conf.edge[edgeNo e]).inUse then putBit o (edgeBit d e) true else o) o) 0

/-- Write the chain paces of the crossings in use into paddocks, at an HCLK frequency. -/
def State.writePaces (s : State) (ds : List Die) (mhz : Nat) : State :=
  let o := s.edgesInUse
  ds.foldl (fun t d => t.modPad d fun q => { q with conf := { q.conf with
    edge := edges.foldl (fun v e => vmod v (edgeNo e) fun x => { x with pace := s.chainPace o mhz d e }) q.conf.edge } }) s

/-- The point that an OPPOINT_SET in progress may switch HCLK to from now on, in MHz (14 R373): the paces of a faster one
stand from before its switch; of a slower one the switch itself tells. -/
def DefKind.comingMhz (k : DefKind) : Nat :=
  match k with
  | .oppoint pt old ph _ =>
    (match ph with
     | .armed | .clock => Config.mhz pt
     | .backArmed | .backClock => Config.mhz old
     | .supply | .lowSupply => 0)
  | _ => 0

/-- The HCLK in MHz that paces are written for in the Range of a paddock (01 R34, 10 R261): the fastest that a member's
clock has, has been asked for, or may be switched to from now on. -/
def State.mhz (s : State) (d : Die) : Nat :=
  let lead := (s.leadOf d).getD d
  let now := (lead :: s.members lead).foldl (fun m x =>
    max m (max (Config.mhz (s.pad x).ebb.point) (Config.mhz (s.pad x).ebb.hclkOp))) 0
  (s.pad lead).shep.deferred.foldl (fun m o => max m o.kind.comingMhz) now

/-! ### Envelopes (11 R296 to R300) -/

/-- The values that a feasibility test takes: registers, HCLK, chain paces, dies that may have a fold in DOZE. -/
structure Env where
  s : State
  lead : Die
  r : Repl
  mhz : Nat
  pace : Vector (Vector Nat 3) 8
  doze : BitVec 8

/-- Scale factor that makes every crossing-buffer wait whole. -/
def Env.k (v : Env) : Nat := v.pace.toList.foldl (fun k x => x.toList.foldl (fun k p => Nat.lcm k (max 1 p)) k) 1

/-- Cycles and ns in units of the envelope. -/
def Env.cyc (v : Env) (n : Nat) : Nat := n * 1000 * v.k

/-- ns in units of the envelope. -/
def Env.ns (v : Env) (n : Nat) : Nat := n * v.mhz * v.k

/-- The crossings of the route from a die to another, as edges left (09 R236, R237). -/
def Env.route (v : Env) (t : Die) (fuel : Nat) (d : Die) : List (Die × Edge) :=
  match fuel with
  | 0 => []
  | n + 1 =>
    if d == t then []
    else
      let y := nextDie (v.s.pad d).stream.detour d t
      match edges.find? fun e => neighbour d e == some y with
      | some e => (d, e) :: v.route t n y
      | none => []

/-- L(n) of 11 R297 for the route from a to b; the dam hold is the largest of its edges' (log entry 62). -/
def Env.leg (v : Env) (a b : Die) : Nat :=
  let rt := v.route b 16 a
  let n := rt.length
  let p (x : Die × Edge) : Nat := max 1 ((v.pace[x.1])[edgeNo x.2])
  let dam := (rt.map fun x => (8191 + p x) / p x).foldl max 0
  let x := (rt.map fun x => v.ns (6 + (v.s.krovol.phy[x.1])[edgeNo x.2]) + 49152 * 1000 * (v.k / p x)).sum
  v.cyc (16 + 16 * n + v.r.jAllow.toNat + dam) + x

/-- Response times of the agents that the fan-out point of a die snoops (04 R118), none where it snoops none. -/
def Env.fanTime (v : Env) (home d : Die) : Option Nat :=
  let k := v.s.krovol
  let st := (stileNs.filter fun n => k.isCaching d n.val).map fun n => (k.cs[d])[n]
  let gt := if d == home || k.gates[d] == 0 then [] else [k.cNs[d]]
  match gt ++ st with
  | [] => none
  | l => some (l.foldl max 0)

/-- The largest snp term of 11 R298 for a home. -/
def Env.snp (v : Env) (home : Die) : Nat :=
  let k := v.s.krovol
  let l0 := v.leg home home
  let both (d : Die) : Nat := v.leg home d + v.leg d home
  let ofDie (d : Die) : List Nat :=
    let gate := if k.gates[d] == 0 then [] else [v.cyc 16 + both d + v.ns k.cNs[d]]
    let st := (stileNs.filter fun n => k.isCaching d n.val).map fun n => v.cyc 16 + both d + v.ns (k.cs[d])[n]
    let mus := match v.fanTime home d with
      | some t => [v.cyc 18 + both d + 2 * l0 + v.ns t]
      | none => []
    gate ++ st ++ mus
  ((diesOf v.r.present).flatMap ofDie).foldl max 0

/-- The largest fold term F of a row that a line of a home can meet (11 R298): dirty data, and the merge of a PushIO or
far AtomicOp. -/
def Env.fold (v : Env) (mp : Bool) (home : Die) : Nat :=
  let mem := if mp then v.cyc 24 else v.cyc 16 + v.ns v.s.krovol.mNs[home]
  max mem (v.snp home + v.cyc 6) + v.cyc 6

/-- The envelope of 11 R299 from a requester die to a home, F being `f`. -/
def Env.total (v : Env) (f : Nat) (req home : Die) : Nat :=
  let far := ((diesOf v.r.present).map fun x => v.leg home x + v.leg x home).foldl max 0
  v.cyc (4 + v.r.qAllow.toNat) + v.leg req home + v.leg home req + f + (f + far)
    + (if bitAt v.doze home.val then v.ns 40 else 0)

/-- The homes that a region's lines can have (11 R300): the interleaved member dies, or HOME_DIE. -/
def Env.homes (v : Env) (a : RegionAttr) : List Die :=
  if a.local' then (diesOf v.r.present).filter fun d => d == a.homeDie
  else (diesOf v.r.present).filter fun d => v.r.dietab.toList.contains d

/-- The largest F and the largest E of a region. -/
def Env.worst (v : Env) (a : RegionAttr) : Nat × Nat :=
  (v.homes a).foldl (fun acc h =>
    let f := v.fold a.mpAlias h
    let e := ((diesOf v.r.present).map fun x => v.total f x h).foldl max 0
    (max acc.1 f, max acc.2 e)) (0, 0)

/-- A cluster or caching Stile of a member, which every C0 envelope's flows may snoop, is declared slower than 60 ns
(19 R506, R508). -/
def Env.slow (v : Env) : Bool :=
  let k := v.s.krovol
  (diesOf v.r.present).any fun d => (k.gates[d] != 0 && decide (60 < k.cNs[d]))
    || stileNs.any fun n => k.isCaching d n.val && decide (60 < (k.cs[d])[n])

/-- The region's C0 envelope is feasible (11 R300); a region that is not C0 has none to test. -/
def Env.ok (v : Env) (a : RegionAttr) : Bool :=
  a.cls != 0 ||
    (let w := v.worst a
     !v.slow && decide (w.2 < v.ns v.r.deadline[0]) && decide (w.1 < v.ns v.r.share[0]))

/-- Region n, or the default at 64 (11 R308), as the test sees it; none where it is not an enabled C0 region. -/
def Repl.c0Region (r : Repl) (n : Nat) : Option RegionAttr :=
  let a := if n = 64 then { r.regionDefault with enable := true, local' := false, mpAlias := false }
    else (r.regions[Fin.ofNat 64 n]).attr
  if a.enable && a.cls == 0 then some a else none

/-- Region n fails the test. -/
def Env.bad (v : Env) (n : Nat) : Bool :=
  match v.r.c0Region n with
  | some a => !v.ok a
  | none => false

/-- A die has a fold whose power target permits DOZE (11 R299); one in RETAIN or OFF counts from its wake on (log entry
62). -/
def State.dozeDies (s : State) : BitVec 8 :=
  dies.foldl (fun b d =>
    if lfolds.any fun n => match (s.pad d).repl.pfoldOf d n with
      | some p => ((s.pad d).ebb.fold[p]).target == .doze
      | none => false
    then putBit b d.val true else b) 0

/-- The values in force, seen from the leader. -/
def State.envNow (s : State) (lead : Die) : Env :=
  { s := s, lead := lead, r := (s.pad lead).repl, mhz := Config.mhz (s.pad lead).ebb.point
    pace := Vector.ofFn fun d => Vector.ofFn fun e => ((s.pad d).conf.edge[e]).pace
    doze := s.dozeDies }

/-- The values in force but for the operating point (01 R35). -/
def State.envAt (s : State) (lead : Die) (pt : Point) : Env :=
  let o := s.edgesInUse
  let at' (d : Die) (e : Fin 3) : Nat :=
    match edges[e]? with
    | some f => s.chainPace o (Config.mhz pt) d f
    | none => 0
  { s.envNow lead with mhz := Config.mhz pt, pace := Vector.ofFn fun d => Vector.ofFn fun e => at' d e }

/-- A command may not go from the first values to the second (11 R301): some region would fail that passes before or is
no enabled C0 region then. -/
def envRefuses (old new : Env) : Bool := (List.range 65).any fun n => new.bad n && !old.bad n

/-- The largest C0 envelope in ns, rounded up (11 R308). -/
def Env.worstNs (v : Env) : Nat :=
  let m := ((List.range 65).map fun n => match v.r.c0Region n with
    | some a => (v.worst a).2
    | none => 0).foldl max 0
  (m + v.mhz * v.k - 1) / (v.mhz * v.k)

/-- Change every member's replicated registers (18 R471). -/
def State.modRepl (s : State) (lead : Die) (f : Repl → Repl) : State :=
  (s.members lead).foldl (fun s d => s.modPad d fun q => { q with repl := f q.repl }) s

/-- Publish the test's result in TIDE_ENV (11 R302, R308). -/
def State.publishEnv (s : State) (lead : Die) : State :=
  let v := s.envNow lead
  let bad := (List.range 64).foldl (fun b n => if v.bad n then putBit b n true else b) (0 : BitVec 64)
  (s.modRepl lead fun r => { r with envBad := bad, envBadDef := v.bad 64, envWorst := v.worstNs }).modShep lead fun x =>
    { x with envDoze := v.doze }

/-- ENVELOPE_RECHECK (11 R302): the test is run again, and each region that became infeasible is filed. -/
def State.recheck (s : State) (lead : Die) : State :=
  match (s.pad lead).shep.recheck with
  | none => s
  | some _ =>
    let old := (s.pad lead).repl
    let was (n : Nat) : Bool := if n = 64 then old.envBadDef else bitAt old.envBad n
    let v := s.envNow lead
    let new := (List.range 65).filter fun n => v.bad n && !was n
    let s := (s.modShep lead fun x => { x with recheck := none }).publishEnv lead
    new.foldl (fun s n => s.file lead
      { code := 0xD05, reporter := shepAgent lead, subject := shepAgent lead, atype := 0x3F
        t := (s.pad lead).now, detail := BitVec.ofNat 16 n }) s

end Sys2Proof.Machine
end

