-- ==== Sys2Proof/Machine/Words.lean ====
section
/-!
DEFINITION. Words that registers, the Charter (16 R436) and replies share: populations, fold map, regions, firmware
identity, transaction-table entries.
-/

namespace Sys2Proof.Machine

/-- A word from fields: (low bit, value) pairs that do not overlap. -/
def word (l : List (Nat × Nat)) : Word := BitVec.ofNat 32 ((l.map fun x => x.2 * 2 ^ x.1).sum)

/-- PKG_POP (01 R13). -/
def popWord (k : Krovol) (r : Repl) : Word :=
  word [(0, k.planned.toNat), (8, r.present.toNat), (16, r.leader.val), (19, bit r.formed)]

/-- PKG_FOLDMAP of a position (18 R485). -/
def foldmapWord (r : Repl) (d : Die) : Word :=
  if bitAt r.present d.val then
    let m := r.foldmap[d]
    word ((lfolds.map fun n => (4 * n.val, (m.pfold[n]).val + 8 * bit (bitAt m.vacant n.val)))
      ++ [(16, match m.standby with
            | some p => p.val
            | none => 7), (19, m.failed.toNat)])
  else 0x00078888

/-- RANGE_REGION_ATTR (01 R27). -/
def attrWord (a : RegionAttr) : Word :=
  word [(0, bit a.enable), (1, bit a.local'), (2, a.homeDie.val), (5, a.wpolicy.toNat), (7, bit a.prefetch),
    (8, a.bwMode.toNat), (10, a.cls.val), (12, bit a.mpAlias)]

/-- The attributes that a word of 01 R27 spells. -/
def attrOfWord (w : Word) : RegionAttr :=
  { enable := bitAt w 0, local' := bitAt w 1, homeDie := dieAt w 2, wpolicy := w.extractLsb' 5 2, prefetch := bitAt w 7
    bwMode := w.extractLsb' 8 2, cls := Fin.ofNat 4 (bits w 10 2), mpAlias := bitAt w 12 }

/-- Low word of an address. -/
def addrLo (a : Addr) : Word := a.extractLsb' 0 32

/-- High word of an address. -/
def addrHi (a : Addr) : Word := (a.extractLsb' 32 20).setWidth 32

/-- Word j of a region's registers (01 R26). -/
def regionWord (r : Region) (j : Nat) : Word :=
  match j with
  | 0 => addrLo r.base
  | 1 => addrHi r.base
  | 2 => addrLo r.limit
  | 3 => addrHi r.limit
  | 4 => attrWord r.attr
  | _ => 0

/-- PKG_REGION_DEFAULT (01 R26). -/
def defaultWord (r : Repl) : Word := attrWord r.regionDefault &&& 0xFFFFFFE0

/-- Word j of a device window's registers (08 R203). -/
def devwinWord (w : DevWin) (j : Nat) : Word :=
  match j with
  | 0 => addrLo w.base
  | 1 => addrHi w.base
  | 2 => addrLo w.limit
  | 3 => addrHi w.limit
  | 4 => word [(0, w.agent.toNat), (10, bit w.enable)]
  | _ => 0

/-- SHEP_FW and the Charter's firmware identity (15 R429). -/
def fwWord (q : Paddock) : Word := word [(0, 2), (8, 1), (16, q.shep.patch.level.toNat)]

/-! ### The Charter (16 R436) -/

/-- Number of an edge as CONF_MOD_STAT.EDGE shows it (10 R282). -/
def edgeCode (e : Option Edge) : Nat :=
  match e with
  | some .west => 0
  | some .east => 1
  | some .vert => 2
  | none => 3

/-- Word j of a position's 64 bytes. -/
def charterPos (k : Krovol) (d : Die) (j : Nat) : Word :=
  let cs (n : Nat) : Nat := if h : n < 24 then (k.cs[d])[n] else 0
  match j with
  | 0 => word [(0, bit (bitAt k.planned d.val)), (1, bit (k.tether == some d)), (4, k.gates[d].toNat), (8, k.stiles[d].val)]
  | 1 => (k.caching[d]).setWidth 32
  | 2 => word (modNs.map fun m => (8 * m.val, edgeCode (k.modEdge[d])[m]))
  | 3 => word [(0, (k.phy[d])[0] % 65536), (16, (k.phy[d])[1] % 65536)]
  | 4 => word [(0, (k.phy[d])[2] % 65536), (16, k.mNs[d] % 65536)]
  | 5 => word [(0, k.cNs[d] % 65536)]
  | j => if j < 12 then
      let n := 4 * (j - 6)
      word [(0, cs n % 256), (8, cs (n + 1) % 256), (16, cs (n + 2) % 256), (24, cs (n + 3) % 256)]
    else 0

/-- Data credits per fold of an agent identifier (03 R96). -/
def Krovol.credits (k : Krovol) (a : AgentId) : Nat :=
  if !k.configured a then 0
  else if isGate a then k.gateCredits
  else if isStile a || localOf a = 120 || localOf a = 127 then k.otherCredits
  else 0

/-- A static word of the Charter, its CRC apart. -/
def charterStatic (k : Krovol) (i : Nat) : Word :=
  let b := 4 * i
  if b = 0 then 0x54524843
  else if b = 4 then 0x00400002
  else if b = 8 then word [(0, 0x0B00), (16, k.unlock.toNat)]
  else if b = 0xC then k.paramId
  else if 0x100 ≤ b && b < 0x300 then charterPos k (Fin.ofNat 8 ((b - 0x100) / 64)) ((b - 0x100) % 64 / 4)
  else if 0x300 ≤ b && b < 0x340 then
    let e (j : Nat) : Nat := (k.dietab[Fin.ofNat 64 (b - 0x300 + j)]).val
    word [(0, e 0), (8, e 1), (16, e 2), (24, e 3)]
  else if 0x340 ≤ b && b < 0x5C0 then devwinWord k.devwin[Fin.ofNat 32 ((b - 0x340) / 20)] ((b - 0x340) % 20 / 4)
  else if b = 0x5C0 then word [(0, k.sets.toNat), (2, k.ways)]
  else if 0x1000 ≤ b && b < 0x1400 then
    let e (j : Nat) : Nat := k.credits (BitVec.ofNat 10 (b - 0x1000 + j)) % 256
    word [(0, e 0), (8, e 1), (16, e 2), (24, e 3)]
  else 0

/-- The bytes of a word as a number, its lowest byte most significant. -/
def beWord (w : Word) : Nat :=
  bits w 0 8 * 2 ^ 24 + bits w 8 8 * 2 ^ 16 + bits w 16 8 * 2 ^ 8 + bits w 24 8

/-- The Charter's CRC over its static bytes in ascending order (DEDUCED, log entry 14). -/
def charterCrc (k : Krovol) : BitVec 16 :=
  let l := (List.range 4) ++ (List.range' 0x40 0x4C0)
  crc16 (32 * l.length) (l.foldl (fun acc i => acc * 2 ^ 32 + beWord (charterStatic k i)) 0)

/-- Word `i` of the Charter, live words as the paddock of die d shows them. -/
def State.charterWord (s : State) (d : Die) (i : Nat) : Word :=
  let q := s.pad d
  let r := q.repl
  let lead : Paddock := if s.inRange d then s.pad r.leader else q
  let b := 4 * i
  if b = 0x10 then (charterCrc s.krovol).setWidth 32
  else if b = 0x40 then fwWord lead
  else if b = 0x44 then popWord s.krovol r
  else if 0x48 ≤ b && b < 0x68 then foldmapWord r (Fin.ofNat 8 ((b - 0x48) / 4))
  else if b = 0x68 then word [(0, lead.ebb.point.val), (8, r.qAllow.toNat), (16, r.jAllow.toNat)]
  else if b = 0x6C || b = 0x70 then
    let e (j : Nat) : Nat :=
      let x : Die := Fin.ofNat 8 (b - 0x6C + j)
      ((s.pad x).folds.toList.map fun f => f.poolMpWays).foldl max 0
    word [(0, e 0), (8, e 1), (16, e 2), (24, e 3)]
  else if 0x2000 ≤ b && b < 0x2514 then
    let n := (b - 0x2000) / 20
    let j := (b - 0x2000) % 20 / 4
    if n < 64 then regionWord r.regions[Fin.ofNat 64 n] j else if j = 4 then defaultWord r else 0
  else if 0x2600 ≤ b && b < 0x2620 then
    let c : Cls := Fin.ofNat 4 ((b - 0x2600) / 8)
    BitVec.ofNat 32 (if b % 8 = 0 then r.deadline[c] else r.share[c])
  else charterStatic s.krovol i

/-! ### TT_DUMP (03 R78, 15 R416) -/

/-- The 124 bits of an entry: VALID first, from bit 0 upwards in the order of 03 R78. -/
def TTEntry.image (e : TTEntry) : BitVec 128 :=
  let ph : Nat := match e.phase with
    | .lookup => 0
    | .snoop => 1
    | .data => 2
    | .ackwait => 3
    | .orphan => 4
  let attr := e.wpolicy.toNat + bit e.prefetch * 4 + e.bwMode.toNat * 8 + bit e.mpAlias * 32
  let f : List (Nat × Nat) :=
    [(1, 1), (3, (Config.phaseCode ph).toNat), (6, e.flit.op.code.toNat), (1, bit e.fetch), (1, bit e.far),
      (10, e.flit.src.toNat), (12, e.flit.txid.toNat), (2, e.flit.cls.val), (16, e.flit.dl.toNat), (46, e.line.toNat),
      (6, attr), (9, e.waits.length), (1, bit e.dirty), (1, bit e.poison), (1, bit e.commit), (8, e.mr.getD 255)]
  BitVec.ofNat 128 (f.reverse.foldl (fun acc x => acc * 2 ^ x.1 + x.2 % 2 ^ x.1) 0)

/-- The four words of a 128-bit image, lowest first. -/
def imageWords (x : BitVec 128) : List Word :=
  [x.extractLsb' 0 32, x.extractLsb' 32 32, x.extractLsb' 64 32, x.extractLsb' 96 32]

/-- The words of entries [first, first + n) of a fold; `fresh` names the free values of entries not allocated. -/
def Fold.dump (f : Fold) (first n fresh : Nat) : List Word :=
  (List.range n).flatMap fun i =>
    match f.tt.find? fun e => e.idx.val == first + i with
    | some e => imageWords e.image
    | none => imageWords (((Config.ttStale (fresh + i)) ++ (0 : BitVec 1)).setWidth 128)

end Sys2Proof.Machine
end

