-- ==== Sys2Proof/Machine/ShepCmds.lean ====
section
/-!
DEFINITION. Shepherd commands that are answered at once (15 R414, R416, 11 R294, 17 R459, 14 R375, 12 R335,
13 R358, R359), and the Shepherd's own events: taking a packet, posting a held reply (15 R400, R403).
-/

namespace Sys2Proof.Machine

/-- Die x is there for a command that die d's Shepherd runs (15 R410, R426). -/
def State.present (s : State) (d x : Die) : Bool := if s.inRange d then s.member d x else x == d

/-- The refusals that name a die: outside the planned population, then absent. -/
def State.dieCheck (s : State) (d x : Die) : Option Status :=
  if !s.planned x then some .badParam else if !s.present d x then some .notPresent else none

/-! ### Queues -/

/-- PACKET_TAKE (15 R400, R410). -/
def execPacketTake (d : Die) (s : State) : Host.Outcome State Fault Refusal := .next (s.takePacket d)

/-- HELD_REPLY_POST (15 R403). -/
def State.postHeld (s : State) (d : Die) (q : QN) : State :=
  if (s.pad d).shepRuns then (s.rqCheck d q).modRq d q ReplyQueue.postHeld else s

/-- HELD_REPLY_POST (15 R403). -/
def execHeldReplyPost (d : Die) (q : QN) (s : State) : Host.Outcome State Fault Refusal := .next (s.postHeld d q)

/-! ### Queries (15 R414, R416, 12 R335) -/

/-- PING (15 R414). -/
def State.runPing (d : Die) (k : Taken) (s : State) : State :=
  s.answer d k .done [fwWord (s.pad d), popWord s.krovol (s.pad d).repl] true

/-- PING (15 R414). -/
def execPing (d : Die) (s : State) : Host.Outcome State Fault Refusal := .next (s.runTaken d 0x01 (State.runPing d))

/-- QUERY_CHARTER (15 R414). -/
def State.runQueryCharter (d : Die) (k : Taken) (s : State) : State :=
  let off := bits (k.p 1) 0 14
  let n := bits (k.p 1) 14 6
  if n = 0 || 62 < n || decide (16384 < off + n) then s.reply d k .badParam
  else s.answer d k .done ((List.range n).map fun i => s.charterWord d (off + i)) true

/-- QUERY_CHARTER (15 R414). -/
def execQueryCharter (d : Die) (s : State) : Host.Outcome State Fault Refusal :=
  .next (s.runTaken d 0x02 (State.runQueryCharter d))

/-- TT_DUMP (15 R416). An FL domain that is off gives entries of zeros (log entry 15). -/
def State.runTtDump (d : Die) (k : Taken) (s : State) : State :=
  let w := k.p 1
  let x := dieAt w 0
  let first := bits w 6 9
  let n := bits w 15 4
  if decide (4 < bits w 3 3) || n = 0 || decide (512 < first + n) || !s.planned x then s.reply d k .badParam
  else if !s.present d x then s.reply d k .notPresent
  else
    let p : PFold := Fin.ofNat 5 (bits w 3 3)
    if (s.pad x).domOn (domFL p) then
      { s.answer d k .done (((s.pad x).folds[p]).dump first n s.fresh) true with fresh := s.fresh + n }
    else s.answer d k .done (List.replicate (4 * n) 0) true

/-- TT_DUMP (15 R416). -/
def execTtDump (d : Die) (s : State) : Host.Outcome State Fault Refusal := .next (s.runTaken d 0x06 (State.runTtDump d))

/-- The low and high word of a 64-bit value. -/
def words64 (x : BitVec 64) : List Word := [x.extractLsb' 0 32, x.extractLsb' 32 32]

/-- HURDLE_LOG_READ (12 R335). A record that the shadow does not hold is open (log entry 16). -/
def State.runHurdleLogRead (d : Die) (k : Taken) (s : State) : State :=
  let w := k.p 1
  let x := dieAt w 0
  let first := bits w 3 7
  let n := bits w 10 5
  if n = 0 || 30 < n || decide (128 < first + n) then s.reply d k .badParam
  else
    match s.dieCheck d x with
    | some st => s.reply d k st
    | none =>
      let free (i : Nat) : BitVec 64 := Config.openWord (s.fresh + 2 * i + 1) ++ Config.openWord (s.fresh + 2 * i)
      let recs := (List.range n).flatMap fun i => words64 ((s.pad x).aon.hlog.getD (first + i) (free i))
      let read := (List.range n).foldl (fun u i => putBit u (first + i) false) (s.pad x).aon.hlogUnread
      let s := s.modPad x fun q => { q with aon := { q.aon with hlogUnread := read } }
      { s.answer d k .done recs true with fresh := s.fresh + 2 * n }

/-- HURDLE_LOG_READ (12 R335). -/
def execHurdleLogRead (d : Die) (s : State) : Host.Outcome State Fault Refusal :=
  .next (s.runTaken d 0x71 (State.runHurdleLogRead d))

/-! ### DEADLINE_SET (11 R294, R295) -/

/-- The values of TIDE_ENV are taken anew after a command that changed an envelope; a recheck that is due does it. -/
def State.envChanged (s : State) (lead : Die) : State :=
  if (s.pad lead).shep.recheck.isSome then s else s.publishEnv lead

/-- The replicated registers after DEADLINE_SET. -/
def Repl.setDeadline (r : Repl) (c : Cls) (dl sh : Nat) (allow : Option (BitVec 8 × BitVec 8)) : Repl :=
  let r := { r with deadline := vset r.deadline c dl, share := vset r.share c sh }
  match allow with
  | some (qa, ja) => { r with qAllow := qa, jAllow := ja }
  | none => r

/-- DEADLINE_SET. -/
def State.runDeadlineSet (d : Die) (k : Taken) (s : State) : State :=
  let c : Cls := Fin.ofNat 4 (bits (k.p 1) 0 2)
  let dl := bits (k.p 2) 0 17
  let sh := bits (k.p 3) 0 17
  let allow := if bitAt (k.p 1) 2 then some ((k.p 4).extractLsb' 0 8, (k.p 4).extractLsb' 8 8) else none
  if dl < 100 || 100000 < dl || sh < 50 || dl < sh then s.reply d k .badParam
  else
    let old := s.envNow d
    if envRefuses old { old with r := old.r.setDeadline c dl sh allow } then s.reply d k .notPermitted
    else ((s.modRepl d fun r => r.setDeadline c dl sh allow).envChanged d).reply d k .done

/-- DEADLINE_SET (11 R294). -/
def execDeadlineSet (d : Die) (s : State) : Host.Outcome State Fault Refusal :=
  .next (s.runTaken d 0xA0 (State.runDeadlineSet d))

/-! ### CENSUS_CONFIG (17 R459) -/

/-- An interval lies inside one enabled region and meets no device window. -/
def State.ringOk (s : State) (d : Die) (lo hi : Nat) : Bool :=
  decide (hi ≤ 2 ^ 52)
    && (s.pad d).repl.regions.toList.any (fun g =>
      g.attr.enable && decide (g.base.toNat ≤ lo) && decide (hi ≤ g.limit.toNat))
    && !(s.krovol.devwin.toList.any fun w => w.enable && decide (w.base.toNat < hi) && decide (lo < w.limit.toNat))

/-- CENSUS_CONFIG: every member holds the new values; they act at its next boundary (17 R462). -/
def State.runCensusConfig (d : Die) (k : Taken) (s : State) : State :=
  let depth := bits (k.p 1) 2 4
  let base := bits (k.p 1) 14 18 * 2 ^ 14 + bits (k.p 2) 0 20 * 2 ^ 32
  let period := (k.p 3).toNat
  if period < 50000 || 8 < depth || !s.ringOk d base (base + 2 ^ depth * 16384) then s.reply d k .badParam
  else
    let cfg : DumpCfg := { en := bitAt (k.p 1) 0, clear := bitAt (k.p 1) 1, depth := depth, base := BitVec.ofNat 52 base
                           period := period }
    let s := (s.members d).foldl (fun s x => s.modPad x fun q =>
      let k := if q.census.cfgSet then q.census.nextK else q.now / period
      { q with census := { q.census with pendCfg := some cfg, nextK := k } }) s
    s.reply d k .done

/-- CENSUS_CONFIG (17 R459). -/
def execCensusConfig (d : Die) (s : State) : Host.Outcome State Fault Refusal :=
  .next (s.runTaken d 0x90 (State.runCensusConfig d))

/-! ### NIGHTFOLD_PROGRAM (14 R375) -/

/-- Millpond ways of a die, POOL_CFG.MP_WAYS (06 R169). -/
def State.mpWays (s : State) (d : Die) : Nat := ((s.pad d).folds.toList.map fun f => f.poolMpWays).foldl max 0

/-- Each RETAIN bit names a Millpond way of a planned position. -/
def State.retainOk (s : State) (r : BitVec 64) : Bool :=
  dies.all fun x => (List.range 8).all fun i =>
    !bitAt r (8 * x.val + i) || (s.planned x && decide (i < s.mpWays x))

/-- NIGHTFOLD_PROGRAM. -/
def State.runNightfoldProgram (d : Die) (k : Taken) (s : State) : State :=
  let p : NfProgram :=
    { interval := bits (k.p 1) 0 16, sentinels := bits (k.p 1) 16 13, retain := (k.p 3) ++ (k.p 2)
      wakeEn := (k.p 4).extractLsb' 0 5 }
  if p.interval = 0 || 60000 < p.interval || 4096 < p.sentinels || !s.retainOk p.retain then s.reply d k .badParam
  else if s.anyDef d (fun x => x == .nightfold) then s.reply d k .busy
  else
    let s := (s.members d).foldl (fun s x => s.modPad x fun q => { q with aon := { q.aon with nfProg := some p } }) s
    s.reply d k .done

/-- NIGHTFOLD_PROGRAM (14 R375). -/
def execNightfoldProgram (d : Die) (s : State) : Host.Outcome State Fault Refusal :=
  .next (s.runTaken d 0x60 (State.runNightfoldProgram d))

/-! ### Factory test mode (13 R358, R359) -/

/-- FACTORY_UNLOCK, on the paddock whose Shepherd runs it (log entry 17). -/
def State.runFactoryUnlock (d : Die) (k : Taken) (s : State) : State :=
  let q := s.pad d
  if q.aon.unlockTries == 3 || !q.boot.testmode then s.reply d k .notPermitted
  else if (k.p 1).extractLsb' 0 16 != s.krovol.unlock then
    (s.modPad d fun q => { q with aon := { q.aon with unlockTries := q.aon.unlockTries + 1 } }).reply d k .notPermitted
  else (s.modPad d fun q => { q with bell := { q.bell with unlocked := true } }).reply d k .done

/-- FACTORY_UNLOCK (13 R358). -/
def execFactoryUnlock (d : Die) (s : State) : Host.Outcome State Fault Refusal :=
  .next (s.runTaken d 0xF0 (State.runFactoryUnlock d))

/-- Codes that CORRUPT takes. -/
def corruptCodes : List Nat :=
  [0x201, 0x210, 0x211, 0x301, 0x302, 0x303, 0x401, 0x402, 0x403, 0x404, 0x405, 0x406, 0x501]

/-- Invert the stored data check of a Pool way, its tag check made good again (log entry 18). -/
def Fold.corruptData (f : Fold) (set ph : Nat) : Fold :=
  let r := f.ptag set ph
  f.ptagPut set ph { r with dcrc := r.dcrc ^^^ 1 }

/-- Invert one bit of the tag check of a Pool way. -/
def Fold.corruptTag (f : Fold) (set ph : Nat) : Fold :=
  let r := f.ptag set ph
  { f with poolTag := smSet f.poolTag poolTagDflt (set * 17 + ph) { r with tcrc := r.tcrc ^^^ 1 } }

/-- The Pool way that holds a line: its set and physical way, a Millpond line's where the line has one. -/
def FC.holdingWay (c : FC) (a : Addr) : Option (Nat × Nat) :=
  match c.repl.mpSlot a with
  | some m => (c.f.poolPhysAt m.1 (Fin.ofNat 16 m.2)).map fun ph => (m.1, ph)
  | none => (c.poolFind (lineOf a)).map fun x => (poolSet (lineOf a), x.2)

/-- Invert check bits of the entry that holds an address; none where the array holds no such entry. -/
def FC.corrupt (c : FC) (code : Nat) (a : Addr) : Option Fold :=
  let f := c.f
  let l := lineOf a
  if !c.carried || c.repl.home a != c.agent then none
  else if code = 0x201 then
    (c.tallyHits l).head?.map fun h =>
      let key := f.tallyKey h.g (c.k.rowOfLine l) h.w
      let r := smGet f.tally tallyDflt key
      { f with tally := smSet f.tally tallyDflt key { r with crc := r.crc ^^^ 1 } }
  else if code = 0x210 || code = 0x211 then
    (f.shadow.find? fun e => e.a.line == l).map fun e =>
      let flip (x : ShadowCopy) : ShadowCopy := { x with crc := x.crc ^^^ 1 }
      let e' : ShadowRec := ⟨flip e.a, if code = 0x211 then flip e.b else e.b⟩
      { f with shadow := f.shadow.set (f.shadow.findIdx fun x => x == e) e' }
  else if code = 0x301 || code = 0x302 || code = 0x303 then
    (c.emFind l).map fun x =>
      let set := emSet l
      let r := f.emAt set x.1
      let r : EmRec := { r with
        payCrc := if code = 0x301 then r.payCrc ^^^ 1 else r.payCrc
        crcA := if code = 0x301 then r.crcA else r.crcA ^^^ 1
        crcB := if code = 0x303 then r.crcB ^^^ 1 else r.crcB }
      f.emPut set x.1 r
  else if code = 0x401 || code = 0x402 || code = 0x403 then
    (c.holdingWay a).map fun x => f.corruptData x.1 x.2
  else if code = 0x404 || code = 0x405 then
    (c.holdingWay a).map fun x => f.corruptTag x.1 x.2
  else if code = 0x406 then
    let set := match c.repl.mpSlot a with
      | some m => m.1
      | none => poolSet l
    let w := f.pset set
    some { f with poolSet := smSet f.poolSet poolSetDflt set { w with crc := w.crc ^^^ 1 } }
  else
    let r := smGet f.pred predDflt (predIdx l)
    some { f with pred := smSet f.pred predDflt (predIdx l) { r with crc := r.crc ^^^ 1 } }

/-- REPORT of INJECT_FAULT: a report for the Bells, or a sticky bit of the paddock named. -/
def State.injectReport (s : State) (d x : Die) (k : Taken) (addr : Addr) : State :=
  let code : BitVec 12 := (k.p 1).extractLsb' 0 12
  match stickyCodes.find? fun e => e.1 == code.toNat with
  | some e => s.stick x e.2
  | none =>
    let reporter : AgentId := (k.p 2).extractLsb' 0 10
    s.file (dieOf reporter)
      { code := code, reporter := reporter, subject := (k.p 2).extractLsb' 10 10, addr := some addr
        atype := (k.p 2).extractLsb' 20 6, t := (s.pad d).now, detail := BitVec.ofNat 16 (bits (k.p 1) 17 3)
        injected := true }

/-- INJECT_FAULT. -/
def State.runInjectFault (d : Die) (k : Taken) (s : State) : State :=
  let w := k.p 1
  let code : BitVec 12 := w.extractLsb' 0 12
  let m := bits w 12 2
  let x := dieAt w 14
  let pf := bits w 17 3
  let addr : Addr := (k.p 4).extractLsb' 0 20 ++ (k.p 3)
  if !(s.pad d).bell.unlocked then s.reply d k .notPermitted
  else if !codeKnown code || pf = 5 || pf = 6 || 1 < m || (m = 1 && !corruptCodes.contains code.toNat) then
    s.reply d k .badParam
  else if !s.present d x then s.reply d k .notPresent
  else if m = 0 then (s.injectReport d x k addr).reply d k .done
  else
    let p : PFold := Fin.ofNat 5 pf
    if pf = 7 || !(s.pad x).domOn (domFA p) then s.reply d k .failed
    else
      match (s.fc x p).corrupt code.toNat addr with
      | some f => (s.modFold x p fun _ => f).reply d k .done
      | none => s.reply d k .failed

/-- INJECT_FAULT (13 R359). -/
def execInjectFault (d : Die) (s : State) : Host.Outcome State Fault Refusal :=
  .next (s.runTaken d 0xF1 (State.runInjectFault d))

/-- TESTMODE_FALL (13 R358): the strap falls, and UNLOCKED clears. -/
def execTestmodeFall (d : Die) (s : State) : Host.Outcome State Fault Refusal :=
  .next (s.modPad d fun q => { q with boot := { q.boot with testmode := false }, bell := { q.bell with unlocked := false } })

end Sys2Proof.Machine
end

