-- ==== Sys2Proof/Machine/Sweep.lean ====
section
/-!
DEFINITION. Work that the Shepherds and folds do over time: requests a Shepherd issues for a job, MAINT_RANGE and
MAINT_SETWAY (06 R167, R168), way sweeps and copies (06 R163 to R165, 12 R322), Millpond (06 R169, R170), and
scrubbing (12 R316 to R319). `State.work` of Work.lean runs the parts that have no command of their own.
-/

namespace Sys2Proof.Machine

/-! ### What a fold records -/

/-- The lines that the fold's Tally records. -/
def FC.tallyLines (c : FC) : List Line :=
  c.f.tally.filterMap fun e =>
    let row := e.1 / 17 % 2048
    let g : GateN := Fin.ofNat 4 (e.1 / 17 / 2048)
    if e.2.ok && e.2.st != 0 && c.tallyWays.any (fun x => x.1 == g && c.f.tallyKey x.1 row x.2 == e.1) then
      some (c.k.lineOfTally c.n row e.2.tag)
    else none

/-- The logical ways with the keys under which they play at a set. -/
def Fold.emPlays (f : Fold) (key : Nat) : Bool := (List.range 16).any fun w => f.emKey (key / 17) w == some key

/-- The lines that the fold's Earmark records. -/
def FC.emLines (c : FC) : List Line :=
  c.f.em.filterMap fun e =>
    if !e.2.dead && e.2.pay.toNat % 4 != 0 && c.f.emPlays e.1 then some (lineOfEm c.n (e.1 / 17) e.2.tagA) else none

/-- Every line that the fold's Tally, Tally shadow and Earmark record. -/
def FC.recorded (c : FC) : List Line :=
  (c.tallyLines ++ (c.f.shadow.map fun e => e.a.line) ++ c.emLines).eraseDups

/-- The cache ways of the fold that hold a line: set and physical way. What a tag entry that fails its check holds is not
known until it is checked (12 R311): it counts as one. -/
def Fold.cacheLines (f : Fold) : List (Nat × Nat) :=
  f.poolTag.filterMap fun e =>
    let set := e.1 / 17
    let plays (w : Fin 16) : Bool := f.isCacheWay set w && f.poolPhysAt set w == some (e.1 % 17)
    if (e.2.valid || !e.2.ok) && (List.finRange 16).any plays then some (set, e.1 % 17) else none

/-! ### Requests of a job -/

/-- Give a Shepherd the lines of a job. -/
def State.addJob (s : State) (d : Die) (j : Nat) (l : List Line) : State :=
  if l.isEmpty then s else s.modShep d fun x => { x with sweeps := x.sweeps ++ [{ id := j, todo := l }] }

/-- Requests of a job open at a Shepherd. -/
def Shep.jobTxns (x : Shep) (j : Nat) : Nat := (x.port.txns.filter fun t => t.purpose == .job j).length

/-- A Shepherd has work of a job. -/
def Shep.jobOpen (x : Shep) (j : Nat) : Bool :=
  x.sweeps.any (fun y => y.id == j && !y.todo.isEmpty) || decide (0 < x.jobTxns j)

/-- Some member's Shepherd has work of a job. -/
def State.jobOpen (s : State) (j : Nat) : Bool := dies.any fun d => ((s.pad d).shep).jobOpen j

/-- A request of a Shepherd, class C3; `false` where the first port that computes its home finds it absent. A sweep of
the Shepherd's own goes to a leaving die too (10 R276). -/
def State.shepRequest (s : State) (d : Die) (op : ReqOp) (a : Addr) (u : Purpose) (data : Option (LineData × Bool))
    (own : Bool) : State × Bool :=
  let q := s.pad d
  let f : ReqFlit := { q.repl.request (shepAgent d) op a (if op == .getOnce then 64 else 0) with cls := 3 }
  let r : Repl := if own then { q.repl with leaving := 0 } else q.repl
  if r.absent q.conf.unreach d f.tgt false then (s, false)
  else (s.modShep d fun x => { x with port := x.port.openTxn q.repl f q.now u data false }, true)

/-- One SweepPurge of each job of a Shepherd, at most 64 open. -/
def State.jobStep (s : State) (d : Die) : State :=
  let x := (s.pad d).shep
  if x.sweeps.isEmpty || !(s.pad d).shepRuns then s
  else
    let s := x.sweeps.foldl (fun s j =>
      match j.todo with
      | [] => s
      | l :: _ => if x.jobTxns j.id < 64 then (s.shepRequest d .sweepPurge (lineAddr l) (.job j.id) none true).1 else s) s
    s.modShep d fun y => { y with
      sweeps := (y.sweeps.map fun j =>
        if x.jobTxns j.id < 64 then { j with todo := j.todo.tail } else j).filter fun j => !j.todo.isEmpty }

/-! ### MAINT_RANGE (06 R167) -/

/-- The maintenance opcode of an OP field. -/
def maintOp (n : Nat) : Option ReqOp :=
  match n with
  | 0 => some .sweep
  | 1 => some .purge
  | 2 => some .sweepPurge
  | _ => none

/-- First line of an address split over two words. -/
def lineOfWords (lo hi : Word) : Nat := bits lo 6 26 + bits hi 0 20 * 2 ^ 26

/-- MAINT_RANGE. -/
def State.runMaintRange (d : Die) (k : Taken) (s : State) : State :=
  let lo := lineOfWords (k.p 1) (k.p 2)
  let hi := lineOfWords (k.p 3) (k.p 4)
  match maintOp (bits (k.p 1) 0 2) with
  | none => s.reply d k .badParam
  | some op =>
    if hi ≤ lo then s.reply d k .badParam
    else s.defer d k (.maint { op := op, limit := hi, next := Vector.replicate 8 lo })

/-- MAINT_RANGE (06 R167). -/
def execMaintRange (d : Die) (s : State) : Host.Outcome State Fault Refusal :=
  .next (s.runTaken d 0x30 (State.runMaintRange d))

/-- Change the MAINT_RANGE of a deferred command at the leader. -/
def State.modMaint (s : State) (lead : Die) (id : Nat) (f : MaintRange → MaintRange) : State :=
  s.modDef lead id fun k =>
    match k with
    | .maint m => .maint (f m)
    | k => k

/-- One line of a MAINT_RANGE at a member's Shepherd: a line homed there is requested; the leader's Shepherd counts
those homed on absent dies. -/
def State.maintLine (s : State) (lead d : Die) (id : Nat) (m : MaintRange) : State × Bool :=
  let n := m.next[d]
  let a := lineAddr (BitVec.ofNat 46 n)
  let home := (s.pad d).repl.homeDie a
  let adv (f : MaintRange → MaintRange) (s : State) : State :=
    s.modMaint lead id fun m => f { m with next := vset m.next d (n + 1) }
  let skip (m : MaintRange) : MaintRange := { m with skipped := m.skipped + 1 }
  if home == d then
    let r := s.shepRequest d m.op a (.job (jobOf id)) none false
    (adv (if r.2 then fun m => m else skip) r.1, true)
  else if d == lead && !s.member lead home then (adv skip s, false)
  else (adv (fun m => m) s, false)

/-- The MAINT_RANGE of a deferred command. -/
def State.maintOf (s : State) (lead : Die) (id : Nat) : Option MaintRange :=
  match (s.pad lead).shep.deferred.find? fun o => o.id == id with
  | some o => (match o.kind with
      | .maint m => some m
      | _ => none)
  | none => none

/-- A member's Shepherd goes over up to `fuel` lines, to the first it requests. -/
def State.maintScan (s : State) (lead d : Die) (id fuel : Nat) : State :=
  match fuel with
  | 0 => s
  | n + 1 =>
    match s.maintOf lead id with
    | none => s
    | some m =>
      if m.limit ≤ m.next[d] || 64 ≤ ((s.pad d).shep).jobTxns (jobOf id) || !(s.pad d).shepRuns then s
      else
        let r := s.maintLine lead d id m
        if r.2 then r.1 else r.1.maintScan lead d id n

/-- A count as a reply word. -/
def countWord (n : Nat) : Word := BitVec.ofNat 32 n

/-- The final reply of a MAINT_RANGE whose lines are all done. -/
def State.maintFinish (s : State) (lead : Die) (id : Nat) (m : MaintRange) : State :=
  if (s.members lead).all (fun d => decide (m.limit ≤ m.next[d])) && !s.jobOpen (jobOf id) then
    let st : Status := if 0 < m.failed then .failed else if 0 < m.skipped then .partial' else .done
    let bad := match m.firstFail with
      | some l => [addrLo (lineAddr l), addrHi (lineAddr l)]
      | none => [Config.openWord s.fresh, Config.openWord (s.fresh + 1)]
    { s.finish lead id st ([countWord m.lines, countWord m.skipped, countWord m.failed] ++ bad) with fresh := s.fresh + 2 }
  else s

/-! ### MAINT_SETWAY (06 R168) -/

/-- MAINT_SETWAY. -/
def State.runMaintSetway (d : Die) (k : Taken) (s : State) : State :=
  let x := dieAt (k.p 1) 0
  let n : LFold := Fin.ofNat 4 (bits (k.p 1) 3 2)
  let first := bits (k.p 1) 7 12
  let cnt := bits (k.p 2) 0 13
  let action : BitVec 2 := (k.p 1).extractLsb' 5 2
  if cnt = 0 || 4096 < first + cnt then s.reply d k .badParam
  else
    match s.dieCheck d x with
    | some st => s.reply d k st
    | none =>
      match (s.pad x).repl.pfoldOf x n with
      | none => s.reply d k .notPresent
      | some p =>
        let s := if action == 3 then
            s.modFold x p fun f => { f with poolLost := f.poolLost.filter fun i => i < first || first + cnt ≤ i }
          else s
        s.defer d k (.setway { d := x, n := n, action := action, ways := (k.p 2).extractLsb' 13 16
                               next := if action == 3 then (first + cnt) * 16 else first * 16
                               limit := (first + cnt) * 16 })

/-- MAINT_SETWAY (06 R168). -/
def execMaintSetway (d : Die) (s : State) : Host.Outcome State Fault Refusal :=
  .next (s.runTaken d 0x31 (State.runMaintSetway d))

/-- The action on one way of a set; none where it must wait. -/
def FC.setwayOne (c : FC) (op : ReqOp) (set : Nat) (w : Fin 16) : Option (FC × Nat × Nat) :=
  match c.f.poolPhysAt set w with
  | none => some (c, 0, 0)
  | some ph =>
    let c := c.poolCheckOne set ph
    let r := c.f.ptag set ph
    if !c.f.isCacheWay set w || !r.valid then some (c, 0, 0)
    else if c.blocked (lineOfPool c.n set r.tag) || (op == .sweepPurge && r.dirty && c.f.eddyFull) then none
    else some (c.wayMaint op set ph 3 false)

/-- One way of a MAINT_SETWAY, or the final reply. A fold that is off is woken; one in OFF holds nothing. -/
def State.setwayStep (s : State) (lead : Die) (id : Nat) (m : MaintSetway) : State :=
  if m.limit ≤ m.next then s.finish lead id .done [countWord m.written, countWord m.inval]
  else
    let go (s : State) (w i : Nat) : State := s.modDef lead id fun k =>
      match k with
      | .setway m => .setway { m with next := m.next + 1, written := m.written + w, inval := m.inval + i }
      | k => k
    match (s.pad m.d).repl.pfoldOf m.d m.n, maintOp m.action.toNat with
    | some p, some op =>
      if (s.power m.d p).state == .off && (s.power m.d p).waking.isNone then
        s.modDef lead id fun _ => .setway { m with next := m.limit }
      else if !bitAt m.ways (m.next % 16) then go s 0 0
      else if (s.power m.d p).state == .retain then s.wakeFold m.d p 0
      else
        let s := s.ungate m.d p
        if !(s.pad m.d).foldRuns p then s
        else
          match (s.fc m.d p).setwayOne op (m.next / 16) (Fin.ofNat 16 m.next) with
          | some r => go (s.putFc r.1) r.2.1 r.2.2
          | none => s
    | _, _ => s.finish lead id .failed [countWord m.written, countWord m.inval]

/-! ### Way sweeps and copies -/

/-- A disabled cache way is emptied at one set, or a Millpond way's line copied (06 R163, R164); none where it waits. The
way's tag entry is checked first (06 R158, 12 R311). -/
def FC.sweepSet (c : FC) (x : PoolSweep) : Option FC :=
  let set := x.ptr
  let c := c.poolCheckOne set x.old
  let r := c.f.ptag set x.old
  let waits := r.valid && (c.blocked (lineOfPool c.n set r.tag) || (r.dirty && c.f.eddyFull))
  match x.kind with
  | .millCopy =>
    let d := c.f.pdata set x.old
    let bad := !r.poison && r.dcrc != dataCrc d
    let c := if bad then c.recFail 0x403 none .poolData (set * 17 + x.old) else c
    some { c with f := c.f.pline set x.new 0 d false (r.poison || bad) }
  | .disable | .retire =>
    if waits then none
    else if !r.valid then some c
    else
      let c := c.poolEvict 3 set x.old
      some { c with f := c.f.pinval set x.old }
  | .convert =>
    let clear (c : FC) : FC := { c with f := c.f.pline set x.old 0 0 false false }
    if waits then none
    else if !r.valid then some (clear c)
    else some (clear (c.poolEvict 3 set x.old))

/-- The end of a sweep (06 R163 to R165): the way takes its new place, or stays out of service; a conversion of the way
goes on over its new place, and the disables that waited for the sweep begin. -/
def FC.sweepEnd (c : FC) (x : PoolSweep) : FC :=
  let rest := c.f.poolSweep.erase x
  let c : FC := match x.kind with
    | .convert => { c with f := { c.f with poolSweep := rest } }
    | .retire =>
      { c with f := { c.f with
          poolSweep := rest
          poolOut := putBit c.f.poolOut x.old true
          poolSpareFor := if c.f.poolSpareFor.toNat = x.way.val && x.old = 16 then 31 else c.f.poolSpareFor } }
    | .disable | .millCopy =>
      let f : Fold := { c.f with
        poolSweep := updateWhere (fun z => z.way == x.way) (fun z => { z with old := x.new, new := x.new }) rest
        poolPhys := vset c.f.poolPhys x.way x.new
        poolSpareFor := BitVec.ofNat 5 x.way.val
        poolOut := putBit c.f.poolOut x.old true }
      let c := FC.repSelf { c with f := f } 0x410 none 0x3E
      { c with acts := c.acts ++ [.repair 3 .poolData x.old] }
  let later := c.f.poolPend
  later.foldl (fun c ph => c.disablePoolWay ph) { c with f := { c.f with poolPend := [] } }

/-- One set of a sweep. -/
def FC.sweepStep (c : FC) (x : PoolSweep) : FC :=
  match c.sweepSet x with
  | none => c
  | some c =>
    let y : PoolSweep := { x with ptr := x.ptr + 1 }
    let c : FC := { c with f := { c.f with poolSweep := updateWhere (fun z => z == x) (fun _ => y) c.f.poolSweep } }
    if 4096 ≤ y.ptr then c.sweepEnd y else c

/-- WAY_SWEEP: one set of the oldest sweep or copy that a way disable brought. -/
def State.waySweepAt (s : State) (d : Die) (p : PFold) : State :=
  if !(s.pad d).foldRuns p then s
  else
    match ((s.pad d).folds[p]).poolSweep.find? fun x => x.kind != .convert with
    | some x => if (s.fc d p).idleNow then s.runFold d p fun c => c.sweepStep x else s
    | none => s

/-- WAY_SWEEP (06 R163 to R165). -/
def execWaySweep (d : Die) (p : PFold) (s : State) : Host.Outcome State Fault Refusal := .next (s.waySweepAt d p)

/-- Have a failing Tally entry rebuilt from its cluster way (04 R121, steps 2 and 3): a WayProbe goes to its Gate; none
while no TXID is free for it (log entry 68). -/
def FC.fixStart (c : FC) (g : GateN) (row w : Nat) : Option FC :=
  match freeIdx c.f with
  | none => none
  | some i =>
    let c : FC := { c with f := { c.f with fixes := c.f.fixes ++ [{ idx := i, g := g, row := row, w := w }] } }
    some ((c.send .snp 3 (.snp ⟨.wayProbe, c.agent, Machine.agent c.die g.val, BitVec.ofNat 12 (512 + i.val),
      BitVec.ofNat 46 (c.k.setOfLine (c.k.lineOfTally c.n row 0) + w * 8192), false, 0⟩)).ev 0x26)

/-- A rebuild of an entry of a row is out. -/
def FC.fixing (c : FC) (g : GateN) (row w : Nat) : Bool := c.f.fixes.any fun x => x.g == g && x.row == row && x.w == w

/-- File the failing Tally entries of a row and start their rebuild; those that an open fill wrote come from its
transaction-table entry (04 R121). -/
def FC.tallyFix (c : FC) (row : Nat) (l : List (GateN × Nat)) : FC :=
  let c := c.tallyRepair row
  let left := l.filter fun x => !(smGet c.f.tally tallyDflt (c.f.tallyKey x.1 row x.2)).ok
  left.foldl (fun c x => (c.fixStart x.1 row x.2).getD c) (c.tallyFail row left)

/-- One row of a Tally way copy (12 R322), and whether it is done: not while its entry's line is blocked, or while an
entry that failed its check is being rebuilt. -/
def FC.tallyCopyRow (c : FC) (x : WayCopy) : FC × Bool :=
  let g : GateN := Fin.ofNat 4 (x.ptr / 2048)
  let row := x.ptr % 2048
  let r := smGet c.f.tally tallyDflt (x.ptr * 17 + x.old)
  let copied (c : FC) (r : TallyRec) : FC × Bool :=
    ({ c with f := { c.f with tally := smSet c.f.tally tallyDflt (x.ptr * 17 + x.new) r } }, true)
  if r.ok then
    if r.st != 0 && c.blocked (c.k.lineOfTally c.n row r.tag) then (c, false) else copied c r
  else if !c.k.hasGate c.die g.val then copied (c.recFail 0x201 none .tally (x.ptr * 17 + x.old)) tallyDflt
  else if c.fixing g row x.way then (c, false)
  else (c.tallyFix row [(g, x.way)], false)

/-- One set of an Earmark way copy: the old entry is checked and repaired first (04 R124, R125). -/
def FC.emCopySet (c : FC) (x : WayCopy) : Option FC :=
  let c := c.emCheckWay x.ptr x.way
  let r := smGet c.f.em emDflt (x.ptr * 17 + x.old)
  if !r.dead && r.pay.toNat % 4 != 0 && c.blocked (lineOfEm c.n x.ptr r.tagA) then none
  else some { c with f := { c.f with em := smSet c.f.em emDflt (x.ptr * 17 + x.new) r } }

/-- One entry of a Tally way copy, and its end: 0x220 and a repair record. -/
def FC.tallyCopyStep (c : FC) : FC :=
  match c.f.tallyCopy with
  | [] => c
  | x :: rest =>
    match c.tallyCopyRow x with
    | (c, false) => c
    | (c, true) =>
      if x.ptr + 1 < 8192 then { c with f := { c.f with tallyCopy := { x with ptr := x.ptr + 1 } :: rest } }
      else
        let f : Fold := { c.f with
          tallyCopy := rest
          tallyPhys := vset c.f.tallyPhys (Fin.ofNat 16 x.way) x.new
          tallyOut := putBit c.f.tallyOut x.old true }
        let c := FC.repSelf { c with f := f } 0x220 none 0x3E
        let c : FC := { c with acts := c.acts ++ [.repair 3 .tally x.old] }
        let later := c.f.tallyPend
        later.foldl (fun c ph => c.disableTallyWay ph) { c with f := { c.f with tallyPend := [] } }

/-- A request flit that carries class C3 and the deadline of that class from now on (11 R287), for work that no request
triggers. -/
def FC.c3Now (c : FC) : ReqFlit :=
  { op := .getOwned, src := c.agent, tgt := c.agent, txid := 0, cls := 3, addr := 0
    dl := BitVec.ofNat 16 ((c.now + c.repl.deadline[3]) / 16) }

/-- One set of an Earmark way that leaves service with no spare (12 R323), and whether it is empty: the line that the way
records is back-invalidated first (04 R115; log entry 94). -/
def FC.emEmptySet (c : FC) (x : WayCopy) : FC × Bool :=
  let c := c.emCheckWay x.ptr x.way
  let r := smGet c.f.em emDflt (x.ptr * 17 + x.old)
  if (c.f.emReservedBy x.ptr x.way).isSome then (c, false)
  else if r.dead || r.pay.toNat % 4 = 0 then (c, true)
  else if c.blocked (lineOfEm c.n x.ptr r.tagA) || !c.binvRoom then (c, false)
  else
    match c.openBinv x.ptr x.way c.c3Now (c.now + min (16 * c.repl.deadline[3]) 1000000) c.cyc 0 none with
    | (_, none) => (c, false)
    | (c', some (b, ts)) => if c.cutOff ts then (c, false) else ((c'.sendBinv 3 b ts).pump, false)

/-- The ways whose disable waited for an Earmark copy are disabled. -/
def FC.emLater (c : FC) : FC :=
  let later := c.f.emPend
  later.foldl (fun c ph => c.disableEmWay ph) { c with f := { c.f with emPend := [] } }

/-- The end of an Earmark way copy: 0x320 and a repair record (12 R322), or the way out of service (12 R323). -/
def FC.emCopyEnd (c : FC) (x : WayCopy) : FC :=
  let f : Fold := { c.f with emCopy := c.f.emCopy.erase x, emOut := putBit c.f.emOut x.old true }
  if x.retires then FC.emLater { c with f := { f with emDropped := putBit f.emDropped x.way true } }
  else
    let f : Fold := { f with emPhys := vset f.emPhys (Fin.ofNat 16 x.way) x.new }
    let c := FC.repSelf { c with f := f } 0x320 none 0x3E
    FC.emLater { c with acts := c.acts ++ [.repair 3 .emTagA x.old] }

/-- One set of an Earmark way copy or of a way that leaves service, and its end. -/
def FC.emCopyStep (c : FC) : FC :=
  match c.f.emCopy with
  | [] => c
  | x :: rest =>
    let r := if x.retires then c.emEmptySet x
      else match c.emCopySet x with
        | some c => (c, true)
        | none => (c, false)
    let y : WayCopy := { x with ptr := x.ptr + 1 }
    if !r.2 then r.1
    else
      let c : FC := { r.1 with f := { r.1.f with emCopy := y :: rest } }
      if y.ptr < 8192 then c else c.emCopyEnd y

/-- WAY_COPY (12 R322): one row or set of the array's oldest way copy. -/
def execWayCopy (d : Die) (p : PFold) (k : ArrayKind) (s : State) : Host.Outcome State Fault Refusal :=
  .next (
    if !(s.pad d).foldRuns p || !(s.fc d p).idleNow then s
    else
      match k with
      | .tally => s.runFold d p FC.tallyCopyStep
      | .emTagA | .emTagB | .emPayload => s.runFold d p FC.emCopyStep
      | .poolTag | .poolData | .poolSet | .pred => s)

/-! ### Millpond (06 R169, R170) -/

/-- MiB of the enabled MP_ALIAS regions homed on a die. -/
def Repl.mpMiB (r : Repl) (d : Die) : Nat :=
  (r.regions.toList.map fun g =>
    if g.attr.enable && g.attr.mpAlias && g.attr.homeDie == d then (g.limit.toNat - g.base.toNat) / 2 ^ 20 else 0).sum

/-- The logical ways of an increase: 16 − new to 15 − old. -/
def newMill (old new : Nat) : List (Fin 16) := (List.finRange 16).filter fun w => 16 - new ≤ w.val && w.val < 16 - old

/-- A fold begins the sweeps of an increase. A fold in OFF holds nothing to sweep. -/
def Fold.millStart (f : Fold) (old new : Nat) (off : Bool) : Fold :=
  let ws := newMill old new
  let conv := ws.foldl (fun (b : BitVec 16) w => putBit b w.val true) f.poolConv
  let sw := if off then [] else ws.map fun w => ({ way := w, old := f.poolPhys[w], new := f.poolPhys[w], kind := .convert } : PoolSweep)
  { f with poolConv := conv, poolSweep := f.poolSweep ++ sw }

/-- Forget what a physical way holds. -/
def Fold.dropWay (f : Fold) (ph : Nat) : Fold :=
  { f with poolTag := f.poolTag.filter fun e => e.1 % 17 != ph, poolData := f.poolData.filter fun e => e.1 % 17 != ph }

/-- A fold takes a new N: ways returned become invalid cache ways. A copy of one to the standby way becomes the disable
of a cache way that holds nothing. -/
def Fold.millEnd (f : Fold) (new : Nat) : Fold :=
  let back := (List.finRange 16).filter fun w => 16 - f.poolMpWays ≤ w.val && w.val < 16 - new
  let copies := f.poolSweep.filter fun x => x.kind == .millCopy && back.contains x.way
  let f := back.foldl (fun (f : Fold) w => f.dropWay f.poolPhys[w]) f
  let f := copies.foldl (fun (f : Fold) x => f.dropWay x.new) f
  { f with
    poolMpWays := new
    poolConv := 0
    poolSweep := updateWhere (fun x => x.kind == .millCopy && back.contains x.way) (fun x => { x with kind := .disable })
      f.poolSweep }

/-- Wake the folds of a die in RETAIN. -/
def State.wakeRetained (s : State) (d : Die) : State :=
  lfolds.foldl (fun s n => match (s.pad d).repl.pfoldOf d n with
    | some p => if (s.power d p).state == .retain then s.wakeFold d p 0 else s
    | none => s) s

/-- MILLPOND_CONFIG. -/
def State.runMillpondConfig (d : Die) (k : Taken) (s : State) : State :=
  let x := dieAt (k.p 1) 0
  let new := bits (k.p 1) 3 4
  let old := s.mpWays x
  if 8 < new then s.reply d k .badParam
  else
    match s.dieCheck d x with
    | some st => s.reply d k st
    | none =>
      let busy := s.anyDef d fun y => match y with
        | .millpond z _ => z == x
        | _ => false
      let bad := if new < old then decide (new < (s.pad d).repl.mpMiB x)
        else (newMill old new).any fun w => pfolds.any fun p => bitAt ((s.pad x).folds[p]).poolDisabled w.val
      if busy then s.reply d k .busy
      else if bad then s.reply d k .notPermitted
      else
        let s := s.defer d k (.millpond x new)
        if new ≤ old then s
        else
          let s := pfolds.foldl (fun s p =>
            s.modFold x p fun f => f.millStart old new ((s.power x p).state == .off)) s
          s.wakeRetained x

/-- MILLPOND_CONFIG (06 R169). -/
def execMillpondConfig (d : Die) (s : State) : Host.Outcome State Fault Refusal :=
  .next (s.runTaken d 0x32 (State.runMillpondConfig d))

/-- One set of the conversion sweep of each fold of a die; DONE once every sweep has ended. A way that is moving to the
standby way is converted once it has moved. -/
def State.millStep (s : State) (d : Die) : State :=
  let conv (f : Fold) : Option PoolSweep := f.poolSweep.find? fun x => x.kind == .convert
  let free (f : Fold) : Option PoolSweep := f.poolSweep.find? fun x =>
    x.kind == .convert && !(f.poolSweep.any fun y => y.way == x.way && y.kind != .convert)
  let s := pfolds.foldl (fun s p =>
    match free (s.pad d).folds[p] with
    | some x =>
      let s := s.ungate d p
      if (s.pad d).foldRuns p && (s.fc d p).idleNow then s.runFold d p fun c => c.sweepStep x else s
    | none => s) s
  let open' := pfolds.any fun p => (conv (s.pad d).folds[p]).isSome
  let mine (k : DefKind) : Bool := match k with
    | .millpond x _ => x == d
    | _ => false
  match s.findDef mine with
  | some (lead, o) =>
    (match o.kind with
     | .millpond _ new =>
       if open' then s
       else (pfolds.foldl (fun s p => s.modFold d p fun f => f.millEnd new) s).finish lead o.id .done []
     | _ => s)
  | none => s

/-- MILLPOND_CONVERSION (06 R170). -/
def execMillpondConversion (d : Die) (s : State) : Host.Outcome State Fault Refusal := .next (s.millStep d)

/-! ### Scrubbing (12 R316 to R319) -/

/-- Entries of an array (12 R316). -/
def arraySize (a : ArrayKind) : Nat :=
  match a with
  | .tally => 4 * 2048 * 17
  | .emTagA | .emTagB | .emPayload => 8192 * 17
  | .poolTag | .poolData => 4096 * 17
  | .poolSet => 4096
  | .pred => 1024

/-- The array of an ARRAY field. -/
def arrayOf (n : Nat) : ArrayKind :=
  match n with
  | 0 => .tally
  | 1 => .emTagA
  | 2 => .emTagB
  | 3 => .emPayload
  | 4 => .poolTag
  | 5 => .poolData
  | 6 => .poolSet
  | _ => .pred

/-- Give a fold its share of a scrub. -/
def State.scrubStart (s : State) (x : Die) (p : PFold) (w : Word) (a : Option ArrayKind) (next limit : Nat) : State :=
  let y : Scrub := { array := a, next := next, limit := limit, pace := bits w 1 4, lastCycle := 0, record := bitAt w 5 }
  s.modFold x p fun f => { f with scrub := some y }

/-- SCRUB_RANGE. -/
def State.runScrubRange (d : Die) (k : Taken) (s : State) : State :=
  let w := k.p 1
  let busy := s.anyDef d fun y => match y with
    | .scrub _ _ _ _ _ => true
    | _ => false
  if bitAt w 0 then
    let x := dieAt (k.p 2) 0
    let a := arrayOf (bits (k.p 2) 6 3)
    let first := bits (k.p 3) 0 18
    let cnt := bits (k.p 4) 0 18
    if cnt = 0 || arraySize a < first + cnt || 4 < bits (k.p 2) 3 3 then s.reply d k .badParam
    else
      match s.dieCheck d x with
      | some st => s.reply d k st
      | none =>
        if busy then s.reply d k .busy
        else
          (s.scrubStart x (Fin.ofNat 5 (bits (k.p 2) 3 3)) w (some a) first (first + cnt)).defer d k
            (.scrub true 0 (s.pad d).now 0 0)
  else
    let lo := lineOfWords (k.p 2) (k.p 3)
    let hi := lineOfWords (k.p 4) (k.p 5)
    if hi ≤ lo then s.reply d k .badParam
    else if busy then s.reply d k .busy
    else
      let s' := (s.members d).foldl (fun s x => lfolds.foldl (fun s n =>
        match (s.pad x).repl.pfoldOf x n with
        | some p => s.scrubStart x p w none lo hi
        | none => s) s) s
      s'.defer d k (.scrub false 0 (s.pad d).now lo hi)

/-- SCRUB_RANGE (12 R316). -/
def execScrubRange (d : Die) (s : State) : Host.Outcome State Fault Refusal :=
  .next (s.runTaken d 0x20 (State.runScrubRange d))

/-- Check the data of a way; a SUSPECT clean line is fetched again (12 R317). `none`: no miss register is free. -/
def FC.scrubData (c : FC) (set ph : Nat) (l : Option Line) : Option FC :=
  let r := c.f.ptag set ph
  let d := c.f.pdata set ph
  let bad := !r.suspect && !r.poison && r.dcrc != dataCrc d
  if !r.valid then
    if bad then
      let f : Fold := { c.f with poolData := smSet c.f.poolData 0 (set * 17 + ph) 0 }
      some (FC.recFail { c with f := f.ptagPut set ph poolTagDflt } 0x401 none .poolData (set * 17 + ph))
    else some c
  else
    match l with
    | none =>                             -- a Millpond line
      if bad then
        some (FC.recFail { c with f := c.f.ptagPut set ph { r with poison := true, dcrc := dataCrc d } } 0x403 none
          .poolData (set * 17 + ph))
      else some c
    | some l =>
      if r.dirty then some (c.dirtyCheck set ph)
      else if bad || r.suspect then
        match freeMr c.f.mrs with
        | none => none
        | some i =>
          let c := if bad then
              FC.recFail { c with f := c.f.ptagPut set ph { r with suspect := true } } 0x401 (some (lineAddr l)) .poolData
                (set * 17 + ph)
            else c
          let m : MissReg := { idx := i, line := l, cls := 3, wpolicy := (c.repl.attrOf (lineAddr l)).wpolicy
                               touch := false, noWrite := true, scrub := true }
          let c : FC := { c with f := { c.f with mrs := c.f.mrs ++ [m] } }
          some ((c.memPush ⟨.lineRead, 3, l, 0, 0, 0, false, .mr i⟩).ev 0x36)
      else some c

/-- A physical way takes part in a sweep (12 R318). -/
def Fold.swept (f : Fold) (ph : Nat) : Bool := f.poolSweep.any fun y => y.old == ph || y.new == ph

/-- The Earmark entry records something, or may: its payload fails its check. -/
def EmRec.used (r : EmRec) : Bool := !r.dead && (r.payCrc != emPayCrc r.pay || r.pay.toNat % 4 != 0)

/-- Check an Earmark entry by `chk`; one that records nothing and fails takes its reset value (12 R317). -/
def FC.scrubEmWay (c : FC) (i : Nat) (chk : FC → FC) : FC :=
  let r := smGet c.f.em emDflt i
  let plays := c.f.emPlays i
  let c' := chk c
  if c'.reps.length = c.reps.length || (plays && r.used) then c'
  else
    { c' with f := { c'.f with
      em := smSet c'.f.em emDflt i { emDflt with nru := r.nru }
      emSuspect := if plays then c'.f.emSuspect else c.f.emSuspect } }

/-- Check both tag copies and the payload of every way of an Earmark set, as a scrub read does (12 R317). -/
def FC.scrubEmSet (c : FC) (set : Nat) : FC :=
  (List.range 17).foldl (fun c ph =>
    if c.f.emPlays (set * 17 + ph) then c.scrubEmWay (set * 17 + ph) fun c => (c.emTagCheck set ph).emPayCheck set ph
    else c) c

/-- Check everything that a lookup of a line would check (12 R317): none where the read waits, for the block of the line
or a rebuild in its Tally row. -/
def FC.scrubLine (c : FC) (l : Line) : Option FC :=
  let row := c.k.rowOfLine l
  if c.blocked l || c.f.fixes.any (fun x => x.row == row) then none
  else
    let mp := c.repl.mpSlot (lineAddr l)
    let set := match mp with
      | some m => m.1
      | none => poolSet l
    let c := c.tallyFix row (c.tallyBad l)
    let c := (c.scrubEmSet (emSet l)).poolCheckBut (fun ph => c.f.swept ph) set
    match c.holdingWay (lineAddr l) with
    | some x =>
      if c.f.swept x.2 then some c
      else c.scrubData x.1 x.2 (if mp.isSome then none else some l)
    | none => some c

/-- The transactions that block the Millpond line of a set in a logical way. -/
def FC.millBlocked (c : FC) (set w : Nat) : Bool := c.f.tt.any fun e => e.blocks && e.mpSlot == some (set, w)

/-- The line of a Pool way is blocked: its tag entry is good and valid, or the way holds Millpond. -/
def FC.wayBlocked (c : FC) (set ph : Nat) : Bool :=
  let r := c.f.ptag set ph
  match (List.finRange 16).find? fun w => c.f.poolPhysAt set w == some ph with
  | some w => if c.f.isCacheWay set w then r.ok && r.valid && c.blocked (lineOfPool c.n set r.tag) else c.millBlocked set w.val
  | none => false

/-- Check one entry of the Tally array: used, it is checked as in a lookup; an entry that nothing uses takes its reset
value (12 R317). None where the read waits. -/
def FC.scrubTally (c : FC) (i : Nat) : Option FC :=
  let g : GateN := Fin.ofNat 4 (i / 17 / 2048)
  let row := i / 17 % 2048
  let r := smGet c.f.tally tallyDflt i
  match (List.range c.k.ways).find? fun w => c.k.hasGate c.die g.val && c.f.tallyKey g row w == i with
  | some w =>
    if c.fixing g row w || (r.ok && r.st != 0 && c.blocked (c.k.lineOfTally c.n row r.tag)) then none
    else if r.ok then some c
    else some (c.tallyFix row [(g, w)])
  | none =>
    if r.ok then some c
    else some (FC.recFail { c with f := { c.f with tally := smSet c.f.tally tallyDflt i tallyDflt } } 0x201 none .tally i)

/-- Check one entry of an array of Earmark by `chk` (12 R317); none where the read waits. -/
def FC.scrubEm (c : FC) (i : Nat) (chk : FC → FC) : Option FC :=
  let r := smGet c.f.em emDflt i
  if c.f.emPlays i && r.used && c.blocked (lineOfEm c.n (i / 17) r.tagA) then none else some (c.scrubEmWay i chk)

/-- Check one entry of an array (12 R317, R318); none where the read waits. -/
def FC.scrubEntry (c : FC) (a : ArrayKind) (i : Nat) : Option FC :=
  let set := i / 17
  let ph := i % 17
  match a with
  | .tally => c.scrubTally i
  | .emTagA | .emTagB => c.scrubEm i fun c => c.emTagCheck set ph
  | .emPayload => c.scrubEm i fun c => c.emPayCheck set ph
  | .poolTag => if c.f.swept ph then some c else if c.wayBlocked set ph then none else some (c.poolCheckOne set ph)
  | .poolData =>
    if c.f.swept ph then some c
    else if c.wayBlocked set ph then none
    else
      let c := c.poolCheckOne set ph
      let mill := !((List.finRange 16).any fun w => c.f.isCacheWay set w && c.f.poolPhysAt set w == some ph)
      c.scrubData set ph (if mill then none else some (lineOfPool c.n set (c.f.ptag set ph).tag))
  | .poolSet => some (c.poolSetCheck i)
  | .pred => some (c.predRead i c.atype).1

/-- The failing record stands in what the scrub read of a line covers. -/
def FC.lineCovers (c : FC) (l : Line) (x : Found) : Bool :=
  let set := match c.repl.mpSlot (lineAddr l) with
    | some m => m.1
    | none => poolSet l
  match x.arr with
  | .tally => x.idx / 17 % 2048 == c.k.rowOfLine l
  | .emTagA | .emTagB | .emPayload => x.idx / 17 == emSet l
  | .poolTag | .poolData => x.idx / 17 == set
  | .poolSet => x.idx == set
  | .pred => false

/-- The failing record is the entry of an array. -/
def Found.isEntry (x : Found) (a : ArrayKind) (i : Nat) : Bool := wayArray x.arr == wayArray a && x.idx == i

/-- The failures that a scrub read of this cycle found, with those of lookups in the same cycle of what it reads
(12 R318). -/
def FC.foundBy (c : FC) (f : Found → Bool) : List Found := c.f.found.filter fun x => x.cyc == c.cyc && f x

/-- The counts of a scrub read that found `l` (12 R319). -/
def Scrub.count (x : Scrub) (l : List Found) (now place : Nat) : Scrub :=
  let uc := (l.filter fun r => r.uc).length
  { x with
    checked := x.checked + 1
    ce := x.ce + (l.length - uc)
    uc := x.uc + uc
    firstBad := if l.isEmpty then x.firstBad else some (x.firstBad.getD (now, place)) }

/-- The next line of a physical scrub that is homed at this fold, at most `fuel` lines on; else where to go on. -/
def FC.scrubNext (c : FC) (n limit fuel : Nat) : Nat × Bool :=
  match fuel with
  | 0 => (n, false)
  | m + 1 =>
    if limit ≤ n then (n, false)
    else if c.repl.home (lineAddr (BitVec.ofNat 46 n)) == c.agent then (n, true)
    else c.scrubNext (n + 1) limit m

/-- The bank rows of a scrub's findings, where RECORD is set (12 R316, R329): array, bank and row. -/
def scrubRecord (x : Scrub) (l : List Found) : List (Nat × Nat × Nat) :=
  if x.record then (l.map fun y => (y.arr.no, (Config.bankOf y.arr.no y.idx).1.toNat, (Config.bankOf y.arr.no y.idx).2.toNat)).eraseDups
  else []

/-- One scrub read of a fold with its scrub put back; the pending row tests it records. -/
def FC.scrubStep (c : FC) (x : Scrub) (off : Bool) : FC × List (Nat × Nat × Nat) :=
  let put (c : FC) (x : Scrub) : FC :=
    let x := { x with done := decide (x.limit ≤ x.next), lastCycle := c.cyc }
    { c with f := { c.f with scrub := some x } }
  let took (c' : Option FC) (at' : Nat) (f : Found → Bool) : FC × List (Nat × Nat × Nat) :=
    match c' with
    | none => (c, [])
    | some c' =>
      let l := c'.foundBy f
      (put c' { x.count l c.now at' with next := at' + 1 }, scrubRecord x l)
  match x.array with
  | some a =>
    if off then (put c { x with next := x.next + 1, checked := x.checked + 1 }, [])
    else took ((c.ev 0x35).scrubEntry a x.next) x.next fun y => y.isEntry a x.next
  | none =>
    let t := c.scrubNext x.next x.limit 64
    let l : Line := BitVec.ofNat 46 t.1
    if !t.2 then (put c { x with next := t.1 }, [])
    else if off then (put c { x with next := t.1 + 1, checked := x.checked + 1 }, [])
    else took ((c.ev 0x35).scrubLine l) t.1 (c.lineCovers l)

/-- SCRUB_READ: the fold's next scrub read, within PACE and in a slot in which no pen item is eligible. -/
def State.scrubReadAt (s : State) (d : Die) (p : PFold) : State :=
  match ((s.pad d).folds[p]).scrub with
  | none => s
  | some x =>
    let pw := s.power d p
    let off := pw.state == .off && pw.waking.isNone
    if x.done || !(s.pad d).running then s
    else if pw.state == .retain then s.wakeFold d p 0
    else if !off && x.lastCycle != 0 && decide ((s.pad d).aon.hcycle < x.lastCycle + 2 ^ x.pace) then s
    else
      let s := if off then s else s.ungate d p
      if !off && (!(s.pad d).foldRuns p || !(s.fc d p).idleNow) then s
      else
        let r := (s.fc d p).scrubStep x off
        r.2.foldl (fun s y => s.pendingRow d (hurdleRec 7 d p.val y.1 y.2.1 y.2.2 0 (s.pad d).hours)) (s.putFc r.1)

/-- SCRUB_READ (12 R317). -/
def execScrubRead (d : Die) (p : PFold) (s : State) : Host.Outcome State Fault Refusal := .next (s.scrubReadAt d p)

/-- The scrubs of the Range. -/
def State.scrubs (s : State) : List Scrub :=
  dies.flatMap fun d => (s.pad d).folds.toList.filterMap fun f => f.scrub

/-- The leader's share of a scrub: lines homed on absent dies, page by page, then the summary of 12 R319. -/
def State.scrubWork (s : State) (lead : Die) (id : Nat) (array : Bool) (skipped tide next limit : Nat) : State :=
  if next < limit then
    let stop := min limit (next / 64 * 64 + 64)
    let away := !s.member lead ((s.pad lead).repl.homeDie (lineAddr (BitVec.ofNat 46 next)))
    s.modDef lead id fun _ => .scrub array (if away then skipped + (stop - next) else skipped) tide stop limit
  else if s.scrubs.all fun x => x.done then
    let l := s.scrubs
    let total (f : Scrub → Nat) : Word := countWord ((l.map f).sum)
    let first := leastBy (fun (x : Nat × Nat) => x.1) (l.filterMap fun x => x.firstBad)
    let dur := BitVec.ofNat 64 ((s.pad lead).now - tide)
    let place := match first with
      | some (_, n) => if array then [BitVec.ofNat 32 n, 0x80000000]
        else [addrLo (lineAddr (BitVec.ofNat 46 n)), addrHi (lineAddr (BitVec.ofNat 46 n)) ||| 0x80000000]
      | none => [Config.openWord s.fresh, Config.openWord (s.fresh + 1) &&& 0x7FFFFFFF]
    let clear (f : Fold) : Fold := { f with scrub := none }
    let s' := s.modPads fun _ q => { q with folds := q.folds.map clear }
    let data := [total fun x => x.checked, total fun x => x.ce, total fun x => x.uc, countWord skipped] ++ place ++ words64 dur
    let s' := s'.finish lead id (if skipped = 0 then .done else .partial') data
    { s' with fresh := s.fresh + 2 }
  else s

end Sys2Proof.Machine
end

