-- ==== Sys2Proof/Machine/FoldRegs.lean ====
section
/-!
DEFINITION. The registers of a physical fold's window (03 R97 to R99, 04 R128 to R132, 06 R175 to R180, 07 R196 to R198,
12 R341) and of its Census block (17 R464).
-/

namespace Sys2Proof.Machine

/-! ### Sequencer (03 R97 to R99) -/

/-- FOLD_SEQ_STAT (03 R98). -/
def Fold.seqStat (f : Fold) : Word :=
  word [(0, f.tt.length), (10, f.pens.length), (22, f.shadow.length), (29, bit (decide (512 - f.tt.length ≤ 16))),
        (30, bit (decide (f.shadow.length = 64))), (31, bit (f.tt.any fun e => e.phase == .orphan))]

/-- FOLD_SEQ_ORPH (03 R99): the entry in ORPHAN allocated first. -/
def Fold.seqOrph (f : Fold) : Word :=
  match leastBy (fun e : TTEntry => e.seq) (f.tt.filter fun e => e.phase == .orphan) with
  | some e => word [(0, e.idx.val), (9, e.waits.length)]
  | none => 0

/-! ### Tally and Earmark (04 R128 to R132) -/

/-- TALLY_CFG (04 R128). -/
def FC.tallyCfg (c : FC) : Word :=
  word [(0, c.k.sets.toNat), (2, c.k.ways), (7, c.k.gates[c.die].toNat),
        (11, bit ((List.finRange 16).any fun l => decide (l.val < c.k.ways) && c.f.tallyPhys[l] != l.val))]

/-- TALLY_STAT (04 R129). -/
def FC.tallyStat (c : FC) : Word :=
  word [(0, c.f.recomputes.toNat), (16, bit (!c.f.unsure.isEmpty && decide (c.now < c.f.unsureEnd)))]

/-- Earmark ways in SHR, EXC or MUS, those of the logical ways in service. -/
def Fold.emUsed (f : Fold) : List EmRec :=
  f.em.filterMap fun e => if !e.2.dead && e.2.pay.toNat % 4 != 0 && f.emPlays e.1 then some e.2 else none

/-- EARMARK_OCC (04 R130). -/
def Fold.emOcc (f : Fold) : Word := BitVec.ofNat 32 f.emUsed.length

/-- EARMARK_MUS (04 R130). -/
def Fold.emMus (f : Fold) : Word := BitVec.ofNat 32 ((f.emUsed.filter fun e => e.pay.toNat % 4 == 3).length)

/-- EARMARK_SUSPECT (04 R131). -/
def Fold.emSuspectWord (f : Fold) : Word := word [(0, f.emSuspect.length), (14, bit (!f.emSuspect.isEmpty))]

/-! ### Pool (06 R175 to R180) -/

/-- POOL_CFG (06 R176). -/
def Fold.poolCfg (f : Fold) : Word :=
  word [(0, f.poolMpWays), (4, bit (f.poolSpareFor != 31)), (5, f.poolDisabled.toNat), (21, f.poolSpareFor.toNat)]

/-- POOL_STAT (06 R177). -/
def Fold.poolStat (f : Fold) : Word :=
  word [(0, f.mrs.length), (8, f.eddy.length), (14, bit (decide (f.eddy.length = 32))), (15, bit (!f.poolSweep.isEmpty))]

/-- POOL_SUSPECT (06 R178). -/
def Fold.poolSuspectWord (f : Fold) : Word :=
  let n := (f.poolTag.filter fun e => e.2.valid && e.2.suspect).length
  word [(0, n), (17, bit (decide (0 < n)))]

/-- POOL_LOST (06 R179). -/
def Fold.poolLostWord (f : Fold) : Word :=
  word [(0, f.poolLost.min?.getD 0), (12, f.poolLost.length), (25, bit (!f.poolLost.isEmpty))]

/-- The stamps of a physical Pool way within 24 h (06 R162, R180). -/
def FC.wayRecent (c : FC) (ph : Nat) : Nat :=
  match c.fails.find? fun x => x.unit == c.p.val && x.array == .poolData && x.way == ph with
  | some x => (x.stamps.filter fun t => decide (c.now < t + dayNs)).length
  | none => 0

/-- POOL_WAYFAIL of a physical way (06 R180). -/
def FC.poolWayFail (c : FC) (ph : Nat) : Word :=
  let plays : Nat :=
    match (List.finRange 16).find? fun w => c.f.poolPhys[w] == ph && !bitAt c.f.poolDisabled w.val with
    | some w => w.val
    | none => if ph = 16 && !bitAt c.f.poolOut 16 && c.f.poolSpareFor == 31 then 16 else 17
  word [(0, c.wayRecent ph), (3, bit (plays == 17)), (4, plays)]

/-! ### Bellwether (07 R196 to R198) -/

/-- BW_STAT (07 R197). -/
def Fold.bwStat (f : Fold) : Word := BitVec.ofNat 32 ((f.pred.filter fun e => decide (4 ≤ e.2.ctr.toNat)).length)

/-- A read of BW_PEEK (07 R198): the entry is captured; one that fails its check is reset and files 0x501. -/
def FC.bwPeek (c : FC) : FC × Word :=
  let i := c.f.peekIdx.toNat
  let e := smGet c.f.pred predDflt i
  let r := c.predRead i 0x3E
  let bad := decide (c.reps.length < r.1.reps.length)
  let w := word [(0, e.ctr.toNat), (3, bit e.valid), (4, bit e.near), (5, e.src.toNat), (15, bit bad)]
  let tell (x : Report) : Report := { x with detail := BitVec.ofNat 16 i }
  let c : FC := { r.1 with reps := c.reps ++ (r.1.reps.drop c.reps.length).map tell }
  ({ c with f := { c.f with peek := w.extractLsb' 0 16, peekStamp := e.stamp.extractLsb' 0 32 } }, w)

/-! ### Reads and writes of the window -/

/-- DROVER_STAT (12 R341). -/
def Fold.droverStat (f : Fold) : Word :=
  let busy := match f.scrub with
    | some x => !x.done
    | none => false
  word [(0, bit f.drover.pass), (1, f.drover.firstBad.toNat), (7, f.drover.checker.toNat), (11, bit busy)]

/-- The offsets of a fold window that hold a register (18 R469). -/
def foldLaid (off : Nat) : Bool :=
  [0x0000, 0x0010, 0x0014, 0x1000, 0x1010, 0x2010, 0x2014, 0x2018, 0x2020, 0x3000, 0x3004, 0x3010, 0x3014, 0x3018,
   0x4000, 0x4010, 0x4020, 0x4024, 0x4028, 0x5000].contains off
    || (decide (0x3100 ≤ off) && decide (off ≤ 0x3140) && off % 4 == 0)

/-- Read a register of a fold's window. -/
def FC.regRead (c : FC) (off : Nat) : FC × Word :=
  let f := c.f
  if off = 0x0000 then (c, word [(0, bit f.orderedEn), (1, bit f.drain)])
  else if off = 0x0010 then (c, f.seqStat)
  else if off = 0x0014 then (c, f.seqOrph)
  else if off = 0x1000 then (c, c.tallyCfg)
  else if off = 0x1010 then (c, c.tallyStat)
  else if off = 0x2010 then (c, f.emOcc)
  else if off = 0x2014 then (c, f.emMus)
  else if off = 0x2018 then (c, f.emSuspectWord)
  else if off = 0x2020 then (c, f.emBinv)
  else if off = 0x3000 then (c, word [(0, bit f.pfEn)])
  else if off = 0x3004 then (c, f.poolCfg)
  else if off = 0x3010 then (c, f.poolStat)
  else if off = 0x3014 then (c, f.poolSuspectWord)
  else if off = 0x3018 then (c, f.poolLostWord)
  else if 0x3100 ≤ off && off ≤ 0x3140 then (c, c.poolWayFail ((off - 0x3100) / 4))
  else if off = 0x4010 then (c, f.bwStat)
  else if off = 0x4020 then (c, BitVec.ofNat 32 f.peekIdx.toNat)
  else if off = 0x4024 then c.bwPeek
  else if off = 0x4028 then (c, f.peekStamp)
  else if off = 0x5000 then (c, f.droverStat)
  else (c, 0)

/-- Write a register of a fold's window. -/
def FC.regWrite (c : FC) (off : Nat) (v : Word) : FC :=
  if off = 0x0000 then { c with f := { c.f with orderedEn := bitAt v 0 } }
  else if off = 0x3000 then { c with f := { c.f with pfEn := bitAt v 0 } }
  else if off = 0x4000 then (if bitAt v 0 then { c with f := { c.f with pred := [] } } else c)
  else if off = 0x4020 then { c with f := { c.f with peekIdx := v.extractLsb' 0 10 } }
  else c

/-! ### The Census block (17 R464) -/

/-- The offsets of a fold's Census block that hold a register. -/
def foldCensusLaid (off : Nat) : Bool :=
  off % 4 == 0 && (decide (off ≤ 0x04) || (decide (0x10 ≤ off) && decide (off ≤ 0x2C))
    || (decide (0x40 ≤ off) && decide (off ≤ 0xA4)))

/-- The counter at an offset below 0x80 of a fold's Census block: its number among the captures, and its value. -/
def FoldCensus.wide (x : FoldCensus) (off : Nat) : Fin 13 × Nat :=
  if off < 0x10 then (0, x.cycle.toNat)
  else if off < 0x40 then
    let k : Fin 4 := Fin.ofNat 4 ((off - 0x10) / 8)
    (Fin.ofNat 13 (1 + k.val), (x.slot[k]).toNat)
  else
    let k : Fin 8 := Fin.ofNat 8 ((off - 0x40) / 8)
    (Fin.ofNat 13 (5 + k.val), (x.ctr[k]).val.toNat)

/-- Read a register of a fold's Census block; a _LO read captures its _HI half. -/
def FoldCensus.regRead (x : FoldCensus) (off : Nat) : FoldCensus × Word :=
  if off ≤ 0x7C then
    let w := x.wide off
    if off % 8 = 0 then ({ x with hi := vset x.hi w.1 (BitVec.ofNat 32 (w.2 / 2 ^ 32)) }, BitVec.ofNat 32 w.2)
    else (x, x.hi[w.1])
  else if off ≤ 0x9C then
    let n := x.ctr[(Fin.ofNat 8 ((off - 0x80) / 4))]
    (x, word [(0, n.sel.toNat), (7, bit n.en)])
  else if off = 0xA0 then (x, BitVec.ofNat 32 x.ovf.toNat)
  else (x, 0)

/-- Zero the counters of a fold's bank. -/
def FoldCensus.zero (x : FoldCensus) : FoldCensus :=
  { x with cycle := 0, slot := Vector.replicate 4 0, ctr := x.ctr.map fun c => { c with val := 0 } }

/-- Write a register of a fold's Census block. -/
def FoldCensus.regWrite (x : FoldCensus) (off : Nat) (v : Word) : FoldCensus :=
  if 0x80 ≤ off && off ≤ 0x9C then
    let i : Fin 8 := Fin.ofNat 8 ((off - 0x80) / 4)
    let sel : BitVec 6 := v.extractLsb' 0 6
    { x with
      selchg := x.selchg || (x.ctr[i]).sel != sel
      ctr := vmod x.ctr i fun c => { c with sel := sel, en := bitAt v 7 } }
  else if off = 0xA0 then { x with ovf := x.ovf &&& ~~~(v.extractLsb' 0 13) }
  else if off = 0xA4 then (if bitAt v 0 then x.zero else x)
  else x

end Sys2Proof.Machine
end

