-- ==== Sys2Proof/Machine/FoldPower.lean ====
section
/-!
DEFINITION. Fold power states and moves: FOLD_POWER and its drains (14 R367 to R370), FOLD_SPARE_IN, FOLD_RETIRE and
the Race switch (12 R324 to R327).
-/

namespace Sys2Proof.Machine

/-! ### What is in progress -/

/-- The deferred command is a move of a logical fold of a die. -/
def DefKind.isMove (k : DefKind) (d : Die) : Bool :=
  match k with
  | .move m => m.d == d
  | _ => false

/-- The deferred command is a fence of a die. -/
def DefKind.isFence (k : DefKind) (d : Die) : Bool :=
  match k with
  | .fence x _ => x == d
  | _ => false

/-- The deferred command is a join of a die. -/
def DefKind.isJoin (k : DefKind) (d : Die) : Bool :=
  match k with
  | .join x _ => x == d
  | _ => false

/-- The deferred command is a MILLPOND_CONFIG of a die. -/
def DefKind.isMill (k : DefKind) (d : Die) : Bool :=
  match k with
  | .millpond x _ => x == d
  | _ => false

/-- The deferred command takes a logical fold to RETAIN or OFF. -/
def DefKind.isPark (k : DefKind) (d : Die) (n : LFold) : Bool :=
  match k with
  | .foldPower x m t => x == d && m == n && (t == .retain || t == .off)
  | _ => false

/-- The move in progress that brings physical fold q of a die in, or takes p out. -/
def State.moveOf (s : State) (f : FoldMove → Bool) : Option (Die × Nat × FoldMove) :=
  match s.findDef fun k => match k with
    | .move m => f m
    | _ => false with
  | some (lead, o) => (match o.kind with
      | .move m => some (lead, o.id, m)
      | _ => none)
  | none => none

/-! ### The fold map (12 R324 to R327) -/

/-- Change the fold map of a position in every copy (12 R327). -/
def State.modFoldmap (s : State) (d : Die) (f : FoldMap → FoldMap) : State :=
  s.modPads fun _ q => { q with repl := { q.repl with foldmap := vmod q.repl.foldmap d f } }

/-- The Race switch connects channel group n to physical fold q as the fold map takes it: the credits of the new connection
start at their initial values (12 R324, 19 R511). -/
def State.raceTo (s : State) (d : Die) (n : LFold) (q : PFold) : State :=
  (s.modFold d q fun f => { f with rcred := s.krovol.rcred, wcred := s.krovol.wcred }).modFoldmap d fun x =>
    { x with pfold := vset x.pfold n q, vacant := putBit x.vacant n.val false }

/-- Set a bit of HURDLE_STAT's exhausted classes (12 R337). -/
def State.exhaust (s : State) (d : Die) (b : Nat) : State :=
  (s.modPad d fun q => { q with hurdle := { q.hurdle with exh := putBit q.hurdle.exh b true } }).recheckDue d

/-- A physical fold is marked failed (12 R315, R327); where no standby is left, the class of folds is exhausted. -/
def State.failFold (s : State) (d : Die) (p : PFold) : State :=
  let s := s.modFoldmap d fun m => { m with failed := putBit m.failed p.val true }
  if ((s.pad d).repl.foldmap[d]).standby.isNone then s.exhaust d 4 else s

/-- A physical fold is marked failed, with its record. -/
def State.markFailed (s : State) (d : Die) (p : PFold) : State :=
  (s.failFold d p).hurdleAppend d (hurdleRec 4 d p.val 0 0 0 0 (s.pad d).hours)

/-- A report of a paddock's Hurdle about a physical fold (12 R337, 13 R344). -/
def State.foldRep (s : State) (d : Die) (p : PFold) (code : Nat) : State :=
  let a := match (s.pad d).repl.carries d p with
    | some n => foldAgent d n
    | none => agent d 68
  s.file d { code := BitVec.ofNat 12 code, reporter := a, subject := a, atype := 0x3E, t := (s.pad d).now
             detail := BitVec.ofNat 16 p.val }

/-! ### Drains (14 R369) -/

/-- Start the drain of a fold towards RETAIN or OFF. -/
def State.startDrain (s : State) (d : Die) (p : PFold) (t : FoldState) : State :=
  let s := s.modPower d p fun x => { x with state := .drain, target := t, gated := false, waking := none }
  let s := s.modFold d p fun f => { f with refuseReq := true }
  if t == .off then s.addJob d (drainJob d p) (s.fc d p).recorded else s

/-- A fold holds no work: no pen item, entry, shadow entry, miss register, Eddy entry, memory request or Tally entry
being rebuilt. -/
def Fold.quiet (f : Fold) : Bool :=
  f.pens.isEmpty && f.tt.isEmpty && f.shadow.isEmpty && f.mrs.isEmpty && f.eddy.isEmpty && f.memQ.isEmpty
    && f.mpOpen.isEmpty && f.fixes.isEmpty

/-- The fold's lines are out of every cache and of its Pool cache ways. -/
def State.emptied (s : State) (d : Die) (p : PFold) (j : Nat) : Bool :=
  !s.jobOpen j && (s.fc d p).recorded.isEmpty && ((s.pad d).folds[p]).cacheLines.isEmpty

/-- FOLD_DRAIN_COMPLETE: the Shepherd sets DRAIN and Ebb fences the ford. -/
def State.drained (s : State) (d : Die) (p : PFold) : State :=
  let x := s.power d p
  let f := (s.pad d).folds[p]
  if x.state == .drain && !f.drain && f.quiet && (x.target != .off || s.emptied d p (drainJob d p)) then
    (s.modFold d p fun f => { f with drain := true }).fenceFold d p
  else s

/-- FOLD_DRAIN_COMPLETE (14 R369). -/
def execFoldDrainComplete (d : Die) (p : PFold) (s : State) : Host.Outcome State Fault Refusal := .next (s.drained d p)

/-- FENCE_ACK: a fenced ford has nothing left to inject or hand over, and the culvert takes its place (09 R250); the FL of
a fold goes off. -/
def State.fenceDone (s : State) (d : Die) (pos : Fin 16) : State :=
  let q := s.pad d
  if q.running && bitAt q.ebb.fenceReq pos.val && !bitAt q.ebb.fenceAck pos.val
      && !(q.stream.inj.any fun i => i.pos == pos.val && !i.held) && !(q.stream.hand.any fun h => h.pos == pos) then
    let s := s.modEbb d fun e => { e with
      fenceAck := putBit e.fenceAck pos.val true, culvertEn := putBit e.culvertEn pos.val true }
    match posFold pos.val with
    | some p => s.domOffReq d (domFL p)
    | none => s
  else s

/-- A wake that FOLD_POWER to RUN or DOZE asked for behind a drain. -/
def State.wakeAsked (s : State) (d : Die) (n : LFold) : Option FoldState :=
  match s.findDef fun k => match k with
    | .foldPower x m t => x == d && m == n && (t == .run || t == .doze)
    | _ => false with
  | some (_, o) => (match o.kind with
      | .foldPower _ _ t => some t
      | _ => none)
  | none => none

/-- Finish the deferred commands of every leader that satisfy `f`. -/
def State.finishAll (s : State) (f : DefKind → Bool) (st : Status) : State :=
  s.leaders.foldl (fun s l =>
    ((s.pad l).shep.deferred.filter fun o => f o.kind).foldl (fun s o => s.finish l o.id st []) s) s

/-- A fold reached RETAIN or OFF: its command is answered; a held wake and a FOLD_POWER behind the drain act (14 R370,
15 R417). A fold that was drained because a loaded record marks it failed leaves its logical fold vacant (12 R334, R337). -/
def State.parked (s : State) (d : Die) (p : PFold) : State :=
  let x := s.power d p
  let s := s.modPower d p fun x => { x with state := x.target, heldWake := false }
  match (s.pad d).repl.carries d p with
  | none => s
  | some n =>
    let s := s.finishAll (fun k => k.isPark d n) .done
    if bitAt ((s.pad d).repl.foldmap[d]).failed p.val then
      let s := s.modFoldmap d fun m => { m with vacant := putBit m.vacant n.val true }
      s.finishAll (fun k => match k with
        | .foldPower x m _ => x == d && m == n
        | _ => false) .failed
    else
      let s := if x.heldWake then s.modPower d p fun y => { y with target := .doze, woken := true } else s
      match s.wakeAsked d n with
      | some t => (s.modPower d p fun y => { y with target := t }).startWake d p
      | none => if x.heldWake then s.startWake d p else s

/-! ### FOLD_POWER (14 R368) -/

/-- The fold power state of a STATE field; none where it is reserved. -/
def foldStateOf (n : Nat) : Option FoldState :=
  match n with
  | 0 => some .run
  | 1 => some .doze
  | 3 => some .retain
  | 4 => some .off
  | _ => none

/-- A C0 region whose envelope holds has lines at a fold of a die. -/
def State.homesC0 (s : State) (lead d : Die) : Bool :=
  let v := s.envNow lead
  (List.range 65).any fun n => match v.r.c0Region n with
    | some a => !v.bad n && (v.homes a).contains d
    | none => false

/-- The refusals of 11 R301 and 06 R174. -/
def State.powerRefused (s : State) (lead d : Die) (p : PFold) (t : FoldState) : Bool :=
  match t with
  | .run | .drain => false
  | .doze => envRefuses (s.envNow lead) ((s.modPower d p fun x => { x with target := .doze }).envNow lead)
  | .retain => s.homesC0 lead d
  | .off => s.homesC0 lead d || decide (0 < (s.pad lead).repl.mpMiB d)

/-- Give a fold that is not draining its target. -/
def State.setTarget (s : State) (d : Die) (p : PFold) (t : FoldState) : State :=
  let x := s.power d p
  let up := x.state == .run || x.state == .doze
  if up && (t == .retain || t == .off) then s.startDrain d p t
  else
    let s := s.modPower d p fun x => { x with target := t }
    if up then (if t == .run then s.ungate d p else s)
    else if x.state == t && x.waking.isNone then s.parked d p
    else s.startWake d p

/-- A physical fold that carries logical fold n is marked failed and no standby is left (12 R334, R337): 0xB10, and the
fold is drained to OFF, where its logical fold becomes vacant. -/
def State.vacate (s : State) (d : Die) (p : PFold) : State :=
  ((((s.failFold d p).foldRep d p 0xB10).exhaust d 4).setTarget d p .off)

/-- FOLD_POWER. -/
def State.runFoldPower (d : Die) (k : Taken) (s : State) : State :=
  let x := dieAt (k.p 1) 0
  let n : LFold := Fin.ofNat 4 (bits (k.p 1) 3 2)
  match foldStateOf (bits (k.p 1) 5 3), s.dieCheck d x with
  | none, _ => s.reply d k .badParam
  | some _, some st => s.reply d k st
  | some t, none =>
    match (s.pad d).repl.pfoldOf x n with
    | none => s.reply d k .notPresent
    | some p =>
      let park := t == .retain || t == .off
      let draining := (s.power x p).state == .drain || s.anyDef d fun y => y.isPark x n
      if s.powerRefused d x p t then s.reply d k .notPermitted
      else if s.anyDef d (fun y => y.isMove x || y.isFence x || y == .nightfold) || (draining && park) then s.reply d k .busy
      else if draining then s.defer d k (.foldPower x n t)
      else if park then (s.defer d k (.foldPower x n t)).setTarget x p t
      else ((s.setTarget x p t).envChanged d).reply d k .done

/-- FOLD_POWER (14 R368). -/
def execFoldPower (d : Die) (s : State) : Host.Outcome State Fault Refusal :=
  .next (s.runTaken d 0x10 (State.runFoldPower d))

/-! ### The standby fold (12 R324 to R327) -/

/-- A logical fold may not go to a physical fold because its Millpond ways would find no place (12 R326, R327). -/
def State.millBlocked (s : State) (lead d : Die) (q : PFold) : Bool :=
  decide (0 < (s.pad lead).repl.mpMiB d)
    && (newMill 0 (s.mpWays d)).any fun w => bitAt ((s.pad d).folds[q]).poolDisabled w.val

/-- Accept a move of logical fold n to physical fold q: step 1, q is brought up. -/
def State.startMove (s : State) (d : Die) (k : Taken) (m : FoldMove) : State :=
  (s.defer d k (.move m)).bringUp m.d m.dst

/-- Operations that make a fold move of a die wait (12 R326). -/
def State.moveBusy (s : State) (lead d : Die) : Bool :=
  s.anyDef lead fun y => y.isMove d || y.isJoin d || y.isFence d || y.isMill d

/-- FOLD_SPARE_IN. -/
def State.runFoldSpareIn (d : Die) (k : Taken) (s : State) : State :=
  let x := dieAt (k.p 1) 0
  let n : LFold := Fin.ofNat 4 (bits (k.p 1) 3 2)
  let t := bits (k.p 1) 5 3
  if t != 4 && t != n.val then s.reply d k .badParam
  else
    match s.dieCheck d x with
    | some st => s.reply d k st
    | none =>
      let q : PFold := Fin.ofNat 5 t
      let r := (s.pad d).repl
      let m := r.foldmap[x]
      if (r.carries x q).isSome || bitAt m.failed q.val || s.millBlocked d x q then s.reply d k .notPermitted
      else if s.moveBusy d x then s.reply d k .busy
      else s.startMove d k { d := x, n := n, src := m.pfold[n], dst := q, retire := false, vacant := bitAt m.vacant n.val }

/-- FOLD_SPARE_IN (12 R326). -/
def execFoldSpareIn (d : Die) (s : State) : Host.Outcome State Fault Refusal :=
  .next (s.runTaken d 0x12 (State.runFoldSpareIn d))

/-- FOLD_RETIRE. -/
def State.runFoldRetire (d : Die) (k : Taken) (s : State) : State :=
  let x := dieAt (k.p 1) 0
  if 4 < bits (k.p 1) 3 3 then s.reply d k .badParam
  else
    match s.dieCheck d x with
    | some st => s.reply d k st
    | none =>
      let p : PFold := Fin.ofNat 5 (bits (k.p 1) 3 3)
      let m := (s.pad d).repl.foldmap[x]
      if bitAt m.failed p.val then s.reply d k .done
      else
        match (s.pad d).repl.carries x p with
        | none => ((s.markFailed x p).foldRep x p 0xB10).reply d k .done
        | some n =>
          match m.standby with
          | none => s.reply d k .notPermitted
          | some q =>
            if (q != 4 && q.val != n.val) || s.millBlocked d x q then s.reply d k .notPermitted
            else if s.moveBusy d x then s.reply d k .busy
            else s.startMove d k { d := x, n := n, src := p, dst := q, retire := true }

/-- FOLD_RETIRE (12 R327). -/
def execFoldRetire (d : Die) (s : State) : Host.Outcome State Fault Refusal :=
  .next (s.runTaken d 0x11 (State.runFoldRetire d))

/-- Change the move of a deferred command. -/
def State.modMove (s : State) (lead : Die) (id : Nat) (f : FoldMove → FoldMove) : State :=
  s.modDef lead id fun k =>
    match k with
    | .move m => .move (f m)
    | k => k

/-- Steps 2 and 3 of a move begin: the ford of the fold left refuses requests, and its lines are swept. -/
def State.moveSweep (s : State) (lead : Die) (id : Nat) (m : FoldMove) : State :=
  let s := s.modMove lead id fun m => { m with step := 2 }
  let s := s.modFold m.d m.src fun f => { f with refuseReq := true, millDirty := [] }
  let s := s.addJob m.d (jobOf id) (s.fc m.d m.src).recorded
  s.modPad m.d fun q => { q with hurdle := { q.hurdle with switching := q.hurdle.switching ++ [m.n] } }

/-- A move ends; one for a loaded record has no reply. -/
def State.endMove (s : State) (lead : Die) (id : Nat) (m : FoldMove) (st : Status) : State :=
  if m.silent then s.modShep lead fun x => { x with deferred := x.deferred.filter fun o => o.id != id }
  else s.finish lead id st []

/-- A move ends before step 2 with FAILED: the fold that was to come in goes off again. -/
def State.moveFail (s : State) (lead : Die) (id : Nat) (m : FoldMove) : State :=
  (s.endMove lead id m .failed).foldOff m.d m.dst

/-- Read the Millpond line of a set in a logical way for a copy: its tag entry and its data are checked (06 R157, R158), and
one that fails goes over with POISON. -/
def FC.millTake (c : FC) (set : Nat) (w : Fin 16) : FC × Option (LineData × Bool) :=
  match c.f.poolPhysAt set w with
  | none => (c, none)
  | some ph =>
    let c := c.poolCheckWay set ph
    let r := c.f.ptag set ph
    let d := c.f.pdata set ph
    if r.poison || r.dcrc == dataCrc d then (c, some (d, r.poison))
    else
      (FC.recFail { c with f := c.f.ptagPut set ph { r with poison := true, dcrc := dataCrc d } } 0x403 none .poolData
        (set * 17 + ph), some (d, true))

/-- Write the Millpond line of a set in a logical way. -/
def Fold.millPut (f : Fold) (set : Nat) (w : Fin 16) (x : LineData × Bool) : Fold :=
  match f.poolPhysAt set w with
  | some ph => f.pline set ph 0 x.1 false x.2
  | none => f

/-- Copy the Millpond lines of a set from the fold left to the fold that comes in (12 R327, step 3). -/
def State.millCopySet (s : State) (m : FoldMove) (set : Nat) : State :=
  ((List.finRange 16).filter fun w => ((s.pad m.d).folds[m.src]).isMill w.val).foldl (fun s w =>
    let r := (s.fc m.d m.src).millTake set w
    let s := s.putFc r.1
    match r.2 with
    | some x => s.modFold m.d m.dst fun g => g.millPut set w x
    | none => s) s

/-- Every Millpond line stands in the fold that comes in. -/
def FoldMove.millDone (m : FoldMove) (f : Fold) : Bool := f.poolMpWays = 0 || (decide (4096 ≤ m.mill) && f.millDirty.isEmpty)

/-- One set of the Millpond copy of a move: in ascending order, then each set that was written behind the copy. -/
def State.millWork (s : State) (lead : Die) (id : Nat) (m : FoldMove) : State :=
  let f := (s.pad m.d).folds[m.src]
  if m.step != 2 || m.millDone f then s
  else
    let s := s.ungate m.d m.src
    if !(s.pad m.d).foldRuns m.src then s
    else if m.mill < 4096 then (s.millCopySet m m.mill).modMove lead id fun m => { m with mill := m.mill + 1 }
    else
      match f.millDirty with
      | set :: rest => (s.modFold m.d m.src fun f => { f with millDirty := rest }).millCopySet m set
      | [] => s

/-- The cache ways of a fold that are dirty, or may be: their tag entry fails its check. -/
def Fold.dirtyLines (f : Fold) : List (Nat × Nat) :=
  f.cacheLines.filter fun x => (f.ptag x.1 x.2).dirty || !(f.ptag x.1 x.2).ok

/-- RACE_SWITCH: the conditions of 12 R324 hold, and logical fold n changes to the incoming fold in every copy of the
fold map at once; the outgoing fold is then fenced. -/
def State.raceSwitchAt (s : State) (d : Die) (n : LFold) : State :=
  match s.moveOf fun m => m.d == d && m.n == n && m.step == 2 with
  | none => s
  | some (lead, id, m) =>
    let f := (s.pad d).folds[m.src]
    if f.quiet && !s.jobOpen (jobOf id) && (s.fc d m.src).recorded.isEmpty && f.dirtyLines.isEmpty && m.millDone f then
      let s := s.modFold d m.dst fun g => { g with scrub := f.scrub }
      let s := (s.modFold d m.src fun f => { f with scrub := none }).raceTo d n m.dst
      let s := s.modPad d fun q => { q with hurdle := { q.hurdle with switching := q.hurdle.switching.filter fun y => y != n } }
      let s := (s.modMove lead id fun m => { m with step := 5 }).modPower d m.src fun x =>
        { x with state := .drain, target := .off, gated := false }
      s.fenceFold d m.src
    else s

/-- RACE_SWITCH (12 R324, R327). -/
def execRaceSwitch (d : Die) (n : LFold) (s : State) : Host.Outcome State Fault Refusal := .next (s.raceSwitchAt d n)

/-- The outgoing fold of a move is off: DONE, and Hurdle records the move by the one record that names a fold (12 R327 step
5, log entry 46); a retired fold is marked failed. A move for a loaded record is that record's. -/
def State.moveEnd (s : State) (d : Die) (p : PFold) : State :=
  match s.moveOf fun m => m.d == d && m.src == p && m.step == 5 with
  | none => s
  | some (lead, id, m) =>
    let s := if m.silent then s.failFold d p else if m.retire then s.markFailed d p
      else s.hurdleAppend d (hurdleRec 4 d p.val 0 0 0 0 (s.pad d).hours)
    s.endMove lead id m .done

/-- A vacant logical fold comes in at the fold that was brought up for it: nothing is left to sweep, copy or switch off
(12 R326, R327, log entry 46). -/
def State.moveIn (s : State) (lead : Die) (id : Nat) (m : FoldMove) : State :=
  let r := hurdleRec 4 m.d m.src.val 0 0 0 0 (s.pad m.d).hours
  let s := s.raceTo m.d m.n m.dst
  (if (s.pad m.d).aon.hlog.any (sameAct r) then s else s.hurdleAppend m.d r).endMove lead id m .done

/-- WAKE_COMPLETE: the fold is in RUN; what waited for it goes on. -/
def State.wakeDone (s : State) (d : Die) (p : PFold) : State :=
  let q := s.pad d
  let x := s.power d p
  if x.waking.isSome && q.running && q.domOn (domFA p) && q.domOn (domFL p) && bitAt q.boot.selfTested p.val
      && bitAt q.boot.arrayInit p.val then
    let s := (s.modPower d p fun x => { x with state := .run, waking := none }).unfenceFold d p
    let s := s.modFold d p fun f => { f with census := foldCount 0x39 8 f.census }
    match q.repl.carries d p with
    | none =>
      (match s.moveOf fun m => m.d == d && m.dst == p && m.step == 1 with
       | some (lead, id, m) =>
         if s.millBlocked lead d p then s.moveFail lead id m
         else if m.vacant then s.moveIn lead id m
         else s.moveSweep lead id m
       | none => s)
    | some n =>
      let s := s.finishAll (fun k => match k with
        | .foldPower y m t => y == d && m == n && (t == .run || t == .doze)
        | _ => false) .done
      if x.target == .retain || x.target == .off then s.startDrain d p x.target else s
  else s

/-- WAKE_COMPLETE (14 R367). -/
def execWakeComplete (d : Die) (p : PFold) (s : State) : Host.Outcome State Fault Refusal := .next (s.wakeDone d p)

/-! ### Domains of a fold -/

/-- A fold's FL or FA domain came on. -/
def State.foldDomUp (s : State) (d : Die) (i : DomN) : State :=
  if i.val < 5 then
    let p : PFold := Fin.ofNat 5 i.val
    let x := s.power d p
    let s := s.modFold d p Fold.flReset
    -- a sample was ended by a wake before its fold's logic was up
    if x.state == .retain && x.waking.isNone && (s.pad d).ebb.sample.isNone then s.domOffReq d (domFL p) else s
  else if i.val < 10 then
    let p : PFold := Fin.ofNat 5 (i.val - 5)
    if (s.power d p).waking.isSome then s.domOnReq d (domFL p) else s
  else s

/-- A fold's FL or FA domain went off: FA follows FL on the way to OFF; the fold is then in its terminal state. -/
def State.foldDomDown (s : State) (d : Die) (i : DomN) : State :=
  if i.val < 5 then
    let p : PFold := Fin.ofNat 5 i.val
    let x := s.power d p
    if x.target == .off || (x.state == .off && x.waking.isNone) then s.domOffReq d (domFA p)
    else if x.state == .drain then s.parked d p
    else s
  else if i.val < 10 then
    let p : PFold := Fin.ofNat 5 (i.val - 5)
    let s := s.modFold d p Fold.arrayReset
    if (s.power d p).state == .drain then (s.parked d p).moveEnd d p else s
  else s

end Sys2Proof.Machine
end

