-- ==== Sys2Proof/Machine/Confluence.lean ====
section
/-!
DEFINITION. Confluence (10): Confluence flits, modules and edges, the route-epoch switch, late joining and fencing; and
the Stream's own events as commands (09).
-/

namespace Sys2Proof.Machine

/-! ### The Stream's events -/

/-- TURN (09 R236). -/
def execTurn (d : Die) (net : Net) (a : Spot) (s : State) : Host.Outcome State Fault Refusal := .next (s.turnAt d net a)

/-- FLIT_INJECT (09 R243). -/
def execFlitInject (d : Die) (net : Net) (a : Spot) (s : State) : Host.Outcome State Fault Refusal :=
  .next (s.injectAt d net a)

/-- STARVE_RESERVATION (09 R244). -/
def execStarveReservation (d : Die) (net : Net) (a : Spot) (s : State) : Host.Outcome State Fault Refusal :=
  .next (s.reserveAt d net a)

/-- CULVERT_FLIT (09 R249, R251). -/
def execCulvertFlit (d : Die) (net : Net) (a : Spot) (noise : Nat) (s : State) : Host.Outcome State Fault Refusal :=
  let r := s.wire d net a noise
  .next (r.1.culvertAt d net a r.2)

/-- EDGE_FLIT_ACCEPT (10 R262). -/
def execEdgeFlitAccept (d : Die) (net : Net) (r : Ring) (outbound : Bool) (s : State) : Host.Outcome State Fault Refusal :=
  .next (s.edgeAccept d net r outbound)

/-! ### Confluence flits (10 R260, R261, R267) -/

/-- Change a paddock's Confluence. -/
def State.modConf (s : State) (d : Die) (f : Conf → Conf) : State := s.modPad d fun q => { q with conf := f q.conf }

/-- Change a module. -/
def State.modMod (s : State) (d : Die) (m : ModN) (f : ModStat → ModStat) : State :=
  s.modConf d fun c => { c with mod := vmod c.mod m f }

/-- Change an edge. -/
def State.modEdgeOf (s : State) (d : Die) (e : Edge) (f : EdgeStat → EdgeStat) : State :=
  s.modConf d fun c => { c with edge := vmod c.edge (edgeNo e) f }

/-- The module at the other end: modules of an edge pair in order (10 R259). -/
def Krovol.facingMod (k : Krovol) (d : Die) (m : ModN) : Option (Die × ModN) :=
  match (k.modEdge[d])[m] with
  | none => none
  | some e =>
    match neighbour d e with
    | none => none
    | some x =>
      let i := (k.modsOn d e).findIdx fun y => y == m
      ((k.modsOn x (facing e))[i]?).map fun y => (x, y)

/-- A report of a paddock's Confluence about itself (13 R344). -/
def State.confRep (s : State) (d : Die) (code detail : Nat) : State :=
  s.file d { code := BitVec.ofNat 12 code, reporter := streamAgent d, subject := streamAgent d, atype := 0x3F
             t := (s.pad d).now, detail := BitVec.ofNat 16 detail }

/-- Up to two ring flits of each network, in the order in which they stand in the crossing buffers. -/
def EdgeStat.pack (e : EdgeStat) : List (Net × CrossItem) × EdgeStat :=
  ([(.req, 0), (.snp, 1), (.rsp, 2), (.dat, 3)] : List (Net × Fin 4)).foldl (fun acc x =>
    let l := acc.2.buf[x.2]
    let e := EdgeStat.damUpdate { acc.2 with buf := vset acc.2.buf x.2 (l.drop 2) } x.2
    (acc.1 ++ (l.take 2).map fun c => (x.1, c), e)) ([], e)

/-- The edge may send now: its pace allows it, or it was turned back by a route-epoch switch and empties its buffers
(10 R261, R273). -/
def EdgeStat.maySend (e : EdgeStat) : Bool := if e.inUse then decide (1024 ≤ e.acc) else !e.lost

/-- CONFLUENCE_FLIT_SEND: an edge sends when its pace allows it. -/
def State.confSend (s : State) (d : Die) (m : ModN) : State :=
  let q := s.pad d
  match (s.krovol.modEdge[d])[m], s.krovol.facingMod d m with
  | some e, some (x, y) =>
    let st := q.conf.edge[edgeNo e]
    if q.running && st.maySend && q.conf.mod[m].state == .up && ((s.pad x).conf.mod[y]).state == .up then
      let p := EdgeStat.pack { st with acc := st.acc - 1024, sent := st.sent + 1 }
      if p.1.isEmpty then s
      else
        let n := q.conf.mod[m].seqTx + 1
        let s := (s.modEdgeOf d e fun _ => p.2).modMod d m fun z => { z with seqTx := n }
        let flit : ConfFlit := { seq := n, ord := st.sent, slots := p.1 }
        (s.modMod x y fun z => { z with wire := z.wire ++ [flit] }).pcount d 0x18 (edgeNo e).val
    else s
  | _, _ => s

/-- CONFLUENCE_FLIT_SEND (10 R260, R261). -/
def execConfluenceFlitSend (d : Die) (m : ModN) (s : State) : Host.Outcome State Fault Refusal := .next (s.confSend d m)

/-- The bits inverted in a slot's ring flit before it was packed. -/
def hurtOf (hurt : List (Fin 8 × Nat)) (n : Fin 8) : Nat :=
  match hurt.find? fun x => x.1 == n with
  | some x => x.2
  | none => 0

/-- What slot n of a received Confluence flit brings to edge `e` of die d: the ring it goes on, and the mark of the slot it
left, which crosses beside the flit (log entry 71). -/
def ConfFlit.arrival (f : ConfFlit) (d : Die) (e : Edge) (got : List ConfItem) (n : Fin 8) : Option (Net × CrossItem) :=
  let resv := (f.slot n).bind fun c => c.resv
  match got.find? fun i => i.slot == n with
  | some i =>
    let ring := match neighbour d e with
      | some x => ringAt x (facing e) i.ret
      | none => .xcw
    some ((confSlot n).1, ⟨ring, i.ret, i.flit, resv⟩)
  | none => (f.slot n).bind fun c => if c.resv.isSome then some ((confSlot n).1, { c with flit := none }) else none

/-- Received ring flits of an edge wait in the order in which the sender packed them (09 R235). -/
def EdgeStat.arrive (e : EdgeStat) (ord : Nat) (l : List (Net × CrossItem)) : EdgeStat :=
  { e with rx := (e.rx.filter fun x => decide (x.1 ≤ ord)) ++ (l.map fun x => (ord, x.1, x.2))
      ++ e.rx.filter fun x => decide (ord < x.1) }

/-- A ring flit whose own check fails at the crossing is removed (09 R251, 10 R260): 0x701. -/
def State.crossBad (s : State) (d : Die) (net : Net) (c : CrossItem) : State :=
  (s.file d (streamRep s d 0x701 (stageDetail net c.entry))).linkFail d net (ringNo c.ring) c.entry

/-- CONFLUENCE_FLIT: the receiving end checks CRC and SEQ, then the CRC of every ring flit. -/
def State.confRecv (s : State) (d : Die) (m : ModN) (noise : Nat) (hurt : List (Fin 8 × Nat)) : State :=
  let q := s.pad d
  let x := q.conf.mod[m]
  match x.wire, (s.krovol.modEdge[d])[m] with
  | f :: rest, some e =>
    if !q.running then s
    else
      match f.heard noise (hurtOf hurt) with
      | none => (s.modMod d m fun y => { y with wire := rest }).confRep d 0x806 m.val
      | some (seq, got) =>
        let s := s.modMod d m fun y => { y with wire := rest, seqRx := seq }
        if seq != x.seqRx + 1 then s.confRep d 0x806 m.val
        else
          let l := (List.finRange 8).filterMap (f.arrival d e got)
          let bad := got.filter fun i => i.flit.isNone
          let s := bad.foldl (fun s i => match f.arrival d e got i.slot with
            | some y => s.crossBad d y.1 y.2
            | none => s) s
          let kept := l.filter fun y => y.2.flit.isSome || y.2.resv.isSome
          (s.modEdgeOf d e fun y => y.arrive f.ord kept).pcount d 0x19 (edgeNo e).val
  | _, _ => s

/-- CONFLUENCE_FLIT (10 R267). -/
def execConfluenceFlit (d : Die) (m : ModN) (noise : ConfNoise) (s : State) : Host.Outcome State Fault Refusal :=
  .next (s.confRecv d m noise.flit noise.slots)

/-! ### Modules (10 R263 to R266) -/

/-- An edge lost or trained waits for a route-epoch switch (10 R265). -/
def State.wantSwitch (s : State) (d : Die) : State :=
  match s.leadOf d with
  | some l => s.modShep l fun x => { x with needSwitch := true }
  | none => s

/-- The chain paces are computed anew after a change of a module, and so are the envelopes (10 R261, R264, 11 R302). -/
def State.paceChanged (s : State) (d : Die) : State :=
  if s.inRange d then (s.writePaces (s.members d) (s.mhz d)).recheckDue d else s

/-- Confluence records the lanes of a module that a training repaired (12 R329): those not recorded yet. -/
def State.laneRepairs (s : State) (d : Die) (m : ModN) (lanes : List (BitVec 11)) : State :=
  lanes.foldl (fun s lane =>
    let r := hurdleRec 6 d 7 0 m.val lane.toNat 0 (s.pad d).hours
    if (s.pad d).aon.hlog.any (sameAct r) then s else s.hurdleAppend d r) s

/-- A module comes up for the first time, or after it was down: the sequence numbers of both ends start again at 0, so that
the first flit carries 1 (log entry 41). -/
def State.modFresh (s : State) (d : Die) (m : ModN) : State :=
  let late := (s.pad d).boot.step == 8 && (s.pad d).boot.frozen.isSome    -- start-up ends for a paddock that comes after the deadline
  let start (y : ModStat) : ModStat := { y with seqTx := 0, seqRx := 0, wire := [] }
  let s := if late then s.modPad d fun q => { q with
      boot := { q.boot with step := 9 }, repl := { q.repl with lockHash := true } } else s
  let s := s.modMod d m fun y => { start y with upTick := (s.pad d).ticks }
  match s.krovol.facingMod d m with
  | some (z, n) => s.modMod z n start
  | none => s

/-- A module has no spare lane left and runs at x32: Hurdle files 0xB10, and the envelopes are tested again (12 R337, log
entry 95). -/
def State.ucieSpent (s : State) (d : Die) : State := (s.hurdleTell d 0xB10 (streamAgent d)).recheckDue d

/-- MODULE_TRAINED: a module comes up, or one that is up has retrained in place (10 R264). -/
def State.modUp (s : State) (d : Die) (m : ModN) (rate : Rate) (x32 : Bool) (repaired : List (BitVec 11)) : State :=
  let q := s.pad d
  let x := q.conf.mod[m]
  let top := (s.krovol.maxRate[d])[m]
  match (s.krovol.modEdge[d])[m] with
  | none => s
  | some e =>
    if !q.running || !(x.state == .training || x.state == .up) || top.val < rate.val then s
    else
      let again := x.upTick != 0
      let s := s.modPad d fun q => { q with aon := { q.aon with modAttempts := vset q.aon.modAttempts m 0 } }
      let s := if x.state == .training then s.modFresh d m else s
      let s := s.modMod d m fun y => { y with state := .up, fdi := .active, rate := rate, x32 := x32, repaired := !repaired.isEmpty }
      let s := if again then s.pcount d 0x1D m.val else s
      let s := if repaired.isEmpty then s else (s.laneRepairs d m repaired).pcount d 0x1C m.val
      let s := if rate.val < top.val || x32 then s.confRep d 0x804 m.val else s
      let s := if x32 && !x.x32 then s.ucieSpent d else s
      if ((s.pad d).conf.edge[edgeNo e]).inUse then s.paceChanged d
      else if s.inRange d && s.edgeOk (s.pad d).repl.present d e then s.wantSwitch d
      else s

/-- MODULE_TRAINED (10 R263, R264). -/
def execModuleTrained (d : Die) (m : ModN) (rate : Rate) (x32 : Bool) (repaired : List (BitVec 11)) (s : State) :
    Host.Outcome State Fault Refusal :=
  .next (s.modUp d m rate x32 repaired)

/-- TRAINING_FAILED: the attempt is counted and the module waits. -/
def State.trainFailed (s : State) (d : Die) (m : ModN) : State :=
  let q := s.pad d
  if q.running && (q.conf.mod[m]).state == .training then
    let a := (q.aon.modAttempts[m])
    let s := s.modPad d fun q => { q with aon := { q.aon with
      modAttempts := vset q.aon.modAttempts m (if a == 0xFFFF then a else a + 1) } }
    s.modMod d m fun y => { y with state := .waiting, fdi := .linkReset, waitTick := q.ticks }
  else s

/-- TRAINING_FAILED (10 R263). -/
def execTrainingFailed (d : Die) (m : ModN) (s : State) : Host.Outcome State Fault Refusal := .next (s.trainFailed d m)

/-- The wait after k failed attempts, in LCLK ticks (10 R263, 15 R424). -/
def backoffTicks (k : Nat) : Nat := min (2 ^ (k - 1)) 1000 * 1000

/-- TRAINING_RETRY. -/
def State.trainAgain (s : State) (d : Die) (m : ModN) : State :=
  let q := s.pad d
  let x := q.conf.mod[m]
  if q.running && x.state == .waiting && decide (x.waitTick + backoffTicks (q.aon.modAttempts[m]).toNat ≤ q.ticks) then
    s.modMod d m fun y => { y with state := .training, fdi := .active }
  else s

/-- TRAINING_RETRY (10 R263). -/
def execTrainingRetry (d : Die) (m : ModN) (s : State) : Host.Outcome State Fault Refusal := .next (s.trainAgain d m)

/-- Turn an edge back or open it, on the Stream's side (09 R254). -/
def Stream.setTurn (q : Stream) (e : Edge) (t : Bool) : Stream :=
  match e with
  | .west => { q with turnW := t }
  | .east => { q with turnE := t }
  | .vert => { q with turnV := t }

/-- A die finds members that it can no longer reach over the edges that are up (10 R265, R266). -/
def State.findUnreach (s : State) (d : Die) : State :=
  let r := (s.pad d).repl
  let near := openReach (s.openEdges r.present) d 8 (putBit 0 d.val true)
  let gone := (s.members d).filter fun x => !bitAt near x.val && !bitAt (s.pad d).conf.unreach x.val
  let s := s.modConf d fun c => { c with unreach := gone.foldl (fun u x => putBit u x.val true) c.unreach }
  (gone.foldl (fun s x => s.file d
    { code := 0x805, reporter := streamAgent d, subject := streamAgent x, atype := 0x3F, t := (s.pad d).now }) s).loseCutOff d

/-- The last module of an edge in use went down (10 R265). -/
def State.edgeLost (s : State) (d : Die) (e : Edge) : State :=
  let s := s.modStream d fun q => q.setTurn e true
  let s := s.modEdgeOf d e fun x => { x with
    inUse := false, pace := 0, acc := 0, lost := true, buf := Vector.replicate 4 [], dam := Vector.replicate 4 false }
  let s := s.confRep d 0x803 (edgeNo e).val
  ((s.members d).foldl State.findUnreach s).wantSwitch d

/-- A module goes down and trains again; what was on its wire is lost. -/
def State.modDown (s : State) (d : Die) (m : ModN) : State :=
  match (s.krovol.modEdge[d])[m] with
  | none => s
  | some e =>
    if (s.pad d).conf.mod[m].state != .up then s
    else
      let s := s.modMod d m fun y => { y with state := .training, fdi := .retrain, wire := [] }
      if ((s.pad d).conf.edge[edgeNo e]).inUse then
        if s.edgeUp d e then s.paceChanged d else s.edgeLost d e
      else s

/-- MODULE_DOWN (10 R264, R265). -/
def execModuleDown (d : Die) (m : ModN) (s : State) : Host.Outcome State Fault Refusal := .next (s.modDown d m)

/-! ### The route-epoch switch (10 R273, R274) -/

/-- Start a switch to a population: every member stops admitting REQ. -/
def State.startSwitch (s : State) (lead : Die) (present : BitVec 8) (forOp : Option Nat) : State :=
  let sw : EpochSwitch := { start := (s.pad lead).now, present := present, forOp := forOp }
  let s := s.modShep lead fun x => { x with sw := some sw, needSwitch := false }
  (s.live lead).foldl (fun s d => s.modStream d fun q => { q with hold := true }) s

/-- The paddocks that a switch concerns: the members that the leader reaches, and those that join. -/
def State.switchDies (s : State) (lead : Die) (w : EpochSwitch) : List Die :=
  dies.filter fun d => (bitAt (s.pad lead).repl.present d.val && s.reaches lead d)
    || (bitAt w.present d.val && !bitAt (s.pad lead).repl.present d.val)

/-- The detour tables and the edges in use of a population and its open edges `o` (09 R237, 10 R281). An edge that closes
keeps what its crossing buffers hold: no flit is lost (10 R273). -/
def State.writeEdges (s : State) (ds : List Die) (pop : BitVec 8) (o : BitVec 24) : State :=
  ds.foldl (fun s d =>
    let s := edges.foldl (fun s e => s.modEdgeOf d e fun x =>
      if bitAt o (edgeBit d e) then { x with inUse := true, lost := false } else { x with inUse := false, pace := 0, acc := 0 }) s
    s.modStream d fun q => { q with detour := detourWord o pop d }) s

/-- Every edge in use is open and every other is turned back (09 R254). -/
def State.setTurns (s : State) (ds : List Die) : State :=
  ds.foldl (fun s d => edges.foldl (fun s e =>
    s.modStream d fun q => q.setTurn e !((s.pad d).conf.edge[edgeNo e]).inUse) s) s

/-- Phase 1 of the switch of a leader: the paddocks that hold REQ confirm it (10 R273). -/
def State.switchConfirm (s : State) (lead : Die) (w : EpochSwitch) : EpochSwitch :=
  { w with held := (s.live lead).foldl (fun b d => if (s.pad d).stream.hold then putBit b d.val true else b) w.held }

/-- Phase 2: tables, edges and chain paces of the new population, in every paddock, once each has confirmed the hold and
4,000 ns are over. -/
def State.switchTables (s : State) (lead : Die) (w : EpochSwitch) : State :=
  let w := s.switchConfirm lead w
  let due := decide (w.start + 4000 ≤ (s.pad lead).now) && (s.live lead).all fun d => bitAt w.held d.val
  if w.tabled || !due then s.modShep lead fun x => { x with sw := some w }
  else
    let ds := s.switchDies lead w
    ((s.writeEdges ds w.present (s.openEdges w.present)).writePaces ds (s.mhz lead)).modShep lead fun x =>
      { x with sw := some { w with tabled := true } }

/-- The refusal records of a fold become common to the fold (10 R274). -/
def Fold.shareRecords (f : Fold) : Fold :=
  { f with refuse := f.refuse.map fun l => l.map fun r => { r with common := true } }

/-- READY of the Tether's paddock locks TETHER_CTL.APER_LOG2 (16 R451). -/
def State.lockAperture (s : State) (d : Die) : State :=
  if s.krovol.tether == some d then { s with tether := { s.tether with lock := true } } else s

/-- The Census of a paddock that joins: the Range's dump configuration; its first records carry GAP (20 R519). -/
def Census.joined (c l : Census) (now : Nat) : Census :=
  let p := l.periodNow
  { c with
    cfg := l.cfg, pendCfg := l.pendCfg, cfgSet := l.cfgSet, nextK := now / max 1 p
    bank := c.bank.map fun b => { b with gap := true } }

/-- A joining paddock receives every replicated register, the dies that wait for a PADRESET_N after a fence (10 R271) and the
patch, and its own queues are flushed (15 R421, R426, 18 R471). -/
def State.admitNow (s : State) (lead d : Die) : State :=
  let r := (s.pad lead).repl
  let p := (s.pad lead).shep.patch
  let c := (s.pad lead).census
  let s := s.queuesEmpty d
  (s.lockAperture d).modPad d fun q => { q with
    repl := { r with tideHi := q.repl.tideHi }
    conf := { q.conf with fenced := putBit (s.pad lead).conf.fenced d.val false }
    boot := { q.boot with ready := true, step := 10 }
    aon := { q.aon with nfProg := (s.pad lead).aon.nfProg }
    census := q.census.joined c q.now
    shep := { q.shep with patch := p } }

/-- What the switch completes: a join or a fence. -/
def State.switchEnd (s : State) (lead : Die) (id : Nat) : State :=
  match (s.pad lead).shep.deferred.find? fun o => o.id == id with
  | none => s
  | some o =>
    match o.kind with
    | .join d _ =>
      let s := s.modRepl lead fun r => { r with joinBusy := false, readyDies := putBit r.readyDies d.val false }
      (s.admitNow lead d).finish lead id .done []
    | .fence d _ =>
      let f (r : Repl) : Repl := { r with fenceBusy := false, leaving := putBit r.leaving d.val false }
      let s := (s.modRepl lead f).modPad d fun q => { q with repl := f q.repl, boot := { q.boot with ready := false } }
      let s := (s.members lead).foldl (fun s x => s.modConf x fun c => { c with fenced := putBit c.fenced d.val true }) s
      let s := pfolds.foldl (fun s p => s.modFold d p fun x => { x with scrub := none }) s
      s.finish lead id .done []
    | _ => s

/-- Phase 3 of the switch of a leader: Tide has reached S = H + 12,000. -/
def State.switchCycleOf (s : State) (lead : Die) : State :=
  match (s.pad lead).shep.sw with
  | none => s
  | some w =>
    if (s.pad lead).now < w.start + 12000 then s
    else
      let s := s.switchTables lead w
      let old := (s.pad lead).repl.present
      let ds := s.switchDies lead w
      let s := s.setTurns ds
      let s := ds.foldl (fun s d => s.modPad d fun q => { q with
        repl := { q.repl with present := if bitAt old d.val then w.present else q.repl.present }
        stream := { q.stream with epoch := q.stream.epoch + 1, hold := false }
        folds := q.folds.map Fold.shareRecords }) s
      let s := s.modShep lead fun x => { x with sw := none }
      let changed := (dies.find? fun d => bitAt (w.present ^^^ old) d.val).getD lead
      let s := if w.present == old then s else s.eventFrom lead 5 changed w.present.toNat
      let s := match w.forOp with
        | some id => s.switchEnd lead id
        | none => s
      s.recheckDue lead

/-- ROUTE_EPOCH_SWITCH_CYCLE: in every Range. -/
def State.switchCycle (s : State) : State := s.leaders.foldl State.switchCycleOf s

/-- ROUTE_EPOCH_SWITCH_CYCLE (10 R273). -/
def execRouteEpochSwitchCycle (s : State) : Host.Outcome State Fault Refusal := .next s.switchCycle

/-- ENVELOPE_RECHECK (11 R302): in every Range. -/
def execEnvelopeRecheck (s : State) : Host.Outcome State Fault Refusal := .next (s.leaders.foldl State.recheck s)

/-! ### Joining (10 R271, R272) -/

/-- DIE_READY: a neighbour that is planned and no member reports that its start-up is complete; its Confluence is the
subject of 0x802 (log entry 49). -/
def State.dieReadyAt (s : State) (d x : Die) : State :=
  let q := s.pad d
  let joined := edges.any fun e => neighbour d e == some x && s.edgeUp d e && s.edgeUp x (facing e)
  if s.inRange d && !s.member d x && s.planned x && joined && decide (9 ≤ (s.pad x).boot.step.toNat)
      && !bitAt q.conf.fenced x.val && !bitAt q.repl.readyDies x.val then
    let s := s.file d { code := 0x802, reporter := streamAgent d, subject := streamAgent x, atype := 0x3F, t := q.now }
    (s.modRepl d fun r => { r with readyDies := putBit r.readyDies x.val true }).eventFrom d 4 x 0
  else s

/-- DIE_READY (10 R271). -/
def execDieReady (d ready : Die) (s : State) : Host.Outcome State Fault Refusal := .next (s.dieReadyAt d ready)

/-- The deferred command is a DIE_JOIN. -/
def DefKind.anyJoin (k : DefKind) : Bool :=
  match k with
  | .join _ _ => true
  | _ => false

/-- The deferred command is a DIE_FENCE. -/
def DefKind.anyFence (k : DefKind) : Bool :=
  match k with
  | .fence _ _ => true
  | _ => false

/-- The settings of a sluice as another paddock's copy shows them; its bucket is full (09 R245, log entry 48). -/
def Sluice.copyOf (x : Sluice) : Sluice := { rate := x.rate, enable := x.enable, burst := x.burst }

/-- The sluice settings of a port, from the same port of another paddock. -/
def ReqPort.copySluices (p x : ReqPort) : ReqPort := { p with sluice := x.sluice.map Sluice.copyOf }

/-- The settings of sluice 28 as a paddock shows them: the Tether's where it carries the Tether. -/
def State.sluice28 (s : State) (d : Die) : Vector Sluice 4 :=
  if s.krovol.tether == some d then s.tether.port.sluice else (s.pad d).stream.sluice28

/-- Write the settings of sluice 28 of a paddock. -/
def State.setSluice28 (s : State) (d : Die) (v : Vector Sluice 4) : State :=
  if s.krovol.tether == some d then { s with tether := { s.tether with port := { s.tether.port with sluice := v } } }
  else s.modStream d fun q => { q with sluice28 := v }

/-- An accepted join first writes the joining paddock's regions, device windows (which Krovol fixes) and sluice settings
(10 R272), and its patch (15 R421). -/
def State.joinWrite (s : State) (lead d : Die) : State :=
  let l := s.pad lead
  let of (p x : AgentPort) : AgentPort := { p with port := p.port.copySluices x.port }
  (s.setSluice28 d ((s.sluice28 lead).map Sluice.copyOf)).modPad d fun q => { q with
    repl := { q.repl with regions := l.repl.regions, regionDefault := l.repl.regionDefault }
    gates := Vector.ofFn fun g => of q.gates[g] l.gates[g]
    stiles := Vector.ofFn fun n => of q.stiles[n] l.stiles[n]
    shep := { q.shep with patch := l.shep.patch, port := q.shep.port.copySluices l.shep.port } }

/-- Begin the joins that wait: no fence and no switch is in progress, and the die has raised DIE_READY. -/
def State.joinWork (s : State) (lead : Die) : State :=
  let x := (s.pad lead).shep
  let r := (s.pad lead).repl
  if x.sw.isSome || s.anyDef lead DefKind.anyFence then s
  else
    match x.deferred.find? fun o => match o.kind with
      | .join d false => bitAt r.readyDies d.val
      | _ => false with
    | some o =>
      (match o.kind with
       | .join d _ =>
         let s := s.modDef lead o.id fun _ => .join d true
         (s.joinWrite lead d).startSwitch lead (putBit r.present d.val true) (some o.id)
       | _ => s)
    | none => s

/-- A DIE_JOIN waits for the DIE_READY of a die that a fence takes out (10 R272). -/
def State.joinWaits (s : State) (d : Die) : Bool :=
  s.anyDef d fun k => match k with
    | .join x false => s.anyDef d (fun y => y.isFence x) || !bitAt (s.pad d).repl.readyDies x.val
    | _ => false

/-- DIE_JOIN. -/
def State.runDieJoin (d : Die) (k : Taken) (s : State) : State :=
  let x := dieAt (k.p 1) 0
  let accept : State := ((s.modRepl d fun r => { r with joinBusy := true }).defer d k (.join x false)).joinWork d
  if !s.planned x then s.reply d k .badParam
  else if s.joinWaits d then s.reply d k .busy
  else if s.anyDef d (fun y => y.isFence x) then accept
  else if s.member d x then s.reply d k .done
  else if !bitAt (s.pad d).repl.readyDies x.val then s.reply d k .notPresent
  else if s.anyDef d fun y => y.anyJoin || y.anyFence then s.reply d k .busy
  else accept

/-- DIE_JOIN (10 R272). -/
def execDieJoin (d : Die) (s : State) : Host.Outcome State Fault Refusal := .next (s.runTaken d 0x50 (State.runDieJoin d))

/-! ### Fencing (10 R275, R276) -/

/-- Lines whose Earmark entry names an agent of a die, or its presence bit. -/
def FC.naming (c : FC) (x : Die) : List Line :=
  c.f.em.filterMap fun e =>
    let at' := !e.2.dead && c.f.emPlays e.1
    let hit := match emStateOf e.2.pay with
      | .exc a => dieOf a == x
      | .mus ds => bitAt ds x.val
      | y => y.sharers.any fun a => dieOf a == x
    if at' && hit then some (lineOfEm c.n (e.1 / 17) e.2.tagA) else none

/-- The physical folds of a die that carry a logical fold. -/
def State.carriers (s : State) (d : Die) : List PFold := pfolds.filter fun p => ((s.pad d).repl.carries d p).isSome

/-- DIE_FENCE. -/
def State.runDieFence (d : Die) (k : Taken) (s : State) : State :=
  let x := dieAt (k.p 1) 0
  let rest := putBit (s.pad d).repl.present x.val false
  if !s.planned x then s.reply d k .badParam
  else if s.joinWaits d then s.reply d k .busy
  else if !s.member d x then s.reply d k .notPresent
  else if x == d || connected rest d != rest || decide (0 < (s.pad d).repl.mpMiB x) then s.reply d k .notPermitted
  else if s.anyDef d fun y => y.anyJoin || y.anyFence then s.reply d k .busy
  else
    let f (r : Repl) : Repl := { r with fenceBusy := true, leaving := putBit r.leaving x.val true }
    (s.modRepl d f).defer d k (.fence x 1)

/-- DIE_FENCE (10 R275). -/
def execDieFence (d : Die) (s : State) : Host.Outcome State Fault Refusal := .next (s.runTaken d 0x51 (State.runDieFence d))

/-- Step 3 of a fence: the lines homed on the die, and the lines elsewhere whose record names it, are swept. -/
def State.fenceSweep (s : State) (lead : Die) (id : Nat) (x : Die) : State :=
  let s := s.modDef lead id fun _ => .fence x 3
  let s := s.addJob x (jobOf id) (((s.carriers x).flatMap fun p => (s.fc x p).recorded).eraseDups)
  ((s.members lead).filter fun d => d != x).foldl (fun s d =>
    s.addJob d (jobOf id) (((s.carriers d).flatMap fun p => (s.fc d p).naming x).eraseDups)) s

/-- A step of 10 R276 whose wait is over, in a leader's Range. -/
def State.fenceStepOf (s : State) (lead : Die) : State :=
  match s.defAt lead DefKind.anyFence with
  | none => s
  | some o =>
    match o.kind with
    | .fence x 1 =>
      if (s.carriers x).all fun p => ((s.pad x).folds[p]).tt.isEmpty && ((s.pad x).folds[p]).pens.isEmpty then
        s.fenceSweep lead o.id x
      else s
    | .fence x 3 =>
      let swept := (s.carriers x).all fun p =>
        (s.fc x p).recorded.isEmpty && ((s.pad x).folds[p]).dirtyLines.isEmpty && ((s.pad x).folds[p]).quiet
      if !s.jobOpen (jobOf o.id) && swept && (s.pad lead).shep.sw.isNone then
        (s.modDef lead o.id fun _ => .fence x 4).startSwitch lead (putBit (s.pad lead).repl.present x.val false) (some o.id)
      else s
    | _ => s

/-- FENCE_DRAINED: in every Range. -/
def State.fenceStep (s : State) : State := s.leaders.foldl State.fenceStepOf s

/-- FENCE_DRAINED (10 R276). -/
def execFenceDrained (s : State) : Host.Outcome State Fault Refusal := .next s.fenceStep

end Sys2Proof.Machine
end

