-- ==== Sys2Proof/Machine/Opp.lean ====
section
/-!
DEFINITION. Operating points and the regulator (14 R372 to R374, 19 R493): OPPOINT_SET and its steps, AVSBus
acknowledgements and retries as far as OPPOINT_SET needs them.
-/

namespace Sys2Proof.Machine

/-- The rails a paddock drives (14 R372). -/
def Krovol.railList (k : Krovol) : List RailN := if k.rails then [0, 1] else [0]

/-- Ebb writes a supply to every rail. -/
def State.writeSupply (s : State) (d : Die) (mv : Nat) : State :=
  s.modEbb d fun e => { e with
    avs := s.krovol.railList.foldl (fun v r => vset v r (some { mv := mv, tick := (s.pad d).ticks })) e.avs }

/-- Every member's Ebb writes a supply. -/
def State.writeSupplies (s : State) (lead : Die) (mv : Nat) : State :=
  (s.members lead).foldl (fun s d => s.writeSupply d mv) s

/-- No acknowledgement of a paddock's regulator is outstanding. -/
def Ebb.acked (e : Ebb) : Bool := e.avs.all fun x => x.isNone

/-- Every member's regulator acknowledged. -/
def State.allAcked (s : State) (lead : Die) : Bool := (s.members lead).all fun d => (s.pad d).ebb.acked

/-- Every member's HCLK is at the point that its Ebb asks for. -/
def State.allClocked (s : State) (lead : Die) : Bool :=
  (s.members lead).all fun d => (s.pad d).ebb.hclkOp == (s.pad d).ebb.hclkOpack

/-- The OPPOINT_SET in progress. -/
structure OppOp where
  lead : Die
  id : Nat
  pt : Point
  old : Point
  ph : OppPhase
  since : Nat
  deriving DecidableEq, Repr

/-- The deferred command is an OPPOINT_SET. -/
def DefKind.isOpp (k : DefKind) : Bool :=
  match k with
  | .oppoint _ _ _ _ => true
  | _ => false

/-- The OPPOINT_SET in progress in a leader's Range, if there is one. -/
def State.oppOp (s : State) (lead : Die) : Option OppOp :=
  match s.defAt lead DefKind.isOpp with
  | some o => (match o.kind with
      | .oppoint pt old ph t => some ⟨lead, o.id, pt, old, ph, t⟩
      | _ => none)
  | none => none

/-- The next phase of an OPPOINT_SET. -/
def State.oppPhase (s : State) (o : OppOp) (ph : OppPhase) : State :=
  s.modDef o.lead o.id fun _ => .oppoint o.pt o.old ph (s.pad o.lead).now

/-- The point of every member is settled again. -/
def State.oppSettle (s : State) (lead : Die) : State :=
  (s.members lead).foldl (fun s d => s.modEbb d fun e => { e with changing := false, opTarget := e.hclkOp }) s

/-- The operation ends. -/
def State.oppEnd (s : State) (o : OppOp) (st : Status) : State :=
  ((s.oppSettle o.lead).finish o.lead o.id st []).envChanged o.lead

/-- The frequency rises, or stays. -/
def OppOp.raises (o : OppOp) : Bool := decide (Config.mhz o.old ≤ Config.mhz o.pt)

/-- Take the steps of 14 R373 whose acknowledgements have come. -/
def State.oppAdvance (s : State) (lead : Die) : State :=
  match s.oppOp lead with
  | none => s
  | some o =>
    match o.ph with
    | .supply => if s.allAcked o.lead then (s.writePaces (s.members o.lead) (Config.mhz o.pt)).oppPhase o .armed else s
    | .clock =>
      if s.allClocked o.lead then
        if o.raises then s.oppEnd o .done
        else ((s.writePaces (s.members o.lead) (Config.mhz o.pt)).writeSupplies o.lead (Config.supplyMv o.pt)).oppPhase o .lowSupply
      else s
    | .lowSupply => if s.allAcked o.lead then s.oppEnd o .done else s
    | .backClock => if s.allClocked o.lead then s.oppEnd o .failed else s
    | .armed | .backArmed => s

/-- An acknowledgement reached a paddock. -/
def State.oppGoes (s : State) (d : Die) : State :=
  match s.leadOf d with
  | some l => s.oppAdvance l
  | none => s

/-- OPPOINT_SET. -/
def State.runOppointSet (d : Die) (k : Taken) (s : State) : State :=
  let pt : Point := Fin.ofNat 4 (bits (k.p 1) 0 2)
  let old := (s.pad d).ebb.point
  let busy := s.anyDef d fun y => y.isOpp || y == .nightfold || (match y with
    | .join _ _ | .fence _ _ => true
    | _ => false)
  if envRefuses (s.envNow d) (s.envAt d pt) then s.reply d k .notPermitted
  else if busy then s.reply d k .busy
  else
    let up := Config.mhz old ≤ Config.mhz pt
    let s := s.defer d k (.oppoint pt old (if up then .supply else .armed) (s.pad d).now)
    let s := (s.members d).foldl (fun s x => s.modEbb x fun e => { e with changing := true, opTarget := pt }) s
    if up then s.writeSupplies d (Config.supplyMv pt) else s

/-- OPPOINT_SET (14 R373). -/
def execOppointSet (d : Die) (s : State) : Host.Outcome State Fault Refusal :=
  .next (s.runTaken d 0x80 (State.runOppointSet d))

/-- Every Ebb asks its clock source for a point. -/
def State.askPoint (s : State) (lead : Die) (pt : Point) : State :=
  (s.members lead).foldl (fun s d => s.modEbb d fun e => { e with hclkOp := pt }) s

/-- S has come in a leader's Range, 4,000 ns after the last step; an Ebb whose clock has not followed its last change waits
(19 R493). -/
def State.oppSwitchOf (s : State) (lead : Die) : State :=
  match s.oppOp lead with
  | none => s
  | some o =>
    let due := s.allClocked lead && (s.members lead).all fun d => decide (o.since + 4000 ≤ (s.pad d).now)
    match o.ph with
    | .armed => if due then ((s.askPoint lead o.pt).oppPhase o .clock).oppAdvance lead else s
    | .backArmed => if due then ((s.askPoint lead o.old).oppPhase o .backClock).oppAdvance lead else s
    | _ => s

/-- OPPOINT_SWITCH: S has come. -/
def State.oppSwitch (s : State) : State := s.leaders.foldl State.oppSwitchOf s

/-- OPPOINT_SWITCH (14 R373). -/
def execOppointSwitch (s : State) : Host.Outcome State Fault Refusal := .next s.oppSwitch

/-- A switch that no OPPOINT_SET waits for any more has come in every member: the paces that it allows (10 R261). -/
def State.loneSwitch (s : State) (d : Die) : State :=
  match s.leadOf d with
  | some l => if (s.oppOp l).isNone && s.allClocked l then s.writePaces (s.members l) (s.mhz l) else s
  | none => s

/-- HCLK_OPACK: HCLK has the point asked for; Tide takes its period (19 R493). -/
def State.clockAt (s : State) (d : Die) (pt : Point) : State :=
  let e := (s.pad d).ebb
  if e.hclkAck && pt == e.hclkOp && e.hclkOpack != pt then
    let late := (s.leadOf d).any fun l => (s.oppOp l).isNone
    let s := ((s.modEbb d fun e => { e with hclkOpack := pt, point := pt }).pcount d 0x33 0).oppGoes d
    if late then s.loneSwitch d else s
  else s

/-- HCLK_OPACK (19 R493). -/
def execHclkOpack (d : Die) (pt : Point) (s : State) : Host.Outcome State Fault Refusal := .next (s.clockAt d pt)

/-- 0xE10 during an OPPOINT_SET: the operating point stays where it was (14 R374). -/
def State.oppFail (s : State) (lead : Die) : State :=
  match s.oppOp lead with
  | none => s
  | some o =>
    let back := s.writeSupplies o.lead (Config.supplyMv o.old)
    match o.ph with
    | .supply => (back.oppSettle o.lead).finish o.lead o.id .failed []
    | .lowSupply => (back.writePaces (s.members o.lead) (Config.mhz o.old)).oppPhase o .backArmed
    | .armed | .clock | .backArmed | .backClock => s

/-- An OPPOINT_SET that is not resumed (15 R420): Ebb keeps the point that it asks for, and the paces of the faster of it
and the point in force stand until its clock has followed. -/
def State.oppDrop (s : State) (lead : Die) : State :=
  match s.oppOp lead with
  | none => s
  | some o =>
    let s := s.modDef lead o.id fun _ => .oppoint o.pt o.old .supply o.since
    (s.oppSettle lead).writePaces (s.members lead) (s.mhz lead)

end Sys2Proof.Machine
end

