-- ==== Sys2Proof/Machine/Region.lean ====
section
/-!
DEFINITION. Commands of the Shepherd that take long and are not about power: REGION_SET and its switch (01 R25 to R31,
06 R171, 15 R415), PATCH_LOAD (15 R421, R422), HURDLE_LOG_LOAD (12 R334, 20 R518).
-/

namespace Sys2Proof.Machine

/-! ### REGION_SET -/

/-- Region n of REGION_SET, the default region at 64, as the registers hold it. -/
def Repl.regionAt (r : Repl) (n : Nat) : Region :=
  if n = 64 then { attr := r.regionDefault } else r.regions[Fin.ofNat 64 n]

/-- Write region n, or the default region at 64. -/
def Repl.setRegion (r : Repl) (n : Nat) (g : Region) : Repl :=
  if n = 64 then { r with regionDefault := g.attr } else { r with regions := vset r.regions (Fin.ofNat 64 n) g }

/-- The region that the words of a packet spell; BASE and LIMIT stay where they are ignored (15 R415). -/
def regionOfWords (k : Taken) (n : Nat) (old : Region) : Region :=
  let a := attrOfWord (k.p 6)
  if n = 64 || !a.enable then { old with attr := a }
  else
    { base := (k.p 3).extractLsb' 0 20 ++ (k.p 2), limit := (k.p 5).extractLsb' 0 20 ++ (k.p 4), attr := a }

/-- The refusals of 01 R25 and 06 R171 for region n, `r` being the registers before it. -/
def State.regionBad (s : State) (r : Repl) (n : Nat) (g : Region) (w : Word) : Bool :=
  let a := g.attr
  if a.wpolicy == 3 || a.bwMode == 3 || 64 < n then true
  else if n = 64 then bits w 0 5 != 0 || a.mpAlias
  else
    let overlap := (List.range 64).any fun j =>
      j != n && (let x := r.regionAt j
                 x.attr.enable && decide (x.base.toNat < g.limit.toNat) && decide (g.base.toNat < x.limit.toNat))
    let mib := a.enable && (bits g.base 0 20 != 0 || bits g.limit 0 20 != 0
      || decide (s.mpWays a.homeDie < (r.setRegion n g).mpMiB a.homeDie))
    (a.enable && (decide (g.limit.toNat ≤ g.base.toNat) || overlap))
      || (a.local' && !s.planned a.homeDie)
      || (a.mpAlias && (!a.local' || mib))

/-- The deferred command is a REGION_SET. -/
def DefKind.isRegion (k : DefKind) : Bool :=
  match k with
  | .region _ => true
  | _ => false

/-- What makes REGION_SET wait with BUSY (15 R415, 06 R171). -/
def State.regionBusy (s : State) (d : Die) (a : RegionAttr) : Bool :=
  s.anyDef d fun y => match y with
    | .region _ | .join _ _ | .fence _ _ => true
    | .millpond x _ => a.mpAlias && x == a.homeDie
    | _ => false

/-- The change needs the work of 01 R29. -/
def regionFull (n : Nat) (old new : Region) : Bool :=
  n != 64 && (if old.attr.enable && new.attr.enable then
      old.base != new.base || old.limit != new.limit || old.attr.local' != new.attr.local'
        || old.attr.homeDie != new.attr.homeDie || old.attr.mpAlias != new.attr.mpAlias
    else old.attr.enable != new.attr.enable)

/-- The change needs the work of 01 R30. -/
def regionSweeps (n : Nat) (old new : Region) : Bool :=
  (n == 64 || (old.attr.enable && new.attr.enable)) && new.attr.wpolicy != old.attr.wpolicy
    && (new.attr.wpolicy == 1 || new.attr.wpolicy == 2)

/-- REGION_SET. -/
def State.runRegionSet (d : Die) (k : Taken) (s : State) : State :=
  let n := bits (k.p 1) 0 7
  let r := (s.pad d).repl
  let old := r.regionAt n
  let g := regionOfWords k n old
  if s.regionBad r n g (k.p 6) then s.reply d k .badParam
  else if s.regionBusy d g.attr then s.reply d k .busy
  else
    let v := s.envNow d
    if envRefuses v { v with r := v.r.setRegion n g } then s.reply d k .notPermitted
    else if regionFull n old g then
      let s := s.defer d k (.region { n := n, new := g, full := true })
      (s.members d).foldl (fun s x => s.modShep x fun h => { h with regionHold := true }) s
    else
      let s := (s.modRepl d fun r => r.setRegion n g).envChanged d
      if regionSweeps n old g then s.defer d k (.region { n := n, new := g, full := false, step := 3 })
      else s.reply d k .done

/-- REGION_SET (15 R415). -/
def execRegionSet (d : Die) (s : State) : Host.Outcome State Fault Refusal :=
  .next (s.runTaken d 0x40 (State.runRegionSet d))

/-! ### REGION_SWITCH (01 R29, R30) -/

/-- The REQ flits of a paddock that are on their way: waiting at a ford, on a ring, in a hand-over stage, a turn
buffer, a crossing buffer or on a Confluence link. -/
def Paddock.reqFlits (q : Paddock) : List ReqFlit :=
  let of (f : Flit) : Option ReqFlit := match f with
    | .req x => some x
    | _ => none
  let cross (l : List CrossItem) : List Flit := l.filterMap fun c => c.flit
  let all := (q.stream.inj.map fun i => i.flit) ++ (q.stream.slots.filterMap fun x => x.flit)
    ++ (q.stream.hand.map fun h => h.flit) ++ (q.stream.turns.map fun t => t.flit)
    ++ (q.conf.edge.toList.flatMap fun e => e.buf.toList.flatMap cross)
    ++ (q.conf.edge.toList.flatMap fun e => cross (e.rx.map fun x => x.2.2))
    ++ (q.conf.mod.toList.flatMap fun m => cross (m.wire.flatMap fun w => w.slots.map fun x => x.2))
  all.filterMap of

/-- The REGION_SET that a leader's Range has deferred, with its number. -/
def State.regionOp (s : State) (lead : Die) : Option (Nat × RegionOp) :=
  match s.defAt lead DefKind.isRegion with
  | some o => (match o.kind with
      | .region r => some (o.id, r)
      | _ => none)
  | none => none

/-- Every fold is done with the lines that satisfy `f`, and no REQ flit for one is on its way (01 R29, step 2). -/
def State.linesIdle (s : State) (lead : Die) (f : Line → Bool) : Bool :=
  (s.live lead).all fun d =>
    let q := s.pad d
    (q.folds.all fun x => !(x.tt.any fun e => f e.line) && !(x.pens.any fun i => f (lineOf i.flit.addr))
      && !(x.mrs.any fun m => f m.line))
      && !(q.reqFlits.any fun x => f (lineOf x.addr))

/-- The lines of a SUSPECT Earmark set that satisfy `f`: nothing records whether they are cached (04 R126). -/
def FC.suspectLines (c : FC) (lo hi : Nat) (f : Line → Bool) : List Line :=
  if c.f.emSuspect.isEmpty then []
  else ((List.range' (lo / 64) (hi / 64 - lo / 64)).map fun i => BitVec.ofNat 46 i).filter fun l =>
    c.f.emSuspect.contains (emSet l) && c.repl.home (lineAddr l) == c.agent && f l

/-- The lines that a fold records or holds under good checks and that satisfy `f`; a fold in OFF has none. -/
def State.heldLines (s : State) (d : Die) (p : PFold) (f : Line → Bool) : List Line :=
  let x := s.power d p
  if x.state == .off && x.waking.isNone then []
  else
    let c := s.fc d p
    ((c.recorded ++ ((c.f.cacheLines.filter fun y => (c.f.ptag y.1 y.2).ok).map fun y =>
      lineOfPool c.n y.1 (c.f.ptag y.1 y.2).tag)).eraseDups).filter f

/-- The tag entry of a way may stand for one of the lines of `f`: it fails its check, or it names one. -/
def FC.mayHold (c : FC) (f : Line → Bool) (y : Nat × Nat) : Bool :=
  let r := c.f.ptag y.1 y.2
  !r.ok || f (lineOfPool c.n y.1 r.tag)

/-- The lines of a region change, as a test of a line. -/
def State.regionLines (s : State) (lead : Die) (r : RegionOp) : Line → Bool := fun l =>
  r.covers ((s.pad lead).repl.regionAt r.n) (lineAddr l).toNat

/-- The lines that the region of a WPOLICY change covers (01 R26, R30). -/
def State.policyLines (s : State) (lead : Die) (r : RegionOp) : Line → Bool := fun l =>
  match (s.pad lead).repl.regionOf (lineAddr l) with
  | some i => decide (i.val = r.n)
  | none => decide (r.n = 64)

/-- Give every member's Shepherd the SweepPurge requests of a region change (01 R29, step 3); `first` adds the lines of
SUSPECT sets. -/
def State.regionSweep (s : State) (lead : Die) (id : Nat) (r : RegionOp) (first : Bool) : State :=
  let f := s.regionLines lead r
  let old := (s.pad lead).repl.regionAt r.n
  let suspects (d : Die) (p : PFold) : List Line :=
    if first then (s.fc d p).suspectLines (min old.base.toNat r.new.base.toNat) (max old.limit.toNat r.new.limit.toNat) f
    else []
  (s.members lead).foldl (fun t d => t.addJob d (jobOf id)
    (pfolds.flatMap fun p => if ((s.pad d).repl.carries d p).isSome then s.heldLines d p f ++ suspects d p else [])) s

/-- The step of a REGION_SET whose wait is over; at the end the registers switch and REQ injection resumes. -/
def State.regionSwitchOf (s : State) (lead : Die) : State :=
  match s.regionOp lead with
  | none => s
  | some (id, r) =>
    let step3 (s : State) : State := s.modDef lead id fun _ => .region { r with step := 3 }
    if r.full then
      let f := s.regionLines lead r
      if r.step = 1 then (if s.linesIdle lead f then (step3 s).regionSweep lead id r true else s)
      else if s.jobOpen (jobOf id) || !s.linesIdle lead f then s
      else if (s.live lead).any fun d => pfolds.any fun p => ((s.pad d).repl.carries d p).isSome && !(s.heldLines d p f).isEmpty then
        s.regionSweep lead id r false
      else
        let s := s.modRepl lead fun x => x.setRegion r.n r.new
        let s := (s.members lead).foldl (fun s d => s.modShep d fun x => { x with regionHold := false }) s
        (s.envChanged lead).finish lead id .done []
    else
      let f := s.policyLines lead r
      let clear := (s.live lead).all fun d => pfolds.all fun p =>
        let x := (s.pad d).folds[p]
        let off := (s.power d p).state == .off
        let c := s.fc d p
        off || (!(x.tt.any fun e => f e.line && e.wpolicy == 0) && !(x.mrs.any fun m => f m.line && m.wpolicy == 0)
          && !(x.dirtyLines.any (c.mayHold f)))
      if clear then s.finish lead id .done [] else s

/-- REGION_SWITCH: in every Range. -/
def State.regionSwitch (s : State) : State := s.leaders.foldl State.regionSwitchOf s

/-- REGION_SWITCH (01 R29). -/
def execRegionSwitch (s : State) : Host.Outcome State Fault Refusal := .next s.regionSwitch

/-! ### Sweeping a Pool way by way -/

/-- A sweep's work on one way of a set: its set state word and tag entry are checked first; an entry that failed is used no
further (12 R311). -/
def FC.sweepWay (c : FC) (op : ReqOp) (y : Nat × Nat) : FC :=
  let bad := !(c.f.ptag y.1 y.2).ok
  let c := c.poolCheckOne y.1 y.2
  if bad then c else (c.wayMaint op y.1 y.2 3 false).1

/-- Write back (`.sweep`) or empty (`.sweepPurge`) one cache way of a fold whose line satisfies `f`, the fold awake. -/
def State.sweepOne (s : State) (d : Die) (p : PFold) (op : ReqOp) (f : Line → Bool) : State :=
  let c := s.fc d p
  let l := (if op == .sweep then c.f.dirtyLines else c.f.cacheLines).filter (c.mayHold f)
  if l.isEmpty then s
  else if (s.power d p).state == .retain then s.wakeFold d p 0
  else
    let s := s.ungate d p
    if !(s.pad d).foldRuns p then s
    else
      let c := s.fc d p
      let free (y : Nat × Nat) : Bool :=
        let r := c.f.ptag y.1 y.2
        !r.ok || (!c.blocked (lineOfPool c.n y.1 r.tag) && !(r.dirty && op == .sweepPurge && c.f.eddyFull))
      match l.find? free with
      | some y => s.putFc (c.sweepWay op y)
      | none => s

/-- The work of a WPOLICY change: one dirty line of each fold (01 R30). -/
def State.regionWork (s : State) (lead : Die) : State :=
  match s.regionOp lead with
  | some (_, r) =>
    if r.full then s
    else
      let f := s.policyLines lead r
      (s.members lead).foldl (fun s d => pfolds.foldl (fun s p =>
        if (s.power d p).state == .off then s else s.sweepOne d p .sweep f) s) s
  | none => s

/-! ### PATCH_LOAD (15 R421) -/

/-- PATCH_LOAD: the image's first line tells whether it is answered BAD_PARAM or DEFERRED. -/
def State.runPatchLoad (d : Die) (k : Taken) (s : State) : State :=
  let a : Addr := BitVec.ofNat 52 (lineOfWords (k.p 1) (k.p 2) * 64)
  if !(s.pad d).shep.deferred.isEmpty then s.reply d k .busy
  else
    s.modShep d fun x => { x with
      nextId := x.nextId + 1
      deferred := [{ id := x.nextId, pkt := k, kind := .patch a (bits (k.p 3) 0 17) false 0 [] }] }

/-- PATCH_LOAD (15 R421). -/
def execPatchLoad (d : Die) (s : State) : Host.Outcome State Fault Refusal :=
  .next (s.runTaken d 0x03 (State.runPatchLoad d))

/-- A PATCH_LOAD in progress at a Shepherd: its number, address, length, whether DEFERRED was answered, the next line to
ask for and the lines read. -/
structure PatchOp where
  id : Nat
  pkt : Taken
  addr : Addr
  bytes : Nat
  said : Bool
  next : Nat
  got : List (Nat × LineData)
  deriving DecidableEq, Repr

/-- The PATCH_LOAD in progress at a Shepherd. -/
def Shep.patchOp (x : Shep) : Option PatchOp :=
  x.deferred.findSome? fun o => match o.kind with
    | .patch a b said n got => some ⟨o.id, o.pkt, a, b, said, n, got⟩
    | _ => none

/-- The tag of a read of line `i` of the image of a PATCH_LOAD; an image has fewer than 4,096 lines. -/
def PatchOp.readTag (o : PatchOp) (i : Nat) : Nat := o.id * 4096 + i

/-- A read of an image belongs to the PATCH_LOAD in progress, and not to one that has ended. -/
def Shep.ownsRead (x : Shep) (tag : Nat) : Bool := x.patchOp.any fun o => o.id == tag / 4096

/-- Lines of an image; the first is always read. -/
def PatchOp.lines (o : PatchOp) : Nat := max 1 ((o.bytes + 63) / 64)

/-- Change a PATCH_LOAD. -/
def State.putPatch (s : State) (d : Die) (o : PatchOp) : State :=
  s.modDef d o.id fun _ => .patch o.addr o.bytes o.said o.next o.got

/-- PATCH_LOAD ends FAILED, 0xC01 filed: after DEFERRED, or with it. -/
def State.patchFail (s : State) (d : Die) (o : PatchOp) : State :=
  let s := if o.said then s else s.answer d o.pkt .deferred [] true
  (s.queueRep d 0xC01 0).finish d o.id .failed []

/-- The bytes of a line, lowest first. -/
def lineBytes (x : LineData) : List Byte := (List.range 64).map fun i => byteOf x i

/-- The little-endian word at a byte offset. -/
def wordAt (l : List Byte) (i : Nat) : Nat :=
  (l.getD i 0).toNat + (l.getD (i + 1) 0).toNat * 2 ^ 8 + (l.getD (i + 2) 0).toNat * 2 ^ 16 + (l.getD (i + 3) 0).toNat * 2 ^ 24

/-- An image passes the checks of 15 R421 against a key hash. -/
def patchOk (l : List Byte) (keyHash : BitVec 256) : Bool :=
  let h := wordAt l 0
  let code := wordAt l 4
  let key := (l.drop (8 + code)).take 64
  let sig := (l.drop (72 + code)).take 64
  h % 256 == 2 && h / 256 % 256 == 1 && h / 65536 != 0 && code % 4 == 0 && decide (4 ≤ code) && decide (code ≤ 65536)
    && l.length == code + 136
    && keyHash != 0 && Config.sha256 key == keyHash && Config.ecdsaOk key sig (Config.sha256 (l.take (8 + code)))

/-- The whole image is read: the signature is checked, and every member runs the patch (15 R421). -/
def State.patchEnd (s : State) (d : Die) (o : PatchOp) : State :=
  let line (i : Nat) : LineData := match o.got.find? fun x => x.1 == i with
    | some x => x.2
    | none => 0
  let img := ((List.range o.lines).flatMap fun i => lineBytes (line i)).take o.bytes
  if patchOk img (s.pad d).aon.keyHash then
    let p : Patch := { level := BitVec.ofNat 16 (wordAt img 0 / 65536), image := img }
    ((s.members d).foldl (fun s x => s.modShep x fun h => { h with patch := p }) s).finish d o.id .done []
  else s.patchFail d o

/-- A line of an image came. -/
def State.patchData (s : State) (d : Die) (i : Nat) (x : LineData) : State :=
  match (s.pad d).shep.patchOp with
  | none => s
  | some o =>
    let o : PatchOp := { o with got := o.got ++ [(i, x)] }
    let code := wordAt (lineBytes x) 4
    if !o.said && o.bytes != code + 136 then
      let s := s.modShep d fun h => { h with deferred := h.deferred.filter fun y => y.id != o.id }
      s.reply d o.pkt .badParam
    else
      let s := if o.said then s else s.answer d o.pkt .deferred [] true
      let o : PatchOp := { o with said := true }
      let s := s.putPatch d o
      if o.lines ≤ o.got.length then s.patchEnd d o else s

/-- A read of an image ended in Err. -/
def State.patchErr (s : State) (d : Die) : State :=
  match (s.pad d).shep.patchOp with
  | none => s
  | some o => s.patchFail d o

/-- The Shepherd asks for the next line of an image: the first alone, then the rest. -/
def State.patchStep (s : State) (d : Die) : State :=
  match (s.pad d).shep.patchOp with
  | none => s
  | some o =>
    if o.lines ≤ o.next || (o.next != 0 && !o.said) || !(s.pad d).shepRuns then s
    else
      let r := s.shepRequest d .getOnce (BitVec.ofNat 52 (o.addr.toNat + 64 * o.next)) (.patch (o.readTag o.next)) none false
      if r.2 then r.1.putPatch d { o with next := o.next + 1 } else s.patchErr d

/-! ### HURDLE_LOG_LOAD (12 R330, R334, 20 R518) -/

/-- Lanes of a link of the network of an ARRAY field: one for each bit of its flits (02, 09). -/
def laneCount (arr : Nat) : Nat :=
  match arr with
  | 0 => 144
  | 1 => 112
  | 2 => 80
  | _ => 576

/-- A record is valid (12 R330): its CRC, its KIND, and fields in range. -/
def recValid (r : BitVec 64) : Bool :=
  let kind := bits r 0 4
  let pf := bits r 7 3
  let arr := bits r 10 3
  let bank := bits r 13 8
  let index := bits r 21 11
  let fold := decide (pf ≤ 4)
  bits r 56 8 == (crc8 56 (bits r 0 56)).toNat && (bits r 32 1 == 0 || kind == 1 || kind == 2)
    && (match kind with
        | 1 | 2 | 4 | 7 => fold
        | 3 => fold && decide (index ≤ 16) && decide (arr ≤ 5)
        | 5 => pf == 7 && decide (arr ≤ 3) && decide (bank ≤ 25) && decide (index < laneCount arr)
        | 6 => pf == 7 && decide (bank ≤ 3) && decide (index < 64)
        | 8 => pf == 7 && decide (arr ≤ 3) && decide (bank ≤ 25)
        | _ => false)

/-- Position of a record. -/
def recDie (r : BitVec 64) : Die := Fin.ofNat 8 (bits r 4 3)

/-- Take a physical way out of service (12 R322, R323, 06 R163 to R165). -/
def FC.recWay (c : FC) (r : BitVec 64) : FC :=
  let w := bits r 21 11
  match bits r 10 3 with
  | 0 => c.disableTallyWay w
  | 1 | 2 | 3 => c.disableEmWay w
  | _ => c.disablePoolWay w

/-- The incoming fold of a loaded fold-failed record, where one is free. -/
def State.spareFor (s : State) (x : Die) (n : LFold) : Option PFold :=
  match ((s.pad x).repl.foldmap[x]).standby with
  | some q => if q == 4 || q.val == n.val then some q else none
  | none => none

/-- Act on a valid record of a member (12 R334); `false` where it must wait for the exclusions of 12 R327. -/
def State.applyRec (s : State) (lead : Die) (k : Taken) (r : BitVec 64) : State × Bool :=
  let x := recDie r
  let p : PFold := Fin.ofNat 5 (bits r 7 3)
  let q := s.pad x
  if q.aon.hlog.any (sameRec r) || q.hurdle.queued.any (sameRec r) then (s, true)
  else
    match bits r 0 4 with
    | 3 => ((s.hurdleStore x r).runFold x p fun c => c.recWay r, true)
    | 6 => (s.hurdleStore x r, true)
    | 4 =>
      if bitAt (q.repl.foldmap[x]).failed p.val then (s.hurdleStore x r, true)
      else
        (match q.repl.carries x p with
         | none => ((((s.hurdleStore x r).failFold x p).foldRep x p 0xB10).recheckDue lead, true)
         | some n =>
           match s.spareFor x n with
           | none => if (s.power x p).state == .drain then (s, false) else ((s.hurdleStore x r).vacate x p, true)
           | some y =>
             if s.moveBusy lead x then (s, false)
             else
               let m : FoldMove := { d := x, n := n, src := p, dst := y, retire := true, silent := true }
               let s := (s.hurdleStore x r).modShep lead fun h => { h with
                 nextId := h.nextId + 1
                 deferred := h.deferred ++ [{ id := h.nextId, pkt := k, kind := .move m }] }
               (s.bringUp x y, true))
    | _ => (s.modPad x fun q => { q with hurdle := { q.hurdle with queued := q.hurdle.queued ++ [r] } }, true)

/-- HURDLE_LOG_LOAD: invalid records are reported, those of absent dies only counted. -/
def State.runHurdleLogLoad (d : Die) (k : Taken) (s : State) : State :=
  let n := bits (k.p 1) 0 5
  if n = 0 || 30 < n then s.reply d k .badParam
  else
    let recs := (List.range n).map fun i => (k.p (2 * i + 3)) ++ (k.p (2 * i + 2))
    let ok (r : BitVec 64) : Bool := recValid r && s.planned (recDie r)
    let here := recs.filter fun r => ok r && s.member d (recDie r)
    let bad := (recs.filter fun r => !ok r).length
    let s := (List.replicate bad 0).foldl (fun s (_ : Nat) => s.hurdleRep d 0xB02) s
    s.defer d k (.hurdleLoad here (n - here.length))

/-- HURDLE_LOG_LOAD (12 R334). -/
def execHurdleLogLoad (d : Die) (s : State) : Host.Outcome State Fault Refusal :=
  .next (s.runTaken d 0x70 (State.runHurdleLogLoad d))

/-- One record of a HURDLE_LOG_LOAD, and the reply once each has been applied or queued. -/
def State.hurdleStep (s : State) (lead : Die) (o : Deferred) (todo : List (BitVec 64)) (ignored : Nat) : State :=
  match todo with
  | r :: rest =>
    let a := s.applyRec lead o.pkt r
    if a.2 then a.1.modDef lead o.id fun _ => .hurdleLoad rest ignored else s
  | [] =>
    let moving := s.anyDef lead fun y => match y with
      | .move m => m.silent
      | _ => false
    if moving then s
    else if ignored = 0 then s.finish lead o.id .done []
    else s.finish lead o.id .partial' [countWord ignored]

end Sys2Proof.Machine
end

