-- ==== Sys2Proof/WellFormed.lean ====
section
/-!
DEFINITION. Which commands an event or access of the part can be: the checks of `Instr.wf`. The meanings have an effect on
every operand: a TLP that fails its check is malformed and discarded with an AER error (16 R430, R450), and a link report
that fails its check changes nothing (log entry 74).
-/

namespace Sys2Proof

/-- A TLP's bytes lie inside one 4 KiB block (16 R442, PCI Express Base 6.0); none of them is a zero-length request. -/
def tlpSpan (off n : Nat) : Bool := decide (off % 4096 + n ≤ 4096)

/-- The number of DWs that a Length field gives: 0 stands for 1,024 (PCI Express Base 6.0). -/
def dwCount (dws : BitVec 10) : Nat := if dws = 0 then 1024 else dws.toNat

/-- What LINK_UP can report: Gen 1 to Gen 6 (0 to 5) and a width of 1, 2, 4, 8 or 16 lanes (16 R451). -/
def linkShape (rate width : Nat) : Bool := decide (rate ≤ 5) && [1, 2, 4, 8, 16].contains width

/-- The operands are those of an event or access that the part can see. -/
def Instr.wf (i : Instr) : Bool :=
  match i with
  | .memoryReadTlp off bytes _ => tlpSpan off.toNat bytes.toNat
  | .memoryWriteTlp off data _ => tlpSpan off.toNat data.length && decide (data.length ≤ 512)
  | .bar0Access off dws write _ _ =>
    tlpSpan (off.toNat / 4 * 4) (dwCount dws * 4) && (write.isNone || decide (dwCount dws * 4 ≤ 512))
  | .h4AliasAccess off x _ =>
    tlpSpan (off.toNat / 4 * 4) (dwCount x.dws * 4) && (x.write.isNone || decide (dwCount x.dws * 4 ≤ 512))
  | .charterRead off dws _ => tlpSpan (off.toNat / 4 * 4) (dwCount dws * 4)
  | .linkUp rate width _ => linkShape rate.toNat width.toNat
  | .l1Entry sub => sub != 0
  | _ => true

end Sys2Proof
end

