-- ==== Sys2Proof/Machine/Tether.lean ====
section
/-!
DEFINITION. The Tether at work (16): inbound TLPs and their pieces, peer windows, host rings, MSI-X, link power,
Bus Master Enable and resets. What it sends to the host is appended to `Tether.out`.
-/

namespace Sys2Proof.Machine

/-- Change the Tether. -/
def State.modTether (s : State) (f : Tether → Tether) : State := { s with tether := f s.tether }

/-- The die whose Tether is powered and clocked. -/
def State.tetherDie (s : State) : Option Die :=
  match s.krovol.tether with
  | some d => if (s.pad d).running && (s.pad d).domOn domSD then some d else none
  | none => none

/-- The Tether's agent (01 R32). -/
def tetherAgent (d : Die) : AgentId := agent d 120

/-- The paddock whose queues a port of die d reaches (15 R396, R426). -/
def State.queueDie (s : State) (d : Die) : Die := if s.inRange d then s.leader d else d

/-- Send a TLP to the host, which keeps the link in L0 (16 R446). -/
def Tether.send (t : Tether) (now : Nat) (o : TlpOut) : Tether :=
  { t with out := t.out ++ [o], idleSince := now, lpm := 0 }

/-- Send a TLP to the host. -/
def State.toHost (s : State) (d : Die) (o : TlpOut) : State := s.modTether fun t => t.send (s.pad d).now o

/-- File a report of the Tether about itself (13 R344). -/
def State.tetherRep (s : State) (d : Die) (code : Nat) (addr : Option Addr) (detail : Nat) : State :=
  s.file d { code := BitVec.ofNat 12 code, reporter := tetherAgent d, subject := tetherAgent d, addr := addr
             atype := 0x3F, t := (s.pad d).now, detail := BitVec.ofNat 16 detail }

/-- AER status bits of an endpoint (PCI Express Base 6.0). -/
inductive AerBit where
  | poisoned | timeout | abort | unexpected | malformed | unsupported
  deriving DecidableEq, Repr

/-- Bit number in the Uncorrectable Error Status register. -/
def AerBit.no (b : AerBit) : Nat :=
  match b with
  | .poisoned => 12
  | .timeout => 14
  | .abort => 15
  | .unexpected => 16
  | .malformed => 18
  | .unsupported => 20

/-- Log an uncorrectable error in AER. -/
def State.aerLog (s : State) (b : AerBit) : State :=
  s.modTether fun t => { t with aerSticky := putBit t.aerSticky b.no true }

/-- Set a bit of the header's Status (16 R431): 8 Master Data Parity Error, 11 Signaled Target Abort, 12 Received Target
Abort, 13 Received Master Abort, 15 Detected Parity Error. -/
def State.pciStatus (s : State) (i : Nat) : State :=
  s.modTether fun t => { t with pciStat := putBit t.pciStat i true }

/-- Completer Abort to the host. -/
def State.abortTlp (s : State) (d : Die) (tag : BitVec 10) : State := (s.toHost d (.complCA tag)).pciStatus 11

/-- Log an uncorrectable error in AER and file it (16 R450). -/
def State.aer (s : State) (d : Die) (b : AerBit) : State := (s.aerLog b).tetherRep d 0x903 none b.no

/-- The Max Payload Size in force, in bytes (16 R430): Device Control [7:5], at most 512. -/
def Tether.maxPayload (t : Tether) : Nat := 128 * 2 ^ min 2 (bits (smGet t.cfg 0x2810 0x58) 5 3)

/-- A malformed TLP (16 R430, R450): one that crosses a 4 KiB boundary or exceeds the Max Payload Size. It is discarded,
and AER logs it. -/
def State.badTlp (s : State) : State :=
  match s.tetherDie with
  | none => s
  | some d =>
    let t := s.tether
    if !t.linkUp || t.perst || t.noTlp || t.flr.isSome then s else s.aer d .malformed

/-! ### Inbound TLPs (16 R433, R434, R437 to R440) -/

/-- What becomes of a memory TLP before a BAR decodes it. -/
inductive TlpGate where
  | none                -- there is no link to bring it
  | silent              -- Unsupported Request of an FLR or of Nightfold entry
  | unsupported         -- Unsupported Request of R434
  | open'
  deriving DecidableEq, Repr

/-- Classify an inbound memory TLP. -/
def Tether.tlpGate (t : Tether) (romOk : Bool) : TlpGate :=
  if !t.linkUp || t.perst then .none
  else if t.noTlp || t.flr.isSome then .silent
  else if !t.mse || t.d3 || !romOk then .unsupported
  else .open'

/-- Answer a read Unsupported Request; a write is discarded. -/
def State.answerUr (s : State) (d : Die) (tag : Option (BitVec 10)) : State :=
  match tag with
  | some g => s.toHost d (.complUR g)
  | none => s

/-- The Range address of an aperture offset (16 R437): none where the bytes leave every enabled window. -/
def Tether.window (t : Tether) (off bytes : Nat) : Option Addr :=
  t.win.toList.findSome? fun w =>
    let lo := w.aperOff.toNat * 2 ^ 20
    if w.enable && decide (lo ≤ off) && decide (off + bytes ≤ lo + 2 ^ w.sizeLog2.toNat) then
      some (BitVec.ofNat 52 (bits w.target 20 12 * 2 ^ 20 + w.targetHi.toNat * 2 ^ 32 + (off - lo)))
    else none

/-- The bytes [addr, addr + n) cut at line boundaries. -/
def cutLines (addr n fuel : Nat) : List (Nat × Nat) :=
  match fuel with
  | 0 => []
  | k + 1 =>
    if n = 0 then []
    else
      let m := min n (64 - addr % 64)
      (addr, m) :: cutLines (addr + m) (n - m) k

/-- A line with the bytes of a list from an offset on. -/
def lineOfBytes (off : Nat) (l : List Byte) : LineData :=
  match l with
  | [] => 0
  | b :: t => (BitVec.ofNat 512 (b.toNat * 2 ^ (8 * off))) ||| lineOfBytes (off + 1) t

/-- The contiguous runs of enabled bytes of a list: offset and bytes. -/
def byteRuns (i : Nat) (cur : List Byte) (l : List (Option Byte)) : List (Nat × List Byte) :=
  let flush : List (Nat × List Byte) := if cur.isEmpty then [] else [(i - cur.length, cur)]
  match l with
  | [] => flush
  | some b :: t => byteRuns (i + 1) (cur ++ [b]) t
  | none :: t => flush ++ byteRuns (i + 1) [] t

/-- The pieces of a write (16 R438). -/
def writePieces (a : Addr) (data : List (Option Byte)) : List PieceReq :=
  (cutLines a.toNat data.length 66).flatMap fun x =>
    let bytes := (data.drop (x.1 - a.toNat)).take x.2
    if x.2 = 64 && bytes.all Option.isSome then
      [{ op := .pushFull, addr := BitVec.ofNat 52 x.1, len := 0, data := some (lineOfBytes 0 (bytes.filterMap id), false) }]
    else
      (byteRuns 0 [] bytes).map fun r =>
        let off := x.1 + r.1
        { op := .pushIO, addr := BitVec.ofNat 52 off, len := r.2.length, data := some (lineOfBytes (off % 64) r.2, false) }

/-- The pieces of a read (16 R438). -/
def readPieces (a : Addr) (bytes : Nat) : List PieceReq :=
  (cutLines a.toNat bytes 66).map fun x => { op := .getOnce, addr := BitVec.ofNat 52 x.1, len := x.2 }

/-- The bytes of a piece's data. -/
def pieceBytes (p : TlpPiece) (d : LineData) : List Byte := (List.range p.len).map fun i => byteOf d (offOf p.addr + i)

/-- Send the completions that are ready, in ascending order (16 R438). -/
def Tether.complete (t : Tether) (now : Nat) (r : TlpRead) (fuel : Nat) : Tether × TlpRead :=
  match fuel with
  | 0 => (t, r)
  | n + 1 =>
    match r.pieces with
    | [] => (t, r)
    | p :: rest =>
      match p.res with
      | some (d, q) => Tether.complete (t.send now (.complD r.tag (pieceBytes p d) q)) now { r with pieces := rest } n
      | none => (t, r)

/-- A piece of a read is answered. -/
def Tether.pieceDone (t : Tether) (now id : Nat) (a : Addr) (d : LineData) (poison : Bool) : Tether :=
  match takeFirst (fun r : TlpRead => r.id == id) t.tlps with
  | none => t
  | some (r, rest) =>
    let r := { r with pieces := updateWhere (fun p : TlpPiece => p.addr == a) (fun p => { p with res := some (d, poison) }) r.pieces }
    let x := Tether.complete t now r (r.pieces.length + 1)
    if x.2.pieces.isEmpty then { x.1 with tlps := rest }
    else { x.1 with tlps := updateWhere (fun y : TlpRead => y.id == id) (fun _ => x.2) t.tlps }

/-- A piece ends in Err: AER logs the answer, and the Tether files nothing (16 R440). -/
def State.pieceErr (s : State) (d : Die) (id : Nat) (write : Bool) (ecode : BitVec 4) : State :=
  if write then s.modTether fun t => { t with inbErr := t.inbErr + 1 }
  else
    match takeFirst (fun r : TlpRead => r.id == id) s.tether.tlps with
    | none => s
    | some (r, rest) =>
      let s := s.modTether fun t => { t with tlps := rest }
      if ecode == 1 then (s.toHost d (.complUR r.tag)).aerLog .unsupported
      else (s.abortTlp d r.tag).aerLog .abort

/-- Open one piece; a target that is not there answers at once. -/
def State.openPiece (s : State) (d : Die) (id : Nat) (relaxed : Bool) (p : PieceReq) : State :=
  let q := s.pad d
  let f := q.repl.request (tetherAgent d) p.op p.addr p.len
  let s := s.pcount d (if p.op == .getOnce then 0x21 else if p.op == .pushIO then 0x22 else 0x23) 0
  if q.repl.absent q.conf.unreach d f.tgt false then s.pieceErr d id (p.op != .getOnce) 1
  else s.modTether fun t => { t with port := t.port.openTxn q.repl f q.now (.tlp id) p.data (!relaxed) }

/-- A read of no byte: one DW, whose bytes nothing states (PCI Express Base 6.0). -/
def State.emptyRead (s : State) (d : Die) (tag : Option (BitVec 10)) : State :=
  match tag with
  | some g =>
    let w := Config.openWord s.fresh
    { s.toHost d (.complD g ((List.range 4).map fun i => w.extractLsb' (8 * i) 8) false) with fresh := s.fresh + 1 }
  | none => s

/-- Open the pieces that wait, in order, while fewer than 1,024 requests are open (16 R438). -/
def State.openWaiting (s : State) (d : Die) (fuel : Nat) : State :=
  match fuel with
  | 0 => s
  | n + 1 =>
    match s.tether.waiting with
    | [] => s
    | x :: rest =>
      if 1024 ≤ s.tether.port.txns.length then s
      else ((s.modTether fun t => { t with waiting := rest }).openPiece d x.id x.relaxed x.req).openWaiting d n

/-- Open what waits and has room. -/
def State.openPieces (s : State) (d : Die) : State := s.openWaiting d s.tether.waiting.length

/-- An inbound TLP to BAR2 (16 R437, R438). An offset from 2^APER_LOG2 on is decoded by no BAR (16 R433). -/
def State.peerTlp (s : State) (off bytes : Nat) (tag : Option (BitVec 10)) (relaxed : Bool)
    (cut : Addr → List PieceReq) : State :=
  match s.tetherDie with
  | none => s
  | some d =>
    match s.tether.tlpGate true with
    | .none => s
    | .silent => s.answerUr d tag
    | .unsupported => (s.answerUr d tag).aer d .unsupported
    | .open' =>
      if 2 ^ s.tether.aperLog2.toNat ≤ off then (s.answerUr d tag).aer d .unsupported
      else
      match s.tether.window off bytes with
      | none =>
        let s := ((s.pcount d 0x20 0).answerUr d tag).aerLog .unsupported
        (s.modTether fun t => { t with inbOut := t.inbOut + 1 }).tetherRep d 0x904 none AerBit.unsupported.no
      | some a =>
        let l := cut a
        let id := s.tether.nextTlp
        let s := if tag.isSome && l.isEmpty then s.emptyRead d tag else s
        let s := (s.pcount d 0x20 0).modTether fun t =>
          let r := l.map fun p => ({ addr := p.addr, len := p.len } : TlpPiece)
          { t with
            nextTlp := id + 1
            idleSince := (s.pad d).now
            lpm := 0
            waiting := t.waiting ++ l.map fun p => { id := id, relaxed := relaxed, req := p }
            tlps := match tag with
              | some g => if r.isEmpty then t.tlps else t.tlps ++ [{ id := id, tag := g, pieces := r }]
              | none => t.tlps }
        s.openPieces d

/-- The Tether may issue a piece now, its sluice and the holds apart: credits (03 R96), the order of a TLP's pieces
(16 R438), and every piece of earlier posted writes ordered (R439). -/
def ReqPort.tetherMay (p : ReqPort) (t : Txn) : Bool :=
  let earlier (f : Txn → Bool) : Bool := p.txns.any fun u => decide (u.seq < t.seq) && f u
  p.hasCredit t && !(earlier fun u => u.purpose == t.purpose && u.phase == .waiting)
    && !(t.inOrder && earlier fun u => u.purpose != t.purpose && u.flit.op.carriesData && !u.placed)

/-- What an answered piece does. -/
def State.tetherEnd (s : State) (d : Die) (e : PortEnd) : State :=
  match e with
  | .done t =>
    let x := t.dat.getD (0, false)
    (match t.purpose with
     | .tlp id =>
       if t.flit.op == .getOnce then s.modTether fun y => y.pieceDone (s.pad d).now id t.flit.addr x.1 x.2 else s
     | _ => s)
  | .err t c =>
    let s := s.pcount d 0x0E 28
    (match t.purpose with
     | .tlp id => s.pieceErr d id t.flit.op.carriesData c
     | _ => s)
  | _ => s

/-- Comp, Ordered or Err at the Tether. -/
def State.tetherRsp (s : State) (d : Die) (r : RspFlit) : State :=
  let x := s.tether.port.rspIn r
  (((s.modTether fun t => { t with port := x.1 }).autoAck d x.2).tetherEnd d x.2).openPieces d

/-- DataToReq at the Tether. -/
def State.tetherDat (s : State) (d : Die) (f : DatFlit) : State :=
  let x := s.tether.port.dataIn f
  (((s.modTether fun t => { t with port := x.1 }).autoAck d x.2).tetherEnd d x.2).openPieces d

/-! ### Peer windows (16 R441, R452) -/

/-- The bytes of a window register set. -/
def PeerWin.span (w : PeerWin) : Nat × Nat :=
  (w.aperOff.toNat * 2 ^ 20, w.aperOff.toNat * 2 ^ 20 + 2 ^ w.sizeLog2.toNat)

/-- The shadows keep 16 R437. -/
def Tether.windowsOk (t : Tether) : Bool :=
  let l := t.shadow.toList.filter fun w => w.enable
  l.all (fun w => decide (20 ≤ w.sizeLog2.toNat) && decide (w.sizeLog2.toNat ≤ 36)
    && decide (w.span.2 ≤ 2 ^ t.aperLog2.toNat))
  && l.zipIdx.all fun x => l.zipIdx.all fun y =>
    x.2 == y.2 || decide (x.1.span.2 ≤ y.1.span.1) || decide (y.1.span.2 ≤ x.1.span.1)

/-- A write of TETHER_WINCTL (16 R441, R452). -/
def Tether.writeWinctl (t : Tether) (v : Word) : Tether :=
  let t := if bitAt v 2 then { t with commitDone := false } else t
  let t := if bitAt v 3 then { t with commitErr := false } else t
  if bitAt v 0 && !t.pending then
    if t.windowsOk then { t with pending := true } else { t with commitErr := true }
  else t

/-- The swap (16 R441). -/
def Tether.swap (t : Tether) : Tether :=
  if t.pending then { t with win := t.shadow, pending := false, commitDone := true } else t

/-! ### Host rings (16 R442, R443) -/

/-- Words of a ring. -/
def HostRing.size (r : HostRing) : Nat := 2 ^ (min 16 (max 6 r.sizeLog2.toNat))

/-- Words asked for and not yet delivered. -/
def HostRing.asked (r : HostRing) : Nat := (r.open'.map fun x => x.want).sum

/-- The index of the next word to fetch. -/
def HostRing.next (r : HostRing) : Nat := (r.head.toNat + r.asked) % r.size

/-- Words placed by the host and not yet asked for. -/
def HostRing.waiting (r : HostRing) : Nat := (r.tail.toNat % r.size + r.size - r.next) % r.size

/-- Max Read Request Size in words, from Device Control [14:12] (PCI Express Base 6.0). -/
def Tether.maxReadWords (t : Tether) : Nat := 32 * 2 ^ (min 5 (bits (smGet t.cfg 0x2810 0x58) 12 3))

/-- Upstream requests may be issued (16 R448, R449). -/
def Tether.upstream (t : Tether) : Bool :=
  t.linkUp && !t.perst && t.bme && !t.quiescing && t.flr.isNone && !t.noTlp && !t.d3

/-- Change a host ring. -/
def Tether.modRing (t : Tether) (q : QN) (f : HostRing → HostRing) : Tether := { t with ring := vmod t.ring q f }

/-- Tags of reads outstanding at the host. -/
def Tether.tags (t : Tether) : List (BitVec 10) :=
  (t.ring.toList.flatMap fun r => r.open'.map fun x => x.tag) ++ (t.dropTags ++ t.deadTags).map fun x => x.tag

/-- The lowest tag not in use. -/
def Tether.freeTag (t : Tether) : Option (BitVec 10) :=
  ((List.range 1024).find? fun i => !(t.tags.any fun x => x.toNat == i)).map fun i => BitVec.ofNat 10 i

/-- HOST_RING_FETCH: words of the next read of a queue (16 R442). -/
def State.ringFetch (s : State) (q : QN) : State :=
  match s.tetherDie with
  | none => s
  | some d =>
    let t := s.tether
    let r := t.ring[q]
    let c := (s.pad (s.queueDie d)).shep.cq[q]
    let addr := r.base.toNat + 4 * r.next
    let n := min (min (min r.waiting (r.size - r.next)) (min t.maxReadWords ((4096 - addr % 4096) / 4)))
      (c.free - r.asked)
    match t.freeTag with
    | some g =>
      if t.upstream && c.ringMode && !r.fault && decide (0 < n) then
        let s := s.modTether fun t => t.modRing q fun r => { r with open' := r.open' ++ [{ tag := g, want := n }] }
        s.toHost d (.memRead g (BitVec.ofNat 64 addr) n)
      else s
    | none => s

/-- Deliver the words that came, in ring order. -/
def State.ringDeliver (s : State) (d : Die) (q : QN) (fuel : Nat) : State :=
  match fuel with
  | 0 => s
  | n + 1 =>
    match (s.tether.ring[q]).open' with
    | [] => s
    | x :: rest =>
      match x.got with
      | [] => s
      | w :: ws =>
        let s := s.modTether fun t => t.modRing q fun r => { r with
          head := BitVec.ofNat 16 ((r.head.toNat + 1) % r.size)
          open' := if x.want ≤ 1 then rest else { x with want := x.want - 1, got := ws } :: rest }
        ((s.cqFetched (s.queueDie d) q w).pcount d 0x24 0).ringDeliver d q n

/-- The reads of a ring that words are still to come for. -/
def HostRing.late (r : HostRing) : List LateRead :=
  (r.open'.filter fun x => decide (x.got.length < x.want)).map fun x => { tag := x.tag, left := x.want - x.got.length }

/-- The words of a late read came, or, with none, its end: it goes from the list when the last of them did. -/
def lateTake (l : List LateRead) (tag : BitVec 10) (n : Option Nat) : List LateRead :=
  (updateWhere (fun x : LateRead => x.tag == tag) (fun x => { x with left := x.left - n.getD x.left }) l).filter fun x =>
    decide (0 < x.left)

/-- Rewind the uncommitted packet of a ring's queue, set HEAD back to its first word, and forget the reads of the
queue; the words still to come are discarded (16 R443, R448). -/
def State.ringRewind (s : State) (d : Die) (q : QN) : State :=
  let s := s.cqCheck (s.queueDie d) q
  let c := (s.pad (s.queueDie d)).shep.cq[q]
  let late := (s.tether.ring[q]).late
  let s := if c.words.isEmpty then s else (s.modCq (s.queueDie d) q CmdQueue.rewind).pcount (s.queueDie d) 0x29 0
  s.modTether fun t => { t.modRing q fun r => { r with
    head := BitVec.ofNat 16 ((r.head.toNat + r.size - c.words.length % r.size) % r.size)
    open' := [] } with dropTags := t.dropTags ++ late }

/-- A host-ring read failed (16 R443). -/
def State.ringFault (s : State) (d : Die) (q : QN) (tag : BitVec 10) (b : AerBit) : State :=
  let s := (s.ringRewind d q).modTether fun t =>
    { t.modRing q fun r => { r with fault := true } with
    dropTags := lateTake t.dropTags tag none, idleSince := (s.pad d).now }
  let s := match b with
    | .unsupported => s.pciStatus 13
    | .abort => s.pciStatus 12
    | .poisoned => if bitAt (smGet s.tether.cfg 0 0x04) 6 then (s.pciStatus 15).pciStatus 8 else s.pciStatus 15
    | .timeout | .unexpected | .malformed => s
  s.aer d b

/-- A quiesce ends when no upstream read is outstanding (16 R448). -/
def Tether.settle (t : Tether) : Tether :=
  if t.quiescing && t.dropTags.isEmpty && t.ring.all (fun r => r.open'.isEmpty) then { t with quiescing := false } else t

/-- Words of a read whose completions are discarded came, or, with no count, its end; none where the tag names no such
read. -/
def Tether.dropped (t : Tether) (tag : BitVec 10) (n : Option Nat) : Option Tether :=
  if t.dropTags.any fun x => x.tag == tag then some (Tether.settle { t with dropTags := lateTake t.dropTags tag n })
  else if t.deadTags.any fun x => x.tag == tag then some { t with deadTags := lateTake t.deadTags tag n }
  else none

/-- The words that an answer brings; an error ends the read. -/
def ringWords (x : RingAnswer) : Option Nat :=
  match x with
  | .words w => some w.length
  | .unsupported | .abort | .poisoned => none

/-- HOST_RING_COMPLETION (16 R442, R443, R448, R449). -/
def State.ringCompletion (s : State) (q : QN) (tag : BitVec 10) (x : RingAnswer) : State :=
  match s.tetherDie with
  | none => s
  | some d =>
    let t := s.tether
    if !t.linkUp || t.perst then s
    else
      let s := s.modTether fun t => { t with idleSince := (s.pad d).now }
      match (t.ring[q]).open'.find? fun r => r.tag == tag with
      | some r =>
        match x with
        | .words w =>
          let add (y : RingRead) : RingRead := if y.tag == tag then { y with got := (y.got ++ w).take y.want } else y
          let s := s.modTether fun t => t.modRing q fun r => { r with open' := r.open'.map add }
          s.ringDeliver d q ((t.ring[q]).asked + 1)
        | .unsupported => s.ringFault d q tag .unsupported
        | .abort => s.ringFault d q tag .abort
        | .poisoned => s.ringFault d q tag .poisoned
      | none =>
        match t.dropped tag (ringWords x) with
        | some _ => s.modTether fun t => (t.dropped tag (ringWords x)).getD t
        | none => s.aer d .unexpected

/-- COMPLETION_TIMEOUT (16 R430, R443): Device Control 2 bit 4 disables it. -/
def State.ringTimeout (s : State) (q : QN) (tag : BitVec 10) : State :=
  match s.tetherDie with
  | none => s
  | some d =>
    let t := s.tether
    let ended (t : Tether) : Tether := { (t.dropped tag none).getD t with idleSince := (s.pad d).now }
    if bitAt (smGet t.cfg 0 0x78) 4 then s
    else if (t.ring[q]).open'.any fun r => r.tag == tag && decide (r.got.length < r.want) then s.ringFault d q tag .timeout
    else if t.dropTags.any fun x => x.tag == tag then (s.modTether ended).aer d .timeout
    else if t.deadTags.any fun x => x.tag == tag then s.modTether ended
    else s

/-- A write of TETHER_HRING_TAIL: the link of an active ring wakes (16 R442, R446). -/
def State.writeTail (s : State) (d : Die) (q : QN) (v : Word) : State :=
  let s := s.modTether fun t => t.modRing q fun r => { r with tail := v.extractLsb' 0 16 }
  if ((s.pad (s.queueDie d)).shep.cq[q]).ringMode then
    s.modTether fun t => { t with lpm := 0, idleSince := (s.pad d).now }
  else s

/-! ### MSI-X (16 R444, R445) -/

/-- A reply queue drives CQ_IRQ (15 R408). -/
def ReplyQueue.irq (x : ReplyQueue) : Bool := x.irqEn && !(x.current.isEmpty && x.replies.isEmpty)

/-- An event queue drives CQ_IRQ. -/
def EventQueue.irq (x : EventQueue) : Bool := x.irqEn && !x.events.isEmpty

/-- A BELL_STICKY bit of class UC or FT: every bit of R363 but the HELD bits. -/
def Paddock.stickyUc (q : Paddock) : Bool := bits q.aon.sticky 0 7 != 0

/-- The condition of BELL_N for a class (13 R353), CE without CE_TO_PIN. -/
def Paddock.bellCond (q : Paddock) (k : FaultClass) : Bool :=
  q.bell.recs.any (fun r => codeClass r.rep.code == k) || bitAt q.bell.ovf k.no || bitAt q.aon.sticky (7 + k.no)
    || (k == .uc && q.stickyUc)

/-- BELL_IRQ[k] of a paddock (13 R354). -/
def Paddock.bellIrq (q : Paddock) (k : FaultClass) : Bool := bitAt q.bell.irqEn k.no && q.bellCond k

/-- Condition of an interrupt source (16 R444), seen from the Tether's die. -/
def State.msixSource (s : State) (d : Die) (n : Nat) : Bool :=
  let l := (s.pad (s.queueDie d)).shep
  if n < 64 then (l.rq[Fin.ofNat 64 n]).irq
  else if n < 96 then (l.eq[Fin.ofNat 32 (n - 64)]).irq
  else
    let k : Option FaultClass := if n = 96 then some .ce else if n = 97 then some .uc else if n = 98 then some .ft else none
    match k with
    | some k => (if s.inRange d then s.members d else [d]).any fun x => (s.pad x).bellIrq k
    | none => false

/-- Condition of a vector. -/
def State.msixCond (s : State) (d : Die) (v : QN) : Bool :=
  (List.range 99).any fun n =>
    let m := s.tether.src[Fin.ofNat 100 n]
    bitAt m 7 && bits m 0 6 == v.val && s.msixSource d n

/-- The four conditions of 16 R445, the link apart. -/
def Tether.msixGo (t : Tether) (v : QN) : Bool :=
  t.msixEn && !t.msixMask && !(t.msix[v]).masked && t.upstream

/-- Send a vector's message. -/
def State.msixWrite (s : State) (d : Die) (v : QN) : State :=
  let e := s.tether.msix[v]
  (s.toHost d (.memWrite (e.addrHi ++ e.addrLo) e.data)).pcount d 0x25 0

/-- A vector falls due (16 R445), which brings the link back to L0 (R446). -/
def State.msixDue (s : State) (d : Die) (v : QN) : State :=
  if s.tether.msixGo v then s.msixWrite d v
  else s.modTether fun t => { t with pba := putBit t.pba v.val true, lpm := 0, idleSince := (s.pad d).now }

/-- The conditions that have turned false since they were last taken (16 R444, R445). -/
def State.msixFalls (s : State) : State :=
  match s.tetherDie with
  | none => s
  | some d =>
    let fell (c : BitVec 64) (v : QN) : BitVec 64 :=
      if bitAt c v.val && !s.msixCond d v then putBit c v.val false else c
    if s.tether.cond = 0 then s
    else s.modTether fun t => { t with cond := (List.finRange 64).foldl fell t.cond }

/-- MSIX_VECTOR_DUE: the vector's condition is taken anew; when it turned true the vector falls due. -/
def State.msixCheck (s : State) (v : QN) : State :=
  match s.tetherDie with
  | none => s
  | some d =>
    let now := s.msixCond d v
    let old := bitAt s.tether.cond v.val
    let s := s.modTether fun t => { t with cond := putBit t.cond v.val now }
    if now && !old then s.msixDue d v else s

/-- MSIX_SEND: a pending vector goes out. -/
def State.msixPending (s : State) (v : QN) : State :=
  match s.tetherDie with
  | none => s
  | some d =>
    if bitAt s.tether.pba v.val && s.tether.msixGo v then
      (s.modTether fun t => { t with pba := putBit t.pba v.val false }).msixWrite d v
    else s

/-- A write of TETHER_MSIX_EOI. -/
def State.msixEoi (s : State) (d : Die) (v : Word) : State :=
  let q : QN := Fin.ofNat 64 (bits v 0 6)
  if s.msixCond d q then s.msixDue d q else s

/-! ### Link power (16 R446) -/

/-- Idle time in ns (16 R451). -/
def Tether.idleNs (t : Tether) : Nat :=
  let n := t.l1Idle.toNat
  (if 2 ≤ n && n ≤ 64 then n else 64) * 1000

/-- The substate that the L1 PM Substates controls allow: ASPM L1.2 is bit 2, L1.1 bit 3 of Control 1. -/
def Tether.subOk (t : Tether) (sub : BitVec 2) : Bool :=
  let c := smGet t.cfg 0 0x168
  sub == 1 || (sub == 2 && bitAt c 3) || (sub == 3 && bitAt c 2)

/-- The link is idle: no TLP queued in either direction, no upstream read outstanding, no vector due (16 R446; log entry
22). A posted write that is issued, and a request whose result an FLR discards, queue no TLP. -/
def Tether.idle (t : Tether) : Bool :=
  t.tlps.isEmpty && t.bar0.isNone && t.waiting.isEmpty
    && t.port.txns.all (fun x => x.phase != .waiting)
    && t.ring.all (fun r => r.open'.isEmpty) && t.dropTags.isEmpty
    && !((List.finRange 64).any fun v => bitAt t.pba v.val && t.msixGo v)

/-- Send an LTR message with the present values. -/
def State.sendLtr (s : State) (d : Die) : State :=
  (s.toHost d (.ltr s.tether.ltr)).modTether fun t => { t with ltrSent := t.ltr }

/-- L1_ENTRY. -/
def State.enterL1 (s : State) (sub : BitVec 2) : State :=
  match s.tetherDie with
  | none => s
  | some d =>
    let t := s.tether
    if sub != 0 && t.linkUp && !t.perst && t.l1En && t.lpm == 0 && t.idle && t.subOk sub
        && decide (t.idleSince + t.idleNs ≤ (s.pad d).now) then
      let s := if t.ltrEn && t.ltr != t.ltrSent then s.sendLtr d else s
      s.modTether fun t => { t with lpm := sub }
    else s

/-- A write of TETHER_LTR. -/
def State.writeLtr (s : State) (d : Die) (v : Word) : State :=
  let t := s.tether
  let s := s.modTether fun t => { t with ltr := v }
  if t.ltrEn && t.linkUp && !t.perst && t.flr.isNone && v != t.ltr then s.sendLtr d else s

/-! ### Bus Master Enable and resets (16 R448 to R450, 19 R516) -/

/-- A change of Bus Master Enable. -/
def State.setBme (s : State) (d : Die) (on : Bool) : State :=
  let t := s.tether
  let s := s.modTether fun t => { t with bme := on }
  if !on && t.bme then
    let open' := (List.finRange 64).filter fun q => !((t.ring[q]).open').isEmpty
    if open'.isEmpty && t.dropTags.isEmpty then s
    else (open'.foldl (fun s q => s.ringRewind d q) s).modTether fun t => { t with quiescing := true }
  else s

/-- Command queues in host-ring mode are flushed (16 R449). -/
def State.flushRings (s : State) (d : Die) : State :=
  let l := s.queueDie d
  (List.finRange 64).foldl (fun s q => if ((s.pad l).shep.cq[q]).ringMode then s.cqEmpty l q else s) s

/-- Configuration space after an FLR: the words and bits that PCI Express Base 6.0 preserves (log entry 22): Link Control,
L1 PM Substates Control 1, and Max_Payload_Size of Device Control. -/
def cfgKept (m : SMap Word) : SMap Word :=
  smSet (m.filter fun e => [0x60, 0x168].contains e.1) 0x2810 0x58
    ((0x2810 &&& ~~~(0xE0 : Word)) ||| (smGet m 0x2810 0x58 &&& 0xE0))

/-- A request whose result an FLR discards (16 R449). -/
def Txn.disown (t : Txn) : Txn := { t with purpose := .job 0 }

/-- The Tether after a reset: registers and configuration space at their reset values. A Hot Reset or link-down event
(`link`) takes the link and the configuration space with it, AER's status being sticky; requests already issued to
the Range run on and their results are discarded. -/
def Tether.afterReset (t : Tether) (k : Krovol) (now : Nat) (link : Bool) : Tether :=
  let r : Tether :=
    { aperLog2 := k.aperLog2, lock := t.lock, flr := some (t.flr.getD now)
      aerSticky := t.aerSticky
      cfg := if link then [] else cfgKept t.cfg
      l1En := if link then false else t.l1En
      deadTags := (t.ring.toList.flatMap HostRing.late) ++ t.dropTags ++ t.deadTags
      port := { t.port with txns := (t.port.txns.filter fun x => x.phase != .waiting).map Txn.disown }
      stalled := t.stalled, bar0 := t.bar0.map fun b => { b with read := none }
      nextTlp := t.nextTlp, out := t.out, perst := t.perst, noTlp := t.noTlp }
  if link then r
  else { r with linkUp := t.linkUp, rate := t.rate, width := t.width, flit := t.flit, idleSince := now }

/-- A Function Level Reset, Hot Reset or link-down event. -/
def State.tetherReset (s : State) (d : Die) (link : Bool) : State :=
  (s.flushRings d).modTether fun t => t.afterReset s.krovol (s.pad d).now link

/-- FLR: a second one merges with the first (16 R449). -/
def State.initiateFlr (s : State) : State :=
  match s.tetherDie with
  | none => s
  | some d => if s.tether.linkUp && !s.tether.perst && s.tether.flr.isNone then s.tetherReset d false else s

/-- A link-down event outside Nightfold entry files 0x901 (16 R447, R450). -/
def State.downEvent (s : State) (d : Die) : State :=
  let s := s.tetherReset d true
  if s.tether.noTlp then s else s.tetherRep d 0x901 none 0

/-- LINK_DOWN. -/
def State.linkLost (s : State) : State :=
  match s.tetherDie with
  | none => s
  | some d => if s.tether.linkUp then s.downEvent d else s

/-- HOT_RESET. -/
def State.hotReset (s : State) : State :=
  match s.tetherDie with
  | none => s
  | some d => if s.tether.linkUp then s.tetherReset d true else s

/-- TETHER_PERST_N. -/
def State.perstAssert (s : State) : State :=
  if s.tether.perst then s
  else
    let s := s.modTether fun t => { t with perst := true }
    match s.tetherDie with
    | none => s
    | some d => s.downEvent d

/-- LINK_UP. -/
def State.linkTrained (s : State) (rate : BitVec 3) (width : BitVec 5) (flit : Bool) : State :=
  match s.tetherDie with
  | none => s
  | some d =>
    let t := s.tether
    if !linkShape rate.toNat width.toNat || t.linkUp || t.perst || t.noTlp || (flit && !s.krovol.flitMode) || (!flit && rate == 5)
        || decide (s.krovol.linkWidth < width.toNat) then s
    else s.modTether fun t => { t with
      linkUp := true, rate := rate, width := width, flit := flit, lpm := 0, idleSince := (s.pad d).now }

end Sys2Proof.Machine
end

