-- ==== Sys2Proof/Machine/Nightfold.lean ====
section
/-!
DEFINITION. Nightfold (14 R375 to R384): its entry and abort points, samples, wakes and exit; and the regulator's
acknowledgements and retries (14 R372).
-/

namespace Sys2Proof.Machine

/-! ### Members in Nightfold -/

/-- Change the Ebb of every member of a leader's Range. -/
def State.modEbbs (s : State) (lead : Die) (f : Ebb → Ebb) : State :=
  (s.members lead).foldl (fun s d => s.modEbb d f) s

/-- Every member is in a phase. -/
def State.allNf (s : State) (lead : Die) (ph : NfPhase) : Bool := (s.members lead).all fun d => (s.pad d).ebb.nf == ph

/-- The NIGHTFOLD_ENTER in progress in a leader's Range; the command outlives the switching off of SH. -/
def State.nfOp (s : State) (lead : Die) : Option Deferred := s.defAt lead fun k => k == .nightfold

/-- A phase for every member. -/
def State.setNf (s : State) (lead : Die) (ph : NfPhase) : State := s.modEbbs lead fun e => { e with nf := ph }

/-! ### NIGHTFOLD_ENTER (14 R377) -/

/-- Operations in progress that answer NIGHTFOLD_ENTER with BUSY. -/
def DefKind.barsNightfold (k : DefKind) : Bool :=
  match k with
  | .foldPower _ _ _ | .move _ | .join _ _ | .fence _ _ | .oppoint _ _ _ _ | .millpond _ _ | .scrub _ _ _ _ _ => true
  | .maint _ | .setway _ | .region _ | .nightfold | .hurdleLoad _ _ | .patch _ _ _ _ _ => false

/-- NIGHTFOLD_ENTER: step 1, every port stops admitting REQ. -/
def State.runNightfoldEnter (d : Die) (k : Taken) (s : State) : State :=
  let halted := (s.members d).any fun x => (s.pad x).bell.ftHalt
  if (s.pad d).aon.nfProg.isNone || halted then s.reply d k .notPermitted
  else if s.anyDef d DefKind.barsNightfold then s.reply d k .busy
  else
    let s := s.defer d k .nightfold
    let keep (x : FoldPower) : FoldPower := { x with beforeNf := x.target }
    (s.members d).foldl (fun s x => s.modPad x fun q => { q with
      ebb := { q.ebb with nf := .step1, nfAbort := false, nfFailed := false, fold := q.ebb.fold.map keep }
      aon := { q.aon with nfStart := q.now, nfBefore := q.aon.nfSamples } }) s

/-- NIGHTFOLD_ENTER (14 R377). -/
def execNightfoldEnter (d : Die) (s : State) : Host.Outcome State Fault Refusal :=
  .next (s.runTaken d 0x61 (State.runNightfoldEnter d))

/-! ### The end of an entry or of Nightfold -/

/-- An entry is abandoned at an abort point (14 R379). -/
def State.nfCount (s : State) (lead : Die) (point : BitVec 3) : State :=
  (s.members lead).foldl (fun s d => s.modPad d fun q => { q with aon := q.aon.aborted point }) s

/-- The final reply of NIGHTFOLD_ENTER (14 R377): SAMPLES and MISMATCHES are taken over the Range. -/
def State.nfReply (s : State) (lead : Die) : State :=
  match s.nfOp lead with
  | none => s
  | some o =>
    let q := s.pad lead
    let at' : Nat := if q.ebb.nfAbort || q.ebb.nfFailed then q.aon.nfLastAbort.toNat else 0
    let samples := ((s.members lead).map fun d => ((s.pad d).aon.nfSamples - (s.pad d).aon.nfBefore).toNat).sum
    let bad := ((s.members lead).map fun d => bit (s.pad d).aon.nfMismatch.isSome).sum
    let st : Status := if q.ebb.nfFailed then .failed else if q.ebb.nfAbort then .partial' else .done
    s.finish lead o.id st ([countWord at', countWord samples, countWord bad] ++ words64 (BitVec.ofNat 64 (q.now - q.aon.nfStart)))

/-- Back to the Active state: REQ admission resumes. -/
def State.nfIdle (s : State) (lead : Die) : State := (s.nfReply lead).setNf lead .idle

/-- A fold of a Range takes its target from before NIGHTFOLD_ENTER again (14 R379, R383): the sweep of step 2 may have woken
it to DOZE. -/
def State.nfTargets (s : State) (lead : Die) : State :=
  (s.members lead).foldl (fun s d => (s.carriers d).foldl (fun s p =>
    if (s.power d p).target == (s.power d p).beforeNf then s else s.setTarget d p (s.power d p).beforeNf) s) s

/-- Abandon an entry at N1 or N2: nothing was switched. -/
def State.nfAbandon (s : State) (lead : Die) (point : BitVec 3) : State := ((s.nfCount lead point).nfTargets lead).nfIdle lead

/-! ### N1 and N2 (14 R378) -/

/-- N1 in a leader's Range: no fold holds a pen item or an entry; step 2, every recorded line is swept. -/
def State.nfN1Of (s : State) (lead : Die) : State :=
  match s.nfOp lead with
  | none => s
  | some o =>
    let empty := (s.members lead).all fun d => (s.pad d).folds.all fun f => f.pens.isEmpty && f.tt.isEmpty
    if !(s.allNf lead .step1 && empty) then s
    else if (s.pad lead).ebb.nfAbort then s.nfAbandon lead 1
    else
      let s := s.setNf lead .step2
      (s.members lead).foldl (fun s d =>
        s.addJob d (jobOf o.id) (((s.carriers d).flatMap fun p => s.heldLines d p fun _ => true).eraseDups)) s

/-- N1, in every Range. -/
def State.nfN1 (s : State) : State := s.leaders.foldl State.nfN1Of s

/-- N1 (14 R378). -/
def execN1 (s : State) : Host.Outcome State Fault Refusal := .next s.nfN1

/-- No cache and no Pool cache way of a die holds a line, and every Eddy is empty. -/
def State.sweptOut (s : State) (d : Die) : Bool :=
  (s.carriers d).all fun p =>
    (s.heldLines d p fun _ => true).isEmpty && ((s.pad d).folds[p]).eddy.isEmpty
      && ((s.power d p).state == .off || ((s.pad d).folds[p]).cacheLines.isEmpty)

/-- The Millpond ways of a position that a program retains, ascending (14 R375). -/
def NfProgram.ways (p : NfProgram) (d : Die) (mp : Nat) : List Nat :=
  (List.range 8).filter fun k => decide (k < mp) && bitAt p.retain (8 * d.val + k)

/-- Sentinel i of S over the retained ways `ks` (14 R376): its way number and its set. -/
def sentinelAt (ks : List Nat) (sn i : Nat) : Nat × Nat :=
  let t := 4096 * ks.length
  let line := i * t / sn
  (ks.getD (line / 4096) 0, line % 4096)

/-- Data of a Millpond line by way number and set. -/
def Fold.millLine (f : Fold) (y : Nat × Nat) : PoolTagRec × LineData :=
  match f.poolPhysAt y.2 (Fin.ofNat 16 (15 - y.1)) with
  | some ph => (f.ptag y.2 ph, f.pdata y.2 ph)
  | none => (poolTagDflt, 0)

/-- Signature of a fold (14 R376). -/
def Fold.signature (f : Fold) (ks : List Nat) (sn : Nat) : BitVec 16 :=
  crc16 (512 * sn) ((List.range sn).foldl (fun acc i => acc * 2 ^ 512 + (f.millLine (sentinelAt ks sn i)).2.toNat) 0)

/-- The signatures of a die's folds that retain a way: those not in OFF. -/
def State.nfSign (s : State) (d : Die) : State :=
  match (s.pad d).aon.nfProg with
  | none => s
  | some pr =>
    let ks := pr.ways d (s.mpWays d)
    let sig (n : LFold) : Option (BitVec 16) :=
      match (s.pad d).repl.pfoldOf d n with
      | some p =>
        if ks.isEmpty || (s.power d p).state == .off then none
        else some (((s.pad d).folds[p]).signature ks (min pr.sentinels (4096 * ks.length)))
      | none => none
    s.modPad d fun q => { q with aon := { q.aon with nfSig := Vector.ofFn sig } }

/-- The marks of SUSPECT sets and dead ways clear (04 R127). -/
def Fold.revive (f : Fold) : Fold :=
  { f with emSuspect := [], em := f.em.filter fun e => !e.2.dead }

/-- Drain every fold of a die that is awake to RETAIN; one on its way up follows when it is. -/
def State.nfDrain (s : State) (d : Die) : State :=
  (s.carriers d).foldl (fun s p =>
    let x := s.power d p
    if x.state == .run || x.state == .doze then s.startDrain d p .retain
    else if x.waking.isSome then s.modPower d p fun y => { y with target := .retain }
    else s) s

/-- The Tether is the endpoint of a leader's Range. -/
def State.leadsTether (s : State) (lead : Die) : Bool :=
  match s.krovol.tether with
  | some d => s.member lead d
  | none => false

/-- N2 in a leader's Range: every cache is empty and every other command accepted before has ended (15 R401, R417, log
entry 98); step 3, the folds go to RETAIN and the Tether takes no TLP. -/
def State.nfN2Of (s : State) (lead : Die) : State :=
  match s.nfOp lead with
  | none => s
  | some o =>
    let others := s.anyDef lead fun k => k != .nightfold
    if !(s.allNf lead .step2 && !s.jobOpen (jobOf o.id) && !others && (s.members lead).all s.sweptOut) then s
    else if (s.pad lead).ebb.nfAbort then s.nfAbandon lead 2
    else
      let s := s.setNf lead .step3
      let s := if s.leadsTether lead then s.modTether fun t => { t with noTlp := true } else s
      (s.members lead).foldl (fun s d =>
        (s.modPad d fun q => { q with folds := q.folds.map Fold.revive }).nfSign d |>.nfDrain d) s

/-- N2, in every Range. -/
def State.nfN2 (s : State) : State := s.leaders.foldl State.nfN2Of s

/-- N2 (14 R378). -/
def execN2 (s : State) : Host.Outcome State Fault Refusal := .next s.nfN2

/-! ### Step 3: switching off -/

/-- Every fold of a die is in RETAIN or OFF. -/
def State.allParked (s : State) (d : Die) : Bool :=
  (s.carriers d).all fun p =>
    let x := s.power d p
    x.waking.isNone && (x.state == .retain || x.state == .off)

/-- No upstream read is outstanding (16 R447). -/
def Tether.readsDone (t : Tether) : Bool := t.ring.all (fun r => r.open'.isEmpty) && t.dropTags.isEmpty

/-- The links enter L2 and SD switches off. -/
def State.nfDownSd (s : State) (d : Die) : State :=
  let sleep (m : ModStat) : ModStat := { m with state := .down, fdi := if m.state == .down then m.fdi else .l2, wire := [] }
  (s.modConf d fun c => { c with mod := c.mod.map sleep }).domOffReq d domSD

/-- The ford positions of SD (09 R232) that have an agent. -/
def State.sdFords (s : State) (d : Die) : List (Fin 16) :=
  (List.finRange 16).filter fun p => posDom p.val == domSD && s.krovol.posUsed d p.val

/-- Step 3 goes on once the folds are parked and the Tether is quiet: the fords of SD are fenced (R366). -/
def State.nfStep3 (s : State) (lead : Die) : State :=
  if !s.allNf lead .step3 then s
  else
    let s := (s.members lead).foldl (fun s d => if (s.pad d).domOn domSD then s.nfDrain d else s) s
    if s.allClocked lead && (s.members lead).all (fun d => s.allParked d && (s.pad d).domOn domSD)
        && (!s.leadsTether lead || s.tether.readsDone) then
      let s := if s.leadsTether lead then s.modTether fun t => { t with linkUp := false } else s
      (s.members lead).foldl (fun s d => (s.sdFords d).foldl (fun s p => s.fencePos d p.val) s) s
    else s

/-- Before SH switches off, the classes that its records hold are kept as sticky bits (13 R352). -/
def State.heldBits (s : State) (d : Die) : State :=
  let b := (s.pad d).bell
  ([FaultClass.ce, FaultClass.uc, FaultClass.ft]).foldl (fun s c =>
    if bitAt b.ovf c.no || b.recs.any fun r => codeClass r.rep.code == c then s.stick d (7 + c.no) else s) s

/-- The record store of a paddock and its registers in SH are lost (13 R352). -/
def Bell.lostWithSh (b : Bell) : Bell := { inbox := b.inbox, ftHalt := b.ftHalt, unlocked := b.unlocked }

/-- SH switches off: the classes held stay as sticky bits, and the record store goes with the domain (13 R352). -/
def State.nfDownSh (s : State) (d : Die) : State :=
  ((s.heldBits d).modPad d fun q => { q with bell := q.bell.lostWithSh }).domOffReq d domSH

/-- A ford of a paddock is fenced on the way into Nightfold: SD goes off behind the last of its fords, SH behind its own
(14 R366). -/
def State.nfFenced (s : State) (d : Die) (pos : Fin 16) : State :=
  let e := (s.pad d).ebb
  if e.nf != .step3 || !bitAt e.culvertEn pos.val then s
  else if posDom pos.val == domSH then (if (s.pad d).domOn domSH then s.nfDownSh d else s)
  else if (s.pad d).domOn domSD && (s.sdFords d).all fun p => bitAt e.culvertEn p.val then s.nfDownSd d
  else s

/-- FENCE_ACK (09 R250, 14 R366). -/
def execFenceAck (d : Die) (pos : Fin 16) (s : State) : Host.Outcome State Fault Refusal :=
  .next ((s.fenceDone d pos).nfFenced d pos)

/-- The queues of a paddock empty as SH switches off (14 R377, 15 R418); pushes that were stalled complete. -/
def State.queuesLost (s : State) (d : Die) : State :=
  ((List.finRange 64).foldl (fun s q => s.cqFlush d q) s).modShep d fun x => { x with
    rq := Vector.replicate 64 {}
    eq := Vector.replicate 32 {} }

/-- A domain of a paddock went off on the way into Nightfold: SH follows SD, its ford fenced first, and HCLK_REQ falls after
SH. -/
def State.nfDomDown (s : State) (d : Die) (i : DomN) : State :=
  if (s.pad d).ebb.nf != .step3 then s
  else if i == domSD then s.fencePos d 15
  else if i == domSH then (s.queuesLost d).modEbb d fun e => { e with hclkReq := false }
  else s

/-! ### N3, N4 (14 R378, R379) -/

/-- Exit from step E2. -/
def State.nfBack (s : State) (d : Die) : State := (s.modEbb d fun e => { e with nf := .exit2 }).domOnReq d domSH

/-- N3 in a leader's Range: HCLK_ACK has fallen everywhere; both rails go to 0.45 V. -/
def State.nfN3Of (s : State) (lead : Die) : State :=
  match s.nfOp lead with
  | none => s
  | some _ =>
    let stopped := (s.members lead).all fun d => !(s.pad d).ebb.hclkReq && !(s.pad d).ebb.hclkAck
    if !(s.allNf lead .step3 && stopped) then s
    else if (s.pad lead).ebb.nfAbort then (s.members lead).foldl State.nfBack (s.nfCount lead 3)
    else (s.setNf lead .step4).writeSupplies lead Config.retentionMv

/-- N3, in every Range. -/
def State.nfN3 (s : State) : State := s.leaders.foldl State.nfN3Of s

/-- N3 (14 R378). -/
def execN3 (s : State) : Host.Outcome State Fault Refusal := .next s.nfN3

/-- E1: the supply of the operating point in force. -/
def State.nfSupplyUp (s : State) (lead : Die) : State :=
  (s.members lead).foldl (fun s d => s.writeSupply d (Config.supplyMv (s.pad d).ebb.point)) (s.setNf lead .exit1)

/-- Every line of the Millpond ways `ks` (way 15 - k) zeroed with a good DCRC and VALID 1 (06 R144, R170); POISON marks
what Nightfold lost (06 R174). -/
def Fold.millFill (f : Fold) (ks : List Nat) (poison : Bool) : Fold :=
  ks.foldl (fun f k => (List.range 4096).foldl (fun f set =>
    match f.poolPhysAt set (Fin.ofNat 16 (15 - k)) with
    | some ph => f.pline set ph 0 0 false poison
    | none => f) f) f

/-- After N4: banks not retained switch off, and a fold without a retained way goes to OFF. -/
def State.nfBanks (s : State) (d : Die) : State :=
  match (s.pad d).aon.nfProg with
  | none => s
  | some pr =>
    let mp := s.mpWays d
    let ks := pr.ways d mp
    (s.carriers d).foldl (fun s p =>
      if (s.power d p).state == .off then s
      else if ks.isEmpty then
        ((s.modPower d p fun x => { x with state := .off }).modFold d p fun f => { f with millLost := decide (0 < mp) }).domOffReq
          d (domFA p)
      else s.modFold d p fun f => f.millFill ((List.range mp).filter fun k => !ks.contains k) true) s

/-- N4 in a leader's Range: every acknowledgement has arrived; the package is in Nightfold. The banks switch off at the end
of its LCLK tick: until then a wake abandons the entry (14 R379). -/
def State.nfN4Of (s : State) (lead : Die) : State :=
  match s.nfOp lead with
  | none => s
  | some _ =>
    if !(s.allNf lead .step4 && s.allAcked lead) then s
    else if (s.pad lead).ebb.nfAbort then (s.nfCount lead 4).nfSupplyUp lead
    else
      (s.members lead).foldl (fun s d => s.modEbb d fun e => { e with nf := .inside (s.pad d).ticks, nfNext := 1 }) s

/-- N4, in every Range. -/
def State.nfN4 (s : State) : State := s.leaders.foldl State.nfN4Of s

/-- N4 (14 R378). -/
def execN4 (s : State) : Host.Outcome State Fault Refusal := .next s.nfN4

/-! ### Samples (14 R381, R382) -/

/-- The logical folds of a die that retain a way. -/
def AlwaysOn.retained (a : AlwaysOn) : List LFold := lfolds.filter fun n => (a.nfSig[n]).isSome

/-- The data of a retained line decayed: its DCRC no longer passes. -/
def Fold.decay (f : Fold) (y : Nat × Nat) : Fold :=
  match f.poolPhysAt y.2 (Fin.ofNat 16 (15 - y.1)) with
  | some ph => f.corruptData y.2 ph
  | none => f

/-- The first failing sentinel of a fold: one whose DCRC fails, or sentinel 0 where only the signature differs. -/
def Fold.sentinelBad (f : Fold) (ks : List Nat) (sn : Nat) (sig : BitVec 16) : Option Nat :=
  match (List.range sn).find? fun i =>
      let x := f.millLine (sentinelAt ks sn i)
      x.1.dcrc != dataCrc x.2 with
  | some i => some i
  | none => if f.signature ks sn != sig then some 0 else none

/-- The address of a Millpond line (06 R171): the region and offset that map to it. -/
def Repl.millAddr (r : Repl) (d : Die) (n : LFold) (y : Nat × Nat) : Addr :=
  let hit := r.regions.toList.findSome? fun g =>
    if g.attr.enable && g.attr.mpAlias && g.attr.homeDie == d then
      ((List.range ((g.limit.toNat - g.base.toNat) / 2 ^ 20)).findSome? fun k =>
        ((List.range 4).map fun j => BitVec.ofNat 52 (g.base.toNat + k * 2 ^ 20 + y.2 * 256 + j * 64)).find? fun a =>
          r.mpSlot a == some (y.2, 15 - y.1) && homeFold a == n)
    else none
  hit.getD 0

/-- Tide of the alarm. -/
def AlwaysOn.alarmTide (a : AlwaysOn) : Nat := a.alarm.toNat

/-- The alarm falls due in this LCLK tick (14 R393). While HCLK is stopped Tide moves by 1,000 a tick. -/
def Paddock.alarmDue (q : Paddock) : Bool :=
  let t := q.aon.alarmTide
  decide (t ≤ q.now) && (decide (q.now < t + 1000) || q.running && t / 1000 == q.now / 1000) && q.wakeEn 2

/-- The check of a sample (14 R381, step 3): DCRC of every sentinel and the signature; then the fold's logic goes off and
0.45 V is written. A mismatch is kept, and wakes the package. -/
def State.sampleCheck (s : State) (d : Die) (x : SampleRun) : State :=
  match (s.pad d).aon.nfProg with
  | none => s
  | some pr =>
    let ks := pr.ways d (s.mpWays d)
    let sn := min pr.sentinels (4096 * ks.length)
    let s := match x.bad with
      | some i => if i.toNat < sn then s.modFold d x.p fun f => f.decay (sentinelAt ks sn i.toNat) else s
      | none => s
    let s := s.modPad d fun q => { q with
      ebb := { q.ebb with sample := some { x with phase := .back } }
      aon := { q.aon with nfSamples := q.aon.nfSamples + 1 } }
    let s := (s.domOffReq d (domFL x.p)).writeSupply d Config.retentionMv
    let q := s.pad d
    match (q.folds[x.p]).sentinelBad ks sn ((q.aon.nfSig[x.n]).getD 0) with
    | none => s
    | some i =>
      let m : NfMismatch := { addr := q.repl.millAddr d x.n (sentinelAt ks sn i), pfold := x.p, tide := q.now }
      (s.modPad d fun q => { q with aon := { q.aon with nfMismatch := some m } }).nfWake

/-- A step of the sample in progress whose wait is over. -/
def State.sampleGoes (s : State) (d : Die) : State :=
  match (s.pad d).ebb.sample with
  | none => s
  | some x =>
    match x.phase with
    | .rails =>
      if (s.pad d).ebb.acked then
        (s.modEbb d fun e => { e with sample := some { x with phase := .power } }).domOnReq d (domFL x.p)
      else s
    | .power => if (s.pad d).domOn (domFL x.p) then s.sampleCheck d x else s
    | .back =>
      if (s.pad d).ebb.acked && !bitAt (s.pad d).ebb.pswAck (domFL x.p).val then
        s.modEbb d fun e => { e with sample := none }
      else s

/-- A sample is due: a wake of the same LCLK tick wins (14 R382), a sample still running lets it go; else it begins with the
supply, the retained fold of its turn its subject. -/
def State.sample (s : State) (d : Die) (bad : Option (BitVec 13)) : State :=
  let q := s.pad d
  match q.ebb.nf, q.aon.nfProg with
  | .inside a, some pr =>
    let due := (q.ticks - a) / (1000 * max 1 pr.interval)
    let l := q.aon.retained
    let j := q.ebb.nfNext
    if pr.sentinels = 0 || l.isEmpty || due < j then s
    else if dies.any fun x => (s.pad x).alarmDue then s.nfWake
    else
      let skip := q.aon.nfSkipped.toNat + (due - j) + bit q.ebb.sample.isSome
      let s := s.modPad d fun q => { q with
        ebb := { q.ebb with nfNext := due + 1 }
        aon := { q.aon with nfSkipped := BitVec.ofNat 16 (min 65535 skip) } }
      if q.ebb.sample.isSome then s
      else
        match l[(due - 1) % l.length]? with
        | none => s
        | some n =>
          match q.repl.pfoldOf d n with
          | none => s
          | some p =>
            let s := (s.modEbb d fun e => { e with sample := some { n := n, p := p, bad := bad } }).writeSupply d Config.sampleMv
            if q.aon.islandOk then s else s.stick d 6
  | _, _ => s

/-- SENTINEL_SAMPLE (14 R381). -/
def execSentinelSample (d : Die) (bad : Option (BitVec 13)) (s : State) : Host.Outcome State Fault Refusal :=
  .next (s.sample d bad)

/-! ### Exit (14 R383) -/

/-- E2: the Shepherd verifies the patch that its RAM retained (15 R422). -/
def State.verifyPatch (s : State) (d : Die) : State :=
  let x := (s.pad d).shep.patch
  if x.level == 0 || patchOk x.image (s.pad d).aon.keyHash then s
  else (s.modShep d fun h => { h with patch := {} }).queueRep d 0xC01 0

/-- The steps E1 to E4 of a paddock whose waits are over. -/
def State.nfExit (s : State) (d : Die) : State :=
  let e := (s.pad d).ebb
  match e.nf with
  | .exit1 => if e.acked then s.nfBack d else s
  | .exit2 =>
    if (s.pad d).domOn domSH then
      (s.verifyPatch d).modEbb d fun e => { e with
        nf := .exit3, hclkReq := true, hclkOp := e.point, hclkTick := (s.pad d).ticks }
    else s
  | .exit3 => if e.hclkAck then (s.modEbb d fun e => { e with nf := .exit4 }).domOnReq d domSD else s
  | _ => s

/-- A module of a die still trains. -/
def State.trains (s : State) (d : Die) : Bool := (s.pad d).conf.mod.any fun m => m.state == .training

/-- E5: every link has trained or failed, edges without a module up are lost, and the folds take their targets. -/
def State.nfWakeFolds (s : State) (lead : Die) : State :=
  let ready := (s.members lead).all fun d => (s.pad d).domOn domSD && !s.trains d
  if !(s.allNf lead .exit4 && ready) then s
  else
    let s := s.setNf lead .exit5
    let s := (s.members lead).foldl (fun s d => edges.foldl (fun s e =>
      if ((s.pad d).conf.edge[edgeNo e]).inUse && !s.edgeUp d e then s.edgeLost d e else s) s) s
    (s.members lead).foldl (fun s d => (s.carriers d).foldl (fun s p => s.setTarget d p (s.power d p).beforeNf) s) s

/-- The held mismatch of a paddock is filed (14 R381). -/
def State.fileMismatch (s : State) (d : Die) : State :=
  match (s.pad d).aon.nfMismatch with
  | none => s
  | some m =>
    let a := match (s.pad d).repl.carries d m.pfold with
      | some n => foldAgent d n
      | none => agent d 68
    s.file d { code := 0xA10, reporter := a, subject := a, addr := some m.addr, atype := 0x3E, t := m.tide
               detail := BitVec.ofNat 16 m.pfold.val }

/-- E6: every fold with target RUN or DOZE is up again; REQ admission resumes, mismatches are filed, the final reply is
sent. -/
def State.nfEnd (s : State) (lead : Die) : State :=
  let up := (s.members lead).all fun d => (s.carriers d).all fun p =>
    let x := s.power d p
    (x.beforeNf != .run && x.beforeNf != .doze) || ((x.state == .run || x.state == .doze) && x.waking.isNone)
  if !(s.allNf lead .exit5 && up) then s
  else
    let s := ((s.members lead).foldl State.fileMismatch s).nfIdle lead
    (s.members lead).foldl (fun s d => s.modPad d fun q => { q with aon := { q.aon with nfMismatch := none } }) s

/-- What Nightfold does of itself as its waits end: the steps that have no command of their own. -/
def State.nfWork (s : State) (lead : Die) : State :=
  ((((s.members lead).foldl State.nfExit s).nfStep3 lead).nfWakeFolds lead).nfEnd lead

/-! ### The alarm (14 R393) -/

/-- EBB_ALARM: the first LCLK tick in which Tide has reached EBB_ALARM. -/
def State.alarmAt (s : State) (d : Die) : State := if (s.pad d).alarmDue then s.nfWake else s

/-- EBB_ALARM (14 R393). -/
def execEbbAlarm (d : Die) (s : State) : Host.Outcome State Fault Refusal := .next (s.alarmAt d)

/-! ### The regulator (14 R372) -/

/-- AVSBUS_ACK: a status with VDone for the last write. -/
def State.avsAck (s : State) (d : Die) (rail : RailN) : State :=
  match (s.pad d).ebb.avs[rail] with
  | none => s
  | some w =>
    let s := s.modEbb d fun e => { e with avs := vset e.avs rail none, volt := vset e.volt rail w.mv }
    ((s.oppGoes d).nfExit d).sampleGoes d

/-- AVSBUS_ACK (14 R372). -/
def execAvsbusAck (d : Die) (rail : RailN) (s : State) : Host.Outcome State Fault Refusal := .next (s.avsAck d rail)

/-- Step 4 of an entry stopped by 0xE10 unwinds as for N4 (14 R379). -/
def State.nfFail (s : State) (lead : Die) : State :=
  match s.nfOp lead with
  | some _ =>
    if s.allNf lead .step4 then ((s.modEbbs lead fun e => { e with nfFailed := true }).nfCount lead 4).nfSupplyUp lead else s
  | none => s

/-- 0xE10 in a paddock stops what its Range was doing with the supply. -/
def State.supplyFails (s : State) (d : Die) : State :=
  match s.leadOf d with
  | some l => (s.oppFail l).nfFail l
  | none => s

/-- AVSBUS_RETRY: 500 ticks without an acknowledgement; the write is issued again, and the third unanswered retry is
reported. -/
def State.avsRetry (s : State) (d : Die) (rail : RailN) : State :=
  match (s.pad d).ebb.avs[rail] with
  | none => s
  | some w =>
    let now := (s.pad d).ticks
    if now < w.tick + 500 then s
    else
      let put (k : Nat) (s : State) : State :=
        s.modEbb d fun e => { e with avs := vset e.avs rail (some { w with tick := now, retries := k }) }
      if w.retries < 3 then (put (w.retries + 1) s).pcount d 0x32 0
      else if w.retries = 3 then (((put 4 s).stick d 1).pcount d 0x32 0).supplyFails d
      else (put 4 s).pcount d 0x32 0

/-- AVSBUS_RETRY (14 R372). -/
def execAvsbusRetry (d : Die) (rail : RailN) (s : State) : Host.Outcome State Fault Refusal := .next (s.avsRetry d rail)

/-! ### LCLK absent (11 R286) -/

/-- LCLK_ABSENT: 3,000 ns of HCLK cycles, or 1,500 SOSC cycles while HCLK is stopped, without a tick. -/
def State.lclkLost (s : State) (d : Die) : State :=
  let a := (s.pad d).aon
  let gap := decide (3000 * 2 ^ 24 < a.gapFx) || decide (1500 ≤ a.soscGap)
  if !(s.pad d).boot.poreset && gap then s.stick d 4 else s

/-- LCLK_ABSENT (11 R286). -/
def execLclkAbsent (d : Die) (s : State) : Host.Outcome State Fault Refusal := .next (s.lclkLost d)

end Sys2Proof.Machine
end

