-- ==== Sys2Proof/Machine/CensusCmds.lean ====
section
/-!
DEFINITION. Census of a paddock (17 R458 to R465): its bank and registers, the capture at a period boundary and the
records it writes.
-/

namespace Sys2Proof.Machine

/-! ### Registers of the paddock bank (17 R465) -/

/-- The offsets of the Census window from the paddock bank on that hold a register. -/
def padCensusLaid (off : Nat) : Bool :=
  off % 4 == 0 && ((decide (0x1400 ≤ off) && decide (off ≤ 0x14C0)) || [0x14C8, 0x14CC, 0x1800, 0x1804].contains off)

/-- Read a register of the paddock bank; a _LO read captures its _HI half. -/
def Census.regRead (x : Census) (off : Nat) : Census × Word :=
  let wide (i : Fin 17) (v : Nat) : Census × Word :=
    if off % 8 = 0 then ({ x with hi := vset x.hi i (BitVec.ofNat 32 (v / 2 ^ 32)) }, BitVec.ofNat 32 v) else (x, x.hi[i])
  if off < 0x1480 then
    let k : Fin 16 := Fin.ofNat 16 ((off - 0x1400) / 8)
    wide (Fin.ofNat 17 k.val) (x.ctr[k]).val.toNat
  else if off < 0x14C0 then
    let n := x.ctr[(Fin.ofNat 16 ((off - 0x1480) / 4))]
    (x, word [(0, n.sel.toNat), (6, n.unit.toNat), (15, bit n.en)])
  else if off = 0x14C0 then (x, BitVec.ofNat 32 x.ovf.toNat)
  else if off = 0x14C8 || off = 0x14CC then wide 16 x.cycle.toNat
  else if off = 0x1800 then
    (x, word [(0, bit x.cfg.en), (1, bit (x.bank.any fun b => decide (0 < b.open'))), (16, x.skipped)])
  else if off = 0x1804 then (x, x.lastPeriod)
  else (x, 0)

/-- Write a register of the paddock bank. -/
def Census.regWrite (x : Census) (off : Nat) (v : Word) : Census :=
  if 0x1480 ≤ off && off < 0x14C0 then
    let i : Fin 16 := Fin.ofNat 16 ((off - 0x1480) / 4)
    let sel : BitVec 6 := v.extractLsb' 0 6
    { x with
      selchg := x.selchg || (x.ctr[i]).sel != sel
      ctr := vmod x.ctr i fun c => { c with sel := sel, unit := v.extractLsb' 6 5, en := bitAt v 15 } }
  else if off = 0x14C0 then { x with ovf := x.ovf &&& ~~~(v.extractLsb' 0 16) }
  else x

/-! ### Records (17 R463) -/

/-- The bytes of a value, lowest first. -/
def leBytes (n v : Nat) : List Byte := (List.range n).map fun i => BitVec.ofNat 8 (v >>> (8 * i))

/-- The header word of a record. -/
def recHead (kind : Nat) (d pf lf : Nat) (gap restart selchg cleared : Bool) : Nat :=
  kind + d * 2 ^ 8 + pf * 2 ^ 11 + lf * 2 ^ 14 + 2 ^ 16 + bit gap * 2 ^ 24 + bit restart * 2 ^ 25 + bit selchg * 2 ^ 26
    + bit cleared * 2 ^ 27

/-- Bytes 0x00 to 0xFB of a record with its CRC-16 behind them. -/
def recSeal (l : List Byte) : List Byte :=
  let body := (l ++ List.replicate 252 0).take 252
  body ++ leBytes 4 (crc16 (8 * 252) (body.foldl (fun acc b => acc * 256 + b.toNat) 0)).toNat

/-- A fold's record. -/
def FC.dumpRec (c : FC) (k : Nat) (gap cleared : Bool) : List Byte :=
  let x := c.f.census
  let v8 (n : Nat) : List Byte := leBytes 8 n
  recSeal (leBytes 4 (recHead 1 c.die.val c.p.val c.n.val gap x.restart x.selchg cleared) ++ leBytes 4 k ++ v8 c.now
    ++ v8 x.cycle.toNat ++ (x.slot.toList.flatMap fun s => v8 s.toNat) ++ (x.ctr.toList.flatMap fun s => v8 s.val.toNat)
    ++ (x.ctr.toList.flatMap fun s => leBytes 1 (s.sel.toNat + bit s.en * 128)) ++ leBytes 4 x.ovf.toNat
    ++ ([c.f.seqStat, c.f.poolStat, c.f.emOcc, c.f.emMus, c.f.bwStat].flatMap fun w => leBytes 4 w.toNat))

/-- STREAM_STAT of a paddock (09 R254). -/
def State.streamStat (s : State) (d : Die) : Word :=
  let q := (s.pad d).stream
  word ([(16, bit q.turnW), (17, bit q.turnE), (18, bit q.turnV), (19, q.epoch.toNat)]
    ++ (List.range 16).map fun f => (f, bit (s.culvert d f)))

/-- The paddock's record. -/
def State.padRec (s : State) (d : Die) (k : Nat) (gap : Bool) : List Byte :=
  let q := s.pad d
  let x := q.census
  recSeal (leBytes 4 (recHead 2 d.val 7 0 gap false x.selchg x.cleared) ++ leBytes 4 k ++ leBytes 8 q.now
    ++ leBytes 8 x.cycle.toNat ++ (x.ctr.toList.flatMap fun s => leBytes 8 s.val.toNat)
    ++ (x.ctr.toList.flatMap fun s => leBytes 2 (s.sel.toNat + s.unit.toNat * 2 ^ 6 + bit s.en * 2 ^ 15))
    ++ leBytes 4 x.ovf.toNat ++ leBytes 4 (s.streamStat d).toNat)

/-! ### Writing the records (17 R461, R462) -/

/-- Change a paddock's Census. -/
def State.modCensus (s : State) (d : Die) (f : Census → Census) : State :=
  s.modPad d fun q => { q with census := f q.census }

/-- Change what one bank of a paddock has under way. -/
def State.modBank (s : State) (d : Die) (j : Fin 5) (f : DumpBank → DumpBank) : State :=
  s.modCensus d fun x => { x with bank := vmod x.bank j f }

/-- File 0xF01 of a paddock's dump; an Err names the fold that a request went to. -/
def State.dumpRep (s : State) (d : Die) (subject : AgentId) (a : Option Addr) (atype : BitVec 6) : State :=
  s.file d { code := 0xF01, reporter := shepAgent d, subject := subject, addr := a, atype := atype, t := (s.pad d).now }

/-- A request of a record ended in Err or found no home: 0xF01 once for the record. -/
def State.dumpErr (s : State) (d : Die) (j : Fin 5) (subject : AgentId) (a : Addr) : State :=
  let b := (s.pad d).census.bank[j]
  let s := s.modBank d j fun b => { b with failed := true, open' := b.open' - 1 }
  if b.failed then s else s.dumpRep d subject (some a) ReqOp.pushFull.code

/-- Where record j of a die goes for period k. -/
def DumpCfg.slot (c : DumpCfg) (k : Nat) (d : Die) (j : Fin 5) : Nat :=
  c.base.toNat + k % 2 ^ c.depth * 0x4000 + (d.val * 8 + j.val) * 0x100

/-- Write one record as four PushFull requests. -/
def State.dumpWrite (s : State) (d : Die) (j : Fin 5) (k : Nat) (l : List Byte) : State :=
  let at' := (s.pad d).census.cfg.slot k d j
  let till := (k + 1) * (s.pad d).census.periodNow
  let s := s.modBank d j fun _ => { open' := 4, k := some k, till := till }
  (List.range 4).foldl (fun s i =>
    let a : Addr := BitVec.ofNat 52 (at' + 64 * i)
    let data := lineOfBytes 0 ((l.drop (64 * i)).take 64)
    let r := s.shepRequest d .pushFull a (.dump k) (some (data, false)) false
    if r.2 then r.1 else s.dumpErr d j ((s.pad d).repl.home a) a) s

/-- A bank's record for a period: written, or not under R462. The flag tells that it was not. -/
def State.dumpBank (s : State) (d : Die) (j : Fin 5) (k : Nat) (rec : Bool → List Byte) : State × Bool :=
  let b := (s.pad d).census.bank[j]
  if 0 < b.open' || (b.failed && !b.gap) then
    let s := if b.failed && !b.gap then s else s.dumpRep d (shepAgent d) none 0x3F
    (s.modBank d j fun b => { b with gap := true }, true)
  else (s.dumpWrite d j k (rec b.gap), false)

/-- Every record of period k in the Range has its Comp (17 R461): event 0x06. Periods of different lengths are told apart
by the Tide `till` at which they end. -/
def State.dumpDone (s : State) (d : Die) (k till : Nat) : State :=
  let mine (b : DumpBank) : Bool := b.k.isSome && b.till == till
  let past (q : Paddock) : Bool := decide (till ≤ q.census.capEnd)
    && !(q.census.bank.any fun b => mine b && (decide (0 < b.open') || b.failed))
  let l := s.members d
  if l.all (fun x => past (s.pad x)) && l.any (fun x => (s.pad x).census.bank.any mine) then s.event 6 d (k % 65536) else s

/-- A request of a record has its Comp. -/
def State.dumpComp (s : State) (d : Die) (j : Fin 5) (k : Nat) : State :=
  let s := s.modBank d j fun b => { b with open' := b.open' - 1 }
  let x := (s.pad d).census
  let till := (x.bank[j]).till
  if x.bank.any fun b => b.k.isSome && b.till == till && (decide (0 < b.open') || b.failed) then s
  else
    (s.modCensus d fun x => if x.lastTill ≤ till then { x with lastPeriod := BitVec.ofNat 32 k, lastTill := till } else x).dumpDone
      d k till

/-- The record that a request address belongs to. -/
def dumpSlot (a : Addr) : Fin 5 := Fin.ofNat 5 (bits a 8 3)

/-! ### The boundary of a period (17 R460) -/

/-- CLEAR: every counter and overflow bit of a paddock's banks. -/
def Paddock.censusClear (q : Paddock) : Paddock :=
  let ctr (c : CensusCtr) : CensusCtr := { c with val := 0 }
  { q with
    folds := q.folds.map fun f => { f with census := { f.census.zero with ovf := 0 } }
    census := { q.census with ctr := q.census.ctr.map ctr, ovf := 0, cycle := 0 } }

/-- The clock-gated folds of a paddock are ungated for the capture cycle, and the cycle counts (17 R460). -/
def State.captureCycle (s : State) (d : Die) : State :=
  pfolds.foldl (fun s p =>
    if (s.power d p).gated && (s.pad d).domOn (domFL p) then
      let c := (s.fc d p).endCycle 2
      s.modFold d p fun _ => c.f
    else s) s

/-- The period boundary, where one is due: capture, the records, a new configuration. The cycle or tick that brings Tide
to the boundary takes it, so that every later event counts in period k + 1 (00 R5, log entry 72). -/
def State.censusBoundary (s : State) (d : Die) : State :=
  let q := s.pad d
  let x := q.census
  let p := x.periodNow
  let k := x.nextK
  if !q.running || !q.domOn domSD || (!x.cfgSet && x.pendCfg.isNone) || q.now < (k + 1) * p then s
  else
    let write := x.cfgSet && x.cfg.en && s.inRange d
    let s0 := s
    let one (r : State × Bool) (n : LFold) : State × Bool :=
      match q.repl.pfoldOf d n with
      | some f =>
        if q.domOn (domFL f) then
          let j : Fin 5 := Fin.ofNat 5 n.val
          let y := r.1.dumpBank d j k fun gap => (s0.fc d f).dumpRec k gap x.cleared
          (y.1, r.2 || y.2)
        else r
      | none => r
    let r := if write then
        let r := lfolds.foldl one (s, false)
        let y := r.1.dumpBank d 4 k fun gap => s0.padRec d k gap
        (y.1, r.2 || y.2)
      else (s, false)
    let clear := match x.pendCfg with
      | some c => c.clear
      | none => false
    let s := r.1.modPad d fun q =>
      let fold (f : Fold) : Fold := { f with census := { f.census with restart := false, selchg := false } }
      let c := q.census
      let cfg := c.pendCfg.getD c.cfg
      let c : Census := { c with
        skipped := if r.2 then min 65535 (c.skipped + 1) else c.skipped
        selchg := false
        cleared := clear
        cfg := cfg
        pendCfg := none
        cfgSet := true
        capEnd := (k + 1) * p
        nextK := max (if c.pendCfg.isSome then 0 else k + 1) (q.now / max 1 cfg.period) }
      { q with folds := q.folds.map fold, census := c }
    let s := if clear then s.modPad d Paddock.censusClear else s
    let s := s.captureCycle d
    if write then s.dumpDone d k ((k + 1) * p) else s

/-- The boundaries of every paddock. -/
def State.censusBoundaries (s : State) : State := dies.foldl State.censusBoundary s

/-- CENSUS_PERIOD_BOUNDARY (17 R460). -/
def execCensusPeriodBoundary (d : Die) (s : State) : Host.Outcome State Fault Refusal := .next (s.censusBoundary d)

end Sys2Proof.Machine
end

