-- ==== Sys2Proof/Machine/Gate.lean ====
section
/-!
DEFINITION. A Gate or Stile at work (08, 19 R503 to R509): accepting items, ordering, the combining buffer, the
reorder buffer, barriers, answers to the agent. Every event is a function of `AC`; `State.runAgent` applies one.
-/

namespace Sys2Proof.Machine

/-- A Gate or Stile at work: constants of the event first, then what it changes. -/
structure AC where
  k : Krovol
  die : Die
  n : AgentN
  repl : Repl
  unreach : BitVec 8
  now : Nat
  cyc : Nat
  a : AgentPort
  out : List InjItem := []
  reps : List Report := []
  counts : List (Nat × Nat) := []
  deriving DecidableEq, Repr

/-- The agent's identifier. -/
def AC.me (c : AC) : AgentId := portAgent c.die c.n

/-- It is a Gate. -/
def AC.gate (c : AC) : Bool := decide (c.n.val < 4)

/-- The agent has a cache. -/
def AC.caching (c : AC) : Bool := c.k.caches c.me

/-- Count a paddock event of a Gate (17 R458). -/
def AC.ev (c : AC) (sel : Nat) : AC := { c with counts := c.counts ++ [(sel, c.n.val)] }

/-- Drive an item to the agent. -/
def AC.drive (c : AC) (o : OutItem) : AC := { c with a := { c.a with out := c.a.out ++ [o] } }

/-- Change the requester port. -/
def AC.modPort (c : AC) (f : ReqPort → ReqPort) : AC := { c with a := { c.a with port := f c.a.port } }

/-- Hand a flit to the ford. -/
def AC.send (c : AC) (net : Net) (cls : Cls) (f : Flit) : AC :=
  { c with out := c.out ++ [{ net := net, pos := fordOfLocal (localOf c.me), agent := c.me, cls := cls, flit := f, since := c.cyc }] }

/-- File a report. -/
def AC.rep (c : AC) (code : Nat) (subject : AgentId) (a : Option Addr) (atype : BitVec 6) : AC :=
  let r : Report := { code := BitVec.ofNat 12 code, reporter := c.me, subject := subject, addr := a, atype := atype
                      t := c.now, detail := 0 }
  { c with reps := c.reps ++ [r] }

/-- Change one core's status. -/
def AC.modCore (c : AC) (i : Core) (f : CoreStat → CoreStat) : AC := { c with a := { c.a with core := vmod c.a.core i f } }

/-! ### Cores and purposes -/

/-- The core that a transaction's purpose names. -/
def Purpose.core (p : Purpose) : Option Core :=
  match p with
  | .agent _ c | .half _ c _ | .lowerOnly _ c => c
  | _ => none

/-- The agent's tag of a transaction. -/
def Purpose.ctag (p : Purpose) : Option (BitVec 8) :=
  match p with
  | .agent t _ | .half t _ _ | .lowerOnly t _ => some t
  | _ => none

/-- The cores of a mask. -/
def coresOf (m : BitVec 4) : List Core := ([0, 1, 2, 3] : List Core).filter fun c => bitAt m c.val

/-- A write of a core (08 R211). -/
def ReqOp.isWrite (o : ReqOp) : Bool :=
  match o with
  | .getOwned | .upgrade | .claim | .pushIO | .pushFull | .atomicOp | .devWrite => true
  | _ => false

end Sys2Proof.Machine

namespace Sys2Proof

/-- An access that a LOAD barrier waits for (08 R209, R210); an atomic counts as a load and a store. -/
def ReqOp.isLoad (o : ReqOp) : Bool :=
  match o with
  | .getShared | .getOnce | .devRead | .atomicOp => true
  | _ => false

/-- An access that a STORE barrier waits for. -/
def ReqOp.isStore (o : ReqOp) : Bool :=
  match o with
  | .getOwned | .upgrade | .claim | .pushIO | .pushFull | .atomicOp | .devWrite => true
  | _ => false

/-- A write that a Stile keeps in order (08 R222). -/
def ReqOp.stileWrite (o : ReqOp) : Bool :=
  match o with
  | .pushIO | .pushFull | .devWrite | .atomicOp => true
  | _ => false

/-- The kind as a Gate serves it: a cluster's own GetOnce, DevRead and DevWrite are its loads and stores. -/
def ReqItem.gateKind (it : ReqItem) : ItemKind :=
  match it.kind with
  | .coherent .getOnce => .ncLoad
  | .coherent .devRead => .devLoad
  | .coherent .devWrite => .devStore
  | k => k

/-- Opcode an item stands for, as an access type (13 R346). -/
def ReqItem.atype (it : ReqItem) : BitVec 6 :=
  match it.kind with
  | .coherent op => op.code
  | .ncLoad => 3
  | .ntStore => 12
  | .devLoad => 0x18
  | .devStore => 0x19

/-- The tag of a data item that belongs to a request or store. -/
def DatItem.ctag (x : DatItem) : Option (BitVec 8) :=
  match x with
  | .putData g _ _ | .pushData g _ _ _ | .storeData g _ _ _ => some g
  | .snpData _ _ _ => none

end Sys2Proof

namespace Sys2Proof.Machine

/-- The cores a transaction writes for: its own, or those of a drain. -/
def Txn.writers (t : Txn) : List Core :=
  match t.purpose with
  | .drain _ m => coresOf m
  | p => if t.flit.op.isStore then p.core.toList else []

/-- Record the error of a write for a core (08 R211). -/
def AC.writeErr (c : AC) (i : Core) (l : Line) : AC :=
  c.modCore i fun x => { x with
    writeErr := true, errCount := x.errCount + 1, errPending := true
    errAddr := match x.errAddr with
      | some a => some a
      | none => some l }

/-! ### Reorder buffer (08 R205) -/

/-- Deliver the result of an access. -/
def AC.deliver (c : AC) (ctag : BitVec 8) (core : Option Core) (r : RobResult) : AC :=
  if r.ecode != 0 then c.drive (.err ctag r.ecode core)
  else
    match r.data with
    | some (d, p) => (c.drive (.data ctag d p)).drive (.comp ctag r.grant true core p)
    | none => c.drive (.comp ctag r.grant false core false)

/-- The lower half alone was performed (08 R214). -/
def AC.lowerDone (c : AC) (ctag : BitVec 8) (core : Option Core) (d : Option (LineData × Bool)) : AC :=
  let c := match d with
    | some (x, p) => c.drive (.data ctag x p)
    | none => c
  let c := match core with
    | some i => c.modCore i fun x => { x with splitCancelled := true }
    | none => c
  c.drive (.lowerOnly ctag core)

/-- Deliver the result of an entry of its own. -/
def AC.deliverOne (c : AC) (e : RobEntry) : AC :=
  let r := e.res.getD {}
  if e.lower && r.ecode == 0 then c.lowerDone e.ctag e.core r.data else c.deliver e.ctag e.core r

/-- The results of the two halves of a split access as one (08 R213). -/
def joinHalves (lo up : RobResult) (upLen : Nat) : RobResult :=
  if lo.ecode != 0 then { ecode := lo.ecode }
  else if up.ecode != 0 then { ecode := up.ecode }
  else
    match lo.data, up.data with
    | some (a, p), some (b, q) => { data := some (mergeBytes a b 0 upLen, p || q) }
    | _, _ => {}

/-- An earlier load of the same core and line is still open (08 R204): unanswered, or its response waits. -/
def AC.earlierLoad (c : AC) (core : Option Core) (seq : Nat) (l : Line) : Bool :=
  core.isSome && (c.a.port.txns.any (fun t =>
      decide (t.seq < seq) && t.purpose.core == core && lineOf t.flit.addr == l && t.flit.op.isLoad && !t.answered)
    || c.a.rob.any fun e => decide (e.seq < seq) && e.core == core && e.line == l && e.op.isLoad)

/-- The transaction needs a reorder-buffer entry when it issues (08 R205); half of a split access is one, its other
half cancelled or not. -/
def AC.needsRob (c : AC) (t : Txn) : Bool :=
  match t.purpose with
  | .half _ _ _ | .lowerOnly _ _ => true
  | .agent _ core => c.gate && (t.flit.op == .devRead || (t.flit.op.isLoad && c.earlierLoad core t.seq (lineOf t.flit.addr)))
  | _ => false

/-- The reorder-buffer entry of a transaction. -/
def Txn.robEntry (t : Txn) : RobEntry :=
  let half : Option Bool := match t.purpose with
    | .half _ _ u => some u
    | _ => none
  { seq := t.seq, core := t.purpose.core, line := lineOf t.flit.addr, ctag := t.purpose.ctag.getD 0, op := t.flit.op
    half := half, lower := t.purpose matches .lowerOnly _ _, upLen := t.flit.len.toNat }

/-- Reorder-buffer entries in use (08 R226). -/
def AgentPort.robUsed (a : AgentPort) : Nat := (a.rob.filter fun e => e.slot).length

/-- The entry is the first of its core. -/
def AC.robFirst (c : AC) (e : RobEntry) : Bool :=
  !(c.a.rob.any fun o => o.core == e.core && decide (o.seq < e.seq))

/-- An earlier DEVICE read of the core is unanswered, issued or not (08 R201). -/
def AC.earlierDev (c : AC) (core : Option Core) (seq : Nat) : Bool :=
  core.isSome && c.a.port.txns.any fun t =>
    decide (t.seq < seq) && t.purpose.core == core && t.flit.op == .devRead && !t.answered

/-- The result of an entry is there, and no earlier load of the core from its line is open (08 R204), nor an earlier
DEVICE read of the core where it is one (R201). -/
def AC.robReady (c : AC) (e : RobEntry) : Bool :=
  e.res.isSome && !c.earlierLoad e.core e.seq e.line && !(e.op == .devRead && c.earlierDev e.core e.seq)

/-- The entry of the upper half of a split access, by the entry of its lower half. -/
def AC.upperOf (c : AC) (e : RobEntry) : Option RobEntry :=
  c.a.rob.find? fun o => e.half == some false && o.seq == e.seq + 1 && o.ctag == e.ctag && o.half == some true

/-- Deliver one result that may go: the two halves of a split access together (08 R214). -/
def AC.robOne (c : AC) : AC :=
  let elig (e : RobEntry) : Bool :=
    c.robReady e && c.robFirst e &&
      (match e.half with
       | some false => (match c.upperOf e with
         | some u => c.robReady u
         | none => false)
       | some true => false
       | none => true)
  match c.a.rob.find? elig with
  | none => c
  | some e =>
    match c.upperOf e with
    | some u =>
      let r := joinHalves (e.res.getD {}) (u.res.getD {}) u.upLen
      AC.deliver { c with a := { c.a with rob := (c.a.rob.erase e).erase u } } e.ctag e.core r
    | none => AC.deliverOne { c with a := { c.a with rob := c.a.rob.erase e } } e

/-- Deliver what may go, in program order of each core. -/
def AC.robDrain (c : AC) (fuel : Nat) : AC :=
  match fuel with
  | 0 => c
  | n + 1 =>
    let d := c.robOne
    if d.a.rob.length == c.a.rob.length then d else d.robDrain n

/-! ### Ends of transactions -/

/-- A transaction that used the reorder buffer has its result. -/
def AC.robResult (c : AC) (t : Txn) (r : RobResult) : AC :=
  { c with a := { c.a with rob := updateWhere (fun e => e.seq == t.seq) (fun e => { e with res := some r }) c.a.rob } }

/-- A transaction ends in Err (08 R211, R60): nothing else of it is delivered. One that ends before it was issued is
answered in the place of an entry all the same: a half with its other half (R214), a load behind an earlier response
that its core must have first (R201, R204); NOT_PRESENT goes to the core at once (R202). -/
def AC.endErr (c : AC) (t : Txn) (ecode : BitVec 4) : AC :=
  let held := c.needsRob t && (ecode != 1 || t.purpose matches .half _ _ _)
  let c := c.modPort fun p => (p.uncredit t).close t.flit.txid
  let c := t.writers.foldl (fun c i => c.writeErr i (lineOf t.flit.addr)) c
  if t.rob then c.robResult t { ecode := ecode }
  else if held then
    { c with a := { c.a with rob := c.a.rob ++ [{ t.robEntry with slot := false, res := some { ecode := ecode } }] } }
  else
    match t.purpose.ctag with
    | some g => c.drive (.err g ecode t.purpose.core)
    | none => c

/-- A transaction is answered: what its purpose asks for is delivered; it closes unless its CompAck is due. -/
def AC.answeredNow (c : AC) (t : Txn) : AC :=
  let ack := match t.comp with
    | some r => r.ackreq
    | none => false
  let grant := match t.comp with
    | some r => r.state
    | none => .i
  let c := if ack then c else c.modPort fun p => p.close t.flit.txid
  if t.rob then c.robResult t { data := t.dat, grant := grant } else c

/-! ### Opening transactions -/

/-- A request as the port would send it. -/
def AC.flit (c : AC) (op : ReqOp) (addr : Addr) (len : Nat) : ReqFlit :=
  let tgt := if op.isDev then
      (match c.k.devwinOf addr with
       | some w => w.agent
       | none => c.repl.home addr)
    else c.repl.home addr
  { op := op, src := c.me, tgt := tgt, txid := 0, cls := (c.repl.attrOf addr).cls, dl := 0, addr := addr
    len := match op with
      | .getOnce | .pushIO | .devRead | .devWrite => BitVec.ofNat 7 len
      | _ => 0 }

/-- Open a transaction with the order number `seq`; a target that is not there is answered at once. -/
def AC.openTxn (c : AC) (f : ReqFlit) (seq stamp : Nat) (p : Purpose) (mt : MemType) (d : Option (LineData × Bool)) : AC :=
  match c.a.port.freeTxid with
  | none => c
  | some x =>
    let t := stampTxn c.repl { f with txid := x } seq stamp p mt
    let t := match d with
      | some (b, q) => { t with data := b, haveData := true, dataPoison := q }
      | none => t
    let t := { t with inOrder := !c.gate && c.a.writeOrder && f.op.stileWrite }
    if c.repl.absent c.unreach c.die f.tgt f.op.isPut then c.endErr t 1
    else c.modPort fun p => { p with txns := p.txns ++ [t] }

/-- The next order number. -/
def AC.nextSeq (c : AC) : Nat := c.a.port.nextSeq

/-- Use up `k` order numbers. -/
def AC.useSeq (c : AC) (k : Nat) : AC := c.modPort fun p => { p with nextSeq := p.nextSeq + k }

/-! ### Combining buffer (08 R206 to R208) -/

/-- The first contiguous run of a byte mask at or above `i`: its offset and length. -/
def firstRun (be : LineMask) (i fuel : Nat) : Option (Nat × Nat) :=
  match fuel with
  | 0 => none
  | n + 1 =>
    if bitAt be i then
      some (i, ((List.range (64 - i)).takeWhile fun j => bitAt be (i + j)).length)
    else firstRun be (i + 1) n

/-- Bytes [off, off + len) as a byte mask. -/
def runMask (off len : Nat) : LineMask := BitVec.ofNat 64 ((2 ^ len - 1) * 2 ^ off)

/-- Issue a drained write (08 R207): with a data credit, stamped now; to an absent home it ends in Err at once. -/
def AC.drainOne (c : AC) (l : Line) (off len : Nat) (d : LineData) (poison : Bool) (cores : BitVec 4) (seq : Nat) :
    Option AC :=
  let f := if len = 64 then c.flit .pushFull (lineAddr l) 0
    else c.flit .pushIO (BitVec.ofNat 52 (l.toNat * 64 + off)) len
  let pl := if len = 64 then d else keepBytes d off len
  if c.repl.absent c.unreach c.die f.tgt false then
    some ((coresOf cores).foldl (fun c i => c.writeErr i l) c)
  else if c.a.port.credits[pkgFold f.tgt] = 0 then none
  else
    match c.a.port.freeTxid with
    | none => none
    | some x =>
      let t := stampTxn c.repl { f with txid := x } seq c.now (.drain l cores) .normalNC
      let t := { t with data := pl, haveData := true, dataPoison := poison, credit := true }
      some (c.modPort fun p => { p with
        txns := p.txns ++ [t], credits := vmod p.credits (pkgFold f.tgt) fun n => n - 1 })

/-- Issue the requests of a draining entry in ascending order while credits last; the entry is freed with its last. -/
def AC.drainEntry (c : AC) (l : Line) (fuel : Nat) : AC :=
  match fuel with
  | 0 => c
  | n + 1 =>
    match c.a.cb.find? fun e => e.line == l && e.draining with
    | none => c
    | some e =>
      match firstRun e.be 0 64 with
      | none => { c with a := { c.a with cb := c.a.cb.erase e } }
      | some (off, len) =>
        match c.drainOne l off len e.data e.poison e.cores e.drainSeq with
        | none => c
        | some c =>
          let be := e.be &&& ~~~(runMask off len)
          let cb := if be == 0 then c.a.cb.erase e else updateWhere (fun x => x == e) (fun x => { x with be := be }) c.a.cb
          AC.drainEntry { c with a := { c.a with cb := cb } } l n

/-- Mark an entry to be drained, at the next place of the port's order, and count the trigger. -/
def AC.startDrain (c : AC) (l : Line) (sel : Nat) : AC :=
  if c.a.cb.any fun e => e.line == l && !e.draining then
    let n := c.nextSeq
    let go (e : CbEntry) : CbEntry := { e with draining := true, drainSeq := n }
    let cb := updateWhere (fun e : CbEntry => e.line == l) go c.a.cb
    (AC.ev { c with a := { c.a with cb := cb } } sel).useSeq 1
  else c

/-- An entry holds the line, or a request drained from one waits for its Ordered or Comp (08 R208). -/
def AC.drainOpen (c : AC) (l : Line) : Bool :=
  c.a.cb.any (fun e => e.line == l) || c.a.port.txns.any fun t =>
    (match t.purpose with
     | .drain x _ => x == l
     | _ => false) && !t.ordered && t.comp.isNone

/-- A transaction is an access that a conflict with the combining buffer concerns (08 R208). -/
def Txn.conflicts (t : Txn) : Bool :=
  match t.purpose with
  | .drain _ _ => false
  | _ => !t.flit.op.isPut

/-- A barrier of the core holds a later access (08 R209). -/
def AC.barHolds (c : AC) (core : Option Core) (seq : Nat) (load store : Bool) : Bool :=
  c.a.bars.any fun b => some b.core == core && decide (b.seq < seq) &&
    (match b.kind with
     | .load => load || store
     | .store => store
     | .full => load || store)

/-- The store can enter the combining buffer now, its entry apart: its data is there, no barrier holds it, its lower
half went first (08 R213), and no store or other access of the line that the Gate received before it still waits
(R204, R206, R208). -/
def AC.storeMay (c : AC) (w : StoreWait) : Bool :=
  w.data.isSome && !c.barHolds w.core w.seq false true
    && !(c.a.stores.any fun o => decide (o.seq < w.seq) && (o.line == w.line || (w.upper && o.ctag == w.ctag)))
    && !(c.a.port.txns.any fun t =>
          decide (t.seq < w.seq) && lineOf t.flit.addr == w.line && t.phase == .waiting
            && (if t.flit.op.isDev then c.gate && w.core.isSome && t.purpose.core == w.core else t.conflicts))

/-- Write a store's bytes into an entry. -/
def CbEntry.merge (e : CbEntry) (d : LineData) (be : LineMask) (poison : Bool) (core : Option Core) : CbEntry :=
  { e with
    data := mergeMask e.data d be, be := e.be ||| be, poison := e.poison || poison
    cores := match core with
      | some i => putBit e.cores i.val true
      | none => e.cores }

/-- The core mask of one core. -/
def coreMask (core : Option Core) : BitVec 4 :=
  match core with
  | some i => putBit 0 i.val true
  | none => 0

/-- Let one waiting store go as far as it can. -/
def AC.storeGo (c : AC) (w : StoreWait) : AC :=
  match w.data with
  | none => c
  | some (d, be, poison) =>
    let be := be &&& runMask w.off w.len
    let gone (c : AC) : AC := { c with a := { c.a with stores := c.a.stores.filter fun x => x.seq != w.seq } }
    if !c.storeMay w || (w.conflict && c.drainOpen w.line) then c
    else if be == 0 then gone c
    else
      match c.a.cb.find? fun e => e.line == w.line with
      | some e =>
        if c.a.cbEn && e.draining then c
        else if c.a.cbEn then
          let e' := e.merge d be poison w.core
          let c := gone { c with a := { c.a with cb := updateWhere (fun x => x == e) (fun _ => e') c.a.cb } }
          if e'.be == BitVec.allOnes 64 then (c.startDrain w.line 0x04).drainEntry w.line 65 else c
        else
          let c := c.startDrain w.line 0x06
          let stores := updateWhere (fun x : StoreWait => x.seq == w.seq) (fun x => { x with conflict := true }) c.a.stores
          AC.drainEntry { c with a := { c.a with stores := stores } } w.line 65
      | none =>
        let e : CbEntry :=
          { line := w.line, data := mergeMask 0 d be, be := be, cores := coreMask w.core, alloc := c.cyc
            poison := poison }
        if !c.a.cbEn then
          match firstRun be 0 64 with
          | none => gone c
          | some (off, len) =>
            match c.drainOne w.line off len e.data poison e.cores w.seq with
            | none => c
            | some c =>
              let rest := be &&& ~~~(runMask off len)
              if rest == 0 then gone c
              else
                let stores := updateWhere (fun x : StoreWait => x.seq == w.seq)
                  (fun x => { x with data := some (d, rest, poison) }) c.a.stores
                { c with a := { c.a with stores := stores } }
        else if c.a.cb.length < 16 then
          let c := gone { c with a := { c.a with cb := c.a.cb ++ [e] } }
          if be == BitVec.allOnes 64 then (c.startDrain w.line 0x04).drainEntry w.line 65 else c
        else
          match leastBy (fun x : CbEntry => x.alloc) c.a.cb with
          | some x => if x.draining then c else (c.startDrain x.line 0x06).drainEntry x.line 65
          | none => c

/-! ### Barriers (08 R209, R210) -/

/-- An AtomicOp is done: at its Comp when it ran far; when it ran near, at the CompAck its Comp asks for, which follows
the operation and closes it (07 R185, 08 R210). -/
def Txn.atomicDone (t : Txn) : Bool :=
  match t.comp with
  | some r => !r.ackreq
  | none => false

/-- A load of the core from before the barrier is not yet done (08 R210): the data of a cached load and of a DEVICE
read is to be delivered, that of any other to be received. -/
def AC.loadOpen (c : AC) (b : BarWait) : Bool :=
  let open' (t : Txn) : Bool := match t.flit.op with
    | .getShared => t.dat.isNone
    | .atomicOp => !t.atomicDone
    | _ => !t.answered
  c.a.port.txns.any (fun t => t.purpose.core == some b.core && decide (t.seq < b.seq) && t.flit.op.isLoad && open' t)
    || c.a.rob.any fun e =>
        e.core == some b.core && decide (e.seq < b.seq) && (e.op == .getShared || e.op == .devRead)

/-- A store of the core from before the barrier is not yet done; a SYSTEM barrier waits for every PutCopy. -/
def AC.storeOpen (c : AC) (b : BarWait) : Bool :=
  c.a.port.txns.any (fun t => t.purpose.core == some b.core && decide (t.seq < b.seq) && t.flit.op.isStore &&
      (if t.flit.op == .atomicOp then !t.atomicDone else t.comp.isNone) && !(t.ordered && (t.flit.op == .pushIO || t.flit.op == .pushFull)))
    || c.a.port.txns.any (fun t =>
        (match t.purpose with
         | .drain _ m => bitAt m b.core.val
         | _ => false) && !t.ordered && t.comp.isNone)
    || c.a.cb.any (fun e => bitAt e.cores b.core.val)
    || c.a.stores.any (fun w => w.core == some b.core && decide (w.seq < b.seq))
    || (b.scope == .system && c.a.port.txns.any fun t => t.flit.op == .putCopy && decide (t.seq < b.seq) && t.comp.isNone)

/-- The barrier can be answered. -/
def AC.barDone (c : AC) (b : BarWait) : Bool :=
  match b.kind with
  | .load => !c.loadOpen b
  | .store => !c.storeOpen b
  | .full => !c.loadOpen b && !c.storeOpen b

/-- Answer a barrier, with the error of an earlier write (08 R211). -/
def AC.barAnswer (c : AC) (b : BarWait) : AC :=
  let c : AC := { c with a := { c.a with bars := c.a.bars.filter fun x => x.seq != b.seq } }
  let err := b.kind != .load && (c.a.core[b.core]).errPending
  let c := if err then c.modCore b.core fun x => { x with errPending := false, barrierErr := true } else c
  c.drive (.barrier b.ctag b.core err)

/-! ### Progress -/

/-- What a waiting barrier or access starts to drain: an entry that names a core whose STORE or FULL barrier waits
(08 R207), and an entry of the line of an access that is yet to issue (R208). -/
def AC.waitDrain (c : AC) : AC :=
  let named (e : CbEntry) : Bool :=
    c.a.bars.any (fun b => b.kind != .load && bitAt e.cores b.core.val) ||
      (c.gate && c.a.port.txns.any fun t => t.phase == .waiting && t.conflicts && lineOf t.flit.addr == e.line)
  (c.a.cb.filter named).foldl (fun c e => c.startDrain e.line 0x06) c

/-- Let draining entries, waiting stores, held results and barriers go as far as they can. -/
def AC.settleN (c : AC) (fuel : Nat) : AC :=
  match fuel with
  | 0 => c
  | n + 1 =>
    let c := c.waitDrain
    let d := c.a.cb.foldl (fun c e => c.drainEntry e.line 65) c
    let d := d.a.stores.foldl (fun c w => c.storeGo w) d
    let d := d.robDrain (d.a.rob.length + 1)
    let d := match d.a.bars.find? fun b => d.barDone b with
      | some b => d.barAnswer b
      | none => d
    if d.a.stores.length == c.a.stores.length && d.a.bars.length == c.a.bars.length && d.a.cb.length == c.a.cb.length
      && d.nextSeq == c.nextSeq && d.a.port.txns.length == c.a.port.txns.length then d else d.settleN n

/-- Let everything go as far as it can. -/
def AC.settle (c : AC) : AC :=
  c.settleN (2 * c.a.stores.length + c.a.bars.length + 65 * c.a.cb.length + c.a.rob.length + 2)

/-! ### Issue rules -/

/-- The port may issue the transaction now, its sluice and holds apart: credits (03 R96), program order (08 R204),
DEVICE order (R201), barriers (R209), the combining buffer (R208), the reorder buffer (R205), halves (R213), and a
Stile's WRITE_ORDER (R222). -/
def AC.mayIssue (c : AC) (t : Txn) : Bool :=
  let core := t.purpose.core
  let l := lineOf t.flit.addr
  let earlier (f : Txn → Bool) : Bool := c.a.port.txns.any fun u => decide (u.seq < t.seq) && f u
  c.a.port.hasCredit t
    && !(c.gate && core.isSome && !t.flit.op.isDev && (earlier (fun u => u.purpose.core == core
          && lineOf u.flit.addr == l && u.phase == .waiting)
        || c.a.stores.any fun w => w.core == core && w.line == l && decide (w.seq < t.seq)))
    && !(c.gate && t.flit.op.isDev && earlier fun u => u.purpose.core == core && u.flit.op.isDev && u.comp.isNone)
    && !(c.gate && c.barHolds core t.seq t.flit.op.isLoad t.flit.op.isStore)
    && !(c.gate && t.conflicts && c.drainOpen l)
    && !(c.needsRob t && decide (128 ≤ c.a.robUsed))
    && !(match t.purpose with
         | .half g _ true => earlier fun u => (u.purpose.ctag == some g) && u.phase == .waiting
         | _ => false)
    && !(t.inOrder && earlier fun u => u.flit.op.stileWrite &&
          (if u.phase == .waiting then u.inOrder else !t.keptOnly && !u.ordered && u.comp.isNone))

/-- Issue a transaction: a reorder-buffer entry where it needs one, and its REQ flit to the ford. -/
def AC.admitNow (c : AC) (t : Txn) : AC :=
  let rob := c.needsRob t
  let c := c.modPort fun p => (p.admitNow t).modTxn t.flit.txid fun u => { u with rob := rob }
  let c : AC := if rob then { c with a := { c.a with rob := c.a.rob ++ [t.robEntry] } } else c
  (c.send .req t.flit.cls (.req t.flit)).settle

/-! ### Items from the agent (19 R503, R504) -/

/-- A store of an access: the lower or only part of a store with its bytes in one line. -/
def AC.addStore (c : AC) (it : ReqItem) (seq : Nat) (addr : Addr) (len : Nat) (upper : Bool) : AC :=
  let w : StoreWait :=
    { seq := seq, ctag := it.ctag, core := it.core, line := lineOf addr, off := offOf addr, len := len, upper := upper }
  { c with a := { c.a with stores := c.a.stores ++ [w] } }

/-- Open one access of a kind whose bytes lie in one line. -/
def AC.access (c : AC) (it : ReqItem) (seq : Nat) (addr : Addr) (len : Nat) (half : Option Bool) : AC :=
  let p : Purpose := match half with
    | some u => .half it.ctag it.core u
    | none => .agent it.ctag it.core
  let f := match it.kind with
    | .ncLoad => c.flit .getOnce addr len
    | .devLoad => c.flit .devRead addr len
    | .devStore => c.flit .devWrite addr len
    | .ntStore => c.flit .pushIO addr len
    | .coherent op =>
      let f := c.flit op addr len
      match op with
      | .getShared | .getOwned | .claim =>
        { f with vway := it.victimWay, vvalid := it.victimValid, vdirty := it.victimDirty }
      | .upgrade => { f with vway := it.victimWay }
      | .atomicOp =>
        let nc := !c.caching || (c.gate && it.mtype == .normalNC)
        { f with
          vway := it.victimWay, vvalid := it.victimValid && !nc, vdirty := it.victimDirty && !nc
          atop := it.atop, asize := it.asize, nocache := nc }
      | _ => f
  c.openTxn f seq c.now p it.mtype none

/-- A conflicting access drains the combining-buffer entry of its line (08 R208). -/
def AC.conflict (c : AC) (l : Line) : AC := (c.startDrain l 0x06).drainEntry l 65

/-- A Gate refuses an access (08 R215). -/
def AC.refuses (c : AC) (it : ReqItem) : Bool :=
  let dev := it.kind matches .devLoad | .devStore
  let win := (c.k.devwinOf it.addr).isSome
  (!dev && win) || (match it.kind with
    | .coherent .atomicOp =>
      it.mtype == .device || (match asizeBytes it.asize with
        | none => true
        | some n => decide (offOf it.addr % n ≠ 0) || decide (64 < offOf it.addr + n))
    | _ => false)

/-- A Gate takes an item of C2G_REQ. -/
def AC.gateReq (c : AC) (it : ReqItem) : AC :=
  let it := { it with kind := it.gateKind }
  if c.refuses it then
    (c.drive (.refused it.ctag it.core)).rep 0x601 c.me (some it.addr) it.atype
  else
    let off := offOf it.addr
    let len := it.len.toNat
    let split := (match it.kind with
      | .coherent _ => false
      | _ => true) && decide (64 < off + len)
    let n := if split then 64 - off else len
    let up : Addr := lineAddr (lineOf it.addr + 1)
    let c := if split then c.ev 0x07 else c
    let c := if it.kind matches .ntStore | .coherent .putDirty | .coherent .putCopy | .coherent .putClean then c
      else
        let c := c.conflict (lineOf it.addr)
        if split then c.conflict (lineOf up) else c
    let seq := c.nextSeq
    let c := c.useSeq (if split then 2 else 1)
    let c := match it.kind with
      | .ntStore =>
        let c := c.addStore it seq it.addr n false
        if split then c.addStore it (seq + 1) up (len - n) true else c
      | _ =>
        let c := c.access it seq it.addr n (if split then some false else none)
        if split then c.access it (seq + 1) up (len - n) (some true) else c
    c.settle

/-- A Stile takes an item of its channel (08 R221): a non-caching one only the requests of 02 R72. -/
def AC.stileReq (c : AC) (it : ReqItem) : AC :=
  let it : ReqItem := { it with core := none }
  let ok := c.caching || (match it.kind with
    | .coherent op => [ReqOp.getOnce, .pushIO, .pushFull, .atomicOp, .sweep, .purge, .sweepPurge, .devRead, .devWrite].contains op
    | _ => true)
  if ok then ((c.useSeq 1).access it c.nextSeq it.addr it.len.toNat none).settle else c

/-- The payload of a request's own data (02 R65): only the bytes the request names; an AtomicOp's operand, with the
comparand of a CAS at off ^ 0x20 (07 R182). -/
def ReqFlit.payload (f : ReqFlit) (d : LineData) : LineData :=
  match f.op with
  | .pushIO | .devWrite => keepBytes d (offOf f.addr) f.len.toNat
  | .atomicOp =>
    let n := (asizeBytes f.asize).getD 1
    let o := offOf f.addr
    keepBytes d o n ||| (if f.atop == 5 then keepBytes d (o ^^^ 32) n else 0)
  | _ => d

/-- A request's data is there: it goes out where the request was injected already. -/
def AC.giveData (c : AC) (t : Txn) (d : LineData) (poison : Bool) : AC :=
  let pl := t.flit.payload d
  let c := c.modPort fun p => p.modTxn t.flit.txid fun u => { u with data := pl, haveData := true, dataPoison := poison }
  if t.phase == .injected then
    let x : DatFlit := { op := if t.flit.op.isPut then .putData else .pushData, src := c.me, tgt := t.flit.tgt,
                         txid := t.flit.txid, payload := pl, poison := poison }
    c.send .dat t.flit.cls (.dat x)
  else c

/-- Hand a data item to what waits for it; none where nothing does yet. -/
def AC.match' (c : AC) (x : DatItem) : Option AC :=
  let use (g : BitVec 8) (d : LineData) (be : LineMask) (poison : Bool) : Option AC :=
    if c.a.stores.any fun w => w.ctag == g && w.data.isNone then
      let stores := updateWhere (fun w : StoreWait => w.ctag == g && w.data.isNone)
        (fun w => { w with data := some (d, be, poison) }) c.a.stores
      some { c with a := { c.a with stores := stores } }
    else
      match c.a.port.txns.filter fun t => t.purpose.ctag == some g && t.flit.op.carriesData && !t.haveData with
      | [] => none
      | l => some (l.foldl (fun c t => c.giveData t d poison) c)
  match x with
  | .putData g d p => use g d (BitVec.allOnes 64) p
  | .pushData g d be p | .storeData g d be p => use g d be p
  | .snpData g d p =>
    match c.a.snpIn.find? fun s => s.stag == g && s.acked.isSome with
    | none => none
    | some s =>
      let c : AC := { c with a := { c.a with snpIn := c.a.snpIn.filter fun y => y.stag != g } }
      some (c.send .dat 0 (.dat
        { op := .snpData, src := c.me, tgt := s.flit.src, txid := s.flit.txid, payload := d, poison := p
          state := s.acked.getD .i }))

/-- Data items that came early find what they belong to. -/
def AC.matchEarly (c : AC) : AC :=
  c.a.dataIn.foldl (fun c x =>
    match AC.match' { c with a := { c.a with dataIn := c.a.dataIn.erase x } } x with
    | some c => c
    | none => c) c

/-- An item of C2G_DAT (19 R503). -/
def AC.datItem (c : AC) (x : DatItem) : AC :=
  match c.match' x with
  | some c => c.settle
  | none => { c with a := { c.a with dataIn := c.a.dataIn ++ [x] } }

/-- An item of C2G_REQ (19 R504). -/
def AC.reqItem (c : AC) (it : ReqItem) : AC :=
  let c := if c.gate then c.gateReq it else c.stileReq it
  c.matchEarly.settle

/-- An item of C2G_RSP (19 R503, 02 R57, R67). -/
def AC.rspItem (c : AC) (x : RspItem) : AC :=
  let answer (stag : BitVec 4) (op : RspOp) (st : CacheState) (data : Bool) : AC :=
    match c.a.snpIn.find? fun s => s.stag == stag && s.acked.isNone with
    | none => c
    | some s =>
      let c := c.send .rsp 0 (.rsp
        { op := op, src := c.me, tgt := s.flit.src, txid := s.flit.txid, state := st, data := data })
      if data then
        let snpIn := updateWhere (fun y : SnpIn => y.stag == stag) (fun y => { y with acked := some st }) c.a.snpIn
        AC.matchEarly { c with a := { c.a with snpIn := snpIn } }
      else { c with a := { c.a with snpIn := c.a.snpIn.filter fun y => y.stag != stag } }
  match x with
  | .snpAck g st data => answer g .snpAck st data
  | .snpAckWB g st => answer g .snpAckWB st false
  | .compAck g =>
    match c.a.port.txns.find? fun t => t.purpose.ctag == some g && t.answered with
    | some t =>
      match t.comp with
      | some r =>
        if r.ackreq then
          let c := c.send .rsp t.flit.cls (.rsp { op := .compAck, src := c.me, tgt := t.flit.tgt, txid := r.aux })
          AC.settle (c.modPort fun p => p.close t.flit.txid)
        else c
      | none => c
    | none => c

/-! ### Answers from the Stream -/

/-- A core saw poisoned data (08 R216). -/
def AC.poisonSeen (c : AC) (t : Txn) (p : Bool) : AC :=
  match t.purpose.core, p with
  | some i, true => c.modCore i fun x => { x with poisonSeen := true }
  | _, _ => c

/-- An answer to a transaction may close it. -/
def AC.maybeDone (c : AC) (x : TxId) : AC :=
  match c.a.port.txn x with
  | some t => (if t.answered then c.answeredNow t else c).settle
  | none => c

/-- POISON of the data that has come (08 R216). -/
def Txn.datPoison (t : Txn) : Bool :=
  match t.dat with
  | some x => x.2
  | none => false

/-- Comp, Ordered or Err for a transaction of the agent. -/
def AC.rspIn (c : AC) (r : RspFlit) : AC :=
  match c.a.port.txn r.txid with
  | none => c
  | some t =>
    match r.op with
    | .comp =>
      let c := c.modPort fun p => (p.uncredit t).modTxn r.txid fun u => { u with comp := some r, credit := false }
      let c := match t.purpose with
        | .agent g core => if t.rob then c else c.drive (.comp g r.state r.data core t.datPoison)
        | _ => c
      c.maybeDone r.txid
    | .ordered =>
      let c := c.modPort fun p => p.modTxn r.txid fun u => { u with ordered := true }
      let c := match t.purpose with
        | .agent g core => c.drive (.ordered g core)
        | _ => c
      c.settle
    | .err => ((c.endErr t r.ecode).ev 0x0E).settle
    | .snpAck | .snpAckWB | .compAck => c

/-- DataToReq for a transaction of the agent (11 R288, 08 R216). -/
def AC.datIn (c : AC) (x : DatFlit) : AC :=
  match c.a.port.txn x.txid with
  | none => c
  | some t =>
    let c := (c.poisonSeen t x.poison).modPort fun p => p.modTxn x.txid fun u => { u with dat := some (x.payload, x.poison) }
    let c := match t.purpose with
      | .agent g _ => if t.rob then c else c.drive (.data g x.payload x.poison)
      | _ => c
    c.maybeDone x.txid

/-! ### Running an event on an agent -/

/-- The context of agent n of die d. -/
def State.ac (s : State) (d : Die) (n : AgentN) : AC :=
  let q := s.pad d
  { k := s.krovol, die := d, n := n, repl := q.repl, unreach := q.conf.unreach, now := q.now, cyc := q.aon.hcycle
    a := q.agent n }

/-- Put an agent's context back. -/
def State.putAc (s : State) (c : AC) : State :=
  let s := s.modPad c.die fun q => (q.modAgent c.n fun _ => c.a).offer c.out
  let s := s.fileAll c.die c.reps
  c.counts.foldl (fun s x => s.pcount c.die x.1 x.2) s

/-- The agent is configured and its domain runs. -/
def State.agentLive (s : State) (d : Die) (n : AgentN) : Bool :=
  (s.pad d).running && (s.pad d).domOn domSD && s.krovol.configured (portAgent d n)

/-- Run an event on an agent that is there. -/
def State.runAgent (s : State) (d : Die) (n : AgentN) (f : AC → AC) : State :=
  if s.agentLive d n then s.putAc (f (s.ac d n)) else s

end Sys2Proof.Machine
end

