-- ==== Sys2Proof/Machine/GateCmds.lean ====
section
/-!
DEFINITION. Meanings of the commands of the Gate and Stile channels (08 R199 to R223, 19 R503 to R509).
-/

namespace Sys2Proof.Machine

/-- C2G_REQ (19 R504, 08 R199 to R215). -/
def execC2gReq (d : Die) (n : AgentN) (item : ReqItem) (s : State) : Host.Outcome State Fault Refusal :=
  .next (s.runAgent d n fun c => c.reqItem item)

/-- C2G_RSP (19 R503). -/
def execC2gRsp (d : Die) (n : AgentN) (item : RspItem) (s : State) : Host.Outcome State Fault Refusal :=
  .next (s.runAgent d n fun c => c.rspItem item)

/-- C2G_DAT (19 R503). -/
def execC2gDat (d : Die) (n : AgentN) (item : DatItem) (s : State) : Host.Outcome State Fault Refusal :=
  .next (s.runAgent d n fun c => c.datItem item)

/-- The Gate's number as a sluice and agent port. -/
def gateAgent (g : GateN) : AgentN := Fin.ofNat 28 g.val

/-- The Stile's number as a sluice and agent port. -/
def stileAgent (n : StileN) : AgentN := Fin.ofNat 28 (n.val + 4)

/-- An entry that reaches HCLK cycle a + 512 is drained (08 R207). -/
def AC.ageOut (c : AC) (l : Line) : AC :=
  if c.a.cb.any fun e => e.line == l && decide (e.alloc + 512 ≤ c.cyc) then
    ((c.startDrain l 0x05).drainEntry l 65).settle
  else c

/-- COMBINING_BUFFER_AGE (08 R207). -/
def execCombiningBufferAge (d : Die) (g : GateN) (line : Line) (s : State) : Host.Outcome State Fault Refusal :=
  .next (s.runAgent d (gateAgent g) fun c => c.ageOut line)

/-- A barrier reaches the Gate (08 R209, R210): STORE and FULL drain the entries that name its core (R207). -/
def AC.barrierIn (c : AC) (core : Core) (kind : BKind) (scope : BScope) (ctag : BitVec 8) : AC :=
  let b : BarWait := { core := core, kind := kind, scope := scope, ctag := ctag, seq := c.nextSeq }
  let c := (c.useSeq 1).ev (if scope == .cluster then 0x01 else 0x02)
  let c : AC := { c with a := { c.a with bars := c.a.bars ++ [b] } }
  c.settle

/-- BARRIER (08 R209 to R211). -/
def execBarrier (d : Die) (g : GateN) (core : Core) (kind : BKind) (scope : BScope) (ctag : BitVec 8) (s : State) :
    Host.Outcome State Fault Refusal :=
  .next (s.runAgent d (gateAgent g) fun c => c.barrierIn core kind scope ctag)

/-- The lower half of a cancelled access goes on alone (08 R214): still open, or its result waits. Its entry keeps its
place, so the core has its answer in program order (R201, R205). -/
def AC.loneLower (c : AC) (g : BitVec 8) : AC :=
  let mine (e : RobEntry) : Bool := e.ctag == g && e.half == some false
  let alone (e : RobEntry) : RobEntry := { e with half := none, lower := true }
  let c : AC := { c with a := { c.a with rob := updateWhere mine alone c.a.rob } }
  match c.a.port.txns.find? fun t => t.purpose matches .half _ _ false && t.purpose.ctag == some g with
  | some t => c.modPort fun p => p.modTxn t.flit.txid fun u => { u with purpose := .lowerOnly g t.purpose.core }
  | none => c

/-- Cancel a split access before its upper half is issued (08 R214). -/
def AC.splitCancel (c : AC) (g : BitVec 8) : AC :=
  match c.a.port.txns.find? fun t => t.purpose matches .half _ _ true && t.purpose.ctag == some g
      && t.phase == .waiting with
  | some t => ((c.modPort fun p => p.close t.flit.txid).loneLower g).settle
  | none =>
    match takeFirst (fun w : StoreWait => w.ctag == g && w.upper) c.a.stores with
    | some (w, rest) => (AC.lowerDone { c with a := { c.a with stores := rest } } g w.core none).settle
    | none => c

/-- SPLIT_CANCEL (08 R214). -/
def execSplitCancel (d : Die) (g : GateN) (ctag : BitVec 8) (s : State) : Host.Outcome State Fault Refusal :=
  .next (s.runAgent d (gateAgent g) fun c => c.splitCancel ctag)

/-- HOME_QUERY (19 R505): the answer is the package-wide logical fold of the page's first address. -/
def execHomeQuery (d : Die) (n : AgentN) (page : BitVec 40) (s : State) : Host.Outcome State Fault Refusal :=
  .next (s.runAgent d n fun c =>
    let a : Addr := BitVec.ofNat 52 (page.toNat * 4096)
    { c with a := { c.a with hq := some (BitVec.ofNat 5 (pkgFold (c.repl.home a)).val) } })

/-! ### DEVICE target (08 R223, R212, 19 R509) -/

/-- The lowest device tag not in use. -/
def AgentPort.freeDevTag (x : AgentPort) : Option (BitVec 5) :=
  ((List.range 32).find? fun i => !(x.devOpen.any fun t => t.1.toNat == i) && !(x.devDead.any fun t => t.1.toNat == i)).map
    fun i => BitVec.ofNat 5 i

/-- Deliver the oldest waiting access to the device, where fewer than 32 are open. -/
def AC.devIssue (c : AC) : AC :=
  match c.a.devQ, c.a.freeDevTag with
  | i :: rest, some t =>
    let write := i.flit.op == .devWrite
    if 32 ≤ c.a.devOpen.length || (write && i.data.isNone) then c
    else
      let q : DqItem := { tag := t, write := write, addr := i.flit.addr, len := i.flit.len
                          data := match i.data with
                            | some x => x.1
                            | none => 0 }
      { c with a := { c.a with devQ := rest, devOpen := c.a.devOpen ++ [(t, i)], dq := c.a.dq ++ [q] } }
  | _, _ => c

/-- STILE_DEVICE_ACCESS (08 R223, 19 R509). -/
def execStileDeviceAccess (d : Die) (n : StileN) (s : State) : Host.Outcome State Fault Refusal :=
  .next (s.runAgent d (stileAgent n) AC.devIssue)

/-- The Stile answers the requester of a DEVICE access. -/
def AC.devErr (c : AC) (f : ReqFlit) (ecode : BitVec 4) : AC :=
  c.send .rsp f.cls (.rsp { op := .err, src := c.me, tgt := f.src, txid := f.txid, ecode := ecode })

/-- The device answers (08 R223, R212). -/
def AC.devAnswer (c : AC) (tag : BitVec 5) (err : Bool) (data : LineData) : AC :=
  match takeFirst (fun x : BitVec 5 × DevAcc => x.1 == tag) c.a.devDead with
  | some (x, rest) =>
    let a := { c.a with devDead := rest, late := c.a.late + 1 }
    AC.rep { c with a := a } 0x612 c.me (some x.2.flit.addr) x.2.flit.op.code
  | none =>
    match takeFirst (fun x : BitVec 5 × DevAcc => x.1 == tag) c.a.devOpen with
    | none => c
    | some (x, rest) =>
      let f := x.2.flit
      let c : AC := { c with a := { c.a with devOpen := rest } }
      if err then (c.devErr f 3).rep 0x611 c.me (some f.addr) f.op.code
      else
        let read := f.op == .devRead
        let c := if read then
            c.send .dat f.cls (.dat { op := .dataToReq, src := c.me, tgt := f.src, txid := f.txid
                                      payload := keepBytes data (offOf f.addr) f.len.toNat })
          else c
        c.send .rsp f.cls (.rsp { op := .comp, src := c.me, tgt := f.src, txid := f.txid, data := read })

/-- DR (19 R509, 08 R223, R212). -/
def execDr (d : Die) (n : StileN) (tag : BitVec 5) (err : Bool) (data : LineData) (s : State) :
    Host.Outcome State Fault Refusal :=
  .next (s.runAgent d (stileAgent n) fun c => c.devAnswer tag err data)

/-- A DEVICE access at its abandon limit (08 R212). -/
def AC.devAbandon (c : AC) (src : AgentId) (txid : TxId) : AC :=
  let mine (i : DevAcc) : Bool := i.flit.src == src && i.flit.txid == txid && decide (i.limit ≤ c.now)
  let file (c : AC) (i : DevAcc) : AC := (c.devErr i.flit 2).rep 0xD02 c.me (some i.flit.addr) i.flit.op.code
  match takeFirst mine c.a.devQ with
  | some (i, rest) =>
    let drop := if i.flit.op == .devWrite && i.data.isNone then c.a.devDrop ++ [(src, txid)] else c.a.devDrop
    file { c with a := { c.a with devQ := rest, devDrop := drop } } i
  | none =>
    match takeFirst (fun x : BitVec 5 × DevAcc => mine x.2) c.a.devOpen with
    | some (x, rest) => file { c with a := { c.a with devOpen := rest, devDead := c.a.devDead ++ [x] } } x.2
    | none => c

/-- STILE_ABANDON (08 R212). -/
def execStileAbandon (d : Die) (n : StileN) (src : AgentId) (txid : TxId) (s : State) : Host.Outcome State Fault Refusal :=
  .next (s.runAgent d (stileAgent n) fun c => c.devAbandon src txid)

end Sys2Proof.Machine
end

