-- ==== Sys2Proof/Machine/Ports.lean ====
section
/-!
DEFINITION. Requester ports at their sluices: admission (09 R245 to R247), deadlines and abandonment before injection
(11 R288, R292), and the answers that a requester takes off the Stream (02 R60, R61, R66, R67).
-/

namespace Sys2Proof.Machine

/-! ### The Shepherd's port -/

/-- A request of a job is done at a member's Shepherd: the totals of a MAINT_RANGE (06 R167). -/
def State.jobCount (s : State) (d : Die) (job : Nat) (f : MaintRange → MaintRange) : State :=
  match s.leadOf d with
  | some l => if job % 2 = 0 then s.modMaint l (job / 2) f else s
  | none => s

/-- A request of a MAINT_RANGE failed. -/
def MaintRange.fail (m : MaintRange) (l : Line) (ecode : BitVec 4) : MaintRange :=
  if ecode == 1 then { m with skipped := m.skipped + 1 }
  else { m with
    failed := m.failed + 1
    firstFail := match m.firstFail with
      | some x => some x
      | none => some l }

/-- A line of a patch image arrived; poisoned data is no value and ends the command as a read that failed (02 R66, log
entry 50). -/
def State.patchLine (s : State) (d : Die) (i : Nat) (x : LineData × Bool) : State :=
  if x.2 then s.patchErr d else s.patchData d i x.1

/-- What an answered request of a Shepherd does. -/
def State.shepEnd (s : State) (d : Die) (e : PortEnd) : State :=
  match e with
  | .done t =>
    match t.purpose with
    | .job j => s.jobCount d j fun m => { m with lines := m.lines + 1 }
    | .dump k => s.dumpComp d (dumpSlot t.flit.addr) k
    | .patch i => if (s.pad d).shep.ownsRead i then s.patchLine d (i % 4096) (t.dat.getD (0, false)) else s
    | .agent _ _ | .drain _ _ | .half _ _ _ | .lowerOnly _ _ | .tlp _ => s
  | .err t c =>
    match t.purpose with
    | .job j => s.jobCount d j fun m => m.fail (lineOf t.flit.addr) c
    | .dump _ => s.dumpErr d (dumpSlot t.flit.addr) t.flit.tgt t.flit.addr
    | .patch i => if (s.pad d).shep.ownsRead i then s.patchErr d else s
    | .agent _ _ | .drain _ _ | .half _ _ _ | .lowerOnly _ _ | .tlp _ => s
  | .none | .ordered _ => s

/-- Change the Shepherd's port. -/
def State.modShepPort (s : State) (d : Die) (f : ReqPort → ReqPort) : State :=
  s.modShep d fun x => { x with port := f x.port }

/-- Comp, Ordered or Err at a Shepherd. -/
def State.shepRsp (s : State) (d : Die) (r : RspFlit) : State :=
  let x := (s.pad d).shep.port.rspIn r
  let s := ((s.modShepPort d fun _ => x.1).autoAck d x.2).shepEnd d x.2
  match x.2 with
  | .err _ _ => s.pcount d 0x0E 29
  | _ => s

/-- DataToReq at a Shepherd. -/
def State.shepDat (s : State) (d : Die) (f : DatFlit) : State :=
  let x := (s.pad d).shep.port.dataIn f
  ((s.modShepPort d fun _ => x.1).autoAck d x.2).shepEnd d x.2

/-! ### Ports and their deadlines (11 R288) -/

/-- The agent behind a sluice (09 R256). -/
def sluiceAgent (d : Die) (n : SluiceN) : AgentId :=
  if n.val < 4 then agent d n.val else if n.val < 28 then agent d (n.val + 4)
  else if n.val = 28 then agent d 120 else agent d 127

/-- The port behind a sluice is there, powered and clocked. -/
def State.sluiceLive (s : State) (d : Die) (n : SluiceN) : Bool :=
  if n.val < 28 then s.agentLive d (Fin.ofNat 28 n.val)
  else if n.val = 28 then s.tetherDie == some d
  else (s.pad d).running && (s.pad d).domOn domSH

/-- Tide has reached the deadline of an incomplete transaction: 0xD01, once, and it goes on. An answer that comes at
the deadline or later is a miss (00 R4), so this is asked before each answer too. -/
def State.missedAt (s : State) (d : Die) (n : SluiceN) (x : TxId) : State :=
  let a := sluiceAgent d n
  match (s.portOf d a).txn x with
  | some t =>
    if s.sluiceLive d n && decide (t.deadline ≤ (s.pad d).now) && !t.missed && !t.answered then
      let s := s.modPortOf d a fun p => p.modTxn x fun u => { u with missed := true }
      let r : Report := { code := 0xD01, reporter := a, subject := t.flit.tgt, addr := some t.flit.addr
                          atype := t.flit.op.code, t := (s.pad d).now }
      (s.file d r).pcount d (0x0A + t.flit.cls.val) n.val
    else s
  | none => s

/-! ### Answers off the Stream -/

/-- An answer for the requester with local index `l`. -/
def State.rspTo (s : State) (d : Die) (r : RspFlit) : State :=
  let l := localOf r.tgt
  let s := s.missedAt d (Fin.ofNat 30 (sluiceOf r.tgt)) r.txid
  if l < 4 || (8 ≤ l && l < 32) then s.runAgent d (Fin.ofNat 28 (sluiceOf r.tgt)) fun c => c.rspIn r
  else if l = 120 then s.tetherRsp d r
  else if l = 127 then s.shepRsp d r
  else s

/-- DataToReq for the requester with local index `l`. -/
def State.datTo (s : State) (d : Die) (f : DatFlit) : State :=
  let l := localOf f.tgt
  let s := s.missedAt d (Fin.ofNat 30 (sluiceOf f.tgt)) f.txid
  if l < 4 || (8 ≤ l && l < 32) then s.runAgent d (Fin.ofNat 28 (sluiceOf f.tgt)) fun c => c.datIn f
  else if l = 120 then s.tetherDat d f
  else if l = 127 then s.shepDat d f
  else s

/-- An RSP flit with the opcode wanted leaves the Stream at its requester. -/
def State.rspAt (s : State) (d : Die) (a : Spot) (crcOk : Bool) (op : RspOp) : State :=
  match s.arrived d .rsp a crcOk with
  | .none => s
  | .badCrc => s.dropFlit d .rsp a
  | .noAgent f => s.dropStray d .rsp a f
  | .flit (.rsp r) => if r.op == op then (s.modStream d fun x => x.take .rsp a).rspTo d r else s
  | .flit _ => s

/-- COMP (02 R67). -/
def execComp (d : Die) (a : Spot) (noise : Nat) (s : State) : Host.Outcome State Fault Refusal :=
  let w := s.wire d .rsp a noise
  .next (w.1.rspAt d a w.2 .comp)

/-- ORDERED (02 R61). -/
def execOrdered (d : Die) (a : Spot) (noise : Nat) (s : State) : Host.Outcome State Fault Refusal :=
  let w := s.wire d .rsp a noise
  .next (w.1.rspAt d a w.2 .ordered)

/-- ERR (02 R60). -/
def execErr (d : Die) (a : Spot) (noise : Nat) (s : State) : Host.Outcome State Fault Refusal :=
  let w := s.wire d .rsp a noise
  .next (w.1.rspAt d a w.2 .err)

/-- DataToReq leaves the Stream at its requester. -/
def State.dataToReqAt (s : State) (d : Die) (a : Spot) (crcOk : Bool) : State :=
  match s.arrived d .dat a crcOk with
  | .none => s
  | .badCrc => s.dropFlit d .dat a
  | .noAgent f => s.dropStray d .dat a f
  | .flit (.dat x) => if x.op == .dataToReq then (s.modStream d fun y => y.take .dat a).datTo d x else s
  | .flit _ => s

/-- DATATOREQ (02 R66). -/
def execDataToReq (d : Die) (a : Spot) (noise : Nat) (s : State) : Host.Outcome State Fault Refusal :=
  let w := s.wire d .dat a noise
  .next (w.1.dataToReqAt d a w.2)

/-! ### Admission (09 R245 to R247) -/

/-- Admission is held at every port but the Shepherd's while Nightfold is entered or left (14 R378, R383). -/
def State.nfHolds (s : State) (d : Die) (n : SluiceN) : Bool := (s.pad d).ebb.nf != .idle && n.val != 29

/-- The transactions of a port that its sluice may see now: those that no rule of issue and no quiesce holds. -/
def State.sluiceReady (s : State) (d : Die) (n : SluiceN) : Txn → Bool :=
  let c := s.ac d (Fin.ofNat 28 n.val)
  let free (t : Txn) : Bool := n.val = 29 || !s.quiesced d (lineOf t.flit.addr)
  if n.val < 28 then fun t => c.mayIssue t && free t
  else if n.val = 28 then fun t => s.tether.port.tetherMay t && free t
  else fun t => ((s.pad d).shep.port).hasCredit t

/-- Bring the sluices of a port up to its Tide. -/
def State.tickSluice (s : State) (d : Die) (n : SluiceN) : State :=
  s.modPortOf d (sluiceAgent d n) fun p => p.tick (s.pad d).now

/-- A transaction of a port waits at its sluice in this cycle (17 R458). -/
def State.sluiceHeld (s : State) (d : Die) (n : SluiceN) : Bool :=
  let p := s.portOf d (sluiceAgent d n)
  s.sluiceLive d n && !p.txns.isEmpty && (p.tick (s.pad d).now).held (s.sluiceReady d n)

/-- Admit one transaction. -/
def State.admitTxn (s : State) (d : Die) (n : SluiceN) (t : Txn) : State :=
  if n.val < 28 then s.putAc ((s.ac d (Fin.ofNat 28 n.val)).admitNow t)
  else
    let a := sluiceAgent d n
    (s.modPortOf d a fun p => p.admitNow t).inject d .req a t.flit.cls (.req t.flit)

/-- SLUICE_ADMIT: at most one request of the port. -/
def State.sluiceAdmit (s : State) (d : Die) (n : SluiceN) : State :=
  if !s.sluiceLive d n || (s.pad d).stream.hold || s.nfHolds d n then s
  else
    let s := s.tickSluice d n
    match (s.portOf d (sluiceAgent d n)).pick (s.sluiceReady d n) with
    | some t => s.admitTxn d n t
    | none => s

/-- SLUICE_ADMIT (09 R245). -/
def execSluiceAdmit (d : Die) (n : SluiceN) (s : State) : Host.Outcome State Fault Refusal := .next (s.sluiceAdmit d n)

/-! ### Deadlines and abandonment at the port (11 R288, R292) -/

/-- DEADLINE_MISSED (11 R288). -/
def execDeadlineMissed (d : Die) (n : SluiceN) (txid : TxId) (s : State) : Host.Outcome State Fault Refusal :=
  .next (s.missedAt d n txid)

/-- The REQ flit of a transaction leaves the injection queue of its ford. -/
def Stream.unqueue (q : Stream) (a : AgentId) (x : TxId) : Stream :=
  let mine (i : InjItem) : Bool := match i.flit with
    | .req f => i.agent == a && f.src == a && f.txid == x
    | _ => false
  { q with inj := q.inj.filter fun i => !mine i }

/-- A transaction ends in Err at its port before it was injected. -/
def State.portErr (s : State) (d : Die) (n : SluiceN) (t : Txn) (ecode : BitVec 4) : State :=
  if n.val < 28 then s.runAgent d (Fin.ofNat 28 n.val) fun c => (c.endErr t ecode).settle
  else
    let s := s.modPortOf d (sluiceAgent d n) fun p => (p.uncredit t).close t.flit.txid
    if n.val = 28 then
      (match t.purpose with
       | .tlp id => s.pieceErr d id t.flit.op.carriesData ecode
       | _ => s)
    else s.shepEnd d (.err t ecode)

/-- ABANDON_BEFORE_INJECTION: Err ABANDONED to the agent, 0xD02, never injected. -/
def State.abandonAt (s : State) (d : Die) (n : SluiceN) (x : TxId) : State :=
  let s := s.missedAt d n x
  let a := sluiceAgent d n
  match (s.portOf d a).txn x with
  | some t =>
    if s.sluiceLive d n && decide (t.abandon ≤ (s.pad d).now) && t.phase != .injected then
      let s := s.modStream d fun q => q.unqueue a x
      let r : Report := { code := 0xD02, reporter := a, subject := t.flit.tgt, addr := some t.flit.addr
                          atype := t.flit.op.code, t := (s.pad d).now }
      (s.portErr d n t 2).file d r
    else s
  | none => s

/-- ABANDON_BEFORE_INJECTION (11 R292). -/
def execAbandonBeforeInjection (d : Die) (n : SluiceN) (txid : TxId) (s : State) : Host.Outcome State Fault Refusal :=
  .next (s.abandonAt d n txid)

end Sys2Proof.Machine
end

