-- ==== Sys2Proof/Machine/Checker.lean ====
section
/-!
DEFINITION. Drover's checkers and the 64 vectors of a self-test (12 R309, R310, R313, R314).
-/

namespace Sys2Proof.Machine

/-- A checker: what DROVER_STAT.CHECKER calls it (12 R341), its data width, and its CRC (12 R309, R310). -/
structure Checker where
  no : BitVec 4
  n : Nat
  r : Nat
  poly : Nat
  init : Nat
  deriving DecidableEq, Repr

/-- A CRC-16 checker. -/
def checker16 (no : BitVec 4) (n : Nat) : Checker := ⟨no, n, 16, 0x1021, 0xFFFF⟩

/-- A CRC-8 checker. -/
def checker8 (no : BitVec 4) (n : Nat) : Checker := ⟨no, n, 8, 0x2F, 0xFF⟩

/-- A CRC-6 checker. -/
def checker6 (no : BitVec 4) (n : Nat) : Checker := ⟨no, n, 6, 0x2F, 0x3F⟩

/-- The checkers of a physical fold: its arrays, encoded as ARRAY in 12 R330, its shadow with Tally, and the four
flit checkers of its ford as 0xF. -/
def foldCheckers : List Checker :=
  [checker6 0 37, checker6 0 50, checker8 1 31, checker8 2 31, checker8 3 32, checker8 4 52, checker16 5 512, checker8 6 32,
   checker8 7 79, checker16 15 128, checker16 15 96, checker16 15 64, checker16 15 560]

/-- The check of a field. -/
def Checker.crc (k : Checker) (v : Nat) : Nat := crcBits k.r k.poly k.n v k.init

/-- The checker accepts a word: a field and its check. -/
def Checker.accepts (k : Checker) (w : Nat × Nat) : Bool := k.crc w.1 == w.2

/-- The field of good vector `i`: all zeros, all ones, then the fixed sequence (12 R314). -/
def Checker.field (k : Checker) (i : Nat) : Nat :=
  if i = 0 then 0 else if i = 1 then 2 ^ k.n - 1 else Config.testField k.n i % 2 ^ k.n

/-- Good vector `i` with the bits of `e` inverted, over the field followed by its check. -/
def Checker.inverted (k : Checker) (i e : Nat) : Nat × Nat :=
  let w := (k.field i * 2 ^ k.r + k.crc (k.field i)) ^^^ e
  (w / 2 ^ k.r, w % 2 ^ k.r)

/-- `r` adjacent bits from bit `b` up. -/
def Checker.burst (k : Checker) (b : Nat) : Nat := (2 ^ k.r - 1) * 2 ^ b

/-- Vector `i` of a checker (12 R314). Which good vector a bad one is built from and where between the named places its
bits lie are the model's choice (log entry 67). -/
def Checker.vector (k : Checker) (i : Nat) : Nat × Nat :=
  if i < 32 then (k.field i, k.crc (k.field i))
  else if i < 40 then k.inverted (i - 32) (2 ^ (k.r + (k.n - 1) * (i - 32) / 7))
  else if i < 44 then k.inverted (i - 32) (2 ^ ((k.r - 1) * (i - 40) / 3))
  else if i < 52 then k.inverted (i - 32) (k.burst (k.r + (k.n - k.r) * (i - 44) / 7))
  else if i < 55 then k.inverted (i - 32) (k.burst (k.r * (i - 51) / 4))
  else if i < 63 then k.inverted (i - 32) (1 + 2 ^ (i - 53) + 2 ^ (k.n + k.r - 1))
  else (0, 0)

/-- Whether vector `i` is good (12 R314). -/
def vectorGood (i : Nat) : Bool := decide (i < 32)

/-- The first vector that a checker misclassifies, bit `i` of its answers telling that it accepted vector `i`. -/
def misread (answers : BitVec 64) : Option (BitVec 6) :=
  ((List.range 64).find? fun i => bitAt answers i != vectorGood i).map (BitVec.ofNat 6)

/-- The failing checker that Drover shows (12 R341): of those that misclassify, the one whose vector comes first, then
the lowest number (log entry 67). A checker that is not listed answers as its CRC does, and passes. -/
def firstBadChecker (answers : List (BitVec 4 × BitVec 64)) : Option SelfTestFail :=
  let bad : List SelfTestFail := answers.filterMap fun x => (misread x.2).map fun v => ⟨x.1, v⟩
  bad.foldl (fun b x => match b with
    | none => some x
    | some y => if x.vector.toNat * 16 + x.checker.toNat < y.vector.toNat * 16 + y.checker.toNat then some x else some y) none

end Sys2Proof.Machine
end

