-- ==== Sys2Proof/Machine/Boot.lean ====
section
/-!
DEFINITION. Resets, straps and start-up (15 R423 to R425, 19 R494 to R500): fuse map (12 R332), self-test and array
initialisation (12 R313 to R315, R321, R328), power-switch and clock acknowledgements (14 R366, 19 R492, R498), and
assembly (10 R268, R269, 01 R12 to R14).
-/

namespace Sys2Proof.Machine

/-- Change a paddock's start-up. -/
def State.modBoot (s : State) (d : Die) (f : Boot → Boot) : State := s.modPad d fun q => { q with boot := f q.boot }

/-! ### Steps and their failures (15 R423, R424) -/

/-- A start-up step begins; the failures of the step that passed no longer count. -/
def State.stepTo (s : State) (d : Die) (k : BitVec 4) : State :=
  s.modPad d fun q => { q with
    boot := { q.boot with step := k }, aon := { q.aon with stepFails := vset q.aon.stepFails q.boot.step.toFin 0 } }

/-- Failures of the step in progress since it last passed. -/
def Paddock.stepFails (q : Paddock) : Nat := q.aon.stepFails[q.boot.step.toFin]

/-- The step in progress failed: the attempt is counted and the paddock waits. -/
def State.stepFail (s : State) (d : Die) : State :=
  s.modPad d fun q => { q with
    boot := { q.boot with backoff := true, failTick := q.ticks, fuseReq := false }
    ebb := { q.ebb with hclkReq := if q.boot.step == 7 then false else q.ebb.hclkReq }
    aon := { q.aon with
      stepFails := vset q.aon.stepFails q.boot.step.toFin (q.stepFails + 1)
      lastStep := q.boot.step
      bootAttempts := if q.aon.bootAttempts == 0xFFFFFF then 0xFFFFFF else q.aon.bootAttempts + 1 } }

/-- Ask the fuse source for the word at an address (19 R499). -/
def State.fuseRead (s : State) (d : Die) (a : BitVec 12) : State :=
  s.modPad d fun q => { q with boot := { q.boot with fuseReq := true, fuseAddr := a, fuseTick := q.ticks } }

/-- Step 4 begins with fuse word 0. -/
def State.fuseStart (s : State) (d : Die) : State := (s.modBoot d fun b => { b with fuseWords := [] }).fuseRead d 0

/-- The standby fold and failed folds are OFF outside a move (14 R367); their fords, which hold nothing before HCLK
runs, are fenced. -/
def State.parkSpares (s : State) (d : Die) : State :=
  pfolds.foldl (fun s p =>
    let f := fordOfFold p
    if ((s.pad d).repl.carries d p).isSome then s
    else (s.modEbb d fun e => { e with
      fenceReq := putBit e.fenceReq f true, fenceAck := putBit e.fenceAck f true
      culvertEn := putBit e.culvertEn f true }).foldOff d p) s

/-- HCLK_REQ rises (step 7). -/
def State.askClock (s : State) (d : Die) : State :=
  s.modPad d fun q => { q with ebb := { q.ebb with hclkReq := true, hclkOp := q.ebb.point, hclkTick := q.ticks } }

/-- Every fold that is not marked failed has been initialised, and the lanes tested. -/
def Paddock.initDone (q : Paddock) (d : Die) : Bool :=
  bitAt q.boot.arrayInit 5 && pfolds.all fun p => bitAt q.boot.arrayInit p.val || bitAt (q.repl.foldmap[d]).failed p.val

/-- The steps that end of themselves once what they wait for is there. -/
def State.bootGo (s : State) (d : Die) : State :=
  let q := s.pad d
  if q.boot.poreset || q.boot.padreset || q.boot.backoff then s
  else
    match q.boot.step.toNat with
    | 3 =>
      if !q.domOn domSH then s
      else if q.boot.romOk then (s.stepTo d 4).fuseStart d
      else s.stepFail d
    | 5 => if q.boot.selfTested == BitVec.allOnes 6 then s.stepTo d 6 else s
    | 6 => if q.initDone d then ((s.stepTo d 7).parkSpares d).askClock d else s
    | _ => s

/-- STARTUP_RETRY: the wait of 15 R424 is over, and the step is tried again. -/
def State.bootRetry (s : State) (d : Die) (romOk : Bool) : State :=
  let q := s.pad d
  if !q.boot.backoff || q.boot.poreset || q.boot.padreset
      || decide (q.ticks < q.boot.failTick + backoffTicks q.stepFails) then s
  else
    let s := s.modBoot d fun b => { b with backoff := false, romOk := romOk }
    match q.boot.step.toNat with
    | 3 => s.bootGo d
    | 4 => s.fuseStart d
    | 7 => s.askClock d
    | _ => s

/-- STARTUP_RETRY (15 R424). -/
def execStartupRetry (d : Die) (romOk : Bool) (s : State) : Host.Outcome State Fault Refusal := .next (s.bootRetry d romOk)

/-! ### Resets and straps (19 R494 to R497) -/

/-- The order in which a paddock raises its domains at start-up (log entry 24): SH, SD, then each fold's arrays and
logic. -/
def bootDomains : List DomN := [11, 10, 5, 0, 6, 1, 7, 2, 8, 3, 9, 4]

/-- A release of reset: the straps are sampled, steps 1 and 2 pass, and the domains begin to rise. -/
def State.releaseReset (s : State) (d : Die) (bootMode testMode romOk : Bool) : State :=
  let s := s.modBoot d fun b =>
    { poreset := false, padreset := false, step := 3, bootMode := bootMode, testmode := testMode, romOk := romOk
      frozen := b.frozen }
  bootDomains.foldl (fun s i => s.domOnReq d i) s

/-- PORESET_N_RELEASE: every die's reset is released in one LCLK tick, Tide 0; a bit for each die gives its straps and the
outcome of its ROM check. A die strapped outside the planned population starts too and stays outside every Range (R497). -/
def State.porRelease (s : State) (bootMode testMode romOk : BitVec 8) : State :=
  dies.foldl (fun s d =>
    if (s.pad d).boot.poreset then
      s.releaseReset d (bitAt bootMode d.val) (bitAt testMode d.val) (bitAt romOk d.val)
    else s) s

/-- PORESET_N_RELEASE (15 R423). -/
def execPoresetRelease (bootMode testMode romOk : BitVec 8) (s : State) : Host.Outcome State Fault Refusal :=
  .next (s.porRelease bootMode testMode romOk)

/-- PORESET_N_ASSERT: every paddock returns to its reset values; the host's PERST# pin is not the block's. -/
def State.porAssert (s : State) : State :=
  { s with
    pads := Vector.replicate 8 (Paddock.reset s.krovol)
    tether := { aperLog2 := s.krovol.aperLog2, perst := s.tether.perst
                port := { credits := Vector.replicate 32 s.krovol.otherCredits } } }

/-- PORESET_N_ASSERT (19 R494). -/
def execPoresetAssert (s : State) : Host.Outcome State Fault Refusal := .next s.porAssert

/-- A paddock under PADRESET_N: its island, Tide and the replicated registers stay (18 R475), and so do what only
PORESET_N clears (06 R159, 09 R254, 10 R265, R280, 13 R343, R358) and the way maps (log entry 25); spare rows, columns and
lanes are brought in again by steps 4 and 6 (12 R321, R328, R332). -/
def Paddock.padReset (q : Paddock) (k : Krovol) : Paddock :=
  let r := Paddock.reset k
  let folds : Vector Fold 5 := Vector.ofFn fun p =>
    let f := q.folds[p]
    { ftHalt := f.ftHalt, ttStop := f.ttStop, tallyPhys := f.tallyPhys, tallyOut := f.tallyOut, emPhys := f.emPhys
      emOut := f.emOut, emDropped := f.emDropped, poolPhys := f.poolPhys, poolOut := f.poolOut
      poolWorn := f.poolWorn, poolLost := f.poolLost
      poolDisabled := f.poolDisabled, poolSpareFor := f.poolSpareFor, rcred := k.rcred, wcred := k.wcred }
  let hurdle : Hurdle := { queued := q.hurdle.queued }
  let edge (e : EdgeStat) : EdgeStat := { lost := e.lost, sent := e.sent }
  { r with
    aon := q.aon, repl := q.repl, folds := folds, hurdle := hurdle
    stream := { r.stream with epoch := q.stream.epoch }
    conf := { r.conf with unreach := q.conf.unreach, fenced := q.conf.fenced, edge := q.conf.edge.map edge }
    boot := { r.boot with poreset := q.boot.poreset, padreset := true, frozen := q.boot.frozen.map fun _ => (0, 0) }
    bell := { ftHalt := q.bell.ftHalt, unlocked := q.bell.unlocked, inbox := q.bell.inbox } }

/-- The modules that face a die go down at their own ends. -/
def State.faceDown (s : State) (d : Die) : State :=
  edges.foldl (fun s e => match neighbour d e with
    | none => s
    | some x => (s.krovol.modsOn x (facing e)).foldl (fun s m => s.modDown x m) s) s

/-- PADRESET_N_ASSERT: the paddock is reset; on a member die its neighbours lose their edges towards it. -/
def State.padAssert (s : State) (d : Die) : State :=
  let q := s.pad d
  if q.boot.poreset || q.boot.padreset then s
  else
    let waiting := (q.shep.cq.toList.flatMap fun x => x.stalled.map fun y => y.1) ++ q.ebb.autoAcc.map fun x => x.who
    let s := waiting.foldl (fun s w => s.portEnds w 3 0) s
    let s := s.modPad d fun q => q.padReset s.krovol
    let s := if s.krovol.tether == some d then s.modTether fun t =>
        { aperLog2 := s.krovol.aperLog2, perst := t.perst, out := t.out, nextTlp := t.nextTlp, lock := t.lock
          stalled := t.stalled, bar0 := t.bar0.map fun b => { b with read := none }
          port := { credits := Vector.replicate 32 s.krovol.otherCredits } }
      else s
    let s := s.modPads fun _ q => { q with
      conf := { q.conf with fenced := putBit q.conf.fenced d.val false }
      repl := { q.repl with readyDies := putBit q.repl.readyDies d.val false } }
    s.faceDown d

/-- PADRESET_N_ASSERT (19 R495). -/
def execPadresetAssert (d : Die) (s : State) : Host.Outcome State Fault Refusal := .next (s.padAssert d)

/-- PADRESET_N_RELEASE (19 R495, 15 R423); UNLOCKED falls with a TESTMODE that is sampled low (13 R358). -/
def State.padRelease (s : State) (d : Die) (bootMode testMode romOk : Bool) : State :=
  if (s.pad d).boot.padreset && !(s.pad d).boot.poreset then
    (s.modPad d fun q => { q with
      aon := { q.aon with rstPad := true }
      bell := { q.bell with unlocked := q.bell.unlocked && testMode } }).releaseReset d bootMode testMode romOk
  else s

/-- PADRESET_N_RELEASE (19 R495). -/
def execPadresetRelease (d : Die) (bootMode testMode romOk : Bool) (s : State) : Host.Outcome State Fault Refusal :=
  .next (s.padRelease d bootMode testMode romOk)

/-! ### Folds marked failed (12 R315, R325) -/

/-- A checker of a physical fold failed at start-up or at a wake from OFF: the fold is marked failed, and the standby
fold takes its logical fold, or none does. -/
def State.failAtTest (s : State) (d : Die) (p : PFold) : State :=
  let m := (s.pad d).repl.foldmap[d]
  match (s.pad d).repl.carries d p with
  | none =>
    let s := (s.foldRep d p 0xA01).markFailed d p
    s.foldRep d p 0xB10
  | some n =>
    let rest : FoldMap := { m with failed := putBit m.failed p.val true }
    let free := match ({ rest with vacant := putBit rest.vacant n.val true } : FoldMap).standby with
      | some q => if q == 4 || q.val == n.val then some q else none
      | none => none
    match free with
    | some q => ((s.foldRep d p 0xA01).raceTo d n q).markFailed d p
    | none => ((s.foldRep d p 0xB10).modFoldmap d fun m => { m with vacant := putBit m.vacant n.val true }).markFailed d p

/-- The same without reports, for a fold that a record of the fuse map or log shadow names. -/
def State.failByRecord (s : State) (d : Die) (p : PFold) : State :=
  let m := (s.pad d).repl.foldmap[d]
  if bitAt m.failed p.val then s
  else
    match (s.pad d).repl.carries d p with
    | none => s.failFold d p
    | some n =>
      let free := match ({ m with failed := putBit m.failed p.val true, vacant := putBit m.vacant n.val true } : FoldMap).standby with
        | some q => if q == 4 || q.val == n.val then some q else none
        | none => none
      match free with
      | some q => (s.raceTo d n q).failFold d p
      | none => ((s.foldRep d p 0xB10).modFoldmap d fun m => { m with vacant := putBit m.vacant n.val true }).failFold d p

/-! ### The fuse map (12 R332, 19 R500) -/

/-- Spare rows or columns of a bank in use, a bit each (12 R320): by fold, array and bank, and kind. -/
def Hurdle.used (h : Hurdle) (key kind : Nat) : Nat :=
  match h.spareUsed.find? fun x => x.1 == key && x.2.1 == kind with
  | some x => x.2.2
  | none => 0

/-- Bring in a spare row (1) or column (2) of a bank: the one wanted, else the other; its number, none where both are in
use (12 R321, R334). -/
def State.takeSpare (s : State) (d : Die) (key kind want : Nat) : State × Option Nat :=
  let h := (s.pad d).hurdle
  let used := h.used key kind
  let free (n : Nat) : Bool := used / 2 ^ n % 2 = 0
  match [want % 2, 1 - want % 2].find? free with
  | some n =>
    let rest := h.spareUsed.filter fun x => !(x.1 == key && x.2.1 == kind)
    (s.modPad d fun q => { q with hurdle := { q.hurdle with spareUsed := rest ++ [(key, kind, used + 2 ^ n)] } }, some n)
  | none => (s, none)

/-- The bank that a record names. -/
def recBank (r : BitVec 64) : Nat := bits r 7 14

/-- The bank of an array of a fold. -/
def bankKey (p : PFold) (a : ArrayKind) (bank : Nat) : Nat := p.val + a.no * 8 + bank * 64

/-- A failing lane was steered onto its group's spare already. -/
def State.steered (s : State) (d : Die) (net : Net) (stage lane : Nat) : Bool :=
  (s.pad d).hurdle.laneBad.contains (net, stage, lane)

/-- A failing lane takes its group's spare (12 R328); `false` where another lane of the group has it. -/
def State.steer (s : State) (d : Die) (net : Net) (stage lane : Nat) : State × Bool :=
  if (s.pad d).hurdle.laneBad.any fun g => g.1 == net && g.2.1 == stage && g.2.2 / 64 == lane / 64 then
    (s, s.steered d net stage lane)
  else
    (s.modPad d fun q => { q with hurdle := { q.hurdle with laneBad := q.hurdle.laneBad ++ [(net, stage, lane)] } }, true)

/-- The network of an ARRAY field. -/
def netOf (n : Nat) : Net :=
  match n with
  | 0 => .req
  | 1 => .snp
  | 2 => .rsp
  | _ => .dat

/-- Ways taken out of service while the arrays are empty take their spares at once, or leave service where none is left:
no sweep or copy has anything to do. -/
def Fold.settleWays (f : Fold) : Fold :=
  let f := f.tallyCopy.foldl (fun (f : Fold) x =>
    { f with tallyPhys := vset f.tallyPhys (Fin.ofNat 16 x.way) x.new, tallyOut := putBit f.tallyOut x.old true }) f
  let f := f.emCopy.foldl (fun (f : Fold) x =>
    let f := { f with emOut := putBit f.emOut x.old true }
    if x.retires then { f with emDropped := putBit f.emDropped x.way true }
    else { f with emPhys := vset f.emPhys (Fin.ofNat 16 x.way) x.new }) f
  let f := f.poolSweep.foldl (fun (f : Fold) x =>
    let f := { f with poolOut := putBit f.poolOut x.old true }
    if x.kind == .disable || x.kind == .millCopy then
      { f with poolPhys := vset f.poolPhys x.way x.new, poolSpareFor := BitVec.ofNat 5 x.way.val }
    else if x.old = 16 then { f with poolSpareFor := 31 } else f) f
  { f with tallyCopy := [], tallyPend := [], emCopy := [], emPend := [], poolSweep := [], poolPend := [] }

/-- Apply a record at start-up step 4. -/
def State.bootRec (s : State) (d : Die) (r : BitVec 64) : State :=
  let p : PFold := Fin.ofNat 5 (bits r 7 3)
  match bits r 0 4 with
  | 1 | 2 =>
    let a := s.takeSpare d (recBank r) (bits r 0 4) (bits r 32 1)
    if a.2.isSome then a.1 else (a.1.foldRep d p 0xB10).exhaust d 0
  | 3 => (s.runFold d p fun c => c.recWay r).modFold d p Fold.settleWays
  | 4 => s.failByRecord d p
  | 5 => (s.steer d (netOf (bits r 10 3)) (bits r 13 8) (bits r 21 11)).1
  | 7 => s.modPad d fun q => { q with hurdle := { q.hurdle with queued := q.hurdle.queued ++ [r] } }
  | _ => s

/-- A row that a pending test of the log shadow names was replaced already: a record of the replacement stands beside it. -/
def rowReplaced (l : List (BitVec 64)) (r : BitVec 64) : Bool := l.any fun x => bits x 0 4 == 1 && bits x 4 28 == bits r 4 28

/-- The 64-bit records of a list of words, low word first. -/
def recsOf (l : List Word) : List (BitVec 64) :=
  match l with
  | lo :: hi :: t => (hi ++ lo) :: recsOf t
  | _ => []

/-- The header of a fuse map is this die's: its FORMAT, DIE and a length that fits. -/
def fuseHeadOk (d : Die) (h : Word) : Bool := bits h 16 8 == 2 && bits h 24 3 == d.val && decide (bits h 0 16 ≤ 2039)

/-- The fuse map is read: the key hash, its records, then those of the log shadow act (12 R332, R335), and the die table
is loaded (01 R19). -/
def State.fuseApply (s : State) (d : Die) : State :=
  let w := (s.pad d).boot.fuseWords
  let hash : BitVec 256 := BitVec.ofNat 256 ((w.take 8).foldl (fun acc x => acc * 2 ^ 32 + x.toNat) 0)
  let ok := fuseHeadOk d (w.getD 8 0)
  let recs := if ok then recsOf (w.drop 9) else []
  let mine (r : BitVec 64) : Bool := recValid r && recDie r == d
  let s := s.modPad d fun q => { q with
    aon := { q.aon with keyHash := hash }
    repl := if q.repl.lockHash then q.repl else { q.repl with dietab := s.krovol.dietab } }
  let s := if ok then s else s.hurdleRep d 0xB01
  let s := recs.foldl (fun s r => if mine r then s.bootRec d r else s.hurdleRep d 0xB01) s
  let log := (s.pad d).aon.hlog
  let again (r : BitVec 64) : Bool :=
    bits r 0 4 != 7 || !(rowReplaced log r || (s.pad d).hurdle.queued.any (sameRec r))
  let s := (log.filter fun r => mine r && again r).foldl (fun s r => s.bootRec d r) s
  (s.stepTo d 5).bootGo d

/-- The next fuse word to read, none at the end: the key hash, the header, its records. -/
def nextFuse (d : Die) (w : List Word) : Option Nat :=
  let n := w.length
  if n < 8 then some n
  else if n = 8 then some 16
  else
    let h := w.getD 8 0
    if fuseHeadOk d h && decide (n < 9 + 2 * bits h 0 16) then some (n + 8) else none

/-- FUSE_ACK rises: the word asked for is there, and FUSE_REQ falls. -/
def State.fuseRise (s : State) (d : Die) (data : Word) : State :=
  s.modPad d fun q =>
    if q.boot.fuseReq && q.boot.step == 4 && !q.boot.backoff then
      { q with boot := { q.boot with
          fuseWords := q.boot.fuseWords ++ [data], fuseReq := false, fuseAck := true, fuseTick := q.ticks } }
    else q

/-- FUSE_ACK falls: the next word is asked for, or the map is complete. -/
def State.fuseFall (s : State) (d : Die) : State :=
  let b := (s.pad d).boot
  let s := s.modBoot d fun b => { b with fuseAck := false }
  if b.fuseReq || b.step != 4 || b.backoff then s
  else
    match nextFuse d b.fuseWords with
    | some a => s.fuseRead d (BitVec.ofNat 12 a)
    | none => s.fuseApply d

/-- FUSE_ACK changes (19 R499, log entry 97). -/
def State.fuseWord (s : State) (d : Die) (data : Word) : State :=
  if (s.pad d).boot.fuseAck then s.fuseFall d else s.fuseRise d data

/-- FUSE_ACK (19 R499). -/
def execFuseAck (d : Die) (data : Word) (s : State) : Host.Outcome State Fault Refusal := .next (s.fuseWord d data)

/-- FUSE_TIMEOUT (19 R499): 1,000 ticks without the rise, or the fall, of FUSE_ACK that is awaited. -/
def execFuseTimeout (d : Die) (s : State) : Host.Outcome State Fault Refusal :=
  let q := s.pad d
  .next (if (q.boot.fuseReq || q.boot.fuseAck) && q.boot.step == 4 && !q.boot.backoff && decide (q.boot.fuseTick + 1000 ≤ q.ticks) then s.stepFail d else s)

/-! ### Self-test and array initialisation (12 R313, R321, R328) -/

/-- Drover's result shows in the fold. -/
def State.droverAt (s : State) (d : Die) (p : PFold) (bad : Option SelfTestFail) : State :=
  s.modFold d p fun f => { f with
    drover := match bad with
      | none => { pass := true }
      | some x => { pass := false, firstBad := x.vector, checker := x.checker }
    census := foldCount 0x37 8 f.census }

/-- A fold at its wake from OFF fails its self-test: the standby fold takes over, or the move that brought it in fails
and no standby fold is left (12 R315, R327). -/
def State.failAtWake (s : State) (lead d : Die) (p : PFold) : State :=
  match s.moveOf fun m => m.d == d && m.dst == p && m.step == 1 with
  | some (l, id, m) => (((s.foldRep d p 0xA01).markFailed d p).foldRep d p 0xB10).moveFail l id m
  | none =>
    let n := (s.pad d).repl.carries d p
    let s := (s.failAtTest d p).foldOff d p
    match n with
    | none => s
    | some n =>
      match (s.pad d).repl.pfoldOf d n with
      | none => (s.finishAll (fun k => match k with
          | .foldPower y m _ => y == d && m == n
          | _ => false) .failed).recheckDue lead
      | some q => (s.modPower d q fun x => { x with target := (s.power d p).target }).modPower d q (fun x =>
          { x with target := if x.target == .off then .doze else x.target }) |>.startWake d q

/-- CHECKER_SELF_TEST at start-up step 5, or at a wake from OFF: each checker's answers are held to the vectors. -/
def State.selfTest (s : State) (d : Die) (u : TestUnit) (answers : List (BitVec 4 × BitVec 64)) : State :=
  let q := s.pad d
  let bad := firstBadChecker answers
  let boot := q.boot.step == 5 && !q.boot.backoff && !q.boot.poreset && !q.boot.padreset
  match u with
  | .paddock =>
    if !boot || bitAt q.boot.selfTested 5 || !q.domOn domSD then s
    else if bad.isNone then (s.modBoot d fun b => { b with selfTested := putBit b.selfTested 5 true }).bootGo d
    else
      let s := if q.boot.a02Filed then s
        else (s.modBoot d fun b => { b with a02Filed := true }).file d
          { code := 0xA02, reporter := streamAgent d, subject := streamAgent d, atype := 0x3E, t := q.now }
      s.stepFail d
  | .fold p =>
    if bitAt q.boot.selfTested p.val || !q.domOn (domFL p) || !q.domOn (domFA p) then s
    else if boot then
      let s := (s.droverAt d p bad).modBoot d fun b => { b with selfTested := putBit b.selfTested p.val true }
      (if bad.isSome then s.failAtTest d p else s).bootGo d
    else if (s.power d p).waking.isSome then
      let s := s.droverAt d p bad
      if bad.isSome then s.failAtWake d d p
      else s.modBoot d fun b => { b with selfTested := putBit b.selfTested p.val true }
    else s

/-- CHECKER_SELF_TEST (12 R313). -/
def execCheckerSelfTest (d : Die) (unit : TestUnit) (answers : List (BitVec 4 × BitVec 64)) (s : State) :
    Host.Outcome State Fault Refusal :=
  .next (s.selfTest d unit answers)

/-- A record with SPARE `n`. -/
def recSpare (r : BitVec 64) (n : Nat) : BitVec 64 :=
  let v := putBit r 32 (n == 1)
  (BitVec.ofNat 8 (crc8 56 (bits v 0 56)).toNat) ++ v.truncate 56

/-- A failing row (1) or column (2) is replaced, and the repair recorded; `own` is a loaded record that names it, which
enters the shadow with the spare used (12 R321, R334). -/
def State.replaceRow (s : State) (d : Die) (p : PFold) (kind arr bank index : Nat) (own : Option (BitVec 64)) : State :=
  let want := match own with
    | some r => bits r 32 1
    | none => 0
  let a := s.takeSpare d (p.val + arr * 8 + bank * 64) kind want
  match a.2, own with
  | none, _ => (a.1.foldRep d p 0xB10).exhaust d 0
  | some n, some r => a.1.hurdleStore d (recSpare r n)
  | some n, none => a.1.hurdleAppend d (hurdleRec kind d p.val arr bank index n (s.pad d).hours)

/-- What array initialisation of a fold found failing. -/
def State.initFound (s : State) (d : Die) (p : PFold) (x : InitFail) : State :=
  match x with
  | .row a bank index => s.replaceRow d p 1 a.no bank.toNat index.toNat none
  | .column a bank index => s.replaceRow d p 2 a.no bank.toNat index.toNat none
  | .lane _ _ _ | .fold => s

/-- A loaded record that acts enters the shadow, unless it stands there (12 R334). -/
def State.storeNew (s : State) (d : Die) (r : BitVec 64) : State :=
  if (s.pad d).aon.hlog.any (sameRec r) then s else s.hurdleStore d r

/-- A queued record of a fold acts (12 R329, R334). -/
def State.initQueued (s : State) (d : Die) (p : PFold) (r : BitVec 64) : State :=
  let kind := bits r 0 4
  if kind = 7 then (s.storeNew d r).replaceRow d p 1 (bits r 10 3) (bits r 13 8) (bits r 21 11) none
  else s.replaceRow d p kind (bits r 10 3) (bits r 13 8) (bits r 21 11) (some r)

/-- Take the queued records that satisfy `f` out of Hurdle. -/
def State.unqueue (s : State) (d : Die) (f : BitVec 64 → Bool) : State × List (BitVec 64) :=
  (s.modPad d fun q => { q with hurdle := { q.hurdle with queued := q.hurdle.queued.filter fun r => !f r } },
    (s.pad d).hurdle.queued.filter f)

/-- The row (1) or column (2) that a record or a finding names: kind, array, bank, index. A pending row test names a row. -/
abbrev RowName := Nat × Nat × Nat × Nat

/-- The row or column of a KIND 1, 2 or 7 record. -/
def recRow (r : BitVec 64) : RowName :=
  (if bits r 0 4 = 7 then 1 else bits r 0 4, bits r 10 3, bits r 13 8, bits r 21 11)

/-- The row or column that array initialisation found. -/
def initFailRow (x : InitFail) : Option RowName :=
  match x with
  | .row a bank index => some (1, a.no, bank.toNat, index.toNat)
  | .column a bank index => some (2, a.no, bank.toNat, index.toNat)
  | .lane _ _ _ | .fold => none

/-- Act on a queued record of a fold unless its row or column was replaced in this initialisation; `done` holds those that
were. A pending test that has been run enters the shadow in either case. -/
def State.initRec (s : State) (d : Die) (p : PFold) (done : List RowName) (r : BitVec 64) : State × List RowName :=
  if done.contains (recRow r) then (if bits r 0 4 = 7 then s.storeNew d r else s, done)
  else (s.initQueued d p r, done ++ [recRow r])

/-- Act on what array initialisation found, unless it was replaced in this initialisation. -/
def State.initFind (s : State) (d : Die) (p : PFold) (done : List RowName) (x : InitFail) : State × List RowName :=
  match initFailRow x with
  | none => (s, done)
  | some k => if done.contains k then (s, done) else (s.initFound d p x, done ++ [k])

/-- The rows and columns that array initialisation replaces: those of loaded records, of pending row tests, and those
that fail the read-back, each once (12 R321). -/
def State.initRows (s : State) (d : Die) (p : PFold) (recs : List (BitVec 64)) (bad : List InitFail) : State :=
  let loaded := (recs.filter fun r => bits r 0 4 != 7) ++ recs.filter fun r => bits r 0 4 == 7
  let a := loaded.foldl (fun a r => State.initRec a.1 d p a.2 r) (s, ([] : List RowName))
  (bad.foldl (fun a x => State.initFind a.1 d p a.2 x) a).1

/-- The Millpond ways (index k for way 15 - k) that an initialisation writes: those in use, and those an increase makes
Millpond with no sweep running, as in a fold that was in OFF at its start. -/
def Fold.millWays (f : Fold) : List Nat :=
  (List.range 16).filter fun k =>
    f.isMill (15 - k) || (bitAt f.poolConv (15 - k) && !(f.poolSweep.any fun x => x.way.val == 15 - k && x.kind == .convert))

/-- ARRAY_INITIALISATION of a fold: every entry takes its reset value, that of a Millpond line being a zero line with VALID
1 (06 R144, R170), poisoned where Nightfold lost it, and failing rows and columns are replaced. -/
def State.initFold (s : State) (d : Die) (p : PFold) (bad : List InitFail) : State :=
  let s := s.modFold d p fun f => { f.arrayReset.millFill f.millWays f.millLost with millLost := false }
  let r := s.unqueue d fun r => [1, 2, 7].contains (bits r 0 4) && bits r 7 3 == p.val
  (r.1.initRows d p r.2 bad).modBoot d fun b => { b with arrayInit := putBit b.arrayInit p.val true }

/-- A lane fails for which no spare is left: it is kept, under 0xB10 (12 R328). -/
def State.laneKept (s : State) (d : Die) : State := (s.hurdleTell d 0xB10 (streamAgent d)).exhaust d 5

/-- A lane that the walking pattern found is steered and recorded; one that a record steered already is no second failing
lane. -/
def State.laneFound (s : State) (d : Die) (x : InitFail) : State :=
  match x with
  | .lane net stage lane =>
    if s.steered d net stage.toNat lane.toNat then s
    else
      let a := s.steer d net stage.toNat lane.toNat
      if a.2 then a.1.hurdleAppend d (hurdleRec 5 d 7 (netNo net).val stage.toNat lane.toNat 0 (s.pad d).hours)
      else a.1.laneKept d
  | _ => s

/-- A queued record of the paddock acts: a lane repair steers its lane, a pending link test is stored. -/
def State.laneRec (s : State) (d : Die) (r : BitVec 64) : State :=
  if bits r 0 4 == 8 then s.storeNew d r
  else
    let a := s.steer d (netOf (bits r 10 3)) (bits r 13 8) (bits r 21 11)
    if a.2 then a.1.storeNew d r else a.1.laneKept d

/-- The lane test of start-up step 6 (12 R328): loaded records first, then what the test found. -/
def State.initLanes (s : State) (d : Die) (bad : List InitFail) : State :=
  let r := s.unqueue d fun r => bits r 0 4 == 5 || bits r 0 4 == 8
  let s := bad.foldl (fun s x => s.laneFound d x) (r.2.foldl (fun s x => s.laneRec d x) r.1)
  s.modBoot d fun b => { b with arrayInit := putBit b.arrayInit 5 true }

/-- Array initialisation of the fold that a move brings in fails as a whole (12 R327, step 1): the fold is marked failed,
and no standby fold is left. Elsewhere the spec knows only rows and columns that fail. -/
def State.initFails (s : State) (d : Die) (p : PFold) : State :=
  match s.moveOf fun m => m.d == d && m.dst == p && m.step == 1 with
  | some (l, id, m) => ((s.markFailed d p).foldRep d p 0xB10).moveFail l id m
  | none => s

/-- ARRAY_INITIALISATION at start-up step 6, or at a wake from OFF after its self-test. -/
def State.arrayInit (s : State) (d : Die) (u : TestUnit) (bad : List InitFail) : State :=
  let q := s.pad d
  let boot := q.boot.step == 6 && !q.boot.backoff && !q.boot.poreset && !q.boot.padreset
  match u with
  | .paddock => if boot && !bitAt q.boot.arrayInit 5 then (s.initLanes d bad).bootGo d else s
  | .fold p =>
    if bitAt q.boot.arrayInit p.val || !bitAt q.boot.selfTested p.val || !q.domOn (domFL p) || !q.domOn (domFA p) then s
    else if boot || (s.power d p).waking.isSome then
      let s := (s.initFold d p bad).bootGo d
      if bad.contains .fold then s.initFails d p else s
    else s

/-- ARRAY_INITIALISATION (12 R321). -/
def execArrayInitialisation (d : Die) (unit : TestUnit) (bad : List InitFail) (s : State) :
    Host.Outcome State Fault Refusal :=
  .next (s.arrayInit d unit bad)

/-! ### HCLK (19 R492, 15 R423, R425) -/

/-- The assembly deadline in LCLK ticks (10 R268). -/
def Krovol.deadlineTick (k : Krovol) : Nat := k.asmDeadline * 1000

/-- Step 8: the modules train (10 R263). A paddock that comes here after the deadline is absent at assembly. -/
def State.trainStart (s : State) (d : Die) : State :=
  let s := s.stepTo d 8
  let q := s.pad d
  let s := if q.boot.frozen.isNone && decide (s.krovol.deadlineTick ≤ q.ticks) then
      s.modBoot d fun b => { b with frozen := some (0, 0) }
    else s
  modNs.foldl (fun s m => if ((s.krovol.modEdge[d])[m]).isSome then s.modMod d m fun x => { x with state := .training, fdi := .active } else s) s

/-- HCLK_ACK. -/
def State.clockAck (s : State) (d : Die) (level : Bool) (opack : Point) : State :=
  let e := (s.pad d).ebb
  if level then
    if e.hclkReq && !e.hclkAck && opack == e.hclkOp then
      let s := s.modEbb d fun e => { e with hclkAck := true, hclkOpack := opack, point := opack }
      let s := s.censusBoundary d
      let b := (s.pad d).boot
      if b.step == 7 && !b.backoff then
        if b.bootMode then s.modBoot d fun b => { b with bootHold := true } else s.trainStart d
      else s.nfExit d
    else s
  else if !e.hclkReq && e.hclkAck then s.modEbb d fun e => { e with hclkAck := false }
  else s

/-- HCLK_ACK (19 R492). -/
def execHclkAck (d : Die) (level : Bool) (opack : Point) (s : State) : Host.Outcome State Fault Refusal :=
  .next (s.clockAck d level opack)

/-- HCLK_ACK_TIMEOUT (15 R423): step 7 fails 200 ticks after HCLK_REQ rose. -/
def execHclkAckTimeout (d : Die) (s : State) : Host.Outcome State Fault Refusal :=
  let q := s.pad d
  .next (if q.boot.step == 7 && !q.boot.backoff && q.ebb.hclkReq && !q.ebb.hclkAck && decide (q.ebb.hclkTick + 200 ≤ q.ticks)
    then s.stepFail d else s)

/-- A write of 1 to SHEP_BOOT.RELEASE on a paddock (15 R425). -/
def State.bootRelease (s : State) (d : Die) : State :=
  if (s.pad d).boot.bootHold then (s.modBoot d fun b => { b with bootHold := false }).trainStart d else s

/-! ### Power switches (14 R366, 19 R498) -/

/-- A paddock whose SH was switched on again: Bell's store, the queues and the registers of SH restart (13 R352,
14 R377, 18 R475, R490). -/
def Paddock.shReset (q : Paddock) (k : Krovol) : Paddock :=
  let awake (x : FoldPower) : FoldPower := { x with woken := false }
  let keep (o : Deferred) : Bool := o.kind == .nightfold
  { q with
    bell := { inbox := q.bell.inbox, ftHalt := q.bell.ftHalt, unlocked := q.bell.unlocked }
    hurdle := { q.hurdle with exh := 0, hourBase := 0 }
    common := {}
    ebb := { q.ebb with autowake := 0, offAccess := 0, fold := q.ebb.fold.map awake }
    aon := { q.aon with rstShOn := true }
    shep := { deferred := q.shep.deferred.filter keep, nextId := q.shep.nextId, patch := q.shep.patch, recheck := q.shep.recheck
              sw := q.shep.sw, needSwitch := q.shep.needSwitch, wdogTick := q.aon.ticks
              port := { credits := Vector.replicate 32 k.otherCredits } } }

/-- A paddock whose SD was switched on again: ports, rings and Confluence restart with their links in training; route
tables and the edges in use stay (14 R383). -/
def Paddock.sdReset (q : Paddock) (k : Krovol) (d : Die) : Paddock :=
  let full (c : Nat) : ReqPort := { credits := Vector.replicate 32 c }
  let edge (e : EdgeStat) : EdgeStat := { inUse := e.inUse, lost := e.lost, pace := e.pace, sent := e.sent }
  let mods : Vector ModStat 4 := Vector.ofFn fun m =>
    if ((k.modEdge[d])[m]).isSome then { (q.conf.mod[m]) with state := .training, fdi := .active, seqTx := 0, seqRx := 0, wire := [] }
    else q.conf.mod[m]
  { q with
    gates := Vector.replicate 4 { port := full k.gateCredits }
    stiles := Vector.replicate 24 { port := full k.otherCredits }
    stream := { turnW := q.stream.turnW, turnE := q.stream.turnE, turnV := q.stream.turnV, epoch := q.stream.epoch
                detour := q.stream.detour }
    conf := { unreach := q.conf.unreach, edge := q.conf.edge.map edge, mod := mods, fenced := q.conf.fenced
              readyReported := q.conf.readyReported }
    census := {} }

/-- The Tether of a die whose SD came on (16 R447): registers and configuration space at their reset values. -/
def State.tetherFresh (s : State) (d : Die) : State :=
  if s.krovol.tether == some d then
    s.modTether fun t =>
      { aperLog2 := s.krovol.aperLog2, perst := t.perst, out := t.out, nextTlp := t.nextTlp, lock := t.lock
        stalled := t.stalled, bar0 := t.bar0.map fun b => { b with read := none }
        port := { credits := Vector.replicate 32 s.krovol.otherCredits } }
  else s

/-- A domain came on. -/
def State.domUp (s : State) (d : Die) (i : DomN) : State :=
  let s := s.foldDomUp d i
  let nf := (s.pad d).ebb.nf
  let s := if i == domSH && nf == .exit2 then s.modPad d fun q => q.shReset s.krovol
    else if i == domSD && nf == .exit4 then (s.modPad d fun q => q.sdReset s.krovol d).tetherFresh d
    else s
  let s := if i == domSH then s.unfencePos d 15
    else if i == domSD then (s.sdFords d).foldl (fun s p => s.unfencePos d p.val) s
    else s
  ((s.bootGo d).nfExit d).sampleGoes d

/-- What agents of a domain kept for a fenced ford goes with the domain. -/
def State.dropHeld (s : State) (d : Die) (i : DomN) : State :=
  s.modStream d fun q => { q with inj := q.inj.filter fun x => !(x.held && posDom x.pos == i) }

/-- PSW_ACK: the switch has done what PSW_REQ asks; a supply that falls by itself is none of it. -/
def State.pswAck (s : State) (d : Die) (i : DomN) (level : Bool) : State :=
  let q := s.pad d
  if bitAt q.ebb.pswReq i.val != level || bitAt q.ebb.pswAck i.val == level then s
  else
    let s := s.modEbb d fun e =>
      let e : Ebb := { e with
        pswAck := putBit e.pswAck i.val level
        iso := if level then putBit e.iso i.val false else e.iso
        switching := e.switching.filter fun x => x.dom != i || x.on != level }
      e.raiseNext q.ticks
    let s := s.pcount d 0x30 i.val
    if level then s.domUp d i else (((s.dropHeld d i).foldDomDown d i).nfDomDown d i).sampleGoes d

/-- PSW_ACK (14 R366). -/
def execPswAck (d : Die) (i : DomN) (level : Bool) (s : State) : Host.Outcome State Fault Refusal :=
  .next (s.pswAck d i level)

/-- PSW_ACK_TIMEOUT: 100 ticks without an acknowledgement (0xE01). -/
def State.pswLate (s : State) (d : Die) (i : DomN) : State :=
  let q := s.pad d
  let late (x : DomSwitch) : Bool :=
    x.dom == i && !x.late && decide (x.tick + 100 ≤ q.ticks) && bitAt q.ebb.pswReq i.val == x.on
  if q.ebb.switching.any late then
    (s.modEbb d fun e => { e with switching := updateWhere late (fun x => { x with late := true }) e.switching }).stick d 0
  else s

/-- PSW_ACK_TIMEOUT (14 R366). -/
def execPswAckTimeout (d : Die) (i : DomN) (s : State) : Host.Outcome State Fault Refusal := .next (s.pswLate d i)

/-! ### Assembly (10 R269, 01 R12 to R14) -/

/-- A die's frozen view: the edges with a module that came up in a tick below the deadline. -/
def State.linkView (s : State) (d : Die) : BitVec 3 :=
  let t := s.krovol.deadlineTick
  edges.foldl (fun v e => if (s.krovol.modsOn d e).any fun m =>
      let x := (s.pad d).conf.mod[m]
      x.state == .up && decide (x.upTick < t)
    then putBit v (edgeNo e).val true else v) 0

/-- ASSEMBLY_DEADLINE: every die that has reached step 8 freezes its views and goes to step 9; the others are absent. -/
def State.deadlineAt (s : State) : State :=
  let t := s.krovol.deadlineTick
  let view := s.linkView
  s.modPads fun d q =>
    if q.boot.poreset || q.boot.padreset || q.boot.frozen.isSome || decide (q.ticks < t) then q
    else if q.boot.step == 8 then
      { q with boot := { q.boot with step := 9, frozen := some (max 1 t, view d) }, repl := { q.repl with lockHash := true } }
    else { q with boot := { q.boot with frozen := some (0, 0) } }

/-- ASSEMBLY_DEADLINE (10 R269). -/
def execAssemblyDeadline (s : State) : Host.Outcome State Fault Refusal := .next s.deadlineAt

/-- The die takes part in assembly. -/
def Paddock.assembles (q : Paddock) : Bool :=
  match q.boot.frozen with
  | some (t, _) => t != 0 && q.boot.step == 9 && !q.repl.formed
  | none => false

/-- The dies that take part in assembly. -/
def State.assembling (s : State) : BitVec 8 :=
  dies.foldl (fun b d => if (s.pad d).assembles && s.planned d then putBit b d.val true else b) 0

/-- A frozen link between two dies that face each other across an edge: the lower-numbered end's record. -/
def State.frozenLink (s : State) (d : Die) (e : Edge) (x : Die) : Bool :=
  let at' (y : Die) (f : Edge) : Bool := match (s.pad y).boot.frozen with
    | some (_, v) => bitAt v (edgeNo f).val
    | none => false
  if d < x then at' d e else at' x (facing e)

/-- Grow a set of dies by a relation along edges. -/
def growBy (f : Die → Edge → Die → Bool) (pop : BitVec 8) (fuel : Nat) (set : BitVec 8) : BitVec 8 :=
  match fuel with
  | 0 => set
  | n + 1 =>
    growBy f pop n (dies.foldl (fun acc d =>
      if bitAt pop d.val && edges.any (fun e => match neighbour d e with
        | some x => bitAt set x.val && f d e x
        | none => false) then putBit acc d.val true else acc) set)

/-- Two dies share a sideband: modules face each other. -/
def Krovol.sideband (k : Krovol) (d : Die) (e : Edge) (x : Die) : Bool :=
  !(k.modsOn d e).isEmpty && !(k.modsOn x (facing e)).isEmpty

/-- The leader of a group (01 R12). -/
def State.leaderOf (s : State) (grp : BitVec 8) : Option Die :=
  match s.krovol.tether with
  | some t => if bitAt grp t.val then some t else (diesOf grp).head?
  | none => (diesOf grp).head?

/-- The Range that a group forms: its leader and the dies connected to it through trained links. -/
def State.rangeOf (s : State) (pop grp : BitVec 8) (lead : Die) : BitVec 8 :=
  growBy s.frozenLink (pop &&& grp) 8 (putBit 0 lead.val true)

/-- The Ranges that form: one for each group of dies that can exchange views, by its leader. -/
def State.ranges (s : State) : List (Die × BitVec 8) :=
  let pop := s.assembling
  ((diesOf pop).filterMap fun d =>
    let grp := growBy s.krovol.sideband pop 8 (putBit 0 d.val true)
    (s.leaderOf grp).map fun l => (l, s.rangeOf pop grp l)).eraseDups

/-- The edges that carry rings in a Range as it forms: the links that its frozen views show as trained. -/
def State.frozenEdges (s : State) (range : BitVec 8) : BitVec 24 :=
  (diesOf range).foldl (fun o d => edges.foldl (fun o e => match neighbour d e with
    | some x => if bitAt range x.val && s.frozenLink d e x then putBit o (edgeBit d e) true else o
    | none => o) o) 0

/-- The edges of a Range open as it forms; one whose modules went down since is lost, and one that came up since waits for
a switch (10 R265, R269). -/
def State.formEdges (s : State) (lead : Die) (range : BitVec 8) : State :=
  let ds := diesOf range
  let o := s.frozenEdges range
  let s := ((s.writeEdges ds range o).setTurns ds).writePaces ds (s.mhz lead)
  let s := ds.foldl (fun s d => edges.foldl (fun s e =>
    if ((s.pad d).conf.edge[edgeNo e]).inUse && !s.edgeUp d e then s.edgeLost d e else s) s) s
  if s.openEdges range == o then s else s.wantSwitch lead

/-- A Range forms: every copy of a replicated register takes the value of the leader's (18 R471, log entry 98), PKG_POP in
every member, READY, its edges, and 0x801 for each absent planned die. -/
def State.form (s : State) (lead : Die) (range : BitVec 8) : State :=
  let copy := (s.pad lead).repl
  let s := (diesOf range).foldl (fun s d => s.modPad d fun q => { q with
    repl := { copy with present := range, leader := lead, formed := true, lockHash := true, tideHi := q.repl.tideHi }
    boot := { q.boot with ready := true, step := 10 } }) s
  let s := ((diesOf range).foldl State.lockAperture s).formEdges lead range
  let s := (dies.filter fun d => s.planned d && !bitAt range d.val).foldl (fun s d => s.file lead
    { code := 0x801, reporter := streamAgent lead, subject := streamAgent d, atype := 0x3F
      t := s.krovol.deadlineTick * 1000 }) s
  (s.publishEnv lead).eventFrom lead 5 lead range.toNat

/-- FORMED: the tick after the last exchange of views. A present die that no trained link joins to its leader is absent
from then on (01 R12). -/
def State.formAll (s : State) : State :=
  let l := (s.ranges).filter fun x => decide (s.krovol.deadlineTick < (s.pad x.1).ticks)
  if l.isEmpty then s
  else
    let s := l.foldl (fun s x => s.form x.1 x.2) s
    s.modPads fun _ q => if q.assembles then { q with boot := { q.boot with frozen := some (0, 0) } } else q

/-- FORMED (10 R269). -/
def execFormed (s : State) : Host.Outcome State Fault Refusal := .next s.formAll

end Sys2Proof.Machine
end

