-- ==== Sys2Proof/Machine/BellCmds.lean ====
section
/-!
DEFINITION. Bell (13): filing a report in the record store with storm merging (R347 to R349, R356), clearing (R355), the
registers of the local window (R360 to R363), and the pins (R353, R354).
-/

namespace Sys2Proof.Machine

/-! ### Records (13 R347) -/

/-- Increment, saturating at 65,535. -/
def sat16 (n : Nat) : Nat := min 65535 (n + 1)

/-- Kinds of reporter in SUMMARY: Gate 0, Stile 1, fold 2, any other 3. -/
def kindOf (a : AgentId) : Nat :=
  let l := localOf a
  if l < 4 then 0 else if 8 ≤ l && l < 32 then 1 else if 64 ≤ l && l ≤ 68 then 2 else 3

/-- Add a reporter to a record's summary. -/
def BellRec.add (x : BellRec) (a : AgentId) : BellRec :=
  { x with
    dies := putBit x.dies (dieOf a).val true
    lo := min x.lo (localOf a)
    hi := max x.hi (localOf a)
    kinds := putBit x.kinds (kindOf a) true }

/-- A new record of a report. -/
def newRec (slot : Nat) (seq : Word) (r : Report) : BellRec :=
  BellRec.add { slot := slot, seq := seq, rep := r, lo := localOf r.reporter, hi := localOf r.reporter } r.reporter

/-- Open a storm entry, retiring the one with its key and, where 16 are open, the oldest (13 R348). -/
def openStorm (l : List Storm) (x : Storm) : List Storm :=
  let l := l.filter fun y => !(y.subject == x.subject && y.code == x.code)
  let l := if 16 ≤ l.length then
      match leastBy (fun y : Storm => y.first) l with
      | some y => l.erase y
      | none => l
    else l
  l ++ [x]

/-- What filing a report came to. -/
inductive Filed where
  | later | merged | stored | lost
  deriving DecidableEq, Repr

/-- File a report (13 R349) with the SEQ of the next record. -/
def Bell.take (b : Bell) (r : Report) (seq : Word) : Bell × Filed :=
  let own (x : BellRec) : Bool := x.rep.reporter == r.reporter && x.rep.code == r.code
  if b.recs.any own then
    match takeFirst own b.recs with
    | some (x, _) => ({ b with recs := updateWhere (fun y => y == x) (fun y => { y with later := sat16 y.later }) b.recs }, .later)
    | none => (b, .later)
  else
    let storm := b.storms.find? fun y => y.subject == r.subject && y.code == r.code && decide (r.t < y.first + 4000)
    match storm with
    | some y =>
      let add (x : BellRec) : BellRec := BellRec.add { x with reports := sat16 x.reports, merged := true } r.reporter
      ({ b with recs := updateWhere (fun x : BellRec => x.slot == y.slot) add b.recs }, .merged)
    | none =>
      if 256 ≤ b.recs.length then
        ({ b with lost := sat16 b.lost, ovf := putBit b.ovf (codeClass r.code).no true }, .lost)
      else
        let storms := openStorm b.storms { subject := r.subject, code := r.code, first := r.t, slot := b.nextSlot }
        ({ b with
          recs := b.recs ++ [newRec b.nextSlot seq r]
          nextSlot := (b.nextSlot + 1) % 256
          storms := storms }, .stored)

/-- The storm entries that have not reached the end of their 8,000 ns (13 R348). -/
def Paddock.liveStorms (q : Paddock) : List Storm :=
  if q.running then q.bell.storms.filter fun x => decide (q.now < x.first + 8000) else q.bell.storms

/-- BELL_REPORT: the report stamped first, of those with one stamp that of the lowest reporter, is filed. -/
def State.bellReport (s : State) (d : Die) : State :=
  let q := s.pad d
  match leastBy (fun r : Report => r.t * 1024 + r.reporter.toNat) q.bell.inbox with
  | none => s
  | some r =>
    if q.boot.poreset || q.boot.padreset || !q.domOn domSH then s
    else
      let k := codeClass r.code
      let b := Bell.take { q.bell with inbox := q.bell.inbox.erase r, storms := q.liveStorms } r q.aon.nextSeq
      let s := s.modPad d fun q => { q with
        bell := b.1
        aon := { q.aon with nextSeq := if b.2 == .stored then q.aon.nextSeq + 1 else q.aon.nextSeq } }
      let s := s.pcount d (0x38 + k.no) 0
      let s := if b.2 == .merged then s.pcount d 0x3B 0 else s
      let s := if b.2 == .stored then s.event (1 + k.no) d q.aon.nextSeq.toNat else s
      if k != .ce && (s.pad d).wakeEn 3 then s.nfWake else s

/-- BELL_REPORT (13 R349). -/
def execBellReport (d : Die) (s : State) : Host.Outcome State Fault Refusal := .next (s.bellReport d)

/-- STORM_ENTRY_RETIRE (13 R348): an entry is retired 8,000 ns after FIRST. -/
def execStormEntryRetire (d : Die) (s : State) : Host.Outcome State Fault Refusal :=
  .next (s.modPad d fun q => { q with bell := { q.bell with storms := q.liveStorms } })

/-- Clear every record up to a value of BELL_CLEAR, with its storm entry (13 R355). -/
def Bell.clear (b : Bell) (u : Word) : Bell :=
  let gone (x : BellRec) : Bool := decide ((u - x.seq).toNat < 2 ^ 31)
  let slots := (b.recs.filter gone).map fun x => x.slot
  { b with recs := b.recs.filter fun x => !gone x, storms := b.storms.filter fun x => !slots.contains x.slot }

/-! ### Registers of the local window (13 R360 to R363) -/

/-- The class field of word 0. -/
def classCode (c : BitVec 12) : Nat := (codeClass c).no + 1

/-- Word j of a record. -/
def BellRec.word' (x : BellRec) (j : Nat) : Word :=
  let a : Addr := x.rep.addr.getD 0
  match j with
  | 0 => word [(0, x.rep.code.toNat), (12, classCode x.rep.code), (14, bit x.merged), (15, bit x.rep.addr.isSome),
               (16, x.rep.reporter.toNat), (26, x.rep.atype.toNat)]
  | 1 => addrLo a
  | 2 => addrHi a ||| BitVec.ofNat 32 (x.rep.subject.toNat * 2 ^ 20)
  | 3 => BitVec.ofNat 32 x.rep.t
  | 4 => BitVec.ofNat 32 (x.rep.t / 2 ^ 32)
  | 5 => word [(0, x.later), (16, x.reports)]
  | 6 => word [(0, x.dies.toNat), (8, x.lo), (15, x.hi), (22, x.kinds.toNat)]
  | _ => word [(0, x.rep.detail.toNat), (16, bits x.seq 0 16)]

/-- BELL_STAT (13 R361). -/
def Bell.stat (b : Bell) (storms : Nat) : Word :=
  let oldest := match b.recs with
    | x :: _ => x.slot
    | [] => 0
  word [(0, b.recs.length), (9, oldest), (17, b.ovf.toNat), (20, bit b.ftHalt), (21, bit b.unlocked), (22, storms)]

/-- The offsets of the local Bell window that hold a register. -/
def bellLaid (off : Nat) : Bool :=
  [0x00, 0x10, 0x14, 0x18, 0x1C, 0x20].contains off || (off % 4 == 0 && decide (0x1000 ≤ off) && decide (off < 0x3000))

/-- Read a register of the local Bell window. -/
def Paddock.bellRead (q : Paddock) (off : Nat) : Word :=
  let b := q.bell
  if off = 0x00 then word [(0, bit b.ceToPin), (1, b.irqEn.toNat)]
  else if off = 0x10 then b.stat q.liveStorms.length
  else if off = 0x14 then BitVec.ofNat 32 b.lost
  else if off = 0x18 then q.aon.nextSeq
  else if off = 0x20 then BitVec.ofNat 32 q.aon.sticky.toNat
  else if 0x1000 ≤ off && off < 0x3000 then
    match b.recs.find? fun x => x.slot == (off - 0x1000) / 32 with
    | some x => x.word' ((off - 0x1000) % 32 / 4)
    | none => 0
  else 0

/-- OVF bits are cleared by writing 1; with the last of them LOST is cleared (13 R355, R362). -/
def Bell.clearOvf (b : Bell) (v : Word) : Bell :=
  let o := b.ovf &&& ~~~(v.extractLsb' 17 3)
  { b with ovf := o, lost := if o == 0 && b.ovf != 0 then 0 else b.lost }

/-- Write a register of the local Bell window. -/
def Paddock.bellWrite (q : Paddock) (off : Nat) (v : Word) : Paddock :=
  if off = 0x00 then { q with bell := { q.bell with ceToPin := bitAt v 0, irqEn := v.extractLsb' 1 3 } }
  else if off = 0x10 then { q with bell := q.bell.clearOvf v }
  else if off = 0x1C then { q with bell := q.bell.clear v }
  else if off = 0x20 then { q with aon := { q.aon with sticky := q.aon.sticky &&& ~~~(v.extractLsb' 0 10) } }
  else q

end Sys2Proof.Machine
end

