-- ==== Sys2Proof/Machine/Flags.lean ====
section
/-!
DEFINITION. The level signals a paddock drives from its state: BELL_N and BELL_IRQ (13 R353, R354), CQ_IRQ (15 R408)
and TETHER_CLKREQ_N (19 R516).
-/

namespace Sys2Proof.Machine

/-- The paddock drives BELL_N low (13 R353). -/
def Paddock.bellLow (q : Paddock) : Bool :=
  q.bellCond .uc || q.bellCond .ft || (q.bell.ceToPin && q.bellCond .ce)

/-- The wired BELL_N signal of the package is low (13 R353, R364). -/
def State.bellNet (s : State) : Bool := dies.any fun d => (s.pad d).bellLow

/-- A reset is asserted, or the Shepherd has not started since its release: the paddock's outputs hold the levels of 19
R496. -/
def Paddock.pinsReset (q : Paddock) : Bool := q.boot.poreset || q.boot.padreset || decide (q.boot.step.toNat < 4)

/-- BELL_IRQ of a paddock, CE in bit 0, UC in bit 1, FT in bit 2 (13 R354); 0 from a reset on (19 R496). -/
def Paddock.bellIrqs (q : Paddock) : BitVec 3 :=
  if q.pinsReset then 0 else putBit (putBit (putBit 0 0 (q.bellIrq .ce)) 1 (q.bellIrq .uc)) 2 (q.bellIrq .ft)

/-- Some queue of a Shepherd drives CQ_IRQ. -/
def Shep.irq (x : Shep) : Bool := x.rq.any ReplyQueue.irq || x.eq.any EventQueue.irq

/-- CQ_IRQ of a paddock: the condition of the leader's queues, its own outside the Range (15 R408, R426); 0 from a reset on
(19 R496). -/
def State.cqIrq (s : State) (d : Die) : Bool := !(s.pad d).pinsReset && ((s.pad (s.queueDie d)).shep).irq

/-- TETHER_CLKREQ_N is driven low: released in a reset and in L1.1 and L1.2 (19 R496, R516, 16 R446; log entry 22). -/
def State.clkreqNet (s : State) : Bool :=
  s.tetherDie.isSome && !s.tether.perst && s.tether.linkUp && decide (s.tether.lpm.toNat < 2)

end Sys2Proof.Machine
end

