-- ==== Sys2Proof/Machine/RegMap.lean ====
section
/-!
DEFINITION. The register space (18 R466 to R478): which block an address lies in, which paddock serves it, its power domain
and its privilege.
-/

namespace Sys2Proof.Machine

/-- A block of the register space (18 R466 to R468, R470). -/
inductive Block where
  | repl                              -- replicated: PKG but start-up, regions, device windows, Tide, global Bell
  | boot                              -- port-local: start-up and Shepherd registers
  | queue                             -- CQ, RQ, EQ
  | tether                            -- Tether, MSI-X table and PBA
  | fold (d : Die) (p : PFold)
  | logical (d : Die) (n : LFold)
  | common (d : Die)
  | stream (d : Die)
  | conf (d : Die)
  | gate (d : Die) (g : GateN)
  | stile (d : Die) (x : StileN)
  | ebb (d : Die)
  | foldCensus (d : Die) (p : PFold)
  | census (d : Die)
  | hurdle (d : Die)
  | bell (d : Die)
  | window (d : Die)                  -- an offset of a paddock window in no block
  | free
  deriving DecidableEq, Repr

/-- The block and offset of an offset of paddock d's window (18 R468). -/
def windowBlock (d : Die) (o : Nat) : Block × Nat :=
  if o < 0x140000 then (.fold d (Fin.ofNat 5 (o / 0x40000)), o % 0x40000)
  else if o < 0x180000 then (.common d, o - 0x140000)
  else if o < 0x200000 then (.window d, 0)
  else if o < 0x240000 then (.stream d, o - 0x200000)
  else if o < 0x280000 then (.conf d, o - 0x240000)
  else if o < 0x290000 then (.gate d (Fin.ofNat 4 ((o - 0x280000) / 0x4000)), o % 0x4000)
  else if o < 0x2C0000 then (.window d, 0)
  else if o < 0x2F0000 then (.stile d (Fin.ofNat 24 ((o - 0x2C0000) / 0x2000)), o % 0x2000)
  else if o < 0x300000 then (.window d, 0)
  else if o < 0x340000 then (.ebb d, o - 0x300000)
  else if o < 0x341400 then (.foldCensus d (Fin.ofNat 5 ((o - 0x340000) / 0x400)), o % 0x400)
  else if o < 0x341900 then (.census d, o - 0x340000)
  else if o < 0x380000 then (.window d, 0)
  else if o < 0x3C0000 then (.hurdle d, o - 0x380000)
  else (.bell d, o - 0x3C0000)

/-- The block and offset of an address (18 R466, R467). -/
def blockOf (a : RegAddr) : Block × Nat :=
  let n := a.toNat
  if n < 0x1000000 then
    if n = 0x20 || n = 0x24 || (0x5000 ≤ n && n < 0x5100) then (.boot, n)
    else if n < 0x100 || (0x1000 ≤ n && n < 0x1804) || (0x2000 ≤ n && n < 0x2400) || (0x3000 ≤ n && n < 0x3100)
        || (0x4000 ≤ n && n < 0x4100) then (.repl, n)
    else if 0x10000 ≤ n && n < 0x12400 then (.queue, n - 0x10000)
    else if (0x20000 ≤ n && n < 0x21800) || (0x30000 ≤ n && n < 0x31000) then (.tether, n - 0x20000)
    else if 0x800000 ≤ n then
      let i := (n - 0x800000) / 0x40000
      (.logical (Fin.ofNat 8 (i / 4)) (Fin.ofNat 4 i), n % 0x40000)
    else (.free, 0)
  else if n < 0x3000000 then
    windowBlock (Fin.ofNat 8 ((n - 0x1000000) / 0x400000)) (n % 0x400000)
  else (.free, 0)

/-- The position whose window or alias a block belongs to. -/
def Block.die (b : Block) : Option Die :=
  match b with
  | .fold d _ | .logical d _ | .common d | .stream d | .conf d | .gate d _ | .stile d _ | .ebb d | .foldCensus d _
  | .census d | .hurdle d | .bell d | .window d => some d
  | .repl | .boot | .queue | .tether | .free => none

/-! ### Which offsets hold a register (18 R474) -/

/-- Offsets of the replicated blocks. -/
def replLaid (n : Nat) : Bool :=
  [0x00, 0x04, 0x08, 0x80, 0x84, 0x1800, 0x3000, 0x3004, 0x3008, 0x3030, 0x3040, 0x3044, 0x3048].contains n
    || (n % 4 == 0 && ((decide (0x40 ≤ n) && decide (n < 0x80)) || (decide (0x90 ≤ n) && decide (n < 0xC0))
      || (decide (0x3010 ≤ n) && decide (n < 0x3030)) || (decide (0x4000 ≤ n) && decide (n ≤ 0x4020))
      || (((decide (0x1000 ≤ n) && decide (n < 0x1800)) || (decide (0x2000 ≤ n) && decide (n < 0x2400)))
        && decide (n % 0x20 ≤ 0x10))))

/-- Offsets of the queue blocks. -/
def queueLaid (o : Nat) : Bool :=
  o % 4 == 0 && ((decide (o < 0x800) && decide (o % 0x20 ≤ 0x14))
    || (decide (0x1000 ≤ o) && decide (o < 0x1800) && decide (o % 0x20 ≤ 0x0C))
    || (decide (0x2000 ≤ o) && decide (o < 0x2400) && decide (o % 0x20 ≤ 0x0C)))

/-- Offsets of the Tether block, counted from 0x002_0000. -/
def tetherLaid (o : Nat) : Bool :=
  [0x00, 0x04, 0x08, 0x10, 0x480, 0x484, 0x488, 0x10800, 0x10804].contains o
    || (o % 4 == 0 && ((decide (0x100 ≤ o) && decide (o < 0x180) && decide (o % 0x20 ≤ 0x08))
      || (decide (0x400 ≤ o) && decide (o ≤ 0x460))
      || (decide (0x1000 ≤ o) && decide (o < 0x1800) && decide (o % 0x20 ≤ 0x14))
      || (decide (0x10000 ≤ o) && decide (o < 0x10400))))

/-- Offsets of a Gate's window (08 R225 to R228). -/
def gateLaid (o : Nat) : Bool :=
  o == 0 || o == 0x10 || (o % 4 == 0 && ((decide (0x100 ≤ o) && decide (o < 0x110))
    || (decide (0x140 ≤ o) && decide (o < 0x160))))

/-- Offsets of the Stream window (09 R253 to R256). -/
def streamLaid (o : Nat) : Bool :=
  o == 0 || o == 0x10 || o == 0x20 || (o % 4 == 0 && decide (0x1000 ≤ o) && decide (o < 0x1000 + 30 * 32))

/-- Offsets of the Confluence window (10 R279 to R282, 04 R133). -/
def confLaid (o : Nat) : Bool :=
  [0x0, 0x10, 0x100, 0x104, 0x108, 0x200, 0x204, 0x208, 0x20C, 0xF000].contains o

/-- Offsets of the Ebb window (14 R388 to R394). -/
def ebbLaid (o : Nat) : Bool :=
  [0x00, 0x10, 0x14, 0x18, 0x1C, 0x20, 0x30, 0x34, 0x40, 0x50, 0x54, 0x58, 0x60, 0x64, 0x70].contains o

/-- The manual lays out a register at an offset of a block. -/
def Krovol.laid (k : Krovol) (b : Block) (o : Nat) : Bool :=
  match b with
  | .repl => replLaid o
  | .boot => [0x20, 0x24, 0x5000, 0x5004, 0x5008].contains o
  | .queue => queueLaid o
  | .tether => tetherLaid o
  | .fold _ _ | .logical _ _ => foldLaid o
  | .common _ => [0x00, 0x04, 0x08, 0x10, 0x14, 0x18].contains o
  | .stream _ => streamLaid o
  | .conf _ => confLaid o
  | .gate d g => k.hasGate d g.val && gateLaid o
  | .stile d x => k.hasStile d x.val && (o == 0 || o == 0x10)
  | .ebb _ => ebbLaid o
  | .foldCensus _ _ => foldCensusLaid o
  | .census _ => padCensusLaid o
  | .hurdle _ => o == 0 || o == 4 || o == 0x10
  | .bell _ => bellLaid o
  | .window _ | .free => false

/-- A diagnostic or test register may lie at an offset: it is in a block that 18 R467 or R468 list. Every other address
holds none (R474, R482). -/
def Krovol.mayDiag (k : Krovol) (b : Block) (o : Nat) : Bool :=
  match b with
  | .free | .window _ => false
  | .queue => o < 0x800 || (0x1000 ≤ o && o < 0x1800) || 0x2000 ≤ o
  | .gate d g => k.hasGate d g.val
  | .stile d x => k.hasStile d x.val
  | .repl | .boot | .tether | .fold _ _ | .logical _ _ | .common _ | .stream _ | .conf _ | .ebb _ | .foldCensus _ _
  | .census _ | .hurdle _ | .bell _ => true

/-! ### Domains (18 R468, R480) -/

/-- The power domain of a register; none for one of the always-on island. -/
def Block.domain (b : Block) (o : Nat) : Option DomN :=
  match b with
  | .fold _ p | .foldCensus _ p => some (domFL p)
  | .tether | .stream _ | .conf _ | .gate _ _ | .stile _ _ | .census _ => some domSD
  | .common _ => if o = 0x18 then none else some domSH
  | .ebb _ => if 0x50 ≤ o && o ≤ 0x6F then none else some domSH
  | .bell _ => if o = 0x20 then none else some domSH
  | .repl | .boot | .queue | .logical _ _ | .hurdle _ | .window _ | .free => some domSH

/-- Registers of a domain of a paddock can be reached: it is on and clocked; SH runs on SOSC while HCLK is stopped, unless
its clock is forced to HCLK/2 (14 R385, 15 R419, log entry 26). -/
def Paddock.domUp (q : Paddock) (i : DomN) : Bool :=
  !q.boot.poreset && !q.boot.padreset && q.domOn i
    && (q.ebb.hclkAck || (i == domSH && !(q.shep.clkMode == 2 && decide (8 ≤ q.boot.step.toNat))))

/-! ### Privilege (18 R482, R486, R487) -/

/-- What permits an access. -/
inductive Priv where
  | anyone
  | group (k : Nat)
  | pair (q : QN)
  | event (e : EQN)
  | guard
  | lock
  deriving DecidableEq, Repr

/-- What permits an access to a laid-out register; PKG_LOCK.PRIV is GUARD's whatever the mask of group 0 says. -/
def Block.priv (b : Block) (o : Nat) : Priv :=
  match b with
  | .repl =>
    if 0x80 ≤ o && o < 0xC0 then .guard
    else if o = 0x08 then .lock
    else if 0x3000 ≤ o && o < 0x4000 then .group 1
    else if 0x4000 ≤ o then .group 2
    else .group 0
  | .boot => if o < 0x5000 then .group 0 else .group 3
  | .queue => if o < 0x2000 then .pair (Fin.ofNat 64 (o % 0x1000 / 0x20)) else .event (Fin.ofNat 32 ((o - 0x2000) / 0x20))
  | .tether => if 0x1000 ≤ o && o < 0x1800 then .pair (Fin.ofNat 64 ((o - 0x1000) / 0x20)) else .group 4
  | .fold _ _ | .logical _ _ => .group 5
  | .stream _ => .group 6
  | .conf _ => .group 7
  | .gate _ _ => .group 8
  | .stile _ _ => .group 9
  | .ebb _ => .group 10
  | .foldCensus _ _ | .census _ => .group 11
  | .hurdle _ => .group 12
  | .common _ => .group 13
  | .bell _ => .group 2
  | .window _ | .free => .anyone

/-- A mask permits a domain tag. -/
def Repl.permits (r : Repl) (p : Priv) (write : Bool) (dom : BitVec 2) : Bool :=
  match p with
  | .anyone => true
  | .group k => !write || bitAt r.privBlk (4 * k + dom.toNat)
  | .pair q => bitAt (r.privQp[(Fin.ofNat 8 (q.val / 8))]) (4 * (q.val % 8) + dom.toNat)
  | .event e => bitAt (r.privEq[(Fin.ofNat 4 (e.val / 8))]) (4 * (e.val % 8) + dom.toNat)
  | .guard => !write || dom == 0
  | .lock => !write || dom == 0 || bitAt r.privBlk dom.toNat

/-! ### Where an access is served (18 R470, R472) -/

/-- A target: the block and offset, the paddock that answers, and whether R469, R472 or R266 of 10 names it absent. -/
structure Target where
  block : Block
  off : Nat
  srv : Die
  absent : Bool
  deriving DecidableEq, Repr

/-- The port of a paddock reaches another paddock's registers (18 R472, 10 R266). -/
def State.portReaches (s : State) (via d : Die) : Bool :=
  if via == d then !(s.pad via).repl.formed || s.member via via
  else (s.pad via).repl.formed && s.member via d && s.reaches via d

/-- Resolve an address of an access through the port of a paddock. Where no paddock of the Range carries the Tether, its
registers read 0 at that paddock (16, before R451). -/
def State.target (s : State) (via : Die) (a : RegAddr) : Target :=
  let x := blockOf a
  let at' (d : Die) : Target :=
    if s.portReaches via d then ⟨x.1, x.2, d, false⟩ else ⟨x.1, x.2, via, true⟩
  match x.1 with
  | .repl | .boot | .free => ⟨x.1, x.2, via, false⟩
  | .queue =>
    let d := s.queueDie via
    if d == via || s.reaches via d then ⟨x.1, x.2, d, false⟩ else ⟨x.1, x.2, via, true⟩
  | .tether =>
    match s.krovol.tether with
    | some d =>
      if d == via || s.portReaches via d then ⟨x.1, x.2, d, false⟩
      else ⟨x.1, x.2, via, (s.pad via).repl.formed && s.member via d⟩    -- a member that cannot be reached (10 R266)
    | none => ⟨x.1, x.2, via, false⟩
  | .logical d n =>
    if !(s.member via d && s.portReaches via d) then ⟨x.1, x.2, via, true⟩
    else
      match (s.pad d).repl.pfoldOf d n with
      | some p => ⟨.fold d p, x.2, d, false⟩
      | none => ⟨x.1, x.2, d, true⟩
  | .fold d _ | .common d | .stream d | .conf d | .gate d _ | .stile d _ | .ebb d | .foldCensus d _ | .census d
  | .hurdle d | .bell d | .window d => at' d

end Sys2Proof.Machine
end

