-- ==== Sys2Proof/Machine/RegRead.lean ====
section
/-!
DEFINITION. Reads of registers (18 R473 to R476), block by block, with what a read does: pops and captures.
-/

namespace Sys2Proof.Machine

/-! ### Replicated blocks -/

/-- Tide stands at the last value before the next tick (11 R284). -/
def Paddock.tideHolding (q : Paddock) : Bool := q.running && q.aon.tideFx == (1000 * q.ticks + 999) * 2 ^ 24

/-- TIDE_STAT (11 R305). -/
def Paddock.tideStat (q : Paddock) : Word :=
  word [(0, bit q.running), (1, bit q.tideHolding), (2, bit (bitAt q.aon.sticky 4))]

/-- PKG_DIETAB[k] (01 R21). -/
def Repl.dietabWord (r : Repl) (k : Nat) : Word :=
  word ((List.range 8).map fun j => (4 * j, (r.dietab[Fin.ofNat 64 (8 * k + j)]).val))

/-- BELL_GSTAT of a position, as a member's copy shows it (13 R364). -/
def State.gstat (s : State) (d x : Die) : Word :=
  if s.member d x then
    let q := s.pad x
    word [(0, q.bell.recs.length), (9, bit (q.bellCond .ce)), (10, bit (q.bellCond .uc)), (11, bit (q.bellCond .ft)),
      (12, bit (q.aon.sticky != 0)), (13, 1)]
  else 0

/-- Read a replicated register from the copy of paddock d. -/
def State.replRead (s : State) (d : Die) (o : Nat) : Word :=
  let q := s.pad d
  let r := q.repl
  if o = 0x00 then 0x01080B00
  else if o = 0x04 then popWord s.krovol r
  else if o = 0x08 then word [(0, bit r.lockHash), (1, bit r.lockPriv)]
  else if o < 0x60 then r.dietabWord ((o - 0x40) / 4)
  else if o < 0x80 then foldmapWord r (Fin.ofNat 8 ((o - 0x60) / 4))
  else if o = 0x80 then r.privBlk.extractLsb' 0 32
  else if o = 0x84 then r.privBlk.extractLsb' 32 32
  else if o < 0xB0 then r.privQp[Fin.ofNat 8 ((o - 0x90) / 4)]
  else if o < 0xC0 then r.privEq[Fin.ofNat 4 ((o - 0xB0) / 4)]
  else if o < 0x1800 then regionWord r.regions[Fin.ofNat 64 ((o - 0x1000) / 0x20)] (o % 0x20 / 4)
  else if o = 0x1800 then defaultWord r
  else if o < 0x3000 then devwinWord s.krovol.devwin[Fin.ofNat 32 ((o - 0x2000) / 0x20)] (o % 0x20 / 4)
  else if o = 0x3000 then BitVec.ofNat 32 q.now
  else if o = 0x3004 then r.tideHi
  else if o = 0x3008 then q.tideStat
  else if o < 0x3030 then
    let c : Cls := Fin.ofNat 4 ((o - 0x3010) / 8)
    BitVec.ofNat 32 (if o % 8 = 0 then r.deadline[c] else r.share[c])
  else if o = 0x3030 then word [(0, r.qAllow.toNat), (8, r.jAllow.toNat)]
  else if o = 0x3040 then r.envBad.extractLsb' 0 32
  else if o = 0x3044 then r.envBad.extractLsb' 32 32
  else if o = 0x3048 then word [(0, bit r.envBadDef), (1, r.envWorst % 2 ^ 20)]
  else if o < 0x4020 then s.gstat d (Fin.ofNat 8 ((o - 0x4000) / 4))
  else word [(0, bit s.bellNet)]

/-- A read of TIDE_NOW_LO captures the upper half (11 R304). -/
def State.tideCapture (s : State) (d : Die) : State :=
  s.modPad d fun q => { q with repl := { q.repl with tideHi := BitVec.ofNat 32 (q.now / 2 ^ 32) } }

/-! ### Start-up and Shepherd registers (15 R429) -/

/-- The Shepherd runs on HCLK/2 (15 R419): steps 1 to 7 run on SOSC. -/
def Paddock.onHclk (q : Paddock) : Bool :=
  decide (8 ≤ q.boot.step.toNat) && (q.shep.clkMode == 2 || (q.shep.clkMode == 0 && q.ebb.hclkAck))

/-- Read a port-local register. -/
def Paddock.bootRead (q : Paddock) (o : Nat) : Word :=
  let b := q.boot
  if o = 0x20 then word [(0, b.step.toNat), (4, bit b.ready), (5, bit b.backoff), (6, bit b.bootHold)]
  else if o = 0x24 then word [(0, q.aon.bootAttempts.toNat), (24, q.aon.lastStep.toNat)]
  else if o = 0x5000 then word [(0, q.shep.clkMode.toNat), (2, bit q.onHclk)]
  else if o = 0x5004 then fwWord q
  else 0

/-! ### Queue registers (15 R427, R428) -/

/-- A command queue register at offset j of the queue. -/
def CmdQueue.read (x : CmdQueue) (j : Nat) : Word :=
  if j = 0x08 then BitVec.ofNat 32 x.free
  else if j = 0x0C then word [(0, bit x.ringMode)]
  else if j = 0x10 then word [(0, x.packets.length), (9, x.words.length), (16, x.lastSeq.toNat)]
  else if j = 0x14 then word [(0, x.rewound.toNat), (16, bit x.wrongMode), (17, bit (!x.stalled.isEmpty))]
  else 0

/-- A reply queue register, RQ_POP_LO apart; REPLIES counts a reply whose words are partly popped. -/
def ReplyQueue.read (x : ReplyQueue) (j : Nat) : Word :=
  if j = 0x04 then x.popHi
  else if j = 0x08 then
    word [(0, x.used), (9, x.replies.length + bit (!x.current.isEmpty)), (17, bit (!x.held.isEmpty))]
  else if j = 0x0C then word [(0, bit x.irqEn)]
  else 0

/-- An event queue register, EQ_POP_LO apart. -/
def EventQueue.read (x : EventQueue) (j : Nat) : Word :=
  if j = 0x04 then x.popHi
  else if j = 0x08 then word [(0, x.mask.toNat), (8, bit x.irqEn)]
  else if j = 0x0C then word [(0, x.events.length), (8, x.dropped)]
  else 0

/-- RQ_POP_LO: one word is popped, the pointers being compared first (15 R405, R428). -/
def State.rqPop (s : State) (d : Die) (q : QN) : State × Word :=
  let s := s.rqCheck d q
  let r := ((s.pad d).shep.rq[q]).pop
  (s.modRq d q fun _ => r.2, r.1)

/-- EQ_POP_LO: one event is popped. -/
def State.eqPop (s : State) (d : Die) (e : EQN) : State × Word :=
  let s := s.eqCheck d e
  let r := ((s.pad d).shep.eq[e]).pop
  (s.modShep d fun x => { x with eq := vset x.eq e r.2 }, r.1)

/-- Read a queue register of the paddock whose queues serve the access. -/
def State.queueRead (s : State) (d : Die) (o : Nat) : State × Word :=
  let q : QN := Fin.ofNat 64 (o % 0x1000 / 0x20)
  let e : EQN := Fin.ofNat 32 ((o - 0x2000) / 0x20)
  let j := o % 0x20
  if o < 0x1000 then (s, ((s.pad d).shep.cq[q]).read j)
  else if o < 0x2000 then if j = 0 then s.rqPop d q else (s, ((s.pad d).shep.rq[q]).read j)
  else if j = 0 then s.eqPop d e else (s, ((s.pad d).shep.eq[e]).read j)

/-! ### Tether (16 R451 to R454) -/

/-- TETHER_STAT (16 R451). -/
def Tether.statWord (t : Tether) : Word :=
  word [(0, t.rate.toNat), (3, t.width.toNat), (8, bit t.flit), (9, t.lpm.toNat), (11, bit t.linkUp), (12, bit t.quiescing),
    (13, bit t.flr.isSome), (14, t.port.txns.length)]

/-- A window shadow register (16 R452). -/
def PeerWin.read (w : PeerWin) (j : Nat) : Word :=
  if j = 0 then word [(0, w.aperOff.toNat), (16, w.sizeLog2.toNat), (31, bit w.enable)]
  else if j = 4 then w.target
  else word [(0, w.targetHi.toNat)]

/-- A host-ring register (16 R453). -/
def HostRing.read (r : HostRing) (j : Nat) : Word :=
  if j = 0x00 then r.base.extractLsb' 0 32
  else if j = 0x04 then r.base.extractLsb' 32 32
  else if j = 0x08 then word [(0, r.sizeLog2.toNat)]
  else if j = 0x0C then word [(0, r.tail.toNat)]
  else if j = 0x10 then word [(0, r.head.toNat)]
  else word [(0, bit r.fault)]

/-- A word of an MSI-X table entry (PCI Express Base 6.0). -/
def MsixEntry.read (e : MsixEntry) (j : Nat) : Word :=
  if j = 0 then e.addrLo else if j = 4 then e.addrHi else if j = 8 then e.data else word [(0, bit e.masked)]

/-- Read a Tether register, its offset counted from 0x002_0000. -/
def Tether.regRead (t : Tether) (o : Nat) : Word :=
  if o = 0x00 then word [(0, t.aperLog2.toNat), (6, bit t.lock)]
  else if o = 0x04 then t.statWord
  else if o = 0x08 then word [(0, t.l1Idle.toNat)]
  else if o = 0x10 then word [(1, bit t.pending), (2, bit t.commitDone), (3, bit t.commitErr)]
  else if o < 0x180 then PeerWin.read t.shadow[Fin.ofNat 4 ((o - 0x100) / 0x20)] (o % 0x20)
  else if o ≤ 0x460 then
    let i := (o - 0x400) / 4
    word ((List.range 4).map fun j => (8 * j, (t.src[Fin.ofNat 100 (4 * i + j)]).toNat))
  else if o = 0x480 then 0
  else if o = 0x484 then t.ltr
  else if o = 0x488 then word [(0, t.inbErr.toNat), (16, t.inbOut.toNat)]
  else if o < 0x1800 then HostRing.read t.ring[Fin.ofNat 64 ((o - 0x1000) / 0x20)] (o % 0x20)
  else if o < 0x10400 then MsixEntry.read t.msix[Fin.ofNat 64 ((o - 0x10000) / 16)] (o % 16)
  else if o = 0x10800 then t.pba.extractLsb' 0 32
  else t.pba.extractLsb' 32 32

/-! ### Paddock window -/

/-- Read a register of the common block (18 R488 to R490). -/
def State.commonRead (s : State) (d : Die) (o : Nat) : Word :=
  let q := s.pad d
  let k := s.krovol
  if o = 0x00 then
    word [(0, d.val), (3, bit (s.member d d)), (4, bit (s.inRange d && s.leader d == d)), (5, bit (k.tether == some d)),
      (6, bit q.boot.testmode), (7, bit q.boot.bootMode)]
  else if o = 0x04 then
    word [(0, k.gates[d].toNat), (4, k.stiles[d].val), (9, ((k.modEdge[d]).toList.filter Option.isSome).length)]
  else if o = 0x08 then (k.caching[d]).setWidth 32
  else if o = 0x10 then word [(0, q.common.denied.toNat), (16, q.common.absent.toNat)]
  else if o = 0x14 then q.common.cap
  else word [(0, bit q.aon.rstPor), (1, bit q.aon.rstPad), (2, bit q.aon.rstShOn)]

/-- The sluice of a register of the Stream block (09 R256). -/
def State.sluiceAt (s : State) (d : Die) (n : Nat) (c : Cls) : Sluice :=
  let q := s.pad d
  if n < 28 then (q.agent (Fin.ofNat 28 n)).port.sluice[c]
  else if n = 28 then if s.krovol.tether == some d then s.tether.port.sluice[c] else q.stream.sluice28[c]
  else q.shep.port.sluice[c]

/-- Read a register of the Stream block (09 R253 to R256). -/
def State.streamRead (s : State) (d : Die) (o : Nat) : Word :=
  let q := (s.pad d).stream
  if o = 0x00 then word [(0, q.starve.toNat)]
  else if o = 0x10 then s.streamStat d
  else if o = 0x20 then q.detour
  else
    let i := (o - 0x1000) / 8
    let x := s.sluiceAt d (i / 4) (Fin.ofNat 4 i)
    if o % 8 = 0 then word [(0, x.rate.toNat), (31, bit x.enable)] else word [(0, x.burst.toNat)]

/-- CONF_EDGE_STAT (10 R281). -/
def State.edgeWord (s : State) (d : Die) (e : Edge) : Word :=
  let x := (s.pad d).conf.edge[edgeNo e]
  let l := s.krovol.modsOn d e
  let up := l.filter fun m => ((s.pad d).conf.mod[m]).state == .up
  let nb := neighbour d e
  word [(0, l.length), (3, up.length), (6, bit x.inUse), (7, (nb.getD 0).val),
    (10, bit (match nb with
      | some n => s.planned n
      | none => false)),
    (11, x.pace), (22, bit (x.dam.any id))]

/-- Number of a module state. -/
def ModState.no (x : ModState) : Nat :=
  match x with
  | .down => 0
  | .training => 1
  | .up => 2
  | .waiting => 3

/-- CONF_MOD_STAT (10 R282). -/
def State.modWord (s : State) (d : Die) (m : ModN) : Word :=
  let q := s.pad d
  let x := q.conf.mod[m]
  word [(0, edgeCode (s.krovol.modEdge[d])[m]), (2, x.state.no), (4, x.rate.val), (6, bit x.x32), (7, bit x.repaired),
    (8, (q.aon.modAttempts[m]).toNat)]

/-- Read a register of the Confluence block (10 R279 to R282, 04 R133). -/
def State.confRead (s : State) (d : Die) (o : Nat) : Word :=
  let q := s.pad d
  let r := q.repl
  if o = 0x00 then word [(0, s.krovol.asmDeadline % 65536), (16, bit q.conf.autoReinstate)]
  else if o = 0x10 then
    word [(0, r.readyDies.toNat), (8, r.leaving.toNat), (16, bit r.joinBusy), (17, bit r.fenceBusy), (18, q.conf.unreach.toNat)]
  else if o = 0x100 then s.edgeWord d .west
  else if o = 0x104 then s.edgeWord d .east
  else if o = 0x108 then s.edgeWord d .vert
  else if o = 0xF000 then word [(0, q.conf.gather.length), (7, bit (decide (q.conf.gather.length = 64)))]
  else s.modWord d (Fin.ofNat 4 ((o - 0x200) / 4))

/-- Read a register of a Gate (08 R225 to R228). -/
def AgentPort.gateRead (a : AgentPort) (o : Nat) : Word :=
  if o = 0x00 then word [(0, bit a.putCleanEn), (1, bit a.cbEn)]
  else if o = 0x10 then word [(0, a.cb.length), (5, a.robUsed), (13, bit (decide (a.robUsed = 128)))]
  else if o < 0x140 then
    let c : Core := Fin.ofNat 4 ((o - 0x100) / 4)
    let x := a.core[c]
    let dev := a.port.txns.any fun t => t.mtype == .device && t.purpose.core == some c
    word [(0, bit x.barrierErr), (1, bit x.writeErr), (2, bit x.poisonSeen), (3, bit x.splitCancelled), (4, bit dev),
      (5, bit (a.bars.any fun b => b.core == c)), (16, x.errCount.toNat)]
  else
    let x := a.core[(Fin.ofNat 4 ((o - 0x140) / 8) : Core)]
    match x.errAddr with
    | some l => if o % 8 = 0 then addrLo (lineAddr l) else addrHi (lineAddr l) ||| 0x80000000
    | none => 0

/-- Read a register of a Stile (08 R229, R230). -/
def AgentPort.stileRead (a : AgentPort) (caching : Bool) (o : Nat) : Word :=
  if o = 0x00 then word [(0, bit caching), (1, bit a.putCleanEn), (2, bit a.writeOrder)]
  else word [(0, a.devOpen.length + a.devDead.length), (6, a.late.toNat)]

/-- Number of a fold state (14 R389). -/
def FoldState.no (x : FoldState) : Nat :=
  match x with
  | .run => 0
  | .doze => 1
  | .drain => 2
  | .retain => 3
  | .off => 4

/-- A domain's state in EBB_DOM_STAT (14 R388): a fold array of a fold in RETAIN is held in retention. -/
def Paddock.domStat (q : Paddock) (i : DomN) : Nat :=
  if q.ebb.switching.any fun x => x.dom == i then 2
  else if !q.domOn i then 0
  else if 5 ≤ i.val && decide (i.val < 10) && (q.ebb.fold[(Fin.ofNat 5 (i.val - 5) : PFold)]).state == .retain then 3
  else 1

/-- EBB_PKG (14 R371, R394): Active while a logical fold of the Range has target RUN or DOZE. -/
def State.pkgState (s : State) (d : Die) : Word :=
  let l := if s.inRange d then s.members d else [d]
  let live (x : Die) (n : LFold) : Bool :=
    match (s.pad x).repl.pfoldOf x n with
    | some p => (s.power x p).target == .run || (s.power x p).target == .doze
    | none => false
  word [(0, bit (!(l.any fun x => lfolds.any fun n => live x n)))]

/-- EBB_OPP (14 R391). -/
def Ebb.oppWord (e : Ebb) (rails : Bool) : Word :=
  word [(0, e.point.val), (2, e.opTarget.val), (4, bit (e.changing || !e.acked)), (5, bit rails),
    (6, bit (e.hclkReq && (!e.hclkAck || e.hclkOp != e.hclkOpack)))]

/-- Read a register of the Ebb block (14 R388 to R394). -/
def State.ebbRead (s : State) (d : Die) (o : Nat) : Word :=
  let q := s.pad d
  let e := q.ebb
  if o = 0x00 then word ((List.finRange 12).map fun i => (2 * i.val, q.domStat i))
  else if o < 0x30 then
    let x := e.fold[(Fin.ofNat 5 ((o - 0x10) / 4) : PFold)]
    word [(0, x.state.no), (3, x.target.no), (6, bit x.woken), (7, bit x.heldWake)]
  else if o = 0x30 then word [(0, e.autowake.toNat)]
  else if o = 0x34 then word [(0, e.offAccess.toNat)]
  else if o = 0x40 then e.oppWord s.krovol.rails
  else if o = 0x50 then
    word [(0, q.aon.nfLastAbort.toNat), (3, q.aon.nfAborts.toNat), (15, bit q.aon.nfProg.isSome), (16, q.aon.nfSkipped.toNat)]
  else if o = 0x54 then q.aon.nfSamples
  else if o = 0x58 then 0
  else if o = 0x60 then q.aon.alarm.extractLsb' 0 32
  else if o = 0x64 then q.aon.alarm.extractLsb' 32 32
  else s.pkgState d

/-- A way copy, a sweep or a fold move is in progress in a paddock (12 R339). -/
def State.hurdleBusy (s : State) (d : Die) : Bool :=
  ((s.pad d).folds.any fun f => !f.poolSweep.isEmpty || !f.tallyCopy.isEmpty || !f.emCopy.isEmpty)
    || (s.findDef fun k => k.isMove d).isSome

/-- Read a register of the Hurdle block (12 R339, R340). -/
def State.hurdleRead (s : State) (d : Die) (o : Nat) : Word :=
  let q := s.pad d
  if o = 0x00 then
    word [(0, q.hurdle.exh.toNat), (6, q.aon.hlog.length), (14, popCount 128 q.aon.hlogUnread.toNat),
      (22, bit (decide (q.aon.hlog.length = 128))), (23, bit (s.hurdleBusy d))]
  else if o = 0x04 then word [(0, q.hurdle.hourBase.toNat)]
  else
    let m := q.repl.foldmap[d]
    word ((lfolds.map fun n => (n.val, bit ((m.pfold[n]).val == 4 && !bitAt m.vacant n.val)))
      ++ [(4, bit (!q.hurdle.switching.isEmpty)), (5, m.failed.toNat)])

/-! ### A read -/

/-- Read a laid-out register of a block at the paddock that serves it. A read of a fold's block ungates its clock
(14 R367). -/
def State.regRead (s : State) (d : Die) (b : Block) (o : Nat) : State × Word :=
  match b with
  | .repl => (if o = 0x3000 then s.tideCapture d else s, s.replRead d o)
  | .boot => (s, (s.pad d).bootRead o)
  | .queue => s.queueRead d o
  | .tether => (s, if s.krovol.tether == some d then s.tether.regRead o else 0)
  | .fold x p =>
    let s := s.ungate x p
    let r := (s.fc x p).regRead o
    (s.putFc r.1, r.2)
  | .common x => (s, s.commonRead x o)
  | .stream x => (s, s.streamRead x o)
  | .conf x => (s, s.confRead x o)
  | .gate x g => (s, ((s.pad x).gates[g]).gateRead o)
  | .stile x n => (s, ((s.pad x).stiles[n]).stileRead (s.krovol.isCaching x n.val) o)
  | .ebb x => (s, s.ebbRead x o)
  | .foldCensus x p =>
    let s := s.ungate x p
    let r := ((s.pad x).folds[p]).census.regRead o
    (s.modFold x p fun f => { f with census := r.1 }, r.2)
  | .census x =>
    let r := (s.pad x).census.regRead o
    (s.modPad x fun q => { q with census := r.1 }, r.2)
  | .hurdle x => (s, s.hurdleRead x o)
  | .bell x => (s, (s.pad x).bellRead o)
  | .logical _ _ | .window _ | .free => (s, 0)

end Sys2Proof.Machine
end

