-- ==== Sys2Proof/Machine/RegWrite.lean ====
section
/-!
DEFINITION. Writes of registers (18 R471, R473), block by block, with what a write does.
-/

namespace Sys2Proof.Machine

/-! ### Replicated blocks (18 R471, R481 to R487) -/

/-- Apply a write to a replicated register in every member paddock; outside the Range in the paddock's own copy. -/
def State.modCopies (s : State) (d : Die) (f : Repl → Repl) : State :=
  if s.inRange d then s.modRepl d f else s.modPad d fun q => { q with repl := f q.repl }

/-- The privilege registers and the lock of a copy after a permitted write. -/
def Repl.write (r : Repl) (o : Nat) (v : Word) (guard : Bool) : Repl :=
  if o = 0x08 then (if guard && bitAt v 1 then { r with lockPriv := true } else r)
  else if r.lockPriv then r
  else if o = 0x80 then { r with privBlk := r.privBlk.extractLsb' 32 32 ++ v }
  else if o = 0x84 then { r with privBlk := (v &&& 0x00FFFFFF) ++ r.privBlk.extractLsb' 0 32 }
  else if 0x90 ≤ o && o < 0xB0 then { r with privQp := vset r.privQp (Fin.ofNat 8 ((o - 0x90) / 4)) v }
  else if 0xB0 ≤ o && o < 0xC0 then { r with privEq := vset r.privEq (Fin.ofNat 4 ((o - 0xB0) / 4)) v }
  else r

/-- The LCLK_LOST bit cleared in every copy: it is BELL_STICKY.TIDE_LCLK (11 R305, 13 R363). -/
def State.clearLclkLost (s : State) (d : Die) : State :=
  (if s.inRange d then s.members d else [d]).foldl (fun s x => s.modPad x fun q =>
    { q with aon := { q.aon with sticky := putBit q.aon.sticky 4 false } }) s

/-- Write a replicated register; `guard` tells the domain tag GUARD. -/
def State.replWrite (s : State) (d : Die) (o : Nat) (v : Word) (guard : Bool) : State :=
  if o = 0x3008 then (if bitAt v 2 then s.clearLclkLost d else s)
  else if o = 0x08 || (0x80 ≤ o && o < 0xC0) then s.modCopies d fun r => r.write o v guard
  else s

/-! ### Start-up and Shepherd registers -/

/-- Write a port-local register. -/
def State.bootWrite (s : State) (d : Die) (o : Nat) (v : Word) : State :=
  let m : BitVec 2 := v.extractLsb' 0 2
  if o = 0x5000 then (if m == 3 then s else s.modShep d fun x => { x with clkMode := m })
  else if o = 0x5008 then (if bitAt v 0 then s.bootRelease d else s)
  else s

/-! ### Queue registers -/

/-- A write of CQ_CTL (15 R404, R427). -/
def State.cqCtl (s : State) (d : Die) (q : QN) (v : Word) : State :=
  let m := bitAt v 0
  let cyc := (s.pad d).aon.hcycle
  let s := if m != ((s.pad d).shep.cq[q]).ringMode || bitAt v 1 then
      (s.cqEmpty d q).modCq d q fun x => { x with flushed := some cyc }
    else s
  s.modCq d q fun x => { x with ringMode := m }

/-- A write of RQ_CTL. -/
def State.rqCtl (s : State) (d : Die) (q : QN) (v : Word) : State :=
  let s := if bitAt v 1 then s.rqEmpty d q else s
  s.modRq d q fun x => { x with irqEn := bitAt v 0 }

/-- A write of EQ_CTL: MASK bit 7 is reserved. -/
def State.eqCtl (s : State) (d : Die) (e : EQN) (v : Word) : State :=
  let s := if bitAt v 9 then s.eqEmpty d e else s
  s.modShep d fun h => { h with eq := vmod h.eq e fun x =>
    { x with mask := v.extractLsb' 0 8 &&& 0x7F, irqEn := bitAt v 8 } }

/-- A CQ_PUSH_LAST in the cycle of a flush of its queue: the flush acts first and the packet is discarded (15 R406). -/
def State.flushMeets (s : State) (d : Die) (q : QN) : Bool :=
  let x := (s.pad d).shep.cq[q]
  !x.ringMode && x.words.isEmpty && x.flushed == some (s.pad d).aon.hcycle

/-- A write of CQ_PUSH or CQ_PUSH_LAST: `true` where the push waits for space (15 R399). -/
def State.cqWrite (s : State) (d : Die) (q : QN) (w : Who) (v : Word) (last : Bool) : State × Bool :=
  if last && s.flushMeets d q then (s, false)
  else
    let s := s.cqCheck d q
    let n := ((s.pad d).shep.cq[q]).stalled.length
    let s := s.cqPush d q w v last
    (s, decide (n < ((s.pad d).shep.cq[q]).stalled.length))

/-- Write a queue register. -/
def State.queueWrite (s : State) (d : Die) (o : Nat) (w : Who) (v : Word) : State × Bool :=
  let q : QN := Fin.ofNat 64 (o % 0x1000 / 0x20)
  let e : EQN := Fin.ofNat 32 ((o - 0x2000) / 0x20)
  let j := o % 0x20
  if o < 0x1000 then
    if j = 0 then s.cqWrite d q w v false
    else if j = 4 then s.cqWrite d q w v true
    else if j = 0x0C then (s.cqCtl d q v, false)
    else if j = 0x14 then
      (if bitAt v 16 then s.modCq d q fun x => { x with wrongMode := false } else s, false)
    else (s, false)
  else if o < 0x2000 then (if j = 0x0C then s.rqCtl d q v else s, false)
  else (if j = 0x08 then s.eqCtl d e v else s, false)

/-! ### Tether -/

/-- Write a window shadow (16 R452). -/
def PeerWin.write (w : PeerWin) (j : Nat) (v : Word) : PeerWin :=
  if j = 0 then { w with aperOff := v.extractLsb' 0 16, sizeLog2 := v.extractLsb' 16 5, enable := bitAt v 31 }
  else if j = 4 then { w with target := v &&& 0xFFF00000 }
  else { w with targetHi := v.extractLsb' 0 20 }

/-- Write a host-ring register, TAIL apart (16 R453). -/
def HostRing.write (r : HostRing) (j : Nat) (v : Word) : HostRing :=
  if j = 0x00 then { r with base := r.base.extractLsb' 32 32 ++ (v &&& 0xFFFFF000) }
  else if j = 0x04 then { r with base := v ++ r.base.extractLsb' 0 32 }
  else if j = 0x08 then { r with sizeLog2 := v.extractLsb' 0 5 }
  else if j = 0x14 then { r with fault := r.fault && !bitAt v 0 }
  else r

/-- Write a word of an MSI-X table entry. -/
def MsixEntry.write (e : MsixEntry) (j : Nat) (v : Word) : MsixEntry :=
  if j = 0 then { e with addrLo := v } else if j = 4 then { e with addrHi := v } else if j = 8 then { e with data := v }
  else { e with masked := bitAt v 0 }

/-- Write one word of TETHER_MSIX_SRC. -/
def Tether.writeSrc (t : Tether) (i : Nat) (v : Word) : Tether :=
  { t with src := (List.range 4).foldl (fun l j => vset l (Fin.ofNat 100 (4 * i + j)) (v.extractLsb' (8 * j) 8 &&& 0xBF)) t.src }

/-- The offsets of the window shadows. -/
def shadowOff (o : Nat) : Bool := decide (0x100 ≤ o) && decide (o < 0x180)

/-- Write a window shadow register of the Tether. -/
def Tether.writeShadow (t : Tether) (o : Nat) (v : Word) : Tether :=
  { t with shadow := vmod t.shadow (Fin.ofNat 4 ((o - 0x100) / 0x20)) fun w => w.write (o % 0x20) v }

/-- Write a Tether register: `true` where a shadow write waits for the swap (16 R441). -/
def State.tetherWrite (s : State) (d : Die) (o : Nat) (w : Who) (a : RegAddr) (v : Word) : State × Bool :=
  if o = 0x00 then
    (s.modTether fun t => if t.lock then t else { t with aperLog2 := v.extractLsb' 0 6 }, false)
  else if o = 0x08 then (s.modTether fun t => { t with l1Idle := v.extractLsb' 0 7 }, false)
  else if o = 0x10 then (s.modTether fun t => t.writeWinctl v, false)
  else if shadowOff o then
    if s.tether.pending then (s.modTether fun t => { t with stalled := t.stalled ++ [(w, a, v)] }, true)
    else (s.modTether fun t => t.writeShadow o v, false)
  else if 0x400 ≤ o && o ≤ 0x460 then (s.modTether fun t => t.writeSrc ((o - 0x400) / 4) v, false)
  else if o = 0x480 then (s.msixEoi d v, false)
  else if o = 0x484 then (s.writeLtr d v, false)
  else if 0x1000 ≤ o && o < 0x1800 then
    let q : QN := Fin.ofNat 64 ((o - 0x1000) / 0x20)
    if o % 0x20 = 0x0C then (s.writeTail d q v, false)
    else (s.modTether fun t => t.modRing q fun r => r.write (o % 0x20) v, false)
  else if 0x10000 ≤ o && o < 0x10400 then
    (s.modTether fun t => { t with msix := vmod t.msix (Fin.ofNat 64 ((o - 0x10000) / 16)) fun e => e.write (o % 16) v }, false)
  else (s, false)

/-- Writes that waited for the swap are performed in order, and complete (16 R441). -/
def State.unstallShadows (s : State) : State :=
  if s.tether.pending then s
  else
    s.tether.stalled.foldl (fun s x =>
      let o := x.2.1.toNat - 0x20000
      (s.modTether fun t => if shadowOff o then t.writeShadow o x.2.2 else t).portDone x.1)
      (s.modTether fun t => { t with stalled := [] })

/-! ### Paddock window -/

/-- Write a register of the common block (18 R489, R490). -/
def Paddock.commonWrite (q : Paddock) (o : Nat) (v : Word) : Paddock :=
  if o = 0x14 then (if bitAt v 31 then { q with common := { q.common with cap := q.common.cap &&& 0x7FFFFFFF } } else q)
  else if o = 0x18 then
    { q with aon := { q.aon with
      rstPor := q.aon.rstPor && !bitAt v 0
      rstPad := q.aon.rstPad && !bitAt v 1
      rstShOn := q.aon.rstShOn && !bitAt v 2 } }
  else q

/-- Change the sluice of a register of the Stream block. -/
def State.modSluice (s : State) (d : Die) (n : Nat) (c : Cls) (f : Sluice → Sluice) : State :=
  let g (p : ReqPort) : ReqPort := { p with sluice := vmod p.sluice c f }
  if n < 28 then s.modAgent d (Fin.ofNat 28 n) fun a => { a with port := g a.port }
  else if n = 28 then
    if s.krovol.tether == some d then s.modTether fun t => { t with port := g t.port }
    else s.modStream d fun x => { x with sluice28 := vmod x.sluice28 c f }
  else s.modShep d fun x => { x with port := g x.port }

/-- Write a register of the Stream block. -/
def State.streamWrite (s : State) (d : Die) (o : Nat) (v : Word) : State :=
  let now := (s.pad d).now
  if o = 0x00 then s.modStream d fun x => { x with starve := v.extractLsb' 0 8 }
  else if 0x1000 ≤ o then
    let i := (o - 0x1000) / 8
    s.modSluice d (i / 4) (Fin.ofNat 4 i) fun x => if o % 8 = 0 then x.writeRate v now else x.writeBurst v now
  else s

/-- Write a register of a Gate. -/
def AgentPort.gateWrite (a : AgentPort) (o : Nat) (v : Word) : AgentPort :=
  if o = 0x00 then { a with putCleanEn := bitAt v 0, cbEn := bitAt v 1 }
  else if 0x100 ≤ o && o < 0x110 then
    { a with core := vmod a.core (Fin.ofNat 4 ((o - 0x100) / 4)) fun x =>
      { x with
        barrierErr := x.barrierErr && !bitAt v 0
        writeErr := x.writeErr && !bitAt v 1
        poisonSeen := x.poisonSeen && !bitAt v 2
        splitCancelled := x.splitCancelled && !bitAt v 3
        errAddr := if bitAt v 1 then none else x.errAddr } }
  else a

/-- WRITE_ORDER is cleared (08 R222): the writes held keep their order among themselves until each is issued, and wait
for no answer. -/
def AgentPort.orderOff (a : AgentPort) : AgentPort :=
  let keep (t : Txn) : Txn := if t.inOrder && t.phase == .waiting then { t with keptOnly := true } else t
  { a with writeOrder := false, port := { a.port with txns := a.port.txns.map keep } }

/-- Write a register of a Stile. -/
def AgentPort.stileWrite (a : AgentPort) (o : Nat) (v : Word) : AgentPort :=
  if o = 0x00 then
    let a := { a with putCleanEn := bitAt v 1 }
    if bitAt v 2 then { a with writeOrder := true } else a.orderOff
  else a

/-- Write a register of the Ebb block (14 R389, R390, R393). -/
def State.ebbWrite (s : State) (d : Die) (o : Nat) (v : Word) : State :=
  if 0x10 ≤ o && o < 0x30 then
    s.modPower d (Fin.ofNat 5 ((o - 0x10) / 4)) fun x => { x with woken := x.woken && !bitAt v 6 }
  else if o = 0x30 then s.modEbb d fun e => { e with autowake := v.extractLsb' 0 12 }
  else if o = 0x58 then (if bitAt v 0 then (s.pcount d 0x31 2).nfWake else s)
  else if o = 0x60 then
    s.modPad d fun q => { q with aon := { q.aon with alarm := q.aon.alarm.extractLsb' 32 32 ++ v } }
  else if o = 0x64 then
    s.modPad d fun q => { q with aon := { q.aon with alarm := v ++ q.aon.alarm.extractLsb' 0 32 } }
  else s

/-- Write a laid-out register of a block at the paddock that serves it: `true` where the write waits. -/
def State.regWrite (s : State) (d : Die) (b : Block) (o : Nat) (w : Who) (a : RegAddr) (v : Word) : State × Bool :=
  match b with
  | .repl => (s.replWrite d o v (w.dom == 0), false)
  | .boot => (s.bootWrite d o v, false)
  | .queue => s.queueWrite d o w v
  | .tether => if s.krovol.tether == some d then s.tetherWrite d o w a v else (s, false)
  | .fold x p => ((s.ungate x p).runFold x p fun c => c.regWrite o v, false)
  | .common x => (s.modPad x fun q => q.commonWrite o v, false)
  | .stream x => (s.streamWrite x o v, false)
  | .conf x => (if o = 0 then s.modConf x fun c => { c with autoReinstate := bitAt v 16 } else s, false)
  | .gate x g => (s.modAgent x (Fin.ofNat 28 g.val) fun p => p.gateWrite o v, false)
  | .stile x n => (s.modAgent x (Fin.ofNat 28 (n.val + 4)) fun p => p.stileWrite o v, false)
  | .ebb x => (s.ebbWrite x o v, false)
  | .foldCensus x p => ((s.ungate x p).modFold x p fun f => { f with census := f.census.regWrite o v }, false)
  | .census x => (s.modPad x fun q => { q with census := q.census.regWrite o v }, false)
  | .hurdle x =>
    (if o = 4 then s.modPad x fun q => { q with hurdle := { q.hurdle with hourBase := v.extractLsb' 0 23 } } else s, false)
  | .bell x => (s.modPad x fun q => q.bellWrite o v, false)
  | .logical _ _ | .window _ | .free => (s, false)

end Sys2Proof.Machine
end

