-- ==== Sys2Proof/Machine/TetherCfg.lean ====
section
/-!
DEFINITION. The Tether's configuration space (16 R431, R432) and the commands of the endpoint. Bits that the spec
does not state read a free value (log entry 22); a write reaches the bits the model acts on.
-/

namespace Sys2Proof.Machine

/-- Reset value of the stored bits of a configuration word (PCI Express Base 6.0, log entry 22). -/
def cfgDflt (off : Nat) : Word := if off = 0x58 then 0x2810 else 0

/-- Bits of a configuration word that a write stores and that have no field of their own. -/
def cfgStored (off : Nat) : Word :=
  if off = 0x04 then 0x140 else if off = 0x0C then 0xFF else if off = 0x3C then 0xFF else if off = 0x58 then 0x7FFF
  else if off = 0x60 then 0x3CB else if off = 0x78 then 0xFFFF else if off = 0x168 then 0xF else 0

/-- A configuration word that no rule states. -/
def cfgFree (off : Nat) : Word :=
  Config.pcieByte (off + 3) ++ Config.pcieByte (off + 2) ++ Config.pcieByte (off + 1) ++ Config.pcieByte off

/-- Half of a 64-bit BAR, with its type bits. -/
def barWord (b : BitVec 64) (hi : Bool) (type : Word) : Word := if hi then b.extractLsb' 32 32 else b.extractLsb' 0 32 ||| type

/-- Identifier and next pointer of an extended capability; its version is not stated. -/
def extCap (id next : Nat) : Word × Word := (0xFFF0FFFF, BitVec.ofNat 32 (id + next * 2 ^ 20))

/-- The bits of a configuration word that the model knows, and their values: the header (16 R431), where a word that
PCI Express Base 6.0 leaves nothing of to choose is known whole, and the capabilities (16 R432) with the features of
16 R430. -/
def Tether.cfgKnown (t : Tether) (k : Krovol) (off : Nat) : Word × Word :=
  let all (w : Word) : Word × Word := (0xFFFFFFFF, w)
  let st : Word := smGet t.cfg (cfgDflt off) off
  let num (n : Nat) : Word := BitVec.ofNat 32 n
  match off with
  | 0x00 => all (k.device ++ k.vendor)
  | 0x04 => (0xFFFEFBFF, st ||| num (bit t.mse * 2 + bit t.bme * 4 + 2 ^ 20 + t.pciStat.toNat * 2 ^ 16))
  | 0x08 => all (k.classCode ++ (0xB0 : Byte))
  | 0x0C => all st
  | 0x10 => all (barWord t.bar[0] false 4)
  | 0x14 => all (barWord t.bar[0] true 0)
  | 0x18 => all (barWord t.bar[1] false 0xC)
  | 0x1C => all (barWord t.bar[1] true 0)
  | 0x20 => all (barWord t.bar[2] false 4)
  | 0x24 => all (barWord t.bar[2] true 0)
  | 0x28 => all 0
  | 0x2C => all (k.subDevice ++ k.subVendor)
  | 0x30 => all (t.romBar ||| num (bit t.romEn))
  | 0x34 => all 0x40
  | 0x38 => all 0
  | 0x3C => all st
  | 0x40 => (0xFE00FFFF, num (0x01 + 0x50 * 2 ^ 8))
  | 0x44 => (0xFFFF818B, num (8 + if t.d3 then 3 else 0) &&& 0xFFFF)
  | 0x50 => (0x80F0FFFF, num (0x10 + 0xA0 * 2 ^ 8 + bit k.flitMode * 2 ^ 31))
  | 0x54 => (0x10000007, num (2 + 2 ^ 28))
  | 0x58 => (0xFFFF, st)
  | 0x5C => (0xFFF, num (6 + k.linkWidth % 64 * 2 ^ 4 + 2 * 2 ^ 10))
  | 0x60 => (0x3CB, st ||| num (bit t.l1En * 2))
  | 0x74 => (0x33BDF, num (3 + 2 ^ 4 + 2 ^ 11 + 2 ^ 16 + 2 ^ 17))
  | 0x78 => (0xFFFF, st ||| num (bit t.ltrEn * 2 ^ 10))
  | 0x7C => (0xFE, 0x7E)
  | 0xA0 => (0xC7FFFFFF, num (0x11 + 63 * 2 ^ 16 + bit t.msixMask * 2 ^ 30 + bit t.msixEn * 2 ^ 31))
  | 0xA4 => all 0x30000
  | 0xA8 => all 0x30800
  | 0x100 => extCap 0x0001 0x150
  | 0x104 => all t.aerSticky
  | 0x110 => all 0
  | 0x150 => extCap 0x0018 0x160
  | 0x160 => extCap 0x001E 0x170
  | 0x164 => (0x1F, 0x1F)
  | 0x168 => (0xF, st)
  | 0x170 => extCap 0x0019 0x190
  | 0x190 => extCap 0x0025 0x1A0
  | 0x194 => (1, 1)
  | 0x1A0 => extCap 0x0026 0x1D0
  | 0x1D0 => extCap 0x002A 0x200
  | 0x200 => extCap 0x0031 0
  | _ => (0, 0)

/-- A configuration read. -/
def Tether.cfgRead (t : Tether) (k : Krovol) (off : Nat) : Word :=
  let x := t.cfgKnown k off
  (x.2 &&& x.1) ||| (cfgFree off &&& ~~~x.1)

/-- The bits that byte enables select. -/
def strobeMask (be : BitVec 4) : Word :=
  BitVec.ofNat 32 (bit (bitAt be 0) * 0xFF + bit (bitAt be 1) * 0xFF00 + bit (bitAt be 2) * 0xFF0000
    + bit (bitAt be 3) * 0xFF000000)

/-- Half of a BAR written. -/
def barPut (b : BitVec 64) (hi : Bool) (w : Word) (log2 : Nat) : BitVec 64 :=
  let v : BitVec 64 := if hi then w ++ b.extractLsb' 0 32 else b.extractLsb' 32 32 ++ w
  (v >>> log2) <<< log2

/-- A configuration write of word `off`: `v` is the word as written, bytes not enabled at their present value. -/
def Tether.cfgPut (t : Tether) (off : Nat) (v : Word) : Tether :=
  let t := if cfgStored off = 0 then t else { t with cfg := smSet t.cfg (cfgDflt off) off (v &&& cfgStored off) }
  match off with
  | 0x04 => { t with mse := bitAt v 1 }
  | 0x10 => { t with bar := vmod t.bar 0 fun b => barPut b false v 26 }
  | 0x14 => { t with bar := vmod t.bar 0 fun b => barPut b true v 26 }
  | 0x18 => { t with bar := vmod t.bar 1 fun b => barPut b false v t.aperLog2.toNat }
  | 0x1C => { t with bar := vmod t.bar 1 fun b => barPut b true v t.aperLog2.toNat }
  | 0x20 => { t with bar := vmod t.bar 2 fun b => barPut b false v 16 }
  | 0x24 => { t with bar := vmod t.bar 2 fun b => barPut b true v 16 }
  | 0x30 => { t with romBar := v &&& 0xFFFF0000, romEn := bitAt v 0 }
  | 0x44 => if bits v 0 2 = 3 then { t with d3 := true } else if bits v 0 2 = 0 then { t with d3 := false } else t
  | 0x60 => { t with l1En := bitAt v 1 }
  | 0x78 => { t with ltrEn := bitAt v 10 }
  | 0xA0 => { t with msixMask := bitAt v 30, msixEn := bitAt v 31 }
  | _ => t

/-- A configuration write (16 R431, R448, R449): status bits of AER clear on 1, Initiate FLR starts an FLR. -/
def State.cfgWrite (s : State) (d : Die) (off : Nat) (v : Word) (be : BitVec 4) : State :=
  let m := strobeMask be
  let t := s.tether
  let old := (t.cfgKnown s.krovol off).2
  let w := (v &&& m) ||| (old &&& ~~~m)
  let s := s.modTether fun t => t.cfgPut off w
  if off = 0x04 then
    (s.modTether fun t => { t with pciStat := t.pciStat &&& ~~~(v &&& m).extractLsb' 16 16 }).setBme d (bitAt w 2)
  else if off = 0x104 then s.modTether fun t => { t with aerSticky := t.aerSticky &&& ~~~(v &&& m) }
  else if off = 0x58 && bitAt (v &&& m) 15 then s.tetherReset d false
  else s

/-- The bytes of a word, lowest first. -/
def wordBytes (w : Word) : List Byte := [w.extractLsb' 0 8, w.extractLsb' 8 8, w.extractLsb' 16 8, w.extractLsb' 24 8]

/-- CONFIGURATION_REQUEST: Request Retry Status during an FLR and in Nightfold entry (16 R447, R449). -/
def State.cfgRequest (s : State) (off : BitVec 12) (write : Option (Word × BitVec 4)) (tag : BitVec 10) : State :=
  match s.tetherDie with
  | none => s
  | some d =>
    let t := s.tether
    let o := off.toNat / 4 * 4
    if !t.linkUp || t.perst then s
    else if t.flr.isSome || t.noTlp then s.toHost d (.cfgRetry tag)
    else
      match write with
      | none => s.toHost d (.complD tag (wordBytes (t.cfgRead s.krovol o)) false)
      | some (v, be) => (s.toHost d (.compl tag)).cfgWrite d o v be

/-! ### Commands -/

/-- MEMORY_READ_TLP (16 R437 to R440). -/
def execMemoryReadTlp (off : BitVec 36) (bytes : BitVec 13) (tag : BitVec 10) (s : State) :
    Host.Outcome State Fault Refusal :=
  .next (if tlpSpan off.toNat bytes.toNat then
      s.peerTlp off.toNat bytes.toNat (some tag) false fun a => readPieces a bytes.toNat
    else s.badTlp)

/-- MEMORY_WRITE_TLP (16 R437 to R440). -/
def execMemoryWriteTlp (off : BitVec 36) (data : List (Option Byte)) (relaxed : Bool) (s : State) :
    Host.Outcome State Fault Refusal :=
  .next (if tlpSpan off.toNat data.length && decide (data.length ≤ s.tether.maxPayload) then
      s.peerTlp off.toNat data.length none relaxed fun a => writePieces a data
    else s.badTlp)

/-- FLR (16 R449). -/
def execFlr (s : State) : Host.Outcome State Fault Refusal := .next s.initiateFlr

/-- FLR_COMPLETE (16 R449). -/
def execFlrComplete (s : State) : Host.Outcome State Fault Refusal := .next (s.modTether fun t => { t with flr := none })

/-- HOT_RESET (16 R450). -/
def execHotReset (s : State) : Host.Outcome State Fault Refusal := .next s.hotReset

/-- LINK_DOWN (16 R450). -/
def execLinkDown (s : State) : Host.Outcome State Fault Refusal := .next s.linkLost

/-- TETHER_PERST_N (19 R516). -/
def execTetherPerst (s : State) : Host.Outcome State Fault Refusal := .next s.perstAssert

/-- TETHER_PERST_N_RELEASE (19 R516). -/
def execTetherPerstRelease (s : State) : Host.Outcome State Fault Refusal :=
  .next (s.modTether fun t => { t with perst := false })

/-- LINK_UP (16 R430, R451). -/
def execLinkUp (rate : BitVec 3) (width : BitVec 5) (flit : Bool) (s : State) : Host.Outcome State Fault Refusal :=
  .next (s.linkTrained rate width flit)

/-- BUS_MASTER_ENABLE (16 R448). -/
def execBusMasterEnable (on : Bool) (s : State) : Host.Outcome State Fault Refusal :=
  .next (match s.tetherDie with
    | some d => if s.tether.linkUp && !s.tether.perst && s.tether.flr.isNone then s.setBme d on else s
    | none => s)

/-- HOST_RING_FETCH (16 R442). -/
def execHostRingFetch (q : QN) (s : State) : Host.Outcome State Fault Refusal := .next (s.ringFetch q)

/-- HOST_RING_COMPLETION (16 R442, R443). -/
def execHostRingCompletion (q : QN) (tag : BitVec 10) (answer : RingAnswer) (s : State) :
    Host.Outcome State Fault Refusal :=
  .next (s.ringCompletion q tag answer)

/-- COMPLETION_TIMEOUT (16 R443). -/
def execCompletionTimeout (q : QN) (tag : BitVec 10) (s : State) : Host.Outcome State Fault Refusal :=
  .next (s.ringTimeout q tag)

/-- MSIX_VECTOR_DUE (16 R445). -/
def execMsixVectorDue (v : QN) (s : State) : Host.Outcome State Fault Refusal := .next (s.msixCheck v)

/-- MSIX_SEND (16 R445). -/
def execMsixSend (v : QN) (s : State) : Host.Outcome State Fault Refusal := .next (s.msixPending v)

/-- L1_ENTRY (16 R446). -/
def execL1Entry (sub : BitVec 2) (s : State) : Host.Outcome State Fault Refusal :=
  .next (s.enterL1 sub)

/-- CONFIGURATION_REQUEST (16 R431, R432, R449). -/
def execConfigurationRequest (off : BitVec 12) (write : Option (Word × BitVec 4)) (tag : BitVec 10) (s : State) :
    Host.Outcome State Fault Refusal :=
  .next (s.cfgRequest off write tag)

end Sys2Proof.Machine
end

