-- ==== Sys2Proof/Machine/RegCmds.lean ====
section
/-!
DEFINITION. Register accesses (18 R477 to R481, 14 R385, R386): the answer of the serving paddock, the register port, BAR0
and the H4 alias (16 R433, R435, 18 R479), and the commands that are accesses.
-/

namespace Sys2Proof.Machine

/-! ### The answer (18 R478) -/

/-- What an access came to: a response with its data, or it waits. -/
inductive AccEnd where
  | done (resp : BitVec 2) (data : Word)
  | held
  deriving DecidableEq, Repr

/-- RESP OKAY. -/
def respOkay : BitVec 2 := 0
/-- RESP SLUMBER. -/
def respSlumber : BitVec 2 := 1
/-- RESP DENIED. -/
def respDenied : BitVec 2 := 2
/-- RESP ABSENT. -/
def respAbsent : BitVec 2 := 3

/-- PAD_ACCESS_CAP of an access (18 R489). -/
def capWord (w : Who) (a : RegAddr) (write : Bool) : Word :=
  word [(0, a.toNat), (26, w.dom.toNat), (28, bit write), (29, bit w.bar0), (31, 1)]

/-- A DENIED access is counted, and the first is captured (18 R489). -/
def Common.deny (c : Common) (w : Who) (a : RegAddr) (write : Bool) : Common :=
  { c with denied := c.denied + 1, cap := if bitAt c.cap 31 then c.cap else capWord w a write }

/-- What permits an access to its target: an offset that holds no register is open to every domain (18 R474). -/
def Krovol.privOf (k : Krovol) (t : Target) : Priv := if k.laid t.block t.off then t.block.priv t.off else .anyone

/-- The access breaks R477, or its tag is not permitted. -/
def State.denies (s : State) (w : Who) (a : RegAddr) (t : Target) (write : Bool) : Bool :=
  (write && w.strb != 15) || a.toNat % 4 != 0
    || !(s.pad t.srv).repl.permits (s.krovol.privOf t) write w.dom

/-- The domain, with its paddock, that keeps an access from its register: the SH of the port's own paddock, whose front end
serves the always-on registers without it (18 R480), or the register's domain (14 R385). -/
def State.asleep (s : State) (w : Who) (t : Target) : Option (Die × DomN) :=
  match t.block.domain t.off with
  | none => none
  | some i =>
    if !(s.pad w.via).domUp domSH then some (w.via, domSH)
    else if (s.pad t.srv).domUp i then none
    else some (t.srv, i)

/-- The domain FL of a fold. -/
def flOf (i : DomN) : Option PFold := if i.val < 5 then some (Fin.ofNat 5 i.val) else none

/-- The domain can be woken by an access (14 R386, 18 R469): never the standby fold's, nor a failed one's. -/
def Paddock.autoWakes (q : Paddock) (d : Die) (i : DomN) : Bool :=
  bitAt q.ebb.autowake i.val &&
    (match flOf i with
     | some p => (q.repl.carries d p).isSome
     | none => true)

/-- Wake a domain as a line request would (14 R370, R386); in Nightfold and on the way there and back the access is a wake
source of the package too while WAKEEN bit 1 is set (R380). -/
def State.autoWake (s : State) (d : Die) (i : DomN) : State :=
  let nf := (s.pad d).ebb.nf != .idle && (s.pad d).wakeEn 1
  let s := if nf then s.nfWake else s
  match flOf i with
  | some p => s.wakeFold d p 1
  | none => if nf then s.pcount d 0x31 1 else s

/-- A SLUMBER answer: counted in the paddock of the target (14 R385). -/
def State.slumber (s : State) (d : Die) : State := s.modEbb d fun e => { e with offAccess := e.offAccess + 1 }

/-- Perform a permitted access whose register can be reached. -/
def State.perform (s : State) (w : Who) (a : RegAddr) (wr : Option Word) (t : Target) : State × AccEnd :=
  if s.krovol.laid t.block t.off then
    match wr with
    | none =>
      let r := s.regRead t.srv t.block t.off
      (r.1, .done respOkay r.2)
    | some v =>
      let r := s.regWrite t.srv t.block t.off w a v
      (r.1, if r.2 then .held else .done respOkay 0)
  else
    match wr with
    | none =>
      if (s.pad t.srv).bell.unlocked && s.krovol.mayDiag t.block t.off then
        ({ s with fresh := s.fresh + 1 }, .done respOkay (Config.diagRead s.fresh a))
      else (s, .done respOkay 0)
    | some _ => (s, .done respOkay 0)

/-- One access: DENIED, ABSENT, SLUMBER or OKAY, the first that applies. -/
def State.access (s : State) (w : Who) (a : RegAddr) (wr : Option Word) : State × AccEnd :=
  let t := s.target w.via a
  if s.denies w a t wr.isSome then
    (s.modPad t.srv fun q => { q with common := q.common.deny w a wr.isSome }, .done respDenied 0)
  else if t.absent then
    (s.modPad t.srv fun q => { q with common := { q.common with absent := q.common.absent + 1 } }, .done respAbsent 0)
  else
    match s.asleep w t with
    | none => s.perform w a wr t
    | some (x, i) =>
      if (s.pad x).autoWakes x i then
        ((s.autoWake x i).modEbb x fun e =>
          { e with autoAcc := e.autoAcc ++ [{ who := w, addr := a, write := wr, dom := i, tide := (s.pad x).now }] }, .held)
      else (s.slumber t.srv, .done respSlumber 0xFFFFFFFF)

/-! ### The register port (18 R477, 19 R502) -/

/-- The access of a register port; one access is open at a time, and a port under PORESET_N takes none. -/
def State.portAccess (s : State) (w : Who) (a : RegAddr) (wr : Option Word) : State :=
  let w : Who := { w with bar0 := false }
  let q := s.pad w.via
  if q.boot.poreset || q.rp.busy then s
  else
    let r := s.access w a wr
    r.1.modPad w.via fun q => { q with rp := match r.2 with
      | .done resp data => { rdata := data, resp := resp, ack := true }
      | .held => { q.rp with ack := false, busy := true } }

/-! ### Accesses that waited for their domain (14 R386) -/

/-- An AUTOWAKE access is answered SLUMBER 40,000 ns after it came. -/
def State.autoTimeout (s : State) (d : Die) : State :=
  let q := s.pad d
  match takeFirst (fun x : AutoAccess => decide (x.tide + 40000 ≤ q.now)) q.ebb.autoAcc with
  | none => s
  | some (x, rest) =>
    ((s.modEbb d fun e => { e with autoAcc := rest }).slumber (s.target x.who.via x.addr).srv).portEnds x.who respSlumber
      0xFFFFFFFF

/-- The first AUTOWAKE access of a paddock whose domain is up is made again. -/
def State.autoServe (s : State) (d : Die) : State :=
  let q := s.pad d
  match takeFirst (fun x : AutoAccess => q.domUp x.dom) q.ebb.autoAcc with
  | none => s
  | some (x, rest) =>
    let r := (s.modEbb d fun e => { e with autoAcc := rest }).access x.who x.addr x.write
    match r.2 with
    | .done resp data => r.1.portEnds x.who resp data
    | .held => r.1

/-! ### BAR0 (16 R433, 18 R478, R479) -/

/-- The Tether's paddock as the sender of BAR0 accesses, tagged HOST. -/
def hostWho (d : Die) (be : BitVec 4) : Who := { via := d, dom := 2, strb := be, bar0 := true }

/-- A BAR0 access whose register accesses are done: its completion (18 R479). -/
def State.barEnd (s : State) (d : Die) (b : BarAcc) : State :=
  let s := s.modTether fun t => { t with bar0 := t.barWait.head?, barWait := t.barWait.tail }
  match b.read with
  | none => s
  | some g =>
    if b.denied then (s.abortTlp d g).aer d .abort
    else s.toHost d (.complD g (b.got.flatMap wordBytes) false)

/-- Make the register accesses of the BAR0 access in progress, up to one that waits. -/
def State.barRun (s : State) (d : Die) (fuel : Nat) : State :=
  match fuel with
  | 0 => s
  | n + 1 =>
    match s.tether.bar0 with
    | none => s
    | some b =>
      if b.held then s
      else
        match b.todo with
        | [] => s.barEnd d b
        | (a, wr) :: _ =>
          let be : BitVec 4 := match wr with
            | some x => x.2
            | none => 15
          let r := s.access (hostWho d be) a (wr.map fun x => x.1)
          let step (b : BarAcc) : BarAcc := match r.2 with
            | .done resp data => b.next resp data
            | .held => { b with held := true }
          (r.1.modTether fun t => { t with bar0 := t.bar0.map step }).barRun d n

/-- Go on with the BAR0 accesses taken, up to one that waits. -/
def State.barGo (s : State) (d : Die) : State := s.barRun d (4 + 3 * s.tether.barWait.length)

/-- What a TLP to BAR0 or BAR4 does once it is taken: its register accesses, in the order of the TLPs; a read of registers
that do not exist; Completer Abort. -/
inductive BarDo where
  | regs (todo : List (RegAddr × Option (Word × BitVec 4)))
  | zeros (dws : Nat)
  | abort
  deriving DecidableEq, Repr

/-- A TLP that BAR0 or BAR4 takes. -/
def State.barTlp (s : State) (read : Option (BitVec 10)) (x : BarDo) : State :=
  match s.tetherDie with
  | none => s
  | some d =>
    match s.tether.tlpGate true with
    | .none => s
    | .silent => s.answerUr d read
    | .unsupported => (s.answerUr d read).aer d .unsupported
    | .open' =>
      let s := (s.pcount d 0x20 0).modTether fun t => { t with idleSince := (s.pad d).now, lpm := 0 }
      match x, read with
      | .abort, some g => (s.abortTlp d g).aer d .abort
      | .abort, none => s.aer d .abort
      | .zeros n, some g => s.toHost d (.complD g ((List.range n).flatMap fun _ => wordBytes 0) false)
      | .zeros _, none => s
      | .regs l, _ =>
        let b : BarAcc := { read := read, todo := l }
        if s.tether.bar0.isSome then s.modTether fun t => { t with barWait := t.barWait ++ [b] }
        else (s.modTether fun t => { t with bar0 := some b }).barGo d

/-- The register accesses of a BAR0 TLP: one DW, or two from an 8-byte boundary. -/
def barTodo (off : BitVec 26) (dws : Nat) (write : Option (BitVec 64)) (be : BitVec 8) : BarDo :=
  let a : RegAddr := BitVec.ofNat 26 (off.toNat / 4 * 4)
  let lo := write.map fun v => (v.extractLsb' 0 32, be.extractLsb' 0 4)
  let hi := write.map fun v => (v.extractLsb' 32 32, be.extractLsb' 4 4)
  if dws = 1 then .regs [(a, lo)]
  else if dws = 2 && a.toNat % 8 == 0 then .regs [(a, lo), (a + 4, hi)]
  else .abort

/-- BAR0_ACCESS (16 R433). -/
def execBar0Access (off : BitVec 26) (dws : BitVec 10) (write : Option (BitVec 64)) (be : BitVec 8) (tag : BitVec 10)
    (s : State) : Host.Outcome State Fault Refusal :=
  let n := dwCount dws
  .next (if tlpSpan (off.toNat / 4 * 4) (n * 4) && (write.isNone || decide (n * 4 ≤ s.tether.maxPayload)) then
      s.barTlp (if write.isSome then none else some tag) (barTodo off n write be)
    else s.badTlp)

/-! ### The H4 alias (16 R435) -/

/-- The byte address of an offset of a paddock's window (18 R466). -/
def padAddr (d : Die) (o : Nat) : RegAddr := BitVec.ofNat 26 (0x1000000 + d.val * 0x400000 + o)

/-- The byte address of an offset of a physical fold's window (18 R468). -/
def foldAddr (d : Die) (p : PFold) (o : Nat) : RegAddr := padAddr d (p.val * 0x40000 + o)

/-- The H8 register that an alias offset names; none where it names none. -/
def State.h4Target (s : State) (d : Die) (o : Nat) : Option RegAddr :=
  if o < 0x8000 then
    let x := o % 0x2000
    ((s.pad d).repl.pfoldOf d (Fin.ofNat 4 (o / 0x2000))).map fun p =>
      foldAddr d p (if x < 0x1000 then x else 0x3000 + (x - 0x1000))
  else if o < 0x9000 then some (BitVec.ofNat 26 (o - 0x8000))
  else if o < 0xA000 then some (padAddr d (0x3C0000 + (o - 0x9000)))
  else if o < 0xA100 then some (BitVec.ofNat 26 (0x3000 + (o - 0xA000)))
  else if 0xB000 ≤ o && o < 0xB080 then some (BitVec.ofNat 26 (0x10000 + (o - 0xB000)))
  else if 0xB800 ≤ o && o < 0xB880 then some (BitVec.ofNat 26 (0x11000 + (o - 0xB800)))
  else none

/-- What a TLP to an alias offset does: the accesses that a BAR0 TLP to the register would make, or zeros. -/
def State.h4Do (s : State) (d : Die) (off : BitVec 16) (x : BarPayload) : BarDo :=
  let o := off.toNat / 4 * 4
  match s.h4Target d o with
  | some a => barTodo a (dwCount x.dws) x.write x.be
  | none =>
    match barTodo (BitVec.ofNat 26 o) (dwCount x.dws) x.write x.be with
    | .regs l => .zeros l.length
    | y => y

/-- H4_ALIAS_ACCESS (16 R435). -/
def execH4AliasAccess (off : BitVec 16) (x : BarPayload) (tag : BitVec 10) (s : State) :
    Host.Outcome State Fault Refusal :=
  let n := dwCount x.dws
  .next (if tlpSpan (off.toNat / 4 * 4) (n * 4) && (x.write.isNone || decide (n * 4 ≤ s.tether.maxPayload)) then
      match s.tetherDie with
      | none => s
      | some d => s.barTlp (if x.write.isSome then none else some tag) (s.h4Do d off x)
    else s.badTlp)

/-! ### The Charter through the expansion ROM (16 R433, R436) -/

/-- CHARTER_READ. -/
def State.charterTlp (s : State) (off dws : Nat) (tag : BitVec 10) : State :=
  match s.tetherDie with
  | none => s
  | some d =>
    match s.tether.tlpGate s.tether.romEn with
    | .none => s
    | .silent => s.answerUr d (some tag)
    | .unsupported => (s.answerUr d (some tag)).aer d .unsupported
    | .open' =>
      let data := (List.range dws).flatMap fun i => wordBytes (s.charterWord d (off / 4 + i))
      (s.pcount d 0x20 0).toHost d (.complD tag data false)

/-- CHARTER_READ (16 R436). -/
def execCharterRead (off : BitVec 16) (dws : BitVec 10) (tag : BitVec 10) (s : State) : Host.Outcome State Fault Refusal :=
  .next (if tlpSpan (off.toNat / 4 * 4) (dwCount dws * 4) then s.charterTlp off.toNat (dwCount dws) tag else s.badTlp)

/-! ### Commands that are an access of a register port -/

/-- The offset of a queue register: command 0x1_0000, reply 0x1_1000, event 0x1_2000. -/
def queueAddr (base q j : Nat) : RegAddr := BitVec.ofNat 26 (base + q * 0x20 + j)

/-- A sluice register (09 R256). -/
def sluiceAddr (d : Die) (n : SluiceN) (c : Cls) (burst : Nat) : RegAddr :=
  padAddr d (0x201000 + (4 * n.val + c.val) * 8 + burst)

/-- RELEASE: a write of SHEP_BOOT (15 R425). -/
def execRelease (w : Who) (v : Word) (s : State) : Host.Outcome State Fault Refusal := .next (s.portAccess w 0x5008 (some v))

/-- STREAM_SLUICE_RATE (09 R245). -/
def execStreamSluiceRate (w : Who) (d : Die) (n : SluiceN) (c : Cls) (v : Word) (s : State) :
    Host.Outcome State Fault Refusal :=
  .next (s.portAccess w (sluiceAddr d n c 0) (some v))

/-- STREAM_SLUICE_BURST (09 R245). -/
def execStreamSluiceBurst (w : Who) (d : Die) (n : SluiceN) (c : Cls) (v : Word) (s : State) :
    Host.Outcome State Fault Refusal :=
  .next (s.portAccess w (sluiceAddr d n c 4) (some v))

/-- CLEAR: a write of BW_CTL (07 R196). -/
def execClear (w : Who) (d : Die) (p : PFold) (v : Word) (s : State) : Host.Outcome State Fault Refusal :=
  .next (s.portAccess w (foldAddr d p 0x4000) (some v))

/-- BW_PEEK: a read of BW_PEEK (07 R198). -/
def execBwPeek (w : Who) (d : Die) (p : PFold) (s : State) : Host.Outcome State Fault Refusal :=
  .next (s.portAccess w (foldAddr d p 0x4024) none)

/-- TAIL: a write of TETHER_HRING_TAIL (16 R442). -/
def execTail (w : Who) (q : QN) (v : Word) (s : State) : Host.Outcome State Fault Refusal :=
  .next (s.portAccess w (queueAddr 0x21000 q.val 0x0C) (some v))

/-- TETHER_MSIX_EOI (16 R445). -/
def execTetherMsixEoi (w : Who) (v : Word) (s : State) : Host.Outcome State Fault Refusal :=
  .next (s.portAccess w 0x20480 (some v))

/-- TETHER_LTR (16 R446). -/
def execTetherLtr (w : Who) (v : Word) (s : State) : Host.Outcome State Fault Refusal :=
  .next (s.portAccess w 0x20484 (some v))

/-- COMMIT: a write of TETHER_WINCTL (16 R441). -/
def execCommit (w : Who) (v : Word) (s : State) : Host.Outcome State Fault Refusal :=
  .next (s.portAccess w 0x20010 (some v))

/-- WINDOW_SWAP (16 R441). -/
def execWindowSwap (s : State) : Host.Outcome State Fault Refusal :=
  .next (match s.tetherDie with
    | some _ => if s.tether.pending then (s.modTether Tether.swap).unstallShadows else s
    | none => s)

/-- CQ_PUSH (15 R398, R399). -/
def execCqPush (w : Who) (q : QN) (v : Word) (s : State) : Host.Outcome State Fault Refusal :=
  .next (s.portAccess w (queueAddr 0x10000 q.val 0x00) (some v))

/-- CQ_PUSH_LAST (15 R398, R399). -/
def execCqPushLast (w : Who) (q : QN) (v : Word) (s : State) : Host.Outcome State Fault Refusal :=
  .next (s.portAccess w (queueAddr 0x10000 q.val 0x04) (some v))

/-- CQ_FLUSH: a write of CQ_CTL (15 R404). -/
def execCqFlush (w : Who) (q : QN) (v : Word) (s : State) : Host.Outcome State Fault Refusal :=
  .next (s.portAccess w (queueAddr 0x10000 q.val 0x0C) (some v))

/-- MODE: a write of CQ_CTL (15 R404, R427). -/
def execMode (w : Who) (q : QN) (v : Word) (s : State) : Host.Outcome State Fault Refusal :=
  .next (s.portAccess w (queueAddr 0x10000 q.val 0x0C) (some v))

/-- RQ_FLUSH: a write of RQ_CTL (15 R404). -/
def execRqFlush (w : Who) (q : QN) (v : Word) (s : State) : Host.Outcome State Fault Refusal :=
  .next (s.portAccess w (queueAddr 0x11000 q.val 0x0C) (some v))

/-- EQ_FLUSH: a write of EQ_CTL (15 R404). -/
def execEqFlush (w : Who) (e : EQN) (v : Word) (s : State) : Host.Outcome State Fault Refusal :=
  .next (s.portAccess w (queueAddr 0x12000 e.val 0x08) (some v))

/-- RQ_POP: a read of RQ_POP_LO (15 R402, R428). -/
def execRqPop (w : Who) (q : QN) (s : State) : Host.Outcome State Fault Refusal :=
  .next (s.portAccess w (queueAddr 0x11000 q.val 0x00) none)

/-- EQ_POP: a read of EQ_POP_LO (15 R428). -/
def execEqPop (w : Who) (e : EQN) (s : State) : Host.Outcome State Fault Refusal :=
  .next (s.portAccess w (queueAddr 0x12000 e.val 0x00) none)

/-- BELL_CLEAR (13 R355). -/
def execBellClear (w : Who) (d : Die) (v : Word) (s : State) : Host.Outcome State Fault Refusal :=
  .next (s.portAccess w (padAddr d 0x3C001C) (some v))

/-- EBB_WAKE (14 R393). -/
def execEbbWake (w : Who) (d : Die) (v : Word) (s : State) : Host.Outcome State Fault Refusal :=
  .next (s.portAccess w (padAddr d 0x300058) (some v))

/-- AUTOWAKE_TIMEOUT (14 R386). -/
def execAutowakeTimeout (d : Die) (s : State) : Host.Outcome State Fault Refusal := .next (s.autoTimeout d)

/-- CENSUS_CLR of a fold's Census block (17 R464). -/
def execCensusClr (w : Who) (d : Die) (p : PFold) (v : Word) (s : State) : Host.Outcome State Fault Refusal :=
  .next (s.portAccess w (padAddr d (0x340000 + p.val * 0x400 + 0xA4)) (some v))

/-- CENSUS_CTR_LO: a read of a Census _LO register (17 R464, R465). -/
def execCensusCtrLo (w : Who) (addr : RegAddr) (s : State) : Host.Outcome State Fault Refusal :=
  .next (s.portAccess w addr none)

/-- TIDE_NOW_LO (11 R304). -/
def execTideNowLo (w : Who) (s : State) : Host.Outcome State Fault Refusal := .next (s.portAccess w 0x3000 none)

/-- REPLICATED_REGISTER_WRITE (18 R471). -/
def execReplicatedRegisterWrite (w : Who) (addr : RegAddr) (v : Word) (s : State) : Host.Outcome State Fault Refusal :=
  .next (s.portAccess w addr (some v))

/-- REGISTER_WRITE (18 R478). -/
def execRegisterWrite (w : Who) (addr : RegAddr) (v : Word) (s : State) : Host.Outcome State Fault Refusal :=
  .next (s.portAccess w addr (some v))

/-- REGISTER_READ (18 R478). -/
def execRegisterRead (w : Who) (addr : RegAddr) (s : State) : Host.Outcome State Fault Refusal :=
  .next (s.portAccess w addr none)

end Sys2Proof.Machine
end

