-- ==== Sys2Proof/Machine/Work.lean ====
section
/-!
DEFINITION. What Shepherds, Ebb and the Tether do over time and that has no command of its own: one piece of it in each
idle step (log entry 1).
-/

namespace Sys2Proof.Machine

/-- Every line. -/
def anyLine (_ : Line) : Bool := true

/-- A job that ended with lines still recorded is given those lines again. -/
def State.rejob (s : State) (d : Die) (j : Nat) (l : List Line) : State := if s.jobOpen j then s else s.addJob d j l

/-- The drain of a fold towards OFF (14 R369, step 1): recorded lines and Pool cache ways. -/
def State.drainWork (s : State) (d : Die) (p : PFold) : State :=
  let x := s.power d p
  if x.state == .drain && x.target == .off && !((s.pad d).folds[p]).drain then
    (s.rejob d (drainJob d p) (s.fc d p).recorded).sweepOne d p .sweepPurge anyLine
  else s

/-- Steps 2 and 3 of a move (12 R327). -/
def State.moveWork (s : State) (lead : Die) (id : Nat) (m : FoldMove) : State :=
  if m.step = 2 then
    ((s.rejob m.d (jobOf id) (s.fc m.d m.src).recorded).sweepOne m.d m.src .sweep anyLine).millWork lead id m
  else s

/-- Step 3 of a fence (10 R276): what is still recorded, and the dirty lines of the die's folds. -/
def State.fenceWork (s : State) (lead : Die) (id : Nat) (x : Die) : State :=
  let own := ((s.carriers x).flatMap fun p => (s.fc x p).recorded).eraseDups
  let named (d : Die) : List Line := ((s.carriers d).flatMap fun p => (s.fc d p).naming x).eraseDups
  let s' := if s.jobOpen (jobOf id) then s
    else ((s.members lead).filter fun d => d != x).foldl (fun t d => t.addJob d (jobOf id) (named d)) (s.addJob x (jobOf id) own)
  (s'.carriers x).foldl (fun t p => t.sweepOne x p .sweep anyLine) s'

/-- Step 2 of Nightfold (14 R378): what caches and Pool cache ways still hold. -/
def State.nfSweepWork (s : State) (lead : Die) (id : Nat) : State :=
  if !s.allNf lead .step2 then s
  else
    let held (d : Die) : List Line := ((s.carriers d).flatMap fun p => s.heldLines d p anyLine).eraseDups
    let s' := if s.jobOpen (jobOf id) then s
      else (s.members lead).foldl (fun t d => t.addJob d (jobOf id) (held d)) s
    (s.members lead).foldl (fun t d => (s.carriers d).foldl (fun t p => t.sweepOne d p .sweepPurge anyLine) t) s'

/-- A piece of a MAINT_RANGE, or its final reply. -/
def State.maintWork (s : State) (lead : Die) (id : Nat) : State :=
  let s := (s.members lead).foldl (fun t d => t.maintScan lead d id 64) s
  match s.maintOf lead id with
  | some m => s.maintFinish lead id m
  | none => s

/-- A piece of one deferred command of the leader. -/
def State.defWork (s : State) (lead : Die) (o : Deferred) : State :=
  match o.kind with
  | .maint _ => s.maintWork lead o.id
  | .setway m => s.setwayStep lead o.id m
  | .scrub array skipped tide next limit => s.scrubWork lead o.id array skipped tide next limit
  | .hurdleLoad todo ignored => s.hurdleStep lead o todo ignored
  | .move m => s.moveWork lead o.id m
  | .fence x step => if step = 3 then s.fenceWork lead o.id x else s
  | .nightfold => s.nfSweepWork lead o.id
  | .foldPower _ _ _ | .millpond _ _ | .region _ | .join _ _ | .oppoint _ _ _ _ | .patch _ _ _ _ _ => s

/-- The route-epoch switch that an edge waits for starts (10 R265); one in progress goes through its phases (R273). -/
def State.switchWork (s : State) (lead : Die) : State :=
  let x := (s.pad lead).shep
  match x.sw with
  | some w => s.switchTables lead w
  | none => if x.needSwitch then s.startSwitch lead (s.pad lead).repl.present none else s

/-- A wake or a park changed which folds may be in DOZE, and so W_wake (11 R299, 14 R370): TIDE_ENV follows. -/
def State.dozeWork (s : State) (lead : Die) : State :=
  if (s.pad lead).shep.envDoze == s.dozeDies then s else s.envChanged lead

/-- What the leader does. -/
def State.leadWork (s : State) (lead : Die) : State :=
  if !(s.pad lead).shepRuns then s.nfWork lead
  else
    let s := (s.pad lead).shep.deferred.foldl (fun t o => t.defWork lead o) s
    ((((s.joinWork lead).switchWork lead).regionWork lead).dozeWork lead).nfWork lead

/-- What each paddock does. -/
def State.padWork (s : State) (d : Die) : State :=
  let s := (s.jobStep d).patchStep d
  (pfolds.foldl (fun t p => t.drainWork d p) s).autoServe d

/-- What the Tether does: stalled writes go on, and a BAR0 access (16 R441, R433). -/
def State.tetherWork (s : State) : State :=
  let s := s.unstallShadows.msixFalls
  match s.tether.bar0, s.krovol.tether with
  | some _, some d => s.barGo d
  | _, _ => s

/-- One piece of everything that goes on by itself. -/
def State.work (s : State) : State :=
  let s := (dies.foldl State.padWork s).tetherWork
  s.leaders.foldl State.leadWork s

end Sys2Proof.Machine
end

