-- ==== Sys2Proof/Machine/Clock.lean ====
section
/-!
DEFINITION. Time: one HCLK cycle (09 R233, 11 R284, 17 R456 to R458), which is what a step on an empty queue does (DESIGN
CHOICE, log entry 1), and the LCLK tick.
-/

namespace Sys2Proof.Machine

/-- The Tide value, in units of 2^-24 ns, that Tide does not pass before the next tick (11 R284). -/
def AlwaysOn.tideBound (a : AlwaysOn) : Nat := (1000 * a.ticks + 999) * 2 ^ 24

/-- Tide and the island's gap timer after one HCLK cycle (11 R284, R286). -/
def AlwaysOn.cycle (a : AlwaysOn) (period : Nat) : AlwaysOn :=
  { a with
    tideFx := max a.tideFx (min (a.tideFx + period) a.tideBound)
    gapFx := a.gapFx + period
    hcycle := a.hcycle + 1 }

/-- Tide after an LCLK tick: it steps up to 1,000k, or advances by 1,000 while HCLK is stopped (11 R284). -/
def AlwaysOn.tick (a : AlwaysOn) (hclk : Bool) : AlwaysOn :=
  let k := a.ticks + 1
  { a with
    ticks := k
    soscGap := 0
    tideFx := if hclk then max a.tideFx (1000 * k * 2 ^ 24) else a.tideFx + 1000 * 2 ^ 24
    gapFx := 0 }

/-- The TESTMODE pin is followed from the release of reset on (19 R497); no row of the table is its rise: it rises in the
ticks that a free value names (log entry 96). -/
def Boot.strapTick (b : Boot) (d : Die) (tick : Nat) : Boot :=
  if b.padreset then b else { b with testmode := b.testmode || Config.testmodeRises d.val tick }

/-- LCLK_TICK: every paddock whose PORESET_N is released counts the tick. -/
def State.countTick (s : State) : State :=
  s.modPads fun d q =>
    if q.boot.poreset then q else { q with aon := q.aon.tick q.running, boot := q.boot.strapTick d q.aon.ticks }

/-- The tick after the one of N4: the banks of Nightfold switch off (14 R378). -/
def State.banksAt (s : State) (d : Die) : State :=
  match (s.pad d).ebb.nf with
  | .inside a => if a + 1 = (s.pad d).ticks then s.nfBanks d else s
  | _ => s

/-- LCLK_TICK: Tide, the Census boundary it may bring (17 R460), and the banks that switch off after N4. -/
def State.lclk (s : State) : State := dies.foldl State.banksAt s.countTick.censusBoundaries

/-- LCLK_TICK (11 R284). -/
def execLclkTick (s : State) : Host.Outcome State Fault Refusal := .next s.lclk

/-! ### Conditions counted in each cycle (17 R458) -/

/-- Count an event `n` times. -/
def State.pcountN (s : State) (d : Die) (sel unit n : Nat) : State := (List.range n).foldl (fun t _ => t.pcount d sel unit) s

/-- Count a condition. -/
def State.pcountIf (s : State) (c : Bool) (d : Die) (sel unit : Nat) : State := if c then s.pcount d sel unit else s

/-- The cycle conditions of a paddock: barriers, sluices, crossing buffers, dams, gather entries, L1, held replies. -/
def State.cycleEvents (s : State) (d : Die) : State :=
  let q := s.pad d
  let s := gateNs.foldl (fun t g => t.pcountIf (!(q.gates[g]).bars.isEmpty) d 0x03 g.val) s
  let s := (List.finRange 30).foldl (fun t n => t.pcountIf (t.sluiceHeld d n) d 0x09 n.val) s
  let s := edges.foldl (fun t e =>
    let x := q.conf.edge[edgeNo e]
    (t.pcountN d 0x1A (edgeNo e).val ((x.buf.toList.map fun l => (l.filter fun i => i.flit.isSome).length).sum)).pcountIf (x.dam.any id) d 0x1B (edgeNo e).val) s
  let s := s.pcountIf (decide (q.conf.gather.length = 64)) d 0x1F 0
  let s := s.pcountIf (s.krovol.tether == some d && s.tether.linkUp && s.tether.lpm != 0) d 0x26 0
  s.pcountIf (q.shep.rq.any fun x => !x.held.isEmpty) d 0x2A 0

/-- The cycle counter of the paddock's bank counts while SD is on. -/
def Census.cycled (c : Census) : Census := { c with cycle := c.cycle + 1 }

/-- The class of a slot in which stage 1 pulled nothing: STARVED_BACK where only an entry was wanting, or where a full
queue that holds stage 12 keeps an eligible item, STARVED_FRONT for every other reason (17 R456). -/
def FC.idleClass (c : FC) : Fin 4 :=
  if !c.f.drain && !c.f.ftHalt && (c.wantsEntry || (c.held && (c.best [] c.f.pens).isSome)) then 3 else 2

/-- The end of a counted cycle of a fold. -/
def FC.idleSlot (c : FC) : FC := c.endCycle c.idleClass

/-- One cycle of a clocked fold: its slot, and the cycle in which it was last busy (14 R367). -/
def State.foldCycle (s : State) (d : Die) (p : PFold) : State :=
  if (s.pad d).foldRuns p then
    let s := s.runFold d p FC.idleSlot
    if s.foldBusy d p then s.modPower d p fun x => { x with idleSince := (s.pad d).aon.hcycle } else s
  else s

/-- The pace of an edge (10 R261): a chance to send that was not used is lost (log entry 27). -/
def EdgeStat.cycled (e : EdgeStat) : EdgeStat := { e with acc := e.acc % 1024 + e.pace }

/-- One HCLK cycle of a paddock whose HCLK runs, `now` the paddock as the cycle began; where HCLK is stopped the island
counts one SOSC cycle (11 R286, log entry 23). -/
def State.padCycle (s : State) (d : Die) (now : Paddock) : State :=
  if now.boot.poreset then s
  else if !now.running then s.modPad d fun q => { q with aon := { q.aon with soscGap := q.aon.soscGap + 1 } }
  else
    let sd := now.domOn domSD
    let s := if sd then (s.cycleEvents d).modPad d fun q => { q with
        census := q.census.cycled
        conf := { q.conf with edge := q.conf.edge.map EdgeStat.cycled } } else s
    let s := pfolds.foldl (fun t p => t.foldCycle d p) s
    let s := if sd then edges.foldl (fun t e => t.enterRings d e 16) ((s.moveRings d).loseCutOff d) else s
    (s.modPad d fun q => { q with aon := q.aon.cycle (Config.period now.ebb.point) }).censusBoundary d

/-- The requester of a register port whose access is complete lowers RP_REQ, and RP_ACK falls after it (19 R502, log
entry 1). -/
def Paddock.portRests (q : Paddock) : Paddock := { q with rp := { q.rp with ack := false } }

/-- A step on an empty queue: one HCLK cycle in every paddock whose HCLK runs, and one piece of the work that has no
command of its own. -/
def State.idle (s : State) : State :=
  ((dies.foldl (fun t d => t.padCycle d (s.pad d)) s).modPads fun _ q => q.portRests).work

end Sys2Proof.Machine
end

