-- ==== Sys2Proof/Machine/Requests.lean ====
section
/-!
DEFINITION. Meanings of the requests that a fold pulls, by opcode (02 R47, 03 R77, R90 to R94), of REQ and SNP
arrivals, and of the answers and data that reach folds.
-/

namespace Sys2Proof.Machine

/-- REQ_FLIT_ARRIVAL (03 R73, 09 R240 to R242, R251). -/
def execReqFlitArrival (d : Die) (a : Spot) (noise : Nat) (s : State) : Host.Outcome State Fault Refusal :=
  let w := s.wire d .req a noise
  .next (w.1.reqArrival d a w.2)

/-- SNP_FLIT_ARRIVAL (09 R240, 04 R117). -/
def execSnpFlitArrival (d : Die) (a : Spot) (noise : Nat) (s : State) : Host.Outcome State Fault Refusal :=
  let w := s.wire d .snp a noise
  .next (w.1.snpArrival d a w.2)

/-- GET_SHARED: pen arbitration pulls this opcode and the fold serves it (03 R90, 02 R47). -/
def execGetShared (d : Die) (p : PFold) (s : State) : Host.Outcome State Fault Refusal :=
  .next (s.pullOf d p fun o => o == ReqOp.getShared)

/-- GET_OWNED: pen arbitration pulls this opcode and the fold serves it (03 R90, 02 R47). -/
def execGetOwned (d : Die) (p : PFold) (s : State) : Host.Outcome State Fault Refusal :=
  .next (s.pullOf d p fun o => o == ReqOp.getOwned)

/-- GET_ONCE: pen arbitration pulls this opcode and the fold serves it (03 R90). -/
def execGetOnce (d : Die) (p : PFold) (s : State) : Host.Outcome State Fault Refusal :=
  .next (s.pullOf d p fun o => o == ReqOp.getOnce)

/-- UPGRADE: pen arbitration pulls this opcode and the fold serves it (03 R90, 05 R138). -/
def execUpgrade (d : Die) (p : PFold) (s : State) : Host.Outcome State Fault Refusal :=
  .next (s.pullOf d p fun o => o == ReqOp.upgrade)

/-- CLAIM: pen arbitration pulls this opcode and the fold serves it (03 R90). -/
def execClaim (d : Die) (p : PFold) (s : State) : Host.Outcome State Fault Refusal :=
  .next (s.pullOf d p fun o => o == ReqOp.claim)

/-- PUT_DIRTY: pen arbitration pulls this opcode and the fold serves it (03 R81, R90, R92, 04 R123). -/
def execPutDirty (d : Die) (p : PFold) (s : State) : Host.Outcome State Fault Refusal :=
  .next (s.pullOf d p fun o => o == ReqOp.putDirty)

/-- PUT_COPY: pen arbitration pulls this opcode and the fold serves it (03 R81, R90, R92, 04 R123). -/
def execPutCopy (d : Die) (p : PFold) (s : State) : Host.Outcome State Fault Refusal :=
  .next (s.pullOf d p fun o => o == ReqOp.putCopy)

/-- PUT_CLEAN: pen arbitration pulls this opcode and the fold serves it (03 R90, 05 R141). -/
def execPutClean (d : Die) (p : PFold) (s : State) : Host.Outcome State Fault Refusal :=
  .next (s.pullOf d p fun o => o == ReqOp.putClean)

/-- PUSH_IO: pen arbitration pulls this opcode and the fold serves it (03 R93, 06 R155). -/
def execPushIO (d : Die) (p : PFold) (s : State) : Host.Outcome State Fault Refusal :=
  .next (s.pullOf d p fun o => o == ReqOp.pushIO)

/-- PUSH_FULL: pen arbitration pulls this opcode and the fold serves it (03 R93). -/
def execPushFull (d : Die) (p : PFold) (s : State) : Host.Outcome State Fault Refusal :=
  .next (s.pullOf d p fun o => o == ReqOp.pushFull)

/-- ATOMIC_OP: pen arbitration pulls this opcode and the fold serves it (07 R181 to R187, 05 R140). -/
def execAtomicOp (d : Die) (p : PFold) (s : State) : Host.Outcome State Fault Refusal :=
  .next (s.pullOf d p fun o => o == ReqOp.atomicOp)

/-- SWEEP: pen arbitration pulls this opcode and the fold serves it (06 R166, 05 R137). -/
def execSweep (d : Die) (p : PFold) (s : State) : Host.Outcome State Fault Refusal :=
  .next (s.pullOf d p fun o => o == ReqOp.sweep)

/-- PURGE: pen arbitration pulls this opcode and the fold serves it (06 R166). -/
def execPurge (d : Die) (p : PFold) (s : State) : Host.Outcome State Fault Refusal :=
  .next (s.pullOf d p fun o => o == ReqOp.purge)

/-- SWEEP_PURGE: pen arbitration pulls this opcode and the fold serves it (06 R166). -/
def execSweepPurge (d : Die) (p : PFold) (s : State) : Host.Outcome State Fault Refusal :=
  .next (s.pullOf d p fun o => o == ReqOp.sweepPurge)

/-- DEV_READ: pen arbitration pulls this opcode and the fold serves it (03 R94, 06 R173). -/
def execDevRead (d : Die) (p : PFold) (s : State) : Host.Outcome State Fault Refusal :=
  .next (s.pullOf d p fun o => o == ReqOp.devRead)

/-- DEV_WRITE: pen arbitration pulls this opcode and the fold serves it (03 R94, 06 R173). -/
def execDevWrite (d : Die) (p : PFold) (s : State) : Host.Outcome State Fault Refusal :=
  .next (s.pullOf d p fun o => o == ReqOp.devWrite)

/-- RESERVED_OPCODE: a reserved opcode is answered Err PROTOCOL (02 R47). -/
def execReservedOpcode (d : Die) (p : PFold) (s : State) : Host.Outcome State Fault Refusal :=
  .next (s.pullOf d p fun o => o matches .reserved _)

/-- SNPACK (03 R91, 04 R119). -/
def execSnpAck (d : Die) (a : Spot) (noise : Nat) (s : State) : Host.Outcome State Fault Refusal :=
  let w := s.wire d .rsp a noise
  .next (w.1.snpAnswerAt d a w.2 .snpAck)

/-- SNPACKWB (03 R91, 04 R119). -/
def execSnpAckWB (d : Die) (a : Spot) (noise : Nat) (s : State) : Host.Outcome State Fault Refusal :=
  let w := s.wire d .rsp a noise
  .next (w.1.snpAnswerAt d a w.2 .snpAckWB)

/-- SNPDATA (03 R86, 04 R119, R121). -/
def execSnpData (d : Die) (a : Spot) (noise : Nat) (s : State) : Host.Outcome State Fault Refusal :=
  let w := s.wire d .dat a noise
  .next (w.1.datAt d a w.2 .snpData)

/-- COMPACK (02 R67, 03 R80). -/
def execCompAck (d : Die) (a : Spot) (noise : Nat) (s : State) : Host.Outcome State Fault Refusal :=
  let w := s.wire d .rsp a noise
  .next (w.1.compAckAt d a w.2)

/-- PUT_DATA (02 R48). -/
def execPutData (d : Die) (a : Spot) (noise : Nat) (s : State) : Host.Outcome State Fault Refusal :=
  let w := s.wire d .dat a noise
  .next (w.1.datAt d a w.2 .putData)

/-- PUSH_DATA (02 R48, 08 R223). -/
def execPushData (d : Die) (a : Spot) (noise : Nat) (s : State) : Host.Outcome State Fault Refusal :=
  let w := s.wire d .dat a noise
  .next (w.1.datAt d a w.2 .pushData)

end Sys2Proof.Machine
end

