-- ==== Sys2Proof/Machine/Watchdog.lean ====
section
/-!
DEFINITION. The watchdog of a Shepherd (15 R420): what the restarted Shepherd of the leader resumes, and what it answers
FAILED.
-/

namespace Sys2Proof.Machine

/-- A deferred command that R417 says is never abandoned. NIGHTFOLD_ENTER ends at an abort point (R379). -/
def DefKind.keeps (k : DefKind) : Bool :=
  match k with
  | .foldPower _ _ t => t == .retain || t == .off
  | .fence _ _ | .scrub _ _ _ _ _ | .maint _ | .setway _ | .nightfold => true
  | .move m => m.silent || decide (2 ≤ m.step)
  | .millpond _ _ | .region _ | .join _ _ | .hurdleLoad _ _ | .oppoint _ _ _ _ | .patch _ _ _ _ _ => false

/-- A deferred command has no reply yet: a PATCH_LOAD that still reads its first line. -/
def DefKind.unanswered (k : DefKind) : Bool :=
  match k with
  | .patch _ _ said _ _ => !said
  | _ => false

/-- A Nightfold entry is not resumed: it is abandoned at the next abort point, and its reply is FAILED (log entry 73). -/
def State.nfStop (s : State) (d : Die) : State :=
  match s.nfOp d with
  | none => s
  | some _ => (s.members d).foldl (fun s x => s.modEbb x fun e =>
      if e.entering then { e with nfAbort := true, nfFailed := true } else e) s

/-- A DIE_JOIN is not resumed: the route-epoch switch under way keeps the population as it is. -/
def State.joinStop (s : State) (d : Die) : State :=
  let p := (s.pad d).repl.present
  let stay (w : EpochSwitch) : EpochSwitch :=
    if w.forOp.isSome && w.present != p && (w.present ||| p) == w.present then
      { w with present := p, forOp := none, tabled := false }
    else w
  (s.modRepl d fun r => { r with joinBusy := false }).modShep d fun x => { x with sw := x.sw.map stay }

/-- What a deferred command that is not resumed leaves behind is undone. -/
def State.stopDef (s : State) (d : Die) (o : Deferred) : State :=
  match o.kind with
  | .region _ => (s.members d).foldl (fun s x => s.modShep x fun h => { h with regionHold := false }) s
  | .join _ _ => s.joinStop d
  | .oppoint _ _ _ _ => s.oppDrop d
  | .foldPower _ _ _ | .move _ | .scrub _ _ _ _ _ | .maint _ | .setway _ | .millpond _ _ | .fence _ _ | .nightfold
  | .hurdleLoad _ _ | .patch _ _ _ _ _ => s

/-- The leader's Shepherd answers FAILED what it had taken and does not resume. -/
def State.failTaken (s : State) (d : Die) : State :=
  let x := (s.pad d).shep
  let gone := x.deferred.filter fun o => !o.kind.keeps
  let s := gone.foldl (fun s o => s.stopDef d o) s
  let s := s.modShep d fun x => { x with
    taken := []
    deferred := x.deferred.filter fun o => o.kind.keeps
    sweeps := x.sweeps.filter fun j => !(gone.any fun o => jobOf o.id == j.id) }
  let s := gone.foldl (fun s o => s.answer d o.pkt .failed [] o.kind.unanswered) s
  (x.taken.foldl (fun s k => s.reply d k .failed) s).nfStop d

/-- WATCHDOG: 10,000 LCLK ticks without a restart. -/
def State.watchdogAt (s : State) (d : Die) : State :=
  let q := s.pad d
  if !q.boot.poreset && !q.boot.padreset && q.domOn domSH && decide (q.shep.wdogTick + 10000 ≤ q.ticks) then
    let s := (s.modShep d fun x => { x with wdogTick := q.ticks }).stick d 5
    s.failTaken d
  else s

/-- WATCHDOG (15 R420). -/
def execWatchdog (d : Die) (s : State) : Host.Outcome State Fault Refusal := .next (s.watchdogAt d)

end Sys2Proof.Machine
end

