-- ==== Sys2Proof/Machine/Dispatch.lean ====
section
/-!
DEFINITION. The dispatch: one arm per command, each one call of its meaning.
-/

namespace Sys2Proof.Machine

/-- What a command does to everything but the queue. -/
def exec (i : Instr) (s : State) : Host.Outcome State Fault Refusal :=
  match i with
  | .poresetRelease bootMode testMode romOk => Sys2Proof.Machine.execPoresetRelease bootMode testMode romOk s
  | .poresetAssert => Sys2Proof.Machine.execPoresetAssert s
  | .padresetRelease d bootMode testMode romOk => Sys2Proof.Machine.execPadresetRelease d bootMode testMode romOk s
  | .padresetAssert d => Sys2Proof.Machine.execPadresetAssert d s
  | .startupRetry d romOk => Sys2Proof.Machine.execStartupRetry d romOk s
  | .fuseAck d data => Sys2Proof.Machine.execFuseAck d data s
  | .fuseTimeout d => Sys2Proof.Machine.execFuseTimeout d s
  | .checkerSelfTest d unit answers => Sys2Proof.Machine.execCheckerSelfTest d unit answers s
  | .arrayInitialisation d unit bad => Sys2Proof.Machine.execArrayInitialisation d unit bad s
  | .hclkAck d level opack => Sys2Proof.Machine.execHclkAck d level opack s
  | .hclkAckTimeout d => Sys2Proof.Machine.execHclkAckTimeout d s
  | .release w v => Sys2Proof.Machine.execRelease w v s
  | .assemblyDeadline => Sys2Proof.Machine.execAssemblyDeadline s
  | .formed => Sys2Proof.Machine.execFormed s
  | .moduleTrained d m rate x32 repaired => Sys2Proof.Machine.execModuleTrained d m rate x32 repaired s
  | .trainingFailed d m => Sys2Proof.Machine.execTrainingFailed d m s
  | .trainingRetry d m => Sys2Proof.Machine.execTrainingRetry d m s
  | .moduleDown d m => Sys2Proof.Machine.execModuleDown d m s
  | .dieReady d ready => Sys2Proof.Machine.execDieReady d ready s
  | .confluenceFlit d m noise => Sys2Proof.Machine.execConfluenceFlit d m noise s
  | .edgeFlitAccept d net r outbound => Sys2Proof.Machine.execEdgeFlitAccept d net r outbound s
  | .confluenceFlitSend d m => Sys2Proof.Machine.execConfluenceFlitSend d m s
  | .routeEpochSwitchCycle => Sys2Proof.Machine.execRouteEpochSwitchCycle s
  | .envelopeRecheck => Sys2Proof.Machine.execEnvelopeRecheck s
  | .reqFlitArrival d a noise => Sys2Proof.Machine.execReqFlitArrival d a noise s
  | .snpFlitArrival d a noise => Sys2Proof.Machine.execSnpFlitArrival d a noise s
  | .turn d net a => Sys2Proof.Machine.execTurn d net a s
  | .flitInject d net a => Sys2Proof.Machine.execFlitInject d net a s
  | .starveReservation d net a => Sys2Proof.Machine.execStarveReservation d net a s
  | .culvertFlit d net a noise => Sys2Proof.Machine.execCulvertFlit d net a noise s
  | .sluiceAdmit d n => Sys2Proof.Machine.execSluiceAdmit d n s
  | .streamSluiceRate w d n c v => Sys2Proof.Machine.execStreamSluiceRate w d n c v s
  | .streamSluiceBurst w d n c v => Sys2Proof.Machine.execStreamSluiceBurst w d n c v s
  | .fenceAck d pos => Sys2Proof.Machine.execFenceAck d pos s
  | .getShared d p => Sys2Proof.Machine.execGetShared d p s
  | .getOwned d p => Sys2Proof.Machine.execGetOwned d p s
  | .getOnce d p => Sys2Proof.Machine.execGetOnce d p s
  | .upgrade d p => Sys2Proof.Machine.execUpgrade d p s
  | .claim d p => Sys2Proof.Machine.execClaim d p s
  | .putDirty d p => Sys2Proof.Machine.execPutDirty d p s
  | .putCopy d p => Sys2Proof.Machine.execPutCopy d p s
  | .putClean d p => Sys2Proof.Machine.execPutClean d p s
  | .pushIO d p => Sys2Proof.Machine.execPushIO d p s
  | .pushFull d p => Sys2Proof.Machine.execPushFull d p s
  | .atomicOp d p => Sys2Proof.Machine.execAtomicOp d p s
  | .sweep d p => Sys2Proof.Machine.execSweep d p s
  | .purge d p => Sys2Proof.Machine.execPurge d p s
  | .sweepPurge d p => Sys2Proof.Machine.execSweepPurge d p s
  | .devRead d p => Sys2Proof.Machine.execDevRead d p s
  | .devWrite d p => Sys2Proof.Machine.execDevWrite d p s
  | .reservedOpcode d p => Sys2Proof.Machine.execReservedOpcode d p s
  | .snpAck d a noise => Sys2Proof.Machine.execSnpAck d a noise s
  | .snpAckWB d a noise => Sys2Proof.Machine.execSnpAckWB d a noise s
  | .snpData d a noise => Sys2Proof.Machine.execSnpData d a noise s
  | .compAck d a noise => Sys2Proof.Machine.execCompAck d a noise s
  | .putData d a noise => Sys2Proof.Machine.execPutData d a noise s
  | .pushData d a noise => Sys2Proof.Machine.execPushData d a noise s
  | .memoryRequestIssue d p => Sys2Proof.Machine.execMemoryRequestIssue d p s
  | .memoryReadData d n tag data poison err => Sys2Proof.Machine.execMemoryReadData d n tag data poison err s
  | .memoryWriteResponse d n tag err => Sys2Proof.Machine.execMemoryWriteResponse d n tag err s
  | .memoryCreditReturn d n write => Sys2Proof.Machine.execMemoryCreditReturn d n write s
  | .dozeGate d p => Sys2Proof.Machine.execDozeGate d p s
  | .unsureWindowEnd d p => Sys2Proof.Machine.execUnsureWindowEnd d p s
  | .deadlineMissed d n txid => Sys2Proof.Machine.execDeadlineMissed d n txid s
  | .foldShareExceeded d p idx => Sys2Proof.Machine.execFoldShareExceeded d p idx s
  | .transactionAbandoned d p what => Sys2Proof.Machine.execTransactionAbandoned d p what s
  | .abandonBeforeInjection d n txid => Sys2Proof.Machine.execAbandonBeforeInjection d n txid s
  | .waySweep d p => Sys2Proof.Machine.execWaySweep d p s
  | .millpondConversion d => Sys2Proof.Machine.execMillpondConversion d s
  | .wayCopy d p k => Sys2Proof.Machine.execWayCopy d p k s
  | .raceSwitch d n => Sys2Proof.Machine.execRaceSwitch d n s
  | .scrubRead d p => Sys2Proof.Machine.execScrubRead d p s
  | .clear w d p v => Sys2Proof.Machine.execClear w d p v s
  | .bwPeek w d p => Sys2Proof.Machine.execBwPeek w d p s
  | .c2gReq d n item => Sys2Proof.Machine.execC2gReq d n item s
  | .combiningBufferAge d g line => Sys2Proof.Machine.execCombiningBufferAge d g line s
  | .barrier d g core kind scope ctag => Sys2Proof.Machine.execBarrier d g core kind scope ctag s
  | .splitCancel d g ctag => Sys2Proof.Machine.execSplitCancel d g ctag s
  | .homeQuery d n page => Sys2Proof.Machine.execHomeQuery d n page s
  | .c2gRsp d n item => Sys2Proof.Machine.execC2gRsp d n item s
  | .c2gDat d n item => Sys2Proof.Machine.execC2gDat d n item s
  | .comp d a noise => Sys2Proof.Machine.execComp d a noise s
  | .ordered d a noise => Sys2Proof.Machine.execOrdered d a noise s
  | .err d a noise => Sys2Proof.Machine.execErr d a noise s
  | .dataToReq d a noise => Sys2Proof.Machine.execDataToReq d a noise s
  | .stileDeviceAccess d n => Sys2Proof.Machine.execStileDeviceAccess d n s
  | .dr d n tag err data => Sys2Proof.Machine.execDr d n tag err data s
  | .stileAbandon d n src txid => Sys2Proof.Machine.execStileAbandon d n src txid s
  | .memoryReadTlp off bytes tag => Sys2Proof.Machine.execMemoryReadTlp off bytes tag s
  | .memoryWriteTlp off data relaxed => Sys2Proof.Machine.execMemoryWriteTlp off data relaxed s
  | .bar0Access off dws write be tag => Sys2Proof.Machine.execBar0Access off dws write be tag s
  | .h4AliasAccess off x tag => Sys2Proof.Machine.execH4AliasAccess off x tag s
  | .charterRead off dws tag => Sys2Proof.Machine.execCharterRead off dws tag s
  | .flr => Sys2Proof.Machine.execFlr s
  | .flrComplete => Sys2Proof.Machine.execFlrComplete s
  | .hotReset => Sys2Proof.Machine.execHotReset s
  | .linkDown => Sys2Proof.Machine.execLinkDown s
  | .tetherPerst => Sys2Proof.Machine.execTetherPerst s
  | .busMasterEnable on => Sys2Proof.Machine.execBusMasterEnable on s
  | .hostRingFetch q => Sys2Proof.Machine.execHostRingFetch q s
  | .hostRingCompletion q tag answer => Sys2Proof.Machine.execHostRingCompletion q tag answer s
  | .tail w q v => Sys2Proof.Machine.execTail w q v s
  | .msixVectorDue v => Sys2Proof.Machine.execMsixVectorDue v s
  | .msixSend v => Sys2Proof.Machine.execMsixSend v s
  | .tetherMsixEoi w v => Sys2Proof.Machine.execTetherMsixEoi w v s
  | .l1Entry sub => Sys2Proof.Machine.execL1Entry sub s
  | .tetherLtr w v => Sys2Proof.Machine.execTetherLtr w v s
  | .commit w v => Sys2Proof.Machine.execCommit w v s
  | .windowSwap => Sys2Proof.Machine.execWindowSwap s
  | .cqPush w q v => Sys2Proof.Machine.execCqPush w q v s
  | .cqPushLast w q v => Sys2Proof.Machine.execCqPushLast w q v s
  | .cqFlush w q v => Sys2Proof.Machine.execCqFlush w q v s
  | .mode w q v => Sys2Proof.Machine.execMode w q v s
  | .rqFlush w q v => Sys2Proof.Machine.execRqFlush w q v s
  | .eqFlush w e v => Sys2Proof.Machine.execEqFlush w e v s
  | .rqPop w q => Sys2Proof.Machine.execRqPop w q s
  | .eqPop w e => Sys2Proof.Machine.execEqPop w e s
  | .packetTake d => Sys2Proof.Machine.execPacketTake d s
  | .heldReplyPost d q => Sys2Proof.Machine.execHeldReplyPost d q s
  | .watchdog d => Sys2Proof.Machine.execWatchdog d s
  | .ping d => Sys2Proof.Machine.execPing d s
  | .queryCharter d => Sys2Proof.Machine.execQueryCharter d s
  | .patchLoad d => Sys2Proof.Machine.execPatchLoad d s
  | .ttDump d => Sys2Proof.Machine.execTtDump d s
  | .foldPower d => Sys2Proof.Machine.execFoldPower d s
  | .foldRetire d => Sys2Proof.Machine.execFoldRetire d s
  | .foldSpareIn d => Sys2Proof.Machine.execFoldSpareIn d s
  | .scrubRange d => Sys2Proof.Machine.execScrubRange d s
  | .maintRange d => Sys2Proof.Machine.execMaintRange d s
  | .maintSetway d => Sys2Proof.Machine.execMaintSetway d s
  | .millpondConfig d => Sys2Proof.Machine.execMillpondConfig d s
  | .regionSet d => Sys2Proof.Machine.execRegionSet d s
  | .regionSwitch => Sys2Proof.Machine.execRegionSwitch s
  | .dieJoin d => Sys2Proof.Machine.execDieJoin d s
  | .dieFence d => Sys2Proof.Machine.execDieFence d s
  | .fenceDrained => Sys2Proof.Machine.execFenceDrained s
  | .nightfoldProgram d => Sys2Proof.Machine.execNightfoldProgram d s
  | .nightfoldEnter d => Sys2Proof.Machine.execNightfoldEnter d s
  | .hurdleLogLoad d => Sys2Proof.Machine.execHurdleLogLoad d s
  | .hurdleLogRead d => Sys2Proof.Machine.execHurdleLogRead d s
  | .oppointSet d => Sys2Proof.Machine.execOppointSet d s
  | .censusConfig d => Sys2Proof.Machine.execCensusConfig d s
  | .deadlineSet d => Sys2Proof.Machine.execDeadlineSet d s
  | .factoryUnlock d => Sys2Proof.Machine.execFactoryUnlock d s
  | .injectFault d => Sys2Proof.Machine.execInjectFault d s
  | .bellReport d => Sys2Proof.Machine.execBellReport d s
  | .stormEntryRetire d => Sys2Proof.Machine.execStormEntryRetire d s
  | .bellClear w d v => Sys2Proof.Machine.execBellClear w d v s
  | .testmodeFall d => Sys2Proof.Machine.execTestmodeFall d s
  | .pswAck d dom level => Sys2Proof.Machine.execPswAck d dom level s
  | .pswAckTimeout d dom => Sys2Proof.Machine.execPswAckTimeout d dom s
  | .foldDrainComplete d p => Sys2Proof.Machine.execFoldDrainComplete d p s
  | .wakeComplete d p => Sys2Proof.Machine.execWakeComplete d p s
  | .avsbusAck d rail => Sys2Proof.Machine.execAvsbusAck d rail s
  | .avsbusRetry d rail => Sys2Proof.Machine.execAvsbusRetry d rail s
  | .hclkOpack d pt => Sys2Proof.Machine.execHclkOpack d pt s
  | .oppointSwitch => Sys2Proof.Machine.execOppointSwitch s
  | .n1 => Sys2Proof.Machine.execN1 s
  | .n2 => Sys2Proof.Machine.execN2 s
  | .n3 => Sys2Proof.Machine.execN3 s
  | .n4 => Sys2Proof.Machine.execN4 s
  | .ebbWake w d v => Sys2Proof.Machine.execEbbWake w d v s
  | .ebbAlarm d => Sys2Proof.Machine.execEbbAlarm d s
  | .sentinelSample d bad => Sys2Proof.Machine.execSentinelSample d bad s
  | .autowakeTimeout d => Sys2Proof.Machine.execAutowakeTimeout d s
  | .lclkAbsent d => Sys2Proof.Machine.execLclkAbsent d s
  | .censusPeriodBoundary d => Sys2Proof.Machine.execCensusPeriodBoundary d s
  | .censusClr w d p v => Sys2Proof.Machine.execCensusClr w d p v s
  | .censusCtrLo w addr => Sys2Proof.Machine.execCensusCtrLo w addr s
  | .tideNowLo w => Sys2Proof.Machine.execTideNowLo w s
  | .replicatedRegisterWrite w addr v => Sys2Proof.Machine.execReplicatedRegisterWrite w addr v s
  | .registerWrite w addr v => Sys2Proof.Machine.execRegisterWrite w addr v s
  | .registerRead w addr => Sys2Proof.Machine.execRegisterRead w addr s
  | .configurationRequest off write tag => Sys2Proof.Machine.execConfigurationRequest off write tag s
  | .completionTimeout q tag => Sys2Proof.Machine.execCompletionTimeout q tag s
  | .tetherPerstRelease => Sys2Proof.Machine.execTetherPerstRelease s
  | .linkUp rate width flit => Sys2Proof.Machine.execLinkUp rate width flit s
  | .lclkTick => Sys2Proof.Machine.execLclkTick s

end Sys2Proof.Machine
end

