-- ==== Sys2Proof/Safety.lean ====
section
/-!
DEFINITION. The words in which the statements are said: what a safe run keeps (Tide in its interval), what changes one paddock
alone, when an access is granted, what a fold, a port, the Tether or the Shepherd is ready for, and the states that answers
and register accesses leave.
-/

namespace Sys2Proof.Machine

/-- Tide of a paddock lies in the interval of its tick: at most 999 ns past the value that the last LCLK tick set, 1,000k
after tick k (11 R284). -/
abbrev Paddock.TideOk (q : Paddock) : Prop :=
  1000 * q.aon.ticks * 2 ^ 24 ≤ q.aon.tideFx ∧ q.aon.tideFx ≤ q.aon.tideBound

/-- Tide of every paddock lies in the interval of its tick. -/
abbrev State.TideOk (s : State) : Prop := ∀ d, (s.pad d).TideOk

/-- Paddock `q` has the time of `p`: Tide, its LCLK ticks and its HCLK cycles. -/
abbrev Paddock.SameTime (p q : Paddock) : Prop :=
  q.aon.tideFx = p.aon.tideFx ∧ q.aon.ticks = p.aon.ticks ∧ q.aon.hcycle = p.aon.hcycle

/-- `t` differs from `s` in paddock `d` at most. -/
structure State.OnlyPad (s t : State) (d : Die) : Prop where
  krovol : t.krovol = s.krovol
  tether : t.tether = s.tether
  fresh : t.fresh = s.fresh
  pending : t.pending = s.pending
  others : ∀ x, x ≠ d → t.pad x = s.pad x

/-- Neither reset of the paddock is asserted (19 R494, R495). -/
abbrev Paddock.Released (q : Paddock) : Prop := q.boot.poreset = false ∧ q.boot.padreset = false

/-- Ebb with no domain on and no switch under way, as a reset leaves it. -/
abbrev Ebb.Dark (e : Ebb) : Prop := e.pswAck = 0 ∧ e.pswReq = 0 ∧ e.switching = []

/-- The domains of a paddock in the order in which they come up after a reset, with the tick at which they were asked
for, and PSW_REQ of the first, SH, raised. -/
def Ebb.rising (e : Ebb) (tick : Nat) : Ebb :=
  { e with pswReq := putBit 0 domSH.val true
           switching := bootDomains.map fun i => { dom := i, on := true, tick := tick } }

/-- Start-up right after a release of reset: step 3, with the straps that were sampled. -/
def Boot.sampled (b : Boot) (bootMode testMode romOk : Bool) : Boot :=
  { poreset := false, padreset := false, step := 3, bootMode := bootMode, testmode := testMode, romOk := romOk
    frozen := b.frozen }

/-- No module of a neighbour that faces die d is up. -/
abbrev State.Unlinked (s : State) (d : Die) : Prop :=
  ∀ e x, neighbour d e = some x → ∀ m ∈ s.krovol.modsOn x (facing e), ((s.pad x).conf.mod[m]).state ≠ .up

/-- The failure of the step in progress: counted, and the step waits (15 R424). -/
def Paddock.failed (q : Paddock) : Paddock :=
  { q with
    boot := { q.boot with backoff := true, failTick := q.aon.ticks, fuseReq := false }
    ebb := { q.ebb with hclkReq := q.ebb.hclkReq && q.boot.step != 7 }
    aon := { q.aon with
      stepFails := vset q.aon.stepFails q.boot.step.toFin (q.aon.stepFails[q.boot.step.toFin] + 1), lastStep := q.boot.step
      bootAttempts := if q.aon.bootAttempts = 0xFFFFFF then 0xFFFFFF else q.aon.bootAttempts + 1 } }

/-- An access of a register port is granted: the port is free, and the address resolves to a register that is laid out,
present, awake, and open to the access (18 R474, R477, R478). -/
structure State.Granted (s : State) (w : Who) (a : RegAddr) (t : Target) (write : Bool) : Prop where
  released : (s.pad w.via).boot.poreset = false
  free : (s.pad w.via).rp.busy = false
  target : s.target w.via a = t
  strobe : write = true → w.strb = 15
  aligned : a.toNat % 4 = 0
  laid : s.krovol.laid t.block t.off = true
  permitted : (s.pad t.srv).repl.permits (t.block.priv t.off) write w.dom = true
  present : t.absent = false
  awake : s.asleep { w with bar0 := false } t = none

/-- A register port answers OKAY with data. -/
def State.okay (s : State) (via : Die) (data : Word) : State :=
  s.modPad via fun q => { q with rp := { rdata := data, resp := respOkay, ack := true } }

/-- A module of an edge of die d whose paddock's HCLK runs. -/
abbrev State.ModuleOn (s : State) (d : Die) (m : ModN) (e : Edge) : Prop :=
  (s.pad d).running = true ∧ (s.krovol.modEdge[d])[m] = some e

/-- The wait before attempt a + 1, in LCLK ticks, where a attempts have failed (10 R263, 15 R424). -/
def attemptWait (a : Nat) : Nat := 1000 * min (2 ^ (a - 1)) 1000

/-- A report of a paddock's Confluence and Stream segment about an agent, with no address. -/
def State.segReport (s : State) (d : Die) (code : BitVec 12) (subject : AgentId) (detail : Nat) : Report :=
  { code := code, reporter := streamAgent d, subject := subject, atype := 0x3F, t := (s.pad d).now
    detail := BitVec.ofNat 16 detail }

/-- What the next Confluence flit of an edge carries: up to two ring flits of each network, oldest first (10 R260). -/
def EdgeStat.nextSlots (e : EdgeStat) : List (Net × CrossItem) :=
  [Net.req, Net.snp, Net.rsp, Net.dat].flatMap fun n => (e.buf[netNo n].take 2).map fun c => (n, c)

/-- The dam of a network stands, given how many ring flits its crossing buffer holds and whether it stood (10 R262). -/
def damAfter (k : Nat) (stood : Bool) : Bool := decide (32 ≤ k) || (decide (16 < k) && stood)

/-- A report with this code is in the inbox of the paddock's Bell, and was not before. -/
abbrev Paddock.Filed (p q : Paddock) (r : Report) : Prop := q.bell.inbox = p.bell.inbox ++ [r]

/-- A flit stands at a spot of the Stream for an agent here, its header sound (09 R240). -/
abbrev State.Stands (s : State) (d : Die) (net : Net) (a : Spot) (f : Flit) : Prop := s.arrived d net a true = .flit f

/-- The paddock with the flit at a spot taken off the Stream. -/
def Paddock.took (q : Paddock) (net : Net) (a : Spot) : Paddock := { q with stream := q.stream.take net a }

/-- The paddock with the flit at a spot passing on as `f`. -/
def Paddock.passed (q : Paddock) (net : Net) (a : Spot) (f : Flit) : Paddock := { q with stream := q.stream.pass net a f }

/-- A port, and the gates and folds that a Stream event of another unit leaves alone. -/
structure Paddock.SameUnits (p q : Paddock) : Prop where
  aon : q.aon = p.aon
  repl : q.repl = p.repl
  boot : q.boot = p.boot
  folds : q.folds = p.folds
  gates : q.gates = p.gates
  stiles : q.stiles = p.stiles
  shep : q.shep = p.shep

/-- A fold that holds nothing but one pen item: no line, no record, no open transaction (12 R321). -/
structure Fold.Bare (f : Fold) (it : PenItem) : Prop where
  pens : f.pens = [it]
  awake : f.drain = false ∧ f.ftHalt = false ∧ f.ttStop = false ∧ f.ttHead.same = true ∧ f.ttTail.same = true
  idle : f.tt = [] ∧ f.mrs = [] ∧ f.eddy = [] ∧ f.memQ = [] ∧ f.mpOpen = [] ∧ f.emReserved = [] ∧
    f.fixes = [] ∧ f.unblocked = []
  records : f.tally = [] ∧ f.unsure = [] ∧ f.shadow = [] ∧ f.em = [] ∧ f.emSuspect = [] ∧ f.emDropped = 0 ∧ f.pred = []
  pool : f.poolTag = [] ∧ f.poolData = [] ∧ f.poolSet = [] ∧ f.poolLost = []
  free : it.shadowHold = false

/-- A physical fold that carries a logical fold and is clocked, and holds nothing but a request of ordinary memory that is
well formed, its data there. -/
structure State.Serves (s : State) (d : Die) (p : PFold) (it : PenItem) : Prop where
  runs : (s.pad d).foldRuns p = true
  carries : ((s.pad d).repl.carries d p).isSome = true
  bare : ((s.pad d).folds[p]).Bare it
  wellFormed : it.flit.bad = false
  due : it.notBefore ≤ (s.pad d).aon.hcycle ∧ ((s.pad d).folds[p]).shadowFrom ≤ (s.pad d).aon.hcycle ∧
    ((s.pad d).folds[p]).pullFrom ≤ (s.pad d).aon.hcycle
  queues : (s.pad d).outHeld p = false
  ordinary : (s.pad d).repl.mpSlot it.flit.addr = none
  way : (s.fc d p).namesWay it.flit = true → it.flit.vway.toNat < s.krovol.ways
  data : it.flit.op.carriesData = true → (((s.pad d).folds[p]).datOf it.flit).isSome = true

/-- The item that a fold sends a flit with; one for a fenced ford stays with the fold (09 R250). -/
def State.foldSends (s : State) (d : Die) (p : PFold) (net : Net) (cls : Cls) (f : Flit) : InjItem :=
  { net := net, pos := fordOfFold p, agent := (s.fc d p).agent, cls := cls, flit := f
    since := (s.pad d).aon.hcycle, held := bitAt (s.pad d).ebb.fenceReq (fordOfFold p) }

/-- The item that a fold sends an answer with. -/
def State.foldAnswer (s : State) (d : Die) (p : PFold) (f : ReqFlit) (r : RspFlit) : InjItem :=
  s.foldSends d p .rsp f.cls (.rsp r)

/-- A Comp of a fold. -/
def State.compOf (s : State) (d : Die) (p : PFold) (f : ReqFlit) (grant : CacheState) (data : Bool) (idx : TTIdx) : RspFlit :=
  { op := .comp, src := (s.fc d p).agent, tgt := f.src, txid := f.txid, aux := BitVec.ofNat 12 idx.val, state := grant
    data := data, ackreq := grant != .i }

/-- A register port answers an access (18 R478, 19 R502). -/
def State.portReply (s : State) (via : Die) (resp : BitVec 2) (data : Word) : State :=
  s.modPad via fun q => { q with rp := { rdata := data, resp := resp, ack := true } }

/-- An access that waits keeps its register port busy, RP_ACK low (15 R399, 18 R477). -/
def State.portWaits (s : State) (via : Die) : State :=
  s.modPad via fun q => { q with rp := { q.rp with ack := false, busy := true } }

/-- A granted read of a register returns a value and changes nothing. -/
def State.ReadsAs (s : State) (w : Who) (a : RegAddr) (t : Target) (v : Word) : Prop :=
  s.Granted w a t false → exec (.registerRead w a) s = .next (s.okay w.via v)

/-- A granted command that is a write of a register completes with the state `u`. -/
def State.WritesAs (s : State) (w : Who) (c : Instr) (a : RegAddr) (t : Target) (u : State) : Prop :=
  s.Granted w a t true → exec c s = .next (u.okay w.via 0)

/-- Every paddock keeps its folds, Gates, Stiles, Stream, links and Bell. -/
def State.SameUnits (s t : State) : Prop :=
  ∀ x, (t.pad x).folds = (s.pad x).folds ∧ (t.pad x).gates = (s.pad x).gates ∧ (t.pad x).stiles = (s.pad x).stiles ∧
    (t.pad x).stream = (s.pad x).stream ∧ (t.pad x).conf = (s.pad x).conf ∧ (t.pad x).bell = (s.pad x).bell

/-- A fold here is clocked and stands at the position of a spot. -/
abbrev State.FoldAt (s : State) (d : Die) (a : Spot) (p : PFold) : Prop :=
  posFold (spotPos a) = some p ∧ ((s.pad d).ebb.fold[p]).gated = false

/-- An entry that waits for snoop answers and for its data, and can do nothing else. -/
structure TTEntry.AwaitsAnswers (e : TTEntry) : Prop where
  phase : e.phase = .snoop
  plain : e.devOut = false ∧ e.isBinv = false ∧ e.riding = false
  memory : e.ms = .waiting
  way : e.wayNeed = .none

/-- A report of a fold about itself. -/
def State.foldReport (s : State) (d : Die) (p : PFold) (code : BitVec 12) (addr : Addr) (atype : BitVec 6) : Report :=
  { code := code, reporter := (s.fc d p).agent, subject := (s.fc d p).agent, addr := some addr, atype := atype
    t := (s.pad d).now, detail := BitVec.ofNat 16 p.val, fromFold := some (d, p) }

/-- A Gate or Stile whose combining buffer, reorder buffer, barriers, waiting stores and early data are empty. -/
abbrev AgentPort.Quiet (a : AgentPort) : Prop := a.cb = [] ∧ a.rob = [] ∧ a.bars = [] ∧ a.stores = [] ∧ a.dataIn = []

/-- A configured Gate or Stile of a paddock that runs, with its state. -/
abbrev State.AgentIs (s : State) (d : Die) (n : AgentN) (a : AgentPort) : Prop :=
  s.agentLive d n = true ∧ (s.pad d).agent n = a

/-- The state with the port of a Gate or Stile changed. -/
def State.withAgent (s : State) (d : Die) (n : AgentN) (a : AgentPort) : State := s.modAgent d n fun _ => a

/-- The item that a Gate or Stile sends a flit with. -/
def State.agentSends (s : State) (d : Die) (n : AgentN) (net : Net) (cls : Cls) (f : Flit) : InjItem :=
  let k := fordOfLocal (localOf (portAgent d n))
  { net := net, pos := k, agent := portAgent d n, cls := cls, flit := f, since := (s.pad d).aon.hcycle
    held := bitAt (s.pad d).ebb.fenceReq k }

/-- The state with flits of a paddock handed to its fords. -/
def State.sends (s : State) (d : Die) (l : List InjItem) : State :=
  s.modPad d fun q => q.offer l

/-- What a port stamps on a request for a coherent or NORMAL-NC address: its home, its class and its deadline (01 R28, 11
R287, R292). -/
structure Txn.Stamped (t : Txn) (r : Repl) (now : Nat) (op : ReqOp) (src : AgentId) (x : Addr) : Prop where
  op : t.flit.op = op
  src : t.flit.src = src
  tgt : t.flit.tgt = r.home x
  addr : t.flit.addr = x
  cls : t.flit.cls = (r.attrOf x).cls
  stamp : t.stamp = now
  deadline : t.deadline = now + r.deadline[(r.attrOf x).cls]
  abandon : t.abandon = now + min (16 * r.deadline[(r.attrOf x).cls]) 1000000
  dl : t.flit.dl = BitVec.ofNat 16 (t.deadline / 16)
  waits : t.phase = .waiting

/-- The Shepherd's request for a line with a TXID, admitted, as its port's only transaction. -/
abbrev Shep.Asks (x : Shep) (t : Txn) : Prop := x.port.txns = [t] ∧ t.credit = false

/-- A report of a fold about itself that names no address. -/
def State.foldNote (s : State) (d : Die) (p : PFold) (code : BitVec 12) : Report :=
  { code := code, reporter := (s.fc d p).agent, subject := (s.fc d p).agent, atype := 0x3E, t := (s.pad d).now
    detail := BitVec.ofNat 16 p.val, fromFold := some (d, p) }

/-- The set of a miss register's line, once it is checked, has lost dirty data (06 R159). -/
def FC.setLost (c : FC) (m : MissReg) : Bool :=
  (if m.wpolicy == 2 then c else c.poolCheck (poolSet m.line)).isLost m.line m.wpolicy

/-- A fold of a running paddock that is clocked and in RUN. -/
abbrev State.Clocked (s : State) (d : Die) (p : PFold) : Prop :=
  (s.pad d).foldRuns p = true ∧ (s.power d p).state = .run

/-- Every paddock keeps its folds, ports, Stream, links and registers, and the Range its parameters, its Tether and its
queue. -/
structure State.KeepsTraffic (s t : State) : Prop where
  krovol : t.krovol = s.krovol
  tether : t.tether = s.tether
  pending : t.pending = s.pending
  pads : ∀ x, (t.pad x).folds = (s.pad x).folds ∧ (t.pad x).gates = (s.pad x).gates ∧
    (t.pad x).stiles = (s.pad x).stiles ∧ (t.pad x).stream = (s.pad x).stream ∧ (t.pad x).conf = (s.pad x).conf ∧
    (t.pad x).repl = (s.pad x).repl

/-- A record of the store with one more reporter in its summary (13 R347). -/
def BellRec.with' (x : BellRec) (a : AgentId) : BellRec :=
  let kind : Nat := if localOf a < 4 then 0 else if 8 ≤ localOf a ∧ localOf a < 32 then 1
    else if 64 ≤ localOf a ∧ localOf a ≤ 68 then 2 else 3
  { x with
    dies := putBit x.dies (dieOf a).val true, lo := min x.lo (localOf a), hi := max x.hi (localOf a)
    kinds := putBit x.kinds kind true }

/-- The paddock has finished start-up and is in no Nightfold phase. -/
abbrev Paddock.Settled (q : Paddock) : Prop := q.boot.step = 10 ∧ q.ebb.nf = .idle

/-- NIGHTFOLD_ENTER is in progress in the Range of `lead` and in no other, and every member is in a phase. -/
abbrev State.NightAt (s : State) (lead : Die) (o : Deferred) (ph : NfPhase) : Prop :=
  lead ∈ s.leaders ∧ (∀ l ∈ s.leaders, l ≠ lead → s.nfOp l = none) ∧ s.nfOp lead = some o ∧
    ∀ x ∈ s.members lead, (s.pad x).ebb.nf = ph

/-- Every member has a phase. -/
abbrev State.NowIn (s t : State) (lead : Die) (ph : NfPhase) : Prop := ∀ x ∈ s.members lead, (t.pad x).ebb.nf = ph

/-- What a wake of the package does to a paddock's Nightfold phase (14 R379, R380). -/
def NfPhase.waked (ph : NfPhase) : NfPhase :=
  match ph with
  | .inside _ => .exit1
  | x => x

/-- The Tether works at its die: powered and clocked, its link up, PERST# released. -/
abbrev State.TetherUp (s : State) (d : Die) : Prop :=
  s.tetherDie = some d ∧ s.tether.linkUp = true ∧ s.tether.perst = false

/-- No FLR is in progress, and the package is not entering Nightfold. -/
abbrev Tether.Takes (t : Tether) : Prop := t.noTlp = false ∧ t.flr = none

/-- A memory TLP is decoded: Memory Space Enable set, and power state D0 (16 R434). -/
abbrev Tether.Decodes (t : Tether) : Prop := t.Takes ∧ t.mse = true ∧ t.d3 = false

/-- The state with TLPs sent to the host (16 R446: the link is then in L0). -/
def State.sentToHost (s : State) (d : Die) (l : List TlpOut) : State :=
  { s with tether := { s.tether with out := s.tether.out ++ l, idleSince := (s.pad d).now, lpm := 0 } }

/-- A report of the Tether about itself (13 R344, 16 R450). -/
def State.tetherReport (s : State) (d : Die) (code : BitVec 12) (detail : Nat) : Report :=
  { code := code, reporter := agent d 120, subject := agent d 120, atype := 0x3F, t := (s.pad d).now
    detail := BitVec.ofNat 16 detail }

/-- The bytes of a word as a completion carries them, lowest first. -/
def bytesOfWord (w : Word) : List Byte := [w.extractLsb' 0 8, w.extractLsb' 8 8, w.extractLsb' 16 8, w.extractLsb' 24 8]

/-- A host ring may issue a read at the host under tag g (16 R442). -/
structure State.RingReady (s : State) (d : Die) (q : QN) (g : BitVec 10) : Prop where
  up : s.TetherUp d
  takes : s.tether.Takes
  on : s.tether.bme = true ∧ s.tether.quiescing = false ∧ s.tether.d3 = false
  mode : ((s.pad (s.queueDie d)).shep.cq[q]).ringMode = true
  sound : (s.tether.ring[q]).fault = false
  tag : s.tether.freeTag = some g

/-- The four conditions of MSI-X for a vector (16 R445): enabled, neither mask set, and upstream writes allowed. -/
abbrev Tether.VectorOpen (t : Tether) (v : QN) : Prop :=
  t.msixEn = true ∧ t.msixMask = false ∧ (t.msix[v]).masked = false ∧ t.bme = true ∧ t.quiescing = false ∧ t.d3 = false ∧ t.Takes

/-- A packet of an opcode is the only one that the Shepherd has taken; its reply queue is empty and it is not QUIET. -/
structure State.Ran (s : State) (d : Die) (opc : BitVec 8) (k : Taken) : Prop where
  runs : (s.pad d).shepRuns = true
  taken : (s.pad d).shep.taken = [k]
  opcode : k.opc = opc
  loud : k.quiet = false
  empty : ((s.pad d).shep.rq[k.q]).replies = [] ∧ ((s.pad d).shep.rq[k.q]).current = [] ∧ ((s.pad d).shep.rq[k.q]).held = []
  pointers : ((s.pad d).shep.rq[k.q]).same = true

/-- A reply queue holds nothing, its pointers sound. -/
abbrev ReplyQueue.Empty (y : ReplyQueue) : Prop := y.replies = [] ∧ y.current = [] ∧ y.held = [] ∧ y.same = true

/-- The state in which a taken packet is answered and no more is taken (15 R401, R411). -/
def State.replies (s : State) (d : Die) (k : Taken) (st : Status) (data : List Word) : State :=
  let words : List Word := BitVec.ofNat 32 (k.opc.toNat + (data.length + 1) * 2 ^ 8 + k.tag.toNat * 2 ^ 14
      + k.pri.toNat * 2 ^ 24 + bit (st != .deferred) * 2 ^ 26) :: BitVec.ofNat 32 (st.code + k.seq.toNat * 2 ^ 8) :: data
  s.modPad d fun q => { q with shep := { q.shep with
    taken := [], wdogTick := q.aon.ticks
    cq := vmod q.shep.cq k.q fun x => { x with busyFirst := false }
    rq := vmod q.shep.rq k.q fun x => { x with
      replies := [{ pri := k.pri, words := words }], tail := x.tail.add words.length } } }

/-- The state in which a taken packet is answered DEFERRED and its command goes on (15 R401, R417). -/
def State.defers (s : State) (d : Die) (k : Taken) (kind : DefKind) : State :=
  (s.modPad d fun q => { q with shep := { q.shep with
    nextId := q.shep.nextId + 1, deferred := q.shep.deferred ++ [{ id := q.shep.nextId, pkt := k, kind := kind }] } }).replies d
      k .deferred []

/-- Every member's replicated registers changed by `f`. -/
def State.ReplOf (s t : State) (d : Die) (f : Repl → Repl) : Prop :=
  ∀ x, (t.pad x).repl = if x ∈ s.members d then f (s.pad x).repl else (s.pad x).repl

/-- A command of the leader is answered with a status, and nothing outside its Shepherd changes. -/
def State.Answers (s : State) (c : Instr) (d : Die) (k : Taken) (st : Status) : Prop := exec c s = .next (s.replies d k st [])

/-- No deferred command is in progress at a die's Shepherd. -/
abbrev State.Idle (s : State) (d : Die) : Prop := (s.pad d).shep.deferred = []

/-- Every member's replicated registers changed by `f`, and nothing else. -/
def State.OnlyRepl (s t : State) (d : Die) (f : Repl → Repl) : Prop :=
  t.krovol = s.krovol ∧ t.tether = s.tether ∧ t.fresh = s.fresh ∧ t.pending = s.pending ∧
    ∀ x, t.pad x = if x ∈ s.members d then { s.pad x with repl := f (s.pad x).repl } else s.pad x

end Sys2Proof.Machine
end

