-- ==== Sys2Proof/Certificates/Slice0/Obligations.lean ====
section
/-!
DEFINITION. The statements for the provers. Each says what one or several commands do, for every state and operands that
meet its hypotheses, with what they leave unchanged; the rules of the spec are cited as <section> R<n>.
-/

open Sys2Proof Sys2Proof.Machine

/-- A step takes the command at the front of the queue and runs it with the rest of the queue. -/
def Obligations.StepRunsFront : Prop :=
  ∀ (s : State) (c : Instr) (rest : List Instr),
    step { s with pending := c :: rest } = exec c { s with pending := rest }

/-- On an empty queue one HCLK cycle passes in every paddock whose HCLK runs (the model's choice: log entry 1): its cycle
count rises by one and its Tide advances by one period of its operating point, up to the bound of its LCLK tick (11
R284); no other paddock's time moves. -/
def Obligations.IdleStepIsOneCycle : Prop :=
  ∀ s : State, s.pending = [] →
    ∃ t, step s = .next t ∧ t.pending = [] ∧ t.krovol = s.krovol ∧ ∀ d,
      ((s.pad d).running = true →
        (t.pad d).aon.hcycle = (s.pad d).aon.hcycle + 1 ∧
        (t.pad d).aon.ticks = (s.pad d).aon.ticks ∧
        (t.pad d).aon.tideFx = max (s.pad d).aon.tideFx
          (min ((s.pad d).aon.tideFx + Config.period (s.pad d).ebb.point) (s.pad d).aon.tideBound)) ∧
      ((s.pad d).running = false → (s.pad d).SameTime (t.pad d))

/-- At reset Tide of every paddock lies in the interval of its tick. -/
def Obligations.ResetTideInInterval : Prop := State.reset.TideOk

/-- Every step keeps Tide of every paddock in the interval of its LCLK tick: after tick k, from 1,000k to 1,000k + 999 ns
(11 R284). -/
def Obligations.StepKeepsTideInInterval : Prop :=
  ∀ s t : State, s.TideOk → step s = .next t → t.TideOk

/-- Tide never goes backwards but at PORESET_N (11 R283): whatever command is at the front, and in an idle step. -/
def Obligations.TideNeverGoesBack : Prop :=
  ∀ s t : State, s.pending.head? ≠ some .poresetAssert → step s = .next t →
    ∀ d, (s.pad d).aon.tideFx ≤ (t.pad d).aon.tideFx ∧ (s.pad d).aon.ticks ≤ (t.pad d).aon.ticks

/-- Every command completes, whatever its operands and in every state: the model's choice where the spec has no such event
(log entries 4 and 74: an event that cannot happen answers next). None changes the hardened parameters (01 R16) or the
waiting commands, and none but LCLK_TICK and PORESET_N_ASSERT moves the time of a paddock (11 R283, R284). -/
def Obligations.CommandsKeepParametersQueueAndTime : Prop :=
  ∀ (c : Instr) (s : State),
    ∃ t, exec c s = .next t ∧ t.krovol = s.krovol ∧ t.pending = s.pending ∧
      (c ≠ .lclkTick → c ≠ .poresetAssert → ∀ d, (s.pad d).SameTime (t.pad d))

/-- The home of an address: in local mode the region's HOME_DIE; in interleave mode the die table's entry h, the XOR of
a[17:12], a[23:18], a[29:24] and a[31:30] (01 R17, R18); on that die the logical fold a[7:6] XOR a[9:8] XOR a[11:10]
XOR a[17:16], package-wide die × 4 + fold, the same in both modes (01 R22). -/
def Obligations.HomeOfAnAddress : Prop :=
  ∀ (r : Repl) (a : Addr),
    let h : BitVec 6 := a.extractLsb' 12 6 ^^^ a.extractLsb' 18 6 ^^^ a.extractLsb' 24 6 ^^^ (a.extractLsb' 30 2).setWidth 6
    let f : BitVec 2 := a.extractLsb' 6 2 ^^^ a.extractLsb' 8 2 ^^^ a.extractLsb' 10 2 ^^^ a.extractLsb' 16 2
    ((r.attrOf a).local' = true → r.homeDie a = (r.attrOf a).homeDie) ∧
    ((r.attrOf a).local' = false → r.homeDie a = r.dietab[Fin.ofNat 64 h.toNat]) ∧
    dieOf (r.home a) = r.homeDie a ∧ (lfoldOf (r.home a)).val = f.toNat ∧
    (pkgFold (r.home a)).val = (r.homeDie a).val * 4 + f.toNat

/-- PORESET_N returns every paddock to its reset values; PADRESET_N resets one paddock but keeps its always-on island and
Tide (19 R494, R495). Shown for a paddock that holds no access open and whose neighbours have no link to it up. A
release samples the straps, passes steps 1 and 2, starts step 3 and raises PSW_REQ of SH alone; PADRESET_N's release
sets its cause bit, and a TESTMODE sampled low ends UNLOCKED (13 R358); dies that are not under the reset do not
change (15 R423, 19 R495 to R498). The model's choices: PADRESET_N clears the die's READY_DIES bit in every copy (log
entry 53), the order in which the twelve domains rise (24), what PADRESET_N keeps (25), and one PORESET_N for all dies
(63). -/
def Obligations.ResetsAndReleases : Prop :=
  ((∀ s : State, ∃ t, exec .poresetAssert s = .next t ∧ t.krovol = s.krovol ∧ t.pending = s.pending ∧
       t.tether.perst = s.tether.perst ∧ t.tether.linkUp = false ∧ ∀ d, t.pad d = Paddock.reset s.krovol) ∧
   ∀ (s : State) (d : Die), (s.pad d).Released → s.Unlinked d → s.krovol.tether ≠ some d →
     (s.pad d).ebb.autoAcc = [] → (∀ q : QN, ((s.pad d).shep.cq[q]).stalled = []) →
     ∃ t, exec (.padresetAssert d) s = .next t ∧
       t.krovol = s.krovol ∧ t.tether = s.tether ∧ t.fresh = s.fresh ∧ t.pending = s.pending ∧
       (t.pad d).boot.padreset = true ∧ (t.pad d).boot.step = 1 ∧ (t.pad d).aon = (s.pad d).aon ∧
       (t.pad d).ebb = {} ∧ (t.pad d).gates = (Paddock.reset s.krovol).gates ∧
       (t.pad d).stiles = (Paddock.reset s.krovol).stiles ∧ (t.pad d).shep = (Paddock.reset s.krovol).shep ∧
       (t.pad d).repl = { (s.pad d).repl with readyDies := putBit (s.pad d).repl.readyDies d.val false } ∧
       (∀ p : PFold, ((t.pad d).folds[p]).tt = [] ∧ ((t.pad d).folds[p]).poolTag = [] ∧ ((t.pad d).folds[p]).tally = []) ∧
       ∀ x, x ≠ d → t.pad x = { s.pad x with
         conf := { (s.pad x).conf with fenced := putBit (s.pad x).conf.fenced d.val false }
         repl := { (s.pad x).repl with readyDies := putBit (s.pad x).repl.readyDies d.val false } }) ∧
  ((∀ (s : State) (bootMode testMode romOk : BitVec 8),
     ∃ t, exec (.poresetRelease bootMode testMode romOk) s = .next t ∧
       t.krovol = s.krovol ∧ t.tether = s.tether ∧ t.fresh = s.fresh ∧ t.pending = s.pending ∧ ∀ d,
       ((s.pad d).boot.poreset = true → (s.pad d).ebb.Dark →
         t.pad d = { s.pad d with
           boot := (s.pad d).boot.sampled (bitAt bootMode d.val) (bitAt testMode d.val) (bitAt romOk d.val)
           ebb := (s.pad d).ebb.rising (s.pad d).aon.ticks }) ∧
       ((s.pad d).boot.poreset = false → t.pad d = s.pad d)) ∧
   ∀ (s : State) (d : Die) (bootMode testMode romOk : Bool),
     (s.pad d).boot.padreset = true → (s.pad d).boot.poreset = false → (s.pad d).ebb.Dark →
     exec (.padresetRelease d bootMode testMode romOk) s = .next (s.modPad d fun q => { q with
       boot := q.boot.sampled bootMode testMode romOk
       ebb := q.ebb.rising q.aon.ticks
       aon := { q.aon with rstPad := true }
       bell := { q.bell with unlocked := q.bell.unlocked && testMode } }))

/-- A step of start-up that fails is counted and waits (15 R424): the fuse source silent for 1,000 LCLK ticks (step 4, 19
R499; for the fall of FUSE_ACK too, log entry 97), HCLK_ACK not high within 200 (step 7, which lowers HCLK_REQ), a
checker outside the folds that misreads a vector (step 5; the first failure is reported as 0xA02 before it counts, a
later one counts alone, 12 R314, R315). Before the limit is reached nothing changes. STARTUP_RETRY (15
R424): attempt a + 1 of a step begins min(2^(a-1), 1,000) ms after attempt a failed, and not earlier. Step 4 asks for
fuse word 0 again, step 7 raises HCLK_REQ again. -/
def Obligations.StartupFailsAndRetries : Prop :=
  (∀ (s : State) (d : Die),
     ((s.pad d).boot.fuseReq = true ∨ (s.pad d).boot.fuseAck = true → (s.pad d).boot.step = 4 → (s.pad d).boot.backoff = false →
       exec (.fuseTimeout d) s = .next (if (s.pad d).boot.fuseTick + 1000 ≤ (s.pad d).aon.ticks
         then s.modPad d Paddock.failed else s)) ∧
     ((s.pad d).boot.step = 7 → (s.pad d).boot.backoff = false → (s.pad d).ebb.hclkReq = true →
       (s.pad d).ebb.hclkAck = false →
       exec (.hclkAckTimeout d) s = .next (if (s.pad d).ebb.hclkTick + 200 ≤ (s.pad d).aon.ticks
         then s.modPad d Paddock.failed else s)) ∧
     ∀ answers, firstBadChecker answers ≠ none → (s.pad d).boot.step = 5 → (s.pad d).boot.backoff = false → (s.pad d).Released →
       (s.pad d).domOn domSD = true → bitAt (s.pad d).boot.selfTested 5 = false →
       ((s.pad d).boot.a02Filed = true → exec (.checkerSelfTest d .paddock answers) s = .next (s.modPad d Paddock.failed)) ∧
       ((s.pad d).boot.a02Filed = false → ∃ t, exec (.checkerSelfTest d .paddock answers) s = .next t ∧ s.OnlyPad t d ∧
         (s.pad d).Filed (t.pad d) { s.segReport d 0xA02 (streamAgent d) 0 with atype := 0x3E } ∧
         (t.pad d).boot = { (s.pad d).failed.boot with a02Filed := true } ∧ (t.pad d).aon = (s.pad d).failed.aon)) ∧
  (∀ (s : State) (d : Die) (romOk : Bool), (s.pad d).Released → (s.pad d).boot.backoff = true →
     ((s.pad d).aon.ticks < (s.pad d).boot.failTick + 1000 * min (2 ^ ((s.pad d).stepFails - 1)) 1000 →
       exec (.startupRetry d romOk) s = .next s) ∧
     ((s.pad d).boot.failTick + 1000 * min (2 ^ ((s.pad d).stepFails - 1)) 1000 ≤ (s.pad d).aon.ticks →
       ((s.pad d).boot.step = 4 → exec (.startupRetry d romOk) s = .next (s.modPad d fun q => { q with
         boot := { q.boot with backoff := false, romOk := romOk, fuseWords := [], fuseReq := true, fuseAddr := 0
                               fuseTick := q.aon.ticks } })) ∧
       ((s.pad d).boot.step = 7 → exec (.startupRetry d romOk) s = .next (s.modPad d fun q => { q with
         boot := { q.boot with backoff := false, romOk := romOk }
         ebb := { q.ebb with hclkReq := true, hclkOp := q.ebb.point, hclkTick := q.aon.ticks } }))))

/-- Steps 4 to 6 pass: FUSE_ACK rises, the fuse word is kept and FUSE_REQ falls; FUSE_ACK falls and the next word is
asked for (19 R499, R500; the row stands for both edges, log entry 97); a fold whose checkers read every vector right
passes (12 R313, R314), and its arrays take their reset values, a Millpond line that of 06 R144 (12 R321, 06 R170),
the step ending once the last is done. Step 7 passes when HCLK_ACK rises at the point asked for: HCLK runs, and the
paddock trains its modules (step 8), unless BOOT_MODE holds it, which RELEASE ends (15 R423, R425). -/
def Obligations.StartupPasses : Prop :=
  (∀ (s : State) (d : Die), (s.pad d).Released → (s.pad d).boot.backoff = false →
     (∀ data, (s.pad d).boot.step = 4 →
       ((s.pad d).boot.fuseReq = true → (s.pad d).boot.fuseAck = false →
         exec (.fuseAck d data) s = .next (s.modPad d fun q => { q with
           boot := { q.boot with
             fuseWords := q.boot.fuseWords ++ [data], fuseReq := false, fuseAck := true, fuseTick := q.aon.ticks } })) ∧
       ((s.pad d).boot.fuseReq = false → (s.pad d).boot.fuseAck = true → (s.pad d).boot.fuseWords.length < 8 →
         exec (.fuseAck d data) s = .next (s.modPad d fun q => { q with
           boot := { q.boot with
             fuseAck := false, fuseReq := true
             fuseAddr := BitVec.ofNat 12 q.boot.fuseWords.length, fuseTick := q.aon.ticks } }))) ∧
     (∀ p : PFold, (s.pad d).domOn (domFL p) = true → (s.pad d).domOn (domFA p) = true →
       (∀ answers, firstBadChecker answers = none → (s.pad d).boot.step = 5 → bitAt (s.pad d).boot.selfTested p.val = false →
         exec (.checkerSelfTest d (.fold p) answers) s = .next (s.modPad d fun q =>
           let done := putBit q.boot.selfTested p.val true
           { q with
             folds := vmod q.folds p fun f => { f with drover := { pass := true }, census := foldCount 0x37 8 f.census }
             boot := { q.boot with selfTested := done, step := if done = BitVec.allOnes 6 then 6 else 5 }
             aon := { q.aon with
               stepFails := if done = BitVec.allOnes 6 then vset q.aon.stepFails q.boot.step.toFin 0 else q.aon.stepFails } })) ∧
       ((s.pad d).boot.step = 6 → bitAt (s.pad d).boot.selfTested p.val = true → bitAt (s.pad d).boot.arrayInit p.val = false →
         (s.pad d).hurdle.queued = [] → bitAt (s.pad d).boot.arrayInit 5 = false →
         exec (.arrayInitialisation d (.fold p) []) s = .next (s.modPad d fun q => { q with
           folds := vmod q.folds p fun f => { f.arrayReset.millFill f.millWays f.millLost with millLost := false }
           boot := { q.boot with arrayInit := putBit q.boot.arrayInit p.val true } })))) ∧
  (∀ (s : State) (d : Die), (s.pad d).Released → (s.pad d).boot.step = 7 → (s.pad d).boot.backoff = false →
     ((s.pad d).ebb.hclkReq = true → (s.pad d).ebb.hclkAck = false → s.inRange d = false →
       ∃ t, exec (.hclkAck d true (s.pad d).ebb.hclkOp) s = .next t ∧ s.OnlyPad t d ∧ (t.pad d).running = true ∧
         (t.pad d).ebb.point = (s.pad d).ebb.hclkOp ∧
         ((s.pad d).boot.bootMode = true → (t.pad d).boot = { (s.pad d).boot with bootHold := true } ∧
           (t.pad d).conf = (s.pad d).conf) ∧
         ((s.pad d).boot.bootMode = false → (t.pad d).boot.step = 8 ∧
           ∀ m : ModN, ((s.krovol.modEdge[d])[m]).isSome = true → ((t.pad d).conf.mod[m]).state = .training)) ∧
     (∀ (w : Who) (v : Word), w.via = d → s.Granted w 0x5008 ⟨.boot, 0x5008, d, false⟩ true → bitAt v 0 = true →
       (s.pad d).boot.bootHold = true →
       ∃ t, exec (.release w v) s = .next t ∧ s.OnlyPad t d ∧ (t.pad d).boot.bootHold = false ∧ (t.pad d).boot.step = 8 ∧
         (t.pad d).rp = { rdata := 0, resp := respOkay, ack := true } ∧
         ∀ m : ModN, ((s.krovol.modEdge[d])[m]).isSome = true → ((t.pad d).conf.mod[m]).state = .training))

/-- At the assembly deadline every paddock that has reached step 8 freezes its view of its links, goes to step 9 and
locks the hash; one that has not freezes the empty view and is absent (that it never forms later is the model's
reading, log entry 53); the others do not change (10 R268, R269, 15 R423). FORMED, where the exchanged views give one
Range: every member shows the Range's population and leader, formed, READY and step 10, and the leader's replicated
registers (18 R471; whose value they take is log entry 98); a die that took part but is not connected is absent from
then on, and no other die's copy or start-up changes; before the tick after the deadline nothing happens (10 R269, 01
R12 to R14, 15 R423). -/
def Obligations.AssemblyFormsTheRange : Prop :=
  (∀ s : State, ∃ t, exec .assemblyDeadline s = .next t ∧
     t.krovol = s.krovol ∧ t.tether = s.tether ∧ t.fresh = s.fresh ∧ t.pending = s.pending ∧ ∀ d,
     ((s.pad d).Released → (s.pad d).boot.frozen = none → s.krovol.asmDeadline * 1000 ≤ (s.pad d).aon.ticks →
       ((s.pad d).boot.step = 8 → t.pad d = { s.pad d with
         boot := { (s.pad d).boot with step := 9, frozen := some (max 1 (s.krovol.asmDeadline * 1000), s.linkView d) }
         repl := { (s.pad d).repl with lockHash := true } }) ∧
       ((s.pad d).boot.step ≠ 8 → t.pad d = { s.pad d with
         boot := { (s.pad d).boot with frozen := some (0, 0) } })) ∧
     ((s.pad d).boot.frozen.isSome = true ∨ (s.pad d).aon.ticks < s.krovol.asmDeadline * 1000 → t.pad d = s.pad d)) ∧
  (∀ (s : State) (lead : Die) (range : BitVec 8), s.ranges = [(lead, range)] →
     ((s.pad lead).aon.ticks ≤ s.krovol.asmDeadline * 1000 → exec .formed s = .next s) ∧
     (s.krovol.asmDeadline * 1000 < (s.pad lead).aon.ticks →
       ∃ t, exec .formed s = .next t ∧ t.krovol = s.krovol ∧ t.pending = s.pending ∧ ∀ d,
         (bitAt range d.val = true →
           (t.pad d).repl.present = range ∧ (t.pad d).repl.leader = lead ∧ (t.pad d).repl.formed = true ∧
           (t.pad d).repl.lockHash = true ∧ (t.pad d).boot.ready = true ∧ (t.pad d).boot.step = 10 ∧
           (t.pad d).repl.privBlk = (s.pad lead).repl.privBlk ∧ (t.pad d).repl.privQp = (s.pad lead).repl.privQp ∧
           (t.pad d).repl.privEq = (s.pad lead).repl.privEq ∧ (t.pad d).repl.lockPriv = (s.pad lead).repl.lockPriv) ∧
         (bitAt range d.val = false →
           (t.pad d).repl.present = (s.pad d).repl.present ∧
           (t.pad d).boot = if (s.pad d).assembles then { (s.pad d).boot with frozen := some (0, 0) } else (s.pad d).boot)))

/-- A training attempt of a module that fails is counted, up to 65,535, and the module waits; the next attempt begins
after min(2^(a-1), 1,000) ms and not before (10 R263). A module that trains during start-up is up at the rate and
width reached, its attempts cleared, 0x804 filed where they are below the best (10 R263, R264), and 0xB10 by Hurdle
where its lanes are spent (12 R337, log entry 95); a lane that the training repaired is recorded, while the log shadow
has room, unless the shadow holds it (12 R329, log entry 90). In a Range, training on an edge in use recomputes the
paces of its members and makes the recheck of the envelopes due (10 R261, R264, 11 R302); an edge that trains again
and may carry crossings waits for the route-epoch switch that reinstates it, and one that may not stays as it is (10
R265). The FDI states asked for on the way are those of log entry 99 (19 R515). A module that goes down trains again,
what was on its wire lost. An edge not in use stays as it is; where it was the last module of an edge in use, the edge
carries no crossings, its turn is closed, its crossing buffers are empty, it is marked lost, and 0x803 is filed (10
R264, R265). -/
def Obligations.ModulesTrainFailAndGoDown : Prop :=
  (∀ (s : State) (d : Die) (m : ModN) (e : Edge), s.ModuleOn d m e →
     (((s.pad d).conf.mod[m]).state = .training →
       exec (.trainingFailed d m) s = .next (s.modPad d fun q =>
         let count (a : BitVec 16) : BitVec 16 := if a = 0xFFFF then 0xFFFF else a + 1
         let wait (y : ModStat) : ModStat := { y with state := .waiting, fdi := .linkReset, waitTick := q.aon.ticks }
         { q with
           aon := { q.aon with modAttempts := vmod q.aon.modAttempts m count }
           conf := { q.conf with mod := vmod q.conf.mod m wait } })) ∧
     (((s.pad d).conf.mod[m]).state = .waiting →
       exec (.trainingRetry d m) s = .next (
         if ((s.pad d).conf.mod[m]).waitTick + attemptWait ((s.pad d).aon.modAttempts[m]).toNat ≤ (s.pad d).aon.ticks
         then s.modPad d fun q =>
           let train (y : ModStat) : ModStat := { y with state := .training, fdi := .active }
           { q with conf := { q.conf with mod := vmod q.conf.mod m train } }
         else s)) ∧
     ∀ (rate : Rate) (x32 : Bool) (repaired : List (BitVec 11)), ((s.pad d).conf.mod[m]).state = .training →
       rate.val ≤ ((s.krovol.maxRate[d])[m]).val → ((s.pad d).conf.edge[edgeNo e]).inUse = false → s.inRange d = false →
       ∃ t, exec (.moduleTrained d m rate x32 repaired) s = .next t ∧
         t.krovol = s.krovol ∧ t.tether = s.tether ∧ t.pending = s.pending ∧
         (t.pad d).conf.mod[m] = { (s.pad d).conf.mod[m] with
           state := .up, fdi := .active, rate := rate, x32 := x32, repaired := !repaired.isEmpty, upTick := (s.pad d).aon.ticks
           seqTx := 0, seqRx := 0, wire := [] } ∧
         (∀ n, n ≠ m → (t.pad d).conf.mod[n] = (s.pad d).conf.mod[n]) ∧
         (t.pad d).aon.modAttempts[m] = 0 ∧
         ((s.pad d).boot.step = 8 → (s.pad d).boot.frozen.isSome = true →
           (t.pad d).boot.step = 9 ∧ (t.pad d).repl.lockHash = true) ∧
         (repaired = [] → (t.pad d).bell = { (s.pad d).bell with
           inbox := (s.pad d).bell.inbox
             ++ (if rate.val < ((s.krovol.maxRate[d])[m]).val ∨ x32 = true then [s.segReport d 0x804 (streamAgent d) m.val] else [])
             ++ (if x32 = true ∧ ((s.pad d).conf.mod[m]).x32 = false then
               [{ s.segReport d 0xB10 (streamAgent d) 0 with reporter := agent d 127, atype := 0x3E }] else []) }) ∧
         ∀ lane, repaired = [lane] → (s.pad d).aon.hlog.length < 128 →
           let r := hurdleRec 6 d 7 0 m.val lane.toNat 0 (s.pad d).hours
           (t.pad d).aon.hlog = if (s.pad d).aon.hlog.any (sameAct r) then (s.pad d).aon.hlog else (s.pad d).aon.hlog ++ [r]) ∧
  (∀ (s : State) (d l : Die) (m : ModN) (e : Edge) (rate : Rate) (x32 : Bool), s.ModuleOn d m e → s.leadOf d = some l →
     ((s.pad d).conf.mod[m]).state = .training ∨ ((s.pad d).conf.mod[m]).state = .up →
     rate.val ≤ ((s.krovol.maxRate[d])[m]).val →
     ∃ t, exec (.moduleTrained d m rate x32 []) s = .next t ∧ t.krovol = s.krovol ∧ t.tether = s.tether ∧ t.pending = s.pending ∧
       ((t.pad d).conf.mod[m]).state = .up ∧ ((t.pad d).conf.mod[m]).rate = rate ∧ ((t.pad d).conf.mod[m]).x32 = x32 ∧
       (t.pad d).aon.modAttempts[m] = 0 ∧
       (rate.val < ((s.krovol.maxRate[d])[m]).val ∨ x32 = true →
         s.segReport d 0x804 (streamAgent d) m.val ∈ (t.pad d).bell.inbox) ∧
       (((s.pad d).conf.edge[edgeNo e]).inUse = true →
         (t.pad l).shep.recheck.isSome = true ∧ (t.pad l).shep.needSwitch = (s.pad l).shep.needSwitch ∧
         ∀ y ∈ s.members d, ∀ f : Edge,
           ((t.pad y).conf.edge[edgeNo f]).pace = t.chainPace t.edgesInUse (t.mhz d) y f) ∧
       (((s.pad d).conf.edge[edgeNo e]).inUse = false →
         (∀ y, (t.pad y).conf.edge = (s.pad y).conf.edge) ∧
         (t.pad l).shep.needSwitch = (t.edgeOk (s.pad d).repl.present d e || (s.pad l).shep.needSwitch))) ∧
  (∀ (s : State) (d : Die) (m : ModN) (e : Edge), s.ModuleOn d m e → ((s.pad d).conf.mod[m]).state = .up →
     (((s.pad d).conf.edge[edgeNo e]).inUse = false →
       exec (.moduleDown d m) s = .next (s.modPad d fun q =>
         let down (y : ModStat) : ModStat := { y with state := .training, fdi := .retrain, wire := [] }
         { q with conf := { q.conf with mod := vmod q.conf.mod m down } })) ∧
     (((s.pad d).conf.edge[edgeNo e]).inUse = true →
       (∀ n ∈ s.krovol.modsOn d e, n ≠ m → ((s.pad d).conf.mod[n]).state ≠ .up) →
       ∃ t, exec (.moduleDown d m) s = .next t ∧ t.krovol = s.krovol ∧ t.pending = s.pending ∧
         ((t.pad d).conf.mod[m]).state = .training ∧ ((t.pad d).conf.mod[m]).wire = [] ∧
         ((t.pad d).conf.edge[edgeNo e]).inUse = false ∧ ((t.pad d).conf.edge[edgeNo e]).lost = true ∧
         ((t.pad d).conf.edge[edgeNo e]).pace = 0 ∧
         (∀ n : Fin 4, ((t.pad d).conf.edge[edgeNo e]).buf[n] = []) ∧
         (t.pad d).stream.turned e = true ∧
         s.segReport d 0x803 (streamAgent d) (edgeNo e).val ∈ (t.pad d).bell.inbox ∧
         (t.pad d).folds = (s.pad d).folds ∧ (t.pad d).gates = (s.pad d).gates ∧ (t.pad d).stiles = (s.pad d).stiles))

/-- A Confluence flit whose CRC fails at the receiving end, or whose SEQ is not one more than the previous value, is
discarded, its ring flits lost, and 0x806 filed; every other flit brings the ring flits whose own check passes to the
edge, in the order of packing (10 R267, R260, 09 R235); one whose check fails files 0x701 (09 R251). -/
def Obligations.ConfluenceFlitChecked : Prop :=
  ∀ (s : State) (d : Die) (m : ModN) (e : Edge) (f : ConfFlit) (rest : List ConfFlit) (noise : Nat) (hurt : List (Fin 8 × Nat)),
    s.ModuleOn d m e → ((s.pad d).conf.mod[m]).wire = f :: rest →
    (noise ≠ 0 → sealOk 2032 (sealed 2032 (f.body (hurtOf hurt)) ^^^ noise % 2 ^ 2048) = false →
      ∃ t, exec (.confluenceFlit d m ⟨noise, hurt⟩) s = .next t ∧ s.OnlyPad t d ∧
      (t.pad d).conf.mod[m] = { (s.pad d).conf.mod[m] with wire := rest } ∧
      (t.pad d).conf.edge = (s.pad d).conf.edge ∧ (t.pad d).stream = (s.pad d).stream ∧
      (s.pad d).Filed (t.pad d) (s.segReport d 0x806 (streamAgent d) m.val)) ∧
    ∀ seq got, f.heard noise (hurtOf hurt) = some (seq, got) →
    (seq ≠ ((s.pad d).conf.mod[m]).seqRx + 1 →
      ∃ t, exec (.confluenceFlit d m ⟨noise, hurt⟩) s = .next t ∧ s.OnlyPad t d ∧
        ((t.pad d).conf.mod[m]).wire = rest ∧ (t.pad d).conf.edge = (s.pad d).conf.edge ∧
        (t.pad d).stream = (s.pad d).stream ∧ (s.pad d).Filed (t.pad d) (s.segReport d 0x806 (streamAgent d) m.val)) ∧
    (seq = ((s.pad d).conf.mod[m]).seqRx + 1 → (∀ i ∈ got, i.flit.isSome = true) →
      ∃ t, exec (.confluenceFlit d m ⟨noise, hurt⟩) s = .next t ∧ s.OnlyPad t d ∧
        (t.pad d).conf.mod[m] = { (s.pad d).conf.mod[m] with wire := rest, seqRx := seq } ∧
        (t.pad d).conf.edge[edgeNo e] =
          ((s.pad d).conf.edge[edgeNo e]).arrive f.ord ((List.finRange 8).filterMap (f.arrival d e got)) ∧
        (t.pad d).bell = (s.pad d).bell ∧ (t.pad d).stream = (s.pad d).stream) ∧
    (seq = ((s.pad d).conf.mod[m]).seqRx + 1 → ∀ i ∈ got, i.flit = none →
      ∃ t, exec (.confluenceFlit d m ⟨noise, hurt⟩) s = .next t ∧ ∃ r ∈ (t.pad d).bell.inbox, r.code = 0x701)

/-- An edge that may send packs up to two ring flits of each network, oldest first, into one Confluence flit with the next
SEQ, and spends one period of its pace (10 R260, R261, R267). The slot at an open edge enters the crossing buffer of
its network, and the dam rises at 32 ring flits and falls at 16 (10 R262). That a reservation crosses the edge with its
slot (resv) is the model's choice, log entry 71. -/
def Obligations.EdgesBufferAndSend : Prop :=
  (∀ (s : State) (d x : Die) (m y : ModN) (e : Edge), s.ModuleOn d m e → s.krovol.facingMod d m = some (x, y) →
     ((s.pad d).conf.edge[edgeNo e]).maySend = true → ((s.pad d).conf.mod[m]).state = .up →
     ((s.pad x).conf.mod[y]).state = .up →
     ((s.pad d).conf.edge[edgeNo e]).nextSlots ≠ [] →
     ∃ t, exec (.confluenceFlitSend d m) s = .next t ∧ t.krovol = s.krovol ∧ t.tether = s.tether ∧ t.pending = s.pending ∧
       ((t.pad x).conf.mod[y]).wire = ((s.pad x).conf.mod[y]).wire ++
         [{ seq := ((s.pad d).conf.mod[m]).seqTx + 1, ord := ((s.pad d).conf.edge[edgeNo e]).sent
            slots := ((s.pad d).conf.edge[edgeNo e]).nextSlots }] ∧
       ((t.pad d).conf.mod[m]).seqTx = ((s.pad d).conf.mod[m]).seqTx + 1 ∧
       ((t.pad d).conf.edge[edgeNo e]).acc = ((s.pad d).conf.edge[edgeNo e]).acc - 1024 ∧
       (∀ n : Fin 4, ((t.pad d).conf.edge[edgeNo e]).buf[n] = (((s.pad d).conf.edge[edgeNo e]).buf[n]).drop 2) ∧
       (∀ f, f ≠ edgeNo e → (t.pad d).conf.edge[f] = (s.pad d).conf.edge[f]) ∧
       (t.pad d).stream = (s.pad d).stream ∧ (t.pad d).folds = (s.pad d).folds) ∧
  (∀ (s : State) (d : Die) (net : Net) (r : Ring) (outbound : Bool) (e : Edge) (x : RingSlot), (s.pad d).running = true →
     (s.pad d).stream.openEdge d r (!outbound) = some e →
     (s.pad d).stream.slot net r (if outbound then 16 else 25) = some x →
     ∃ t, exec (.edgeFlitAccept d net r outbound) s = .next t ∧ s.OnlyPad t d ∧
       (t.pad d).stream = { (s.pad d).stream with slots := (s.pad d).stream.slots.erase x } ∧
       ((t.pad d).conf.edge[edgeNo e]).buf[netNo net] = ((s.pad d).conf.edge[edgeNo e]).buf[netNo net] ++
         [{ ring := r, ret := !outbound, flit := x.flit, resv := x.resv }] ∧
       ((t.pad d).conf.edge[edgeNo e]).dam[netNo net] =
         damAfter ((((t.pad d).conf.edge[edgeNo e]).buf[netNo net].filter fun c => c.flit.isSome).length)
           (((s.pad d).conf.edge[edgeNo e]).dam[netNo net]) ∧
       (∀ n, n ≠ netNo net → ((t.pad d).conf.edge[edgeNo e]).buf[n] = ((s.pad d).conf.edge[edgeNo e]).buf[n]) ∧
       (∀ f, f ≠ edgeNo e → (t.pad d).conf.edge[f] = (s.pad d).conf.edge[f]) ∧
       (t.pad d).folds = (s.pad d).folds ∧ (t.pad d).gates = (s.pad d).gates ∧ (t.pad d).stiles = (s.pad d).stiles)

/-- The route-epoch switch of a Range: 12,000 ns after it began, and not before, every die of the old population that the
leader reaches and every die that joins counts the epoch and lets REQ flits in again, and the old ones show the new
population (10 R273, 09 R254). A recheck of the envelopes publishes in every member which C0 regions are infeasible
and the largest envelope, and is no longer due (11 R302, R308). A neighbour of a member that is planned, no member,
past assembly and linked by a trained edge is announced once: its READY bit is set in every member and 0x802 filed
about it (10 R271; its SUBJECT is the model's choice, log entry 49). The switch of a DIE_JOIN ends it with its final DONE:
the die shows every replicated register of the leader and the Range's patch, its queues are empty, and it is READY (10
R272, 15 R421, R426, 18 R471); that of a DIE_FENCE ends with the final DONE too, the die no longer READY and marked
fenced in every member until a PADRESET_N (10 R271, R276). -/
def Obligations.LeaderSwitchesRechecksAndAnnounces : Prop :=
  (∀ (s : State) (l : Die) (w : EpochSwitch), s.leaders = [l] → (s.pad l).shep.sw = some w → w.forOp = none →
     ((s.pad l).now < w.start + 12000 → exec .routeEpochSwitchCycle s = .next s) ∧
     (w.start + 12000 ≤ (s.pad l).now →
       ∃ t, exec .routeEpochSwitchCycle s = .next t ∧ t.krovol = s.krovol ∧ t.tether = s.tether ∧ t.pending = s.pending ∧
         (t.pad l).shep.sw = none ∧ ∀ d,
         (d ∈ s.switchDies l w →
           (t.pad d).stream.epoch = (s.pad d).stream.epoch + 1 ∧ (t.pad d).stream.hold = false ∧
           (bitAt (s.pad l).repl.present d.val = true → (t.pad d).repl.present = w.present)) ∧
         (d ∉ s.switchDies l w →
           (t.pad d).stream.epoch = (s.pad d).stream.epoch ∧ (t.pad d).stream.hold = (s.pad d).stream.hold) ∧
         (t.pad d).gates = (s.pad d).gates ∧ (t.pad d).stiles = (s.pad d).stiles)) ∧
  (∀ (s : State) (l x : Die) (b : Bool) (n : Nat) (w : EpochSwitch) (o : Deferred), s.leaders = [l] →
     (s.pad l).shep.sw = some w → w.forOp = some o.id → (s.pad l).shep.deferred = [o] → w.start + 12000 ≤ (s.pad l).now →
     ((s.pad l).shep.rq[o.pkt.q]).Empty → o.pkt.quiet = false → x ≠ l →
     let ends (t : State) : Prop := exec .routeEpochSwitchCycle s = .next t ∧ t.krovol = s.krovol ∧ t.pending = s.pending ∧
       (t.pad l).shep.sw = none ∧ (t.pad l).shep.deferred = [] ∧ (t.pad l).repl.present = w.present ∧
       ((t.pad l).shep.rq[o.pkt.q]).replies =
         [{ pri := o.pkt.pri, words := replyWords o.pkt.opc o.pkt.tag o.pkt.pri o.pkt.seq .done [] }]
     (o.kind = .join x b → s.member l x = false → w.present = putBit (s.pad l).repl.present x.val true →
       ∃ t, ends t ∧ (t.pad l).repl.joinBusy = false ∧ bitAt (t.pad l).repl.readyDies x.val = false ∧
         (t.pad x).repl = { (t.pad l).repl with tideHi := (s.pad x).repl.tideHi } ∧
         (t.pad x).boot.ready = true ∧ (t.pad x).boot.step = 10 ∧ (t.pad x).shep.patch = (s.pad l).shep.patch ∧
         ∀ q : QN, ((t.pad x).shep.cq[q]).packets = [] ∧ ((t.pad x).shep.cq[q]).words = []) ∧
     (o.kind = .fence x n → s.member l x = true → w.present = putBit (s.pad l).repl.present x.val false →
       ∃ t, ends t ∧ (t.pad l).repl.fenceBusy = false ∧ bitAt (t.pad l).repl.leaving x.val = false ∧
         (t.pad x).boot.ready = false ∧ ∀ y ∈ s.members l, y ≠ x → bitAt (t.pad y).conf.fenced x.val = true)) ∧
  (∀ (s : State) (l : Die) (at' : Nat), s.leaders = [l] → (s.pad l).shep.recheck = some at' →
     let v := (s.modShep l fun x => { x with recheck := none }).envNow l
     ∃ t, exec .envelopeRecheck s = .next t ∧ t.krovol = s.krovol ∧ t.tether = s.tether ∧ t.pending = s.pending ∧
       (t.pad l).shep.recheck = none ∧ ∀ d ∈ s.members l,
       (t.pad d).repl.envBadDef = v.bad 64 ∧ (t.pad d).repl.envWorst = v.worstNs ∧
       (∀ n : Fin 64, bitAt (t.pad d).repl.envBad n.val = v.bad n.val) ∧
       (t.pad d).folds = (s.pad d).folds ∧ (t.pad d).stream = (s.pad d).stream) ∧
  (∀ (s : State) (d x : Die) (e : Edge), s.inRange d = true → s.member d x = false → s.planned x = true →
     neighbour d e = some x → s.edgeUp d e = true → s.edgeUp x (facing e) = true → 9 ≤ (s.pad x).boot.step.toNat →
     bitAt (s.pad d).conf.fenced x.val = false →
     (bitAt (s.pad d).repl.readyDies x.val = true → exec (.dieReady d x) s = .next s) ∧
     (bitAt (s.pad d).repl.readyDies x.val = false →
       ∃ t, exec (.dieReady d x) s = .next t ∧ t.krovol = s.krovol ∧ t.tether = s.tether ∧ t.pending = s.pending ∧
         s.segReport d 0x802 (streamAgent x) 0 ∈ (t.pad d).bell.inbox ∧
         (∀ y ∈ s.members d, (t.pad y).repl = { (s.pad y).repl with
           readyDies := putBit (s.pad y).repl.readyDies x.val true }) ∧
         ∀ y, y ∉ s.members d → (t.pad y).repl = (s.pad y).repl))

/-- A REQ flit at the ford of its home fold, before its abandon limit and with a place in its pen and no older refusal
that stands before it, leaves the Stream and joins the pens in order of arrival; with no place it stays and its REV
rises (03 R73, R74, 09 R240 to R242). A snoop at the ford of its Gate enters the snoop inbox under a free STAG and is
driven to the cluster; with no place it stays on the Stream and its REV rises (09 R240, 19 R503). One that comes with
REV 31 is escalated, which the Census counts (09 R241, 17 R458). -/
def Obligations.RequestsAndSnoopsArrive : Prop :=
  (∀ (s : State) (d : Die) (a : Spot) (f : ReqFlit) (p : PFold), s.Stands d .req a (.req f) → isFold f.tgt = true →
     posFold (spotPos a) = some p → ((s.pad d).ebb.fold[p]).gated = false → s.fenced d (spotPos a) = false →
     (s.pad d).now < abandonFrom (s.pad d).repl f (s.pad d).now →
     (∀ kept, ((s.pad d).folds[p]).penRoom (penOf d f) (f.rev == 31) = some kept →
       ((s.pad d).folds[p]).portTakes (spotPort a) f = true →
       (((s.pad d).folds[p]).refuseReq = false ∨ f.op.isPut = true ∨ f.fromShep = true) →
       ∃ t, exec (.reqFlitArrival d a 0) s = .next t ∧ s.OnlyPad t d ∧
         (t.pad d).stream = (s.pad d).stream.take .req a ∧
         ((t.pad d).folds[p]).pens = penInsert ((s.pad d).folds[p]).pens
           { pen := penOf d f, flit := f, port := spotPort a, arrive := (s.pad d).aon.hcycle
             df := (deadlineFrom f.dl (s.pad d).now).toNat, af := abandonFrom (s.pad d).repl f (s.pad d).now
             kept := kept } ∧
         ((t.pad d).folds[p]).tt = ((s.pad d).folds[p]).tt ∧
         (∀ n, n ≠ p → (t.pad d).folds[n] = (s.pad d).folds[n]) ∧
         (t.pad d).gates = (s.pad d).gates ∧ (t.pad d).stiles = (s.pad d).stiles) ∧
     (((s.pad d).folds[p]).penRoom (penOf d f) (f.rev == 31) = none →
       ∃ t, exec (.reqFlitArrival d a 0) s = .next t ∧ s.OnlyPad t d ∧
         (t.pad d).stream = (s.pad d).stream.pass .req a (.req { f with rev := if f.rev = 31 then 31 else f.rev + 1 }) ∧
         ((t.pad d).folds[p]).pens = ((s.pad d).folds[p]).pens ∧ ((t.pad d).folds[p]).tt = ((s.pad d).folds[p]).tt)) ∧
  (∀ (s : State) (d : Die) (a : Spot) (f : SnpFlit) (g : GateN), s.Stands d .snp a (.snp f) → f.muster = false →
     f.tgt = agent d g.val → s.fenced d (spotPos a) = false →
     let l := ((s.pad d).gates[g]).snpIn
     let room := inboxRoom 16 ((l.filter fun x => !x.kept).length) ((l.filter fun x => x.kept).length) (f.rev == 31)
     (∀ kept, room = some kept → exec (.snpFlitArrival d a 0) s = .next ((s.escalate d .snp f.rev).modPad d fun q => { q with
       stream := q.stream.take .snp a
       gates := vmod q.gates g fun x => { x with
         snpIn := x.snpIn ++ [{ stag := freeStag x.snpIn, flit := f, kept := kept }]
         out := x.out ++ [.snp f.op f.laddr (freeStag x.snpIn)] } })) ∧
     (room = none → ∃ t, exec (.snpFlitArrival d a 0) s = .next t ∧ s.OnlyPad t d ∧
       (s.pad d).SameUnits (t.pad d) ∧
       (t.pad d).stream = (s.pad d).stream.pass .snp a (.snp { f with rev := if f.rev = 31 then 31 else f.rev + 1 })))

/-- A flit whose check fails at its agent's ford, with the bits that its wires inverted, is removed, and 0x701 names
the network and the stage (09 R251, 12 R310, 13 R357); one for an agent that is not configured is removed under 0x702,
its sender the subject (09 R252, 13 R344). The stage in DETAIL, with the ford position for a flit of a hand-over, and
the ATYPE of 0x702 are the model's choices, log entries 70 and 54. A culvert removes a flit whose check fails (sticky
bit 2) and an RSP or DAT flit of the agent it bypasses (sticky bit 3), and passes every flit for another place on (09
R249, R251, 13 R351); one for an agent that is not configured is removed (09 R252); a REQ or SNP flit for it passes
on; without a flit or a culvert there, nothing changes. A REQ or SNP flit at the culvert of a sleeping fold passes on
and wakes it: its target becomes DOZE and WOKEN is set (09 R249, 14 R370). -/
def Obligations.BadFlitsAndCulverts : Prop :=
  (∀ (s : State) (d : Die) (a : Spot) (noise : Nat) (f : Flit),
     ((s.pad d).stream.at' .req a = some f → f.heard noise = none → s.arrived d .req a false = .badCrc →
       ∃ t, exec (.reqFlitArrival d a noise) s = .next t ∧
       t.krovol = s.krovol ∧ t.tether = s.tether ∧ t.pending = s.pending ∧
       (t.pad d).stream = (s.pad d).stream.take .req a ∧
       s.segReport d 0x701 (streamAgent d) (stageDetail .req (spotStage a)) ∈ (t.pad d).bell.inbox ∧
       (t.pad d).folds = (s.pad d).folds ∧ (t.pad d).gates = (s.pad d).gates) ∧
     (s.arrived d .snp a true = .noAgent f → ∃ t, exec (.snpFlitArrival d a 0) s = .next t ∧
       (s.pad d).SameUnits (t.pad d) ∧ (t.pad d).stream = (s.pad d).stream.take .snp a ∧
       (dieOf f.src = d → s.OnlyPad t d ∧ (s.pad d).Filed (t.pad d)
         { s.segReport d 0x702 f.src (stageDetail .snp (spotStage a)) with addr := f.addr, atype := f.atype }))) ∧
  (∀ (s : State) (d : Die) (net : Net) (a : Spot),
     ((s.pad d).stream.at' net a = none → ∀ noise, exec (.culvertFlit d net a noise) s = .next s) ∧
     ((s.pad d).running = false ∨ s.culvert d (spotPos a) = false → exec (.culvertFlit d net a 0) s = .next s) ∧
     ∀ f, (s.pad d).running = true → (s.pad d).stream.at' net a = some f → s.culvert d (spotPos a) = true →
     (∀ noise, f.heard noise = none →
       exec (.culvertFlit d net a noise) s = .next ((s.modPad d fun q => q.took net a).stick d 2)) ∧
     (dieOf f.tgt ≠ d ∨ s.destPos d f ≠ spotPos a →
       exec (.culvertFlit d net a 0) s = .next (s.modPad d fun q => q.passed net a f)) ∧
     (dieOf f.tgt = d → s.destPos d f = spotPos a →
       (s.krovol.configured f.tgt = true → net = .rsp ∨ net = .dat →
         exec (.culvertFlit d net a 0) s = .next ((s.modPad d fun q => q.took net a).stick d 3)) ∧
       (s.krovol.configured f.tgt = true → net = .req ∨ net = .snp → ∃ t, exec (.culvertFlit d net a 0) s = .next t ∧
         (t.pad d).stream = (s.pad d).stream.pass net a f) ∧
       (s.krovol.configured f.tgt = false → localOf f.tgt ≠ 124 → ∃ t, exec (.culvertFlit d net a 0) s = .next t ∧
         (s.pad d).SameUnits (t.pad d) ∧ (t.pad d).stream = (s.pad d).stream.take net a))) ∧
  (∀ (s : State) (d : Die) (a : Spot) (f : SnpFlit) (p : PFold), (s.pad d).running = true →
     (s.pad d).stream.at' .snp a = some (.snp f) → s.culvert d (spotPos a) = true → dieOf (Flit.snp f).tgt = d →
     s.destPos d (.snp f) = spotPos a → s.krovol.configured f.tgt = true → posFold (spotPos a) = some p →
     ((s.pad d).repl.carries d p).isSome = true → (s.power d p).waking = none →
     ((s.power d p).state = .retain ∨ (s.power d p).state = .off) →
     ∃ t, exec (.culvertFlit d .snp a 0) s = .next t ∧ s.OnlyPad t d ∧
       (t.pad d).stream = (s.pad d).stream.pass .snp a (.snp f) ∧
       (t.power d p).target = .doze ∧ (t.power d p).woken = true ∧ (t.power d p).waking = some (s.pad d).now ∧
       (t.power d p).state = (s.power d p).state ∧
       (∀ n, n ≠ p → t.power d n = s.power d n) ∧ (t.pad d).folds = (s.pad d).folds)

/-- A flit at its entry position whose path turns there enters the turn buffer, which holds four for each network and
direction; when it is full the flit passes on, unless it is a request at its abandon limit (09 R236). A flit that is
next at its ford injects into an empty stage whose edge has no dam, or goes across in the hand-over, and leaves its
queue; a stage that carries a flit takes none (09 R243, R244, 10 R262). A flit that has waited at its ford for the
starvation limit (at least 1 cycle) reserves the occupied stage there for its position, one reservation for each
network, ring and position (09 R244). -/
def Obligations.FlitsTurnInjectAndReserve : Prop :=
  (∀ (s : State) (d : Die) (net : Net) (r : Ring) (pos : Fin 16) (f : Flit), (s.pad d).running = true →
     (s.pad d).stream.at' net (.ring r pos) = some f → stageOf r pos.val = 0 → s.mustTurn d r f = true →
     let same := (s.pad d).stream.turns.filter fun t => t.net == net && t.pos == pos.val && t.toY == ringX r
     (same.length < 4 → exec (.turn d net (.ring r pos)) s = .next (s.modPad d fun q => { q with
       stream := { q.stream.take net (.ring r pos) with
         turns := q.stream.turns ++ [{ net := net, pos := pos.val, toY := ringX r, flit := f, since := q.aon.hcycle }] } })) ∧
     (4 ≤ same.length → (∀ g, f = .req g → (s.pad d).now < abandonFrom (s.pad d).repl g (s.pad d).now) →
       ∃ t, exec (.turn d net (.ring r pos)) s = .next t ∧ s.OnlyPad t d ∧ (s.pad d).SameUnits (t.pad d) ∧
         (t.pad d).stream = (s.pad d).stream.pass net (.ring r pos) f)) ∧
  (∀ (s : State) (d : Die) (net : Net) (pos : Fin 16) (i : InjItem), (s.pad d).running = true →
     (∀ g, i.flit ≠ .req g) →
     (∀ r, s.nextInject d net pos.val (some r) = some (.item i) → s.dammed d net r = false →
       (s.pad d).stream.slot net r (stageOf r pos.val) = none →
       ∃ t, exec (.flitInject d net (.ring r pos)) s = .next t ∧ s.OnlyPad t d ∧ (s.pad d).SameUnits (t.pad d) ∧
         (t.pad d).stream.slot net r (stageOf r pos.val) =
           some { net := net, ring := r, stage := stageOf r pos.val, flit := some i.flit, resv := none, seen := true } ∧
         (t.pad d).stream.inj = (s.pad d).stream.inj.erase i ∧ (t.pad d).stream.hand = (s.pad d).stream.hand) ∧
     (s.nextInject d net pos.val none = some (.item i) →
       ∃ t, exec (.flitInject d net (.hand pos)) s = .next t ∧ s.OnlyPad t d ∧ (s.pad d).SameUnits (t.pad d) ∧
         (t.pad d).stream.hand = (s.pad d).stream.hand ++ [{ net := net, pos := pos, flit := i.flit }] ∧
         (t.pad d).stream.inj = (s.pad d).stream.inj.erase i ∧ (t.pad d).stream.slots = (s.pad d).stream.slots) ∧
     ∀ r x, (s.pad d).stream.slot net r (stageOf r pos.val) = some x → x.flit.isSome = true →
       exec (.flitInject d net (.ring r pos)) s = .next s) ∧
  (∀ (s : State) (d : Die) (net : Net) (r : Ring) (pos : Fin 16) (x : RingSlot) (i : InjItem), (s.pad d).running = true →
     (s.pad d).stream.slot net r (stageOf r pos.val) = some x → x.flit.isSome = true → x.resv = none →
     s.dammed d net r = false → i ∈ s.candidates d net pos.val (some r) →
     i.since + max 1 (s.pad d).stream.starve.toNat ≤ (s.pad d).aon.hcycle →
     (∀ y, (s.pad y).holdsMark net r (d, pos.val) = false) →
     ∃ t, exec (.starveReservation d net (.ring r pos)) s = .next t ∧ s.OnlyPad t d ∧ (s.pad d).SameUnits (t.pad d) ∧
       (t.pad d).stream.slot net r (stageOf r pos.val) = some { x with resv := some (d, pos.val) } ∧
       (t.pad d).stream.inj = (s.pad d).stream.inj)

/-- The Shepherd's sluice admits the transaction it picks: its level is charged, the transaction is queued and its REQ
flit goes to the ford's injection queue; nothing is admitted while admission is held (09 R245, R246, 10 R273). A fence
is acknowledged once nothing is left to inject or hand over: the culvert takes the ford's place, and the FL of a
fold's ford goes off (09 R250, 14 R369); flits that their agents offer after FENCE_REQ rose stay with them and are not
waited for. -/
def Obligations.SluiceAdmitsAndFenceAcks : Prop :=
  ∀ (s : State) (d : Die), (s.pad d).running = true →
    (∀ n, (s.pad d).stream.hold = true → exec (.sluiceAdmit d n) s = .next s) ∧
    (∀ u, (s.pad d).domOn domSH = true → (s.pad d).stream.hold = false →
      let p := (s.pad d).shep.port.tick (s.pad d).now
      p.pick p.hasCredit = some u →
      ∃ t, exec (.sluiceAdmit d 29) s = .next t ∧ s.OnlyPad t d ∧ (t.pad d).shep = { (s.pad d).shep with port := p.admitNow u } ∧
        (t.pad d).stream.inj = (s.pad d).stream.inj ++ [{ net := .req, pos := (s.pad d).repl.fordOf d (agent d 127)
                                                          agent := agent d 127, cls := u.flit.cls, flit := .req u.flit
                                                          since := (s.pad d).aon.hcycle
                                                          held := bitAt (s.pad d).ebb.fenceReq
                                                            ((s.pad d).repl.fordOf d (agent d 127)) }] ∧
        (t.pad d).folds = (s.pad d).folds ∧ (t.pad d).gates = (s.pad d).gates) ∧
    ∀ pos : Fin 16, bitAt (s.pad d).ebb.fenceReq pos.val = true → bitAt (s.pad d).ebb.fenceAck pos.val = false →
      (∀ i ∈ (s.pad d).stream.inj, i.pos = pos.val → i.held = true) → (∀ h ∈ (s.pad d).stream.hand, h.pos ≠ pos) →
      ∃ t, exec (.fenceAck d pos) s = .next t ∧ s.OnlyPad t d ∧
        bitAt (t.pad d).ebb.fenceAck pos.val = true ∧ bitAt (t.pad d).ebb.culvertEn pos.val = true ∧
        (∀ p, posFold pos.val = some p →
          bitAt (t.pad d).ebb.iso (domFL p).val = true ∧ bitAt (t.pad d).ebb.pswReq (domFL p).val = false) ∧
        ((s.pad d).ebb.nf ≠ .step3 → posFold pos.val = none →
          (t.pad d).ebb.iso = (s.pad d).ebb.iso ∧ (t.pad d).ebb.pswReq = (s.pad d).ebb.pswReq) ∧
        (t.pad d).stream = (s.pad d).stream ∧ (t.pad d).folds = (s.pad d).folds

/-- The pull takes an eligible item of which no eligible item ranks lower: first an item that waited 2,048 cycles (03 R77)
or a Put that crosses a snoop (05 R135), then by class, arrival and port (03 R75 to R77); none is pulled by a fold that
is drained or halted, or again in the cycle of a pull. -/
def Obligations.PullTakesTheLowestRank : Prop :=
  ∀ (c : FC) (it : PenItem), c.pull = some it →
    let first (x : PenItem) : Prop := x.arrive + 2048 ≤ c.cyc ∨ (c.crossing x.flit).isSome = true
    c.f.drain = false ∧ c.f.ftHalt = false ∧ c.f.pullFrom ≤ c.cyc ∧
    (∃ before after, c.f.pens = before ++ it :: after ∧ c.eligible before it = true) ∧
    ∀ before o after, c.f.pens = before ++ o :: after → c.eligible before o = true →
      (first o → first it) ∧ (¬first it → it.flit.cls ≤ o.flit.cls) ∧
      ((first o ∧ first it) ∨ (¬first o ∧ ¬first it ∧ o.flit.cls = it.flit.cls) →
        it.arrive < o.arrive ∨ (it.arrive = o.arrive ∧ it.port ≤ o.port))

/-- The requests that need data: in a fold that holds nothing of the line each leaves its pen, an entry of the
transaction table holds its line, no snoop goes out, and a read of the line goes to the memory queue (03 R78, R84,
R86, R90, 06 R149). A Claim of a line that nobody holds is granted E at once, without data: Comp E goes out and its
entry waits for CompAck (03 R80, R89, R90). That the lowest free miss register and table index are taken, here 0, is
the model's choice, log entry 10. -/
def Obligations.FetchesReadMemoryAndClaimGrants : Prop :=
  (∀ (s : State) (d : Die) (p : PFold) (it : PenItem), s.Serves d p it →
     ∀ c ∈ [(ReqOp.getShared, Instr.getShared d p), (ReqOp.getOwned, Instr.getOwned d p), (ReqOp.getOnce, Instr.getOnce d p),
       (ReqOp.upgrade, Instr.upgrade d p), (ReqOp.pushIO, Instr.pushIO d p), (ReqOp.atomicOp, Instr.atomicOp d p)],
     it.flit.op = c.1 →
     ∃ t e, exec c.2 s = .next t ∧ s.OnlyPad t d ∧ ((t.pad d).folds[p]).pens = [] ∧ ((t.pad d).folds[p]).tt = [e] ∧
       e.flit = it.flit ∧ e.line = lineOf it.flit.addr ∧ e.phase = .data ∧ e.sent = [] ∧ e.ms = .waiting ∧
       ((t.pad d).folds[p]).memQ.head? =
         some { op := .lineRead, cls := it.flit.cls, line := lineOf it.flit.addr, purpose := .mr 0 } ∧
       (∀ n, n ≠ p → (t.pad d).folds[n] = (s.pad d).folds[n]) ∧
       (t.pad d).gates = (s.pad d).gates ∧ (t.pad d).stiles = (s.pad d).stiles) ∧
  (∀ (s : State) (d : Die) (p : PFold) (it : PenItem), s.Serves d p it → it.flit.op = .claim →
     ∃ t e, exec (.claim d p) s = .next t ∧ s.OnlyPad t d ∧ ((t.pad d).folds[p]).pens = [] ∧
       ((t.pad d).folds[p]).tt = [e] ∧ e.flit = it.flit ∧ e.phase = .ackwait ∧ e.grant = .e ∧
       (t.pad d).stream.inj = (s.pad d).stream.inj ++
         [s.foldAnswer d p it.flit (s.compOf d p it.flit .e false 0)] ∧
       ((t.pad d).folds[p]).memQ = [] ∧ (∀ n, n ≠ p → (t.pad d).folds[n] = (s.pad d).folds[n]))

/-- The data of a full push and of a Put is committed: a read of the line's memory side then finds it, or its write
stands in the memory queue; poisoned data too (log entry 34). A full push, a PutDirty and a PutClean are answered Comp
and leave no entry (03 R90, R93, 06 R148); the Comp's AUX names index 0, the lowest that is free, log entry 10. A far
AtomicOp changes the bytes of its operand alone, returns the old value in those bytes and zero in every other, and an
ADD adds modulo 2^(8 x size) (07 R181 to R183). -/
def Obligations.WritesCommitAndAtomicsOperate : Prop :=
  (∀ (s : State) (d : Die) (p : PFold) (it : PenItem), s.Serves d p it →
     (∀ x, ((s.pad d).folds[p]).datOf it.flit = some x →
       ∀ c ∈ [(ReqOp.pushFull, Instr.pushFull d p), (ReqOp.putDirty, Instr.putDirty d p), (ReqOp.putCopy, Instr.putCopy d p)],
       it.flit.op = c.1 →
       ∃ t, exec c.2 s = .next t ∧ s.OnlyPad t d ∧ ((t.pad d).folds[p]).pens = [] ∧
         (((t.fc d p).msLook (lineOf it.flit.addr) none).2 = .data x.payload x.poison ∨
           ((t.pad d).folds[p]).memQ = [{ op := .lineWrite, cls := it.flit.cls, line := lineOf it.flit.addr
                                          data := x.payload, poison := x.poison, purpose := .commit }]) ∧
         (it.flit.op ≠ .putCopy → ((t.pad d).folds[p]).tt = [] ∧
           s.foldAnswer d p it.flit (s.compOf d p it.flit .i false 0) ∈ (t.pad d).stream.inj) ∧
         (it.flit.op = .putCopy → ∀ e ∈ ((t.pad d).folds[p]).tt, e.flit = it.flit ∧ e.commit = true) ∧
         (∀ n, n ≠ p → (t.pad d).folds[n] = (s.pad d).folds[n])) ∧
     (it.flit.op = .putClean →
       ∃ t, exec (.putClean d p) s = .next t ∧ s.OnlyPad t d ∧ ((t.pad d).folds[p]).pens = [] ∧
         ((t.pad d).folds[p]).tt = [] ∧ ((t.pad d).folds[p]).memQ = [] ∧ ((t.pad d).folds[p]).poolTag = [] ∧
         s.foldAnswer d p it.flit (s.compOf d p it.flit .i false 0) ∈ (t.pad d).stream.inj ∧
         (∀ n, n ≠ p → (t.pad d).folds[n] = (s.pad d).folds[n]))) ∧
  (∀ (f : ReqFlit) (line push : LineData) (n : Nat), f.op = .atomicOp → f.bad = false → asizeBytes f.asize = some n →
     (∀ i : Fin 64, ¬(offOf f.addr ≤ i.val ∧ i.val < offOf f.addr + n) →
       byteOf (atomicLine f line push).1 i.val = byteOf line i.val ∧ byteOf (atomicLine f line push).2 i.val = 0) ∧
     (∀ i : Fin 64, offOf f.addr ≤ i.val → i.val < offOf f.addr + n →
       byteOf (atomicLine f line push).2 i.val = byteOf line i.val) ∧
     operandAt (atomicLine f line push).1 (offOf f.addr) n =
       atomicNew f.atop n (operandAt line (offOf f.addr) n) (operandAt push (offOf f.addr) n)
         (operandAt push (offOf f.addr ^^^ 32) n) ∧
     (f.atop = 0 → operandAt (atomicLine f line push).1 (offOf f.addr) n =
       (operandAt line (offOf f.addr) n + operandAt push (offOf f.addr) n) % 2 ^ (8 * n)))

/-- Sweep, Purge and SweepPurge of a line that nothing holds are answered Comp, leave no entry, and write nothing to
memory (03 R90, 06 R166); the Comp's AUX names index 0, the lowest that is free, log entry 10. What maintenance does
to a dirty Pool way whose data is sound: Sweep writes the line to memory and leaves the way clean, Purge drops it
without a write, SweepPurge moves it to the Eddy and writes it (06 R166, R154). -/
def Obligations.MaintenanceActsByOpcode : Prop :=
  (∀ (s : State) (d : Die) (p : PFold) (it : PenItem), s.Serves d p it →
     ∀ c ∈ [(ReqOp.sweep, Instr.sweep d p), (ReqOp.purge, Instr.purge d p), (ReqOp.sweepPurge, Instr.sweepPurge d p)],
     it.flit.op = c.1 →
     ∃ t, exec c.2 s = .next t ∧ s.OnlyPad t d ∧ ((t.pad d).folds[p]).pens = [] ∧ ((t.pad d).folds[p]).tt = [] ∧
       ((t.pad d).folds[p]).memQ = [] ∧ ((t.pad d).folds[p]).eddy = [] ∧
       (t.pad d).stream.inj = (s.pad d).stream.inj ++ [s.foldAnswer d p it.flit (s.compOf d p it.flit .i false 0)] ∧
       (∀ n, n ≠ p → (t.pad d).folds[n] = (s.pad d).folds[n])) ∧
  (∀ (c : FC) (set ph : Nat) (cls : Cls) (r : PoolTagRec), c.f.ptag set ph = r → r.valid = true → r.dirty = true →
     r.poison = false → r.dcrc = dataCrc (c.f.pdata set ph) →
     let l := lineOfPool c.n set r.tag
     let w : MemReq := { op := .lineWrite, cls := cls, line := l, data := c.f.pdata set ph, purpose := .commit }
     (((c.wayMaint .sweep set ph cls false).1.f.ptag set ph).dirty = false ∧
       ((c.wayMaint .sweep set ph cls false).1.f.ptag set ph).valid = true ∧
       (c.wayMaint .sweep set ph cls false).1.f.memQ = c.f.memQ ++ [w] ∧ (c.wayMaint .sweep set ph cls false).2 = (1, 0)) ∧
     (((c.wayMaint .purge set ph cls false).1.f.ptag set ph).valid = false ∧
       (c.wayMaint .purge set ph cls false).1.f.memQ = c.f.memQ ∧ (c.wayMaint .purge set ph cls false).2 = (0, 1)) ∧
     (((c.wayMaint .sweepPurge set ph cls false).1.f.ptag set ph).valid = false ∧
       (c.wayMaint .sweepPurge set ph cls false).1.f.memQ = c.f.memQ ++ [{ w with purpose := .eddy }] ∧
       (c.wayMaint .sweepPurge set ph cls false).1.f.eddy = c.f.eddy ++
         [{ line := l, data := c.f.pdata set ph, dcrc := r.dcrc, poison := false }] ∧
       (c.wayMaint .sweepPurge set ph cls false).2 = (1, 1)))

/-- A DevRead or DevWrite that a fold pulls takes an entry, which does not block its line, and goes to the memory queue
with its bytes (03 R94, 06 R173). A reserved opcode, and a request that 02 R45 or 07 R181 calls malformed, is answered
Err PROTOCOL; its entry is free again at once, and nothing else happens to the line (02 R47, R59, 03 R78). -/
def Obligations.DeviceAndMalformedRequests : Prop :=
  (∀ (s : State) (d : Die) (p : PFold) (it : PenItem) (i : TTIdx), (s.pad d).foldRuns p = true →
     ((s.pad d).repl.carries d p).isSome = true → (s.fc d p).pull = some it → it.flit.bad = false →
     (s.pad d).repl.mpSlot it.flit.addr = none → (s.fc d p).ttRoom it.flit = true →
     freeIdx ((s.pad d).folds[p]) = some i → ((s.pad d).folds[p]).ttHead.same = true →
     ((s.pad d).folds[p]).ttTail.same = true →
     (it.flit.op = .devRead →
       ∃ t e, exec (.devRead d p) s = .next t ∧ s.OnlyPad t d ∧ ((t.pad d).folds[p]).pens = ((s.pad d).folds[p]).pens.erase it ∧
         ((t.pad d).folds[p]).tt = ((s.pad d).folds[p]).tt ++ [e] ∧ e.idx = i ∧ e.flit = it.flit ∧ e.phase = .data ∧
         e.devOut = true ∧ e.blocks = false ∧
         ((t.pad d).folds[p]).memQ = ((s.pad d).folds[p]).memQ ++
           [{ op := .devRead, cls := it.flit.cls, line := lineOf it.flit.addr, off := BitVec.ofNat 6 (offOf it.flit.addr)
              len := it.flit.len, purpose := .dev i }] ∧
         (∀ n, n ≠ p → (t.pad d).folds[n] = (s.pad d).folds[n])) ∧
     ∀ x, it.flit.op = .devWrite → ((s.pad d).folds[p]).datOf it.flit = some x →
       ∃ t e, exec (.devWrite d p) s = .next t ∧ s.OnlyPad t d ∧ ((t.pad d).folds[p]).pens = ((s.pad d).folds[p]).pens.erase it ∧
         ((t.pad d).folds[p]).tt = ((s.pad d).folds[p]).tt ++ [e] ∧ e.idx = i ∧ e.flit = it.flit ∧ e.phase = .data ∧
         e.devOut = true ∧ e.blocks = false ∧
         ((t.pad d).folds[p]).memQ = ((s.pad d).folds[p]).memQ ++
           [{ op := .devWrite, cls := it.flit.cls, line := lineOf it.flit.addr, off := BitVec.ofNat 6 (offOf it.flit.addr)
              len := it.flit.len, data := keepBytes x.payload (offOf it.flit.addr) it.flit.len.toNat, poison := x.poison
              purpose := .dev i }] ∧
         (∀ n, n ≠ p → (t.pad d).folds[n] = (s.pad d).folds[n])) ∧
  (∀ (s : State) (d : Die) (p : PFold) (it : PenItem), (s.pad d).foldRuns p = true →
     ((s.pad d).repl.carries d p).isSome = true → (s.fc d p).pull = some it → it.flit.bad = true →
     ((s.pad d).folds[p]).tt = [] → (freeIdx ((s.pad d).folds[p])).isSome = true →
     ((s.pad d).folds[p]).ttHead.same = true → ((s.pad d).folds[p]).ttTail.same = true →
     ∀ c, (c = Instr.reservedOpcode d p ∧ (∃ n, it.flit.op = .reserved n) ∨
         c = Instr.getOnce d p ∧ it.flit.op = .getOnce ∨ c = Instr.pushIO d p ∧ it.flit.op = .pushIO ∨
         c = Instr.devRead d p ∧ it.flit.op = .devRead ∨ c = Instr.devWrite d p ∧ it.flit.op = .devWrite ∨
         c = Instr.atomicOp d p ∧ it.flit.op = .atomicOp) →
       ∃ t, exec c s = .next t ∧ s.OnlyPad t d ∧ ((t.pad d).folds[p]).pens = ((s.pad d).folds[p]).pens.erase it ∧
         ((t.pad d).folds[p]).tt = [] ∧ ((t.pad d).folds[p]).memQ = ((s.pad d).folds[p]).memQ ∧
         ((t.pad d).folds[p]).tally = ((s.pad d).folds[p]).tally ∧ ((t.pad d).folds[p]).em = ((s.pad d).folds[p]).em ∧
         ((t.pad d).folds[p]).poolTag = ((s.pad d).folds[p]).poolTag ∧
         (t.pad d).stream.inj = (s.pad d).stream.inj ++ [s.foldAnswer d p it.flit
           { op := .err, src := (s.fc d p).agent, tgt := it.flit.src, txid := it.flit.txid, ecode := 4 }])

/-- A snoop answer leaves the Stream and its entry stops waiting for that agent: SnpAckWB counts a writeback to come,
SnpAck with DATA data to come, and an answer that keeps the line is marked. SnpData is the entry's dirty line from
then on. CompAck frees its entry (02 R67, 03 R79, R80, R86, R91). A PutData or PushData flit enters the data inbox of
its fold (02 R48, 03 R96); one of a request that was abandoned there is discarded (11 R292). -/
def Obligations.FoldsTakeAnswersAndData : Prop :=
  (∀ (s : State) (d : Die) (a : Spot) (p : PFold) (e : TTEntry), s.FoldAt d a p → ((s.pad d).folds[p]).tt = [e] →
     (∀ r, s.Stands d .rsp a (.rsp r) → isFold r.tgt = true → r.txid.toNat = e.idx.val →
       (e.AwaitsAnswers → SnpTarget.agent r.src ∈ e.waits → (∃ x ∈ e.waits, x ≠ .agent r.src) → localOf r.src ≠ 124 →
         let kept := !e.snpOp.invalidates && (if r.op == .snpAckWB then r.state == .e else r.state != .i)
         ∀ c ∈ [(RspOp.snpAck, Instr.snpAck d a 0), (.snpAckWB, .snpAckWB d a 0)], r.op = c.1 →
         ∃ t e', exec c.2 s = .next t ∧ t.krovol = s.krovol ∧ t.tether = s.tether ∧ t.pending = s.pending ∧
           (t.pad d).stream = (s.pad d).stream.take .rsp a ∧ ((t.pad d).folds[p]).tt = [e'] ∧
           e'.waits = e.waits.filter (fun x => x != .agent r.src) ∧ e'.flit = e.flit ∧ e'.phase = e.phase ∧ e'.ms = e.ms ∧
           e'.wbAcks = e.wbAcks + (if r.op = .snpAckWB then 1 else 0) ∧
           e'.dataAcks = e.dataAcks + (if r.op = .snpAck ∧ r.data = true then 1 else 0) ∧
           e'.dataGot = e.dataGot ∧ e'.remain = (e.remain || kept) ∧
           (∀ n, n ≠ p → (t.pad d).folds[n] = (s.pad d).folds[n]) ∧
           (t.pad d).gates = (s.pad d).gates ∧ (t.pad d).stiles = (s.pad d).stiles) ∧
       (r.op = .compAck → e.phase = .ackwait → e.flit.src = r.src → ((s.pad d).folds[p]).ttHead.same = true →
         ((s.pad d).folds[p]).ttTail.same = true →
         ∃ t, exec (.compAck d a 0) s = .next t ∧ s.OnlyPad t d ∧ ((t.pad d).folds[p]).tt = [] ∧
           (t.pad d).stream = (s.pad d).stream.take .rsp a ∧
           ((t.pad d).folds[p]).pens = ((s.pad d).folds[p]).pens ∧ ((t.pad d).folds[p]).memQ = ((s.pad d).folds[p]).memQ ∧
           (∀ n, n ≠ p → (t.pad d).folds[n] = (s.pad d).folds[n]))) ∧
     ∀ x, s.Stands d .dat a (.dat x) → isFold x.tgt = true → x.op = .snpData → x.txid.toNat = e.idx.val →
       e.AwaitsAnswers → e.waits ≠ [] → e.sent ≠ [] →
       ∃ t e', exec (.snpData d a 0) s = .next t ∧ t.krovol = s.krovol ∧ t.tether = s.tether ∧ t.pending = s.pending ∧
         (t.pad d).stream = (s.pad d).stream.take .dat a ∧ ((t.pad d).folds[p]).tt = [e'] ∧ e'.flit = e.flit ∧
         e'.waits = e.waits ∧ e'.lb = x.payload ∧ e'.poison = x.poison ∧ e'.dirty = true ∧ e'.dataGot = e.dataGot + 1 ∧
         (e.row.ownCommit = false → e'.commit = true) ∧ (e.row.ownCommit = true → e'.commit = false) ∧
         (∀ n, n ≠ p → (t.pad d).folds[n] = (s.pad d).folds[n])) ∧
  (∀ (s : State) (d : Die) (a : Spot) (p : PFold) (x : DatFlit), s.FoldAt d a p → s.Stands d .dat a (.dat x) →
     isFold x.tgt = true →
     ∀ c ∈ [(DatOp.putData, Instr.putData d a 0), (.pushData, .pushData d a 0)], x.op = c.1 →
     let f := (s.pad d).folds[p]
     let u := s.modPad d fun q => q.took .dat a
     (f.deadDat.contains (x.src, x.txid) = false →
       exec c.2 s = .next (u.modFold d p fun y => { y with inbox := y.inbox ++ [x] })) ∧
     (f.deadDat.contains (x.src, x.txid) = true →
       exec c.2 s = .next (u.modFold d p fun y => { y with deadDat := y.deadDat.erase (x.src, x.txid) })))

/-- The memory port of a fold issues the request that is next while its credits last, at most one a cycle, each under a
tag not in use, a write's two beats of data behind it (19 R510, R511), or answers a read from the write of its line that
is queued before it (03 R88); a credit returns up to the initial count;
a write's response frees its tag and its Eddy entry; read data completes a DevRead (with a failure: Err DEVICE_ERROR),
or goes to the transactions of its miss register (03 R94, R95, 06 R149, R154, 19 R510 to R513). -/
def Obligations.MemoryPortServesTheFold : Prop :=
  ∀ (s : State) (d : Die) (p : PFold) (n : LFold),
    let f := (s.pad d).folds[p]
    (∀ m t x poison, (s.pad d).foldRuns p = true → ((s.pad d).repl.carries d p).isSome = true →
      f.nextMem = some (.issue m) → f.freeTag = some t → (s.fc d p).writeData m = (s.fc d p, x, poison) →
      (m.purpose ≠ .eddy → x = m.data ∧ poison = m.poison) ∧
      (∀ x ∈ f.mpOpen, x.1 ≠ t) ∧ m ∈ f.memQ ∧ (if m.op.isWrite then 0 < f.wcred else 0 < f.rcred) ∧
      ((s.pad d).aon.hcycle < f.memFrom → exec (.memoryRequestIssue d p) s = .next s) ∧
      (f.memFrom ≤ (s.pad d).aon.hcycle → exec (.memoryRequestIssue d p) s = .next (s.modFold d p fun y => { y with
        memQ := y.memQ.erase m, memFrom := (s.pad d).aon.hcycle + 1, mwd := y.mwd ++ m.beats x
        mpOpen := y.mpOpen ++ [(t, { m with data := x, poison := poison })]
        wcred := if m.op.isWrite then y.wcred - 1 else y.wcred
        rcred := if m.op.isWrite then y.rcred else y.rcred - 1 }))) ∧
    (∀ m w r e x poison, (s.pad d).foldRuns p = true → ((s.pad d).repl.carries d p).isSome = true →
      f.nextMem = some (.answer m w) → (s.fc d p).writeData w = (s.fc d p, x, poison) → m.purpose = .mr r.idx →
      f.mrs = [r] → r.stale = false → r.scrub = false → r.rider = none → r.atts = [e.idx] → f.tt = [e] →
      e.AwaitsAnswers → e.waits ≠ [] → e.couldDirty = true →
      FC.setLost { s.fc d p with f := { f with memQ := f.memQ.erase m }, atype := e.atype } r = false →
      m ∈ f.memQ ∧ w ∈ f.memQ ∧ w.op = .lineWrite ∧ w.line = m.line ∧
      ∃ t, exec (.memoryRequestIssue d p) s = .next t ∧ t.krovol = s.krovol ∧ t.pending = s.pending ∧
        ((t.pad d).folds[p]).tt = [{ e with ms := .held x poison, mr := none }] ∧ ((t.pad d).folds[p]).mrs = [] ∧
        ((t.pad d).folds[p]).mpOpen = f.mpOpen ∧ ((t.pad d).folds[p]).wcred = f.wcred ∧
        ((t.pad d).folds[p]).rcred = f.rcred ∧
        (t.pad d).stream = (s.pad d).stream ∧ (∀ k, k ≠ p → (t.pad d).folds[k] = (s.pad d).folds[k])) ∧
    ((s.pad d).repl.pfoldOf d n = some p →
      (∀ write, exec (.memoryCreditReturn d n write) s = .next (s.modFold d p fun y =>
        if write then { y with wcred := min s.krovol.wcred (y.wcred + 1) }
        else { y with rcred := min s.krovol.rcred (y.rcred + 1) })) ∧
      ((s.pad d).portRuns p = true →
        (∀ tag m x err, f.mpOpen = [(tag, m)] → m.op = .lineWrite → m.purpose = .eddy → f.eddy = [x] → x.line = m.line →
          f.tt = [] → exec (.memoryWriteResponse d n tag err) s = .next (s.modFold d p fun y => { y with
            mpOpen := [], eddy := [] })) ∧
        (∀ tag m e data poison err, f.mpOpen = [(tag, m)] → m.op = .devRead → m.purpose = .dev e.idx → f.tt = [e] →
          f.ttHead.same = true → f.ttTail.same = true →
          ∃ t, exec (.memoryReadData d n tag data poison err) s = .next t ∧ s.OnlyPad t d ∧
            ((t.pad d).folds[p]).tt = [] ∧ ((t.pad d).folds[p]).mpOpen = [] ∧
            (poison = false → err = false → (t.pad d).stream.inj = (s.pad d).stream.inj ++
              [s.foldSends d p .dat e.flit.cls
                 (.dat { op := .dataToReq, src := (s.fc d p).agent, tgt := e.flit.src, txid := e.flit.txid
                         payload := keepBytes data (offOf e.flit.addr) e.flit.len.toNat }),
               s.foldAnswer d p e.flit (s.compOf d p e.flit .i true e.idx)]) ∧
            (poison = true ∨ err = true → (t.pad d).stream.inj = (s.pad d).stream.inj ++
              [s.foldAnswer d p e.flit { op := .err, src := (s.fc d p).agent, tgt := e.flit.src, txid := e.flit.txid
                                         ecode := 3 }]) ∧
            (∀ k, k ≠ p → (t.pad d).folds[k] = (s.pad d).folds[k])) ∧
        ∀ tag m r e data poison err, f.mpOpen = [(tag, m)] → m.op = .lineRead → m.purpose = .mr r.idx → f.mrs = [r] →
          r.stale = false → r.scrub = false → r.rider = none → r.atts = [e.idx] → f.tt = [e] → e.AwaitsAnswers →
          e.waits ≠ [] → e.couldDirty = true →
          FC.setLost { s.fc d p with f := { f with mpOpen := [] }, atype := e.atype } r = false →
          ∃ t, exec (.memoryReadData d n tag data poison err) s = .next t ∧ t.krovol = s.krovol ∧ t.pending = s.pending ∧
            ((t.pad d).folds[p]).tt = [{ e with ms := .held data (poison || err), mr := none }] ∧
            ((t.pad d).folds[p]).mrs = [] ∧ ((t.pad d).folds[p]).mpOpen = [] ∧
            (t.pad d).stream = (s.pad d).stream ∧ (∀ k, k ≠ p → (t.pad d).folds[k] = (s.pad d).folds[k])))

/-- What a time limit brings at a fold, and not before: 64 idle cycles of a fold whose target is DOZE gate its clock (14
R367), an UNSURE window ends (04 R122), an entry beyond its share is reported once (0xD03, 11 R290), and an item at
its abandon limit leaves its pen with Err ABANDONED and 0xD02 (11 R292, 03 R83). -/
def Obligations.FoldTimesRunOut : Prop :=
  ∀ (s : State) (d : Die) (p : PFold),
    let f := (s.pad d).folds[p]
    let x := (s.pad d).ebb.fold[p]
    ((s.pad d).running = true → x.target = .doze → x.state = .run → x.gated = false → s.foldBusy d p = false →
      exec (.dozeGate d p) s = .next (if x.idleSince + 64 ≤ (s.pad d).aon.hcycle then s.modPad d fun q => { q with
        ebb := { q.ebb with fold := vmod q.ebb.fold p fun y => { y with gated := true, state := .doze } } } else s)) ∧
    exec (.unsureWindowEnd d p) s = .next (if f.unsureEnd ≤ (s.pad d).now then
      s.modFold d p fun y => { y with unsure := [] } else s) ∧
    ((s.pad d).foldRuns p = true →
      (∀ e, f.tt = [e] → e.phase ≠ .ackwait → e.phase ≠ .orphan → e.shareMissed = false →
        ((s.pad d).now < e.shareBy → exec (.foldShareExceeded d p e.idx) s = .next s) ∧
        (e.shareBy ≤ (s.pad d).now → ∃ t, exec (.foldShareExceeded d p e.idx) s = .next t ∧ s.OnlyPad t d ∧
          ((t.pad d).folds[p]).tt = [{ e with shareMissed := true }] ∧ (t.pad d).stream = (s.pad d).stream ∧
          (s.pad d).Filed (t.pad d) (s.foldReport d p 0xD03 (lineAddr e.line) e.atype))) ∧
      ∀ it, f.pens = [it] →
        ((s.pad d).now < it.af → exec (.transactionAbandoned d p (.item it.flit.src it.flit.txid)) s = .next s) ∧
        (it.af ≤ (s.pad d).now →
          ∃ t, exec (.transactionAbandoned d p (.item it.flit.src it.flit.txid)) s = .next t ∧ s.OnlyPad t d ∧
            ((t.pad d).folds[p]).pens = [] ∧ ((t.pad d).folds[p]).tt = f.tt ∧
            (s.pad d).Filed (t.pad d) (s.foldReport d p 0xD02 it.flit.addr it.flit.op.code) ∧
            (t.pad d).stream.inj = (s.pad d).stream.inj ++ [s.foldAnswer d p it.flit
              { op := .err, src := (s.fc d p).agent, tgt := it.flit.src, txid := it.flit.txid, ecode := 2 }] ∧
            (∀ k, k ≠ p → (t.pad d).folds[k] = (s.pad d).folds[k])))

/-- A register port that is free answers an access DENIED, ABSENT, SLUMBER or OKAY, the first that applies: a refused one
changes nothing but the counters of its response, and an address that holds no register reads 0 and ignores writes; a
port that is busy takes none (18 R474, R477, R478). -/
def Obligations.RegisterPortAnswersInOrder : Prop :=
  ∀ (s : State) (w : Who) (a : RegAddr) (wr : Option Word),
    let c : Instr := match wr with
      | some v => .registerWrite w a v
      | none => .registerRead w a
    let u : Who := { w with bar0 := false }
    let t := s.target w.via a
    let laid := s.krovol.laid t.block t.off
    let bad : Prop := (wr.isSome = true ∧ w.strb ≠ 15) ∨ a.toNat % 4 ≠ 0 ∨
      (laid = true ∧ (s.pad t.srv).repl.permits (t.block.priv t.off) wr.isSome w.dom = false)
    ((s.pad w.via).boot.poreset = true ∨ (s.pad w.via).rp.busy = true → exec c s = .next s) ∧
    ((s.pad w.via).boot.poreset = false → (s.pad w.via).rp.busy = false →
      (bad → exec c s = .next ((s.modPad t.srv fun q => { q with common := { q.common with
        denied := q.common.denied + 1
        cap := if bitAt q.common.cap 31 then q.common.cap else capWord u a wr.isSome } }).portReply w.via respDenied 0)) ∧
      (¬bad → t.absent = true → exec c s = .next ((s.modPad t.srv fun q => { q with
        common := { q.common with absent := q.common.absent + 1 } }).portReply w.via respAbsent 0)) ∧
      (∀ x i, ¬bad → t.absent = false → s.asleep u t = some (x, i) → (s.pad x).autoWakes x i = false →
        exec c s = .next ((s.modEbb t.srv fun e => { e with offAccess := e.offAccess + 1 }).portReply w.via respSlumber
          0xFFFFFFFF)) ∧
      (¬bad → t.absent = false → s.asleep u t = none → laid = false →
        (wr = none → (s.pad t.srv).bell.unlocked = false) → exec c s = .next (s.okay w.via 0)))

/-- A granted read of a register returns its fields and changes nothing: identity, lock and privilege masks (18 R483
to R487), Tide budgets (11), access counters (18 R475), Ebb's registers (14 R390, R393), Bell's next SEQ (13 R355),
Stream limits and sluices (09 R256), queue space (15 R427), the Tether's control (16 R451). Reads with an effect:
TIDE_NOW_LO captures the upper half of Tide (11 R304), a Census counter's _LO its own (17 R464), BW_PEEK its entry's
STAMP (07 R198). -/
def Obligations.ReadsReturnAndCapture : Prop :=
  (∀ (s : State) (w : Who) (a : RegAddr),
     let r := (s.pad w.via).repl
     let repl (o : Nat) : Target := ⟨.repl, o, w.via, false⟩
     s.ReadsAs w a (repl 0x00) 0x01080B00 ∧
     s.ReadsAs w a (repl 0x04) (word [(0, s.krovol.planned.toNat), (8, r.present.toNat), (16, r.leader.val),
       (19, bit r.formed)]) ∧
     s.ReadsAs w a (repl 0x08) (word [(0, bit r.lockHash), (1, bit r.lockPriv)]) ∧
     s.ReadsAs w a (repl 0x80) (r.privBlk.extractLsb' 0 32) ∧ s.ReadsAs w a (repl 0x84) (r.privBlk.extractLsb' 32 32) ∧
     (∀ i : Fin 8, s.ReadsAs w a (repl (0x90 + 4 * i.val)) r.privQp[i]) ∧
     (∀ i : Fin 4, s.ReadsAs w a (repl (0xB0 + 4 * i.val)) r.privEq[i]) ∧
     s.ReadsAs w a (repl 0x3004) r.tideHi ∧
     (∀ c : Cls, s.ReadsAs w a (repl (0x3010 + 8 * c.val)) (BitVec.ofNat 32 r.deadline[c]) ∧
       s.ReadsAs w a (repl (0x3014 + 8 * c.val)) (BitVec.ofNat 32 r.share[c])) ∧
     (∀ d : Die,
       let q := s.pad d
       s.ReadsAs w a ⟨.common d, 0x10, d, false⟩ (word [(0, q.common.denied.toNat), (16, q.common.absent.toNat)]) ∧
       s.ReadsAs w a ⟨.common d, 0x14, d, false⟩ q.common.cap ∧
       s.ReadsAs w a ⟨.ebb d, 0x30, d, false⟩ (word [(0, q.ebb.autowake.toNat)]) ∧
       s.ReadsAs w a ⟨.ebb d, 0x34, d, false⟩ (word [(0, q.ebb.offAccess.toNat)]) ∧
       s.ReadsAs w a ⟨.ebb d, 0x58, d, false⟩ 0 ∧
       s.ReadsAs w a ⟨.ebb d, 0x60, d, false⟩ (q.aon.alarm.extractLsb' 0 32) ∧
       s.ReadsAs w a ⟨.ebb d, 0x64, d, false⟩ (q.aon.alarm.extractLsb' 32 32) ∧
       s.ReadsAs w a ⟨.bell d, 0x18, d, false⟩ q.aon.nextSeq ∧
       s.ReadsAs w a ⟨.stream d, 0x00, d, false⟩ (word [(0, q.stream.starve.toNat)]) ∧
       (∀ (g : GateN) (k : Cls), s.ReadsAs w a ⟨.stream d, 0x1000 + (4 * g.val + k.val) * 8, d, false⟩
         (word [(0, (((q.gates[g]).port.sluice)[k]).rate.toNat), (31, bit (((q.gates[g]).port.sluice)[k]).enable)])) ∧
       (∀ n : QN, s.ReadsAs w a ⟨.queue, 0x20 * n.val + 0x08, d, false⟩ (BitVec.ofNat 32 (512
         - (((q.shep.cq[n]).packets.map List.length).sum) - (q.shep.cq[n]).words.length)))) ∧
     (∀ d : Die, s.krovol.tether = some d → s.ReadsAs w a ⟨.tether, 0x00, d, false⟩
       (word [(0, s.tether.aperLog2.toNat), (6, bit s.tether.lock)]))) ∧
  (∀ (s : State) (w : Who),
     (s.Granted w 0x3000 ⟨.repl, 0x3000, w.via, false⟩ false →
       exec (.tideNowLo w) s = .next ((s.modPad w.via fun q => { q with
         repl := { q.repl with tideHi := BitVec.ofNat 32 (q.now / 2 ^ 32) } }).okay w.via (BitVec.ofNat 32 (s.pad w.via).now))) ∧
     (∀ (d : Die) (p : PFold) (n : Fin 8) (a : RegAddr),
       s.Granted w a ⟨.foldCensus d p, 0x40 + 8 * n.val, d, false⟩ false →
       let u := s.ungate d p
       let v := (((((u.pad d).folds[p]).census).ctr)[n]).val
       exec (.censusCtrLo w a) s = .next ((u.modFold d p fun f => { f with census := { f.census with
         hi := vset f.census.hi (Fin.ofNat 13 (5 + n.val)) (BitVec.ofNat 32 (v.toNat / 2 ^ 32)) } }).okay w.via
           (BitVec.ofNat 32 v.toNat))) ∧
     (∀ (d : Die) (n : Fin 16) (a : RegAddr), s.Granted w a ⟨.census d, 0x1400 + 8 * n.val, d, false⟩ false →
       let v := (((s.pad d).census.ctr)[n]).val
       exec (.censusCtrLo w a) s = .next ((s.modPad d fun q => { q with census := { q.census with
         hi := vset q.census.hi (Fin.ofNat 17 n.val) (BitVec.ofNat 32 (v.toNat / 2 ^ 32)) } }).okay w.via
           (BitVec.ofNat 32 v.toNat))) ∧
     (∀ (d : Die) (p : PFold), s.Granted w (foldAddr d p 0x4024) ⟨.fold d p, 0x4024, d, false⟩ false →
       let u := s.ungate d p
       let e := smGet ((u.pad d).folds[p]).pred predDflt ((u.pad d).folds[p]).peekIdx.toNat
       let v := word [(0, e.ctr.toNat), (3, bit e.valid), (4, bit e.near), (5, e.src.toNat), (15, 0)]
       e.ok = true →
       exec (.bwPeek w d p) s = .next ((u.modFold d p fun f => { f with
         peek := v.extractLsb' 0 16, peekStamp := e.stamp.extractLsb' 0 32 }).okay w.via v)))

/-- A granted write of a field sets it, clears its bits or starts its action, and does nothing else: sluices (09 R245; a
BURST beyond 65,536 acts as written, the model's reading, log entry 48),
the predictor's CLEAR (07 R196), BELL_CLEAR (13 R355), CENSUS_CLR (17 R464), EBB_WAKE (14 R393) and other fields by
their types (18 R473). -/
def Obligations.WritesReachTheirFields : Prop :=
  ∀ (s : State) (w : Who) (v : Word) (d : Die),
    (∀ (g : GateN) (k : Cls),
      let setTo (f : Sluice → Sluice) : State := s.modPad d fun q => { q with gates := vmod q.gates g fun x =>
        { x with port := { x.port with sluice := vmod x.port.sluice k f } } }
      s.WritesAs w (.streamSluiceRate w d (Fin.ofNat 30 g.val) k v) (sluiceAddr d (Fin.ofNat 30 g.val) k 0)
        ⟨.stream d, 0x1000 + (4 * g.val + k.val) * 8, d, false⟩ (setTo fun x => { x with
          rate := v.extractLsb' 0 20, enable := bitAt v 31, rem := 0, upTo := (s.pad d).now
          level := max 64 x.burst.toNat * 65536 }) ∧
      s.WritesAs w (.streamSluiceBurst w d (Fin.ofNat 30 g.val) k v) (sluiceAddr d (Fin.ofNat 30 g.val) k 4)
        ⟨.stream d, 0x1004 + (4 * g.val + k.val) * 8, d, false⟩ (setTo fun x => { x with
          burst := v.extractLsb' 0 17, rem := 0, upTo := (s.pad d).now
          level := max 64 (v.extractLsb' 0 17).toNat * 65536 })) ∧
    (∀ p : PFold,
      s.WritesAs w (.clear w d p v) (foldAddr d p 0x4000) ⟨.fold d p, 0x4000, d, false⟩
        ((s.ungate d p).modFold d p fun f => { f with pred := if bitAt v 0 then [] else f.pred }) ∧
      s.WritesAs w (.censusClr w d p v) (padAddr d (0x340000 + p.val * 0x400 + 0xA4)) ⟨.foldCensus d p, 0xA4, d, false⟩
        ((s.ungate d p).modFold d p fun f => { f with census := if bitAt v 0 then { f.census with
          cycle := 0, slot := Vector.replicate 4 0, ctr := f.census.ctr.map fun c => { c with val := 0 } } else f.census })) ∧
    s.WritesAs w (.bellClear w d v) (padAddr d 0x3C001C) ⟨.bell d, 0x1C, d, false⟩ (s.modPad d fun q =>
      let gone (x : BellRec) : Bool := decide ((v - x.seq).toNat < 2 ^ 31)
      let slots := (q.bell.recs.filter gone).map fun x => x.slot
      { q with bell := { q.bell with
        recs := q.bell.recs.filter fun x => !gone x, storms := q.bell.storms.filter fun x => !slots.contains x.slot } }) ∧
    s.WritesAs w (.ebbWake w d v) (padAddr d 0x300058) ⟨.ebb d, 0x58, d, false⟩
      (if bitAt v 0 then (s.pcount d 0x31 2).nfWake else s) ∧
    ∀ a,
      s.WritesAs w (.registerWrite w a v) a ⟨.repl, 0x00, w.via, false⟩ s ∧
      s.WritesAs w (.registerWrite w a v) a ⟨.common d, 0x18, d, false⟩ (s.modPad d fun q => { q with aon := { q.aon with
        rstPor := q.aon.rstPor && !bitAt v 0, rstPad := q.aon.rstPad && !bitAt v 1
        rstShOn := q.aon.rstShOn && !bitAt v 2 } }) ∧
      s.WritesAs w (.registerWrite w a v) a ⟨.ebb d, 0x30, d, false⟩ (s.modPad d fun q => { q with
        ebb := { q.ebb with autowake := v.extractLsb' 0 12 } }) ∧
      s.WritesAs w (.registerWrite w a v) a ⟨.ebb d, 0x60, d, false⟩ (s.modPad d fun q => { q with
        aon := { q.aon with alarm := q.aon.alarm.extractLsb' 32 32 ++ v } }) ∧
      s.WritesAs w (.registerWrite w a v) a ⟨.bell d, 0x20, d, false⟩ (s.modPad d fun q => { q with
        aon := { q.aon with sticky := q.aon.sticky &&& ~~~(v.extractLsb' 0 10) } }) ∧
      s.WritesAs w (.registerWrite w a v) a ⟨.stream d, 0x00, d, false⟩ (s.modPad d fun q => { q with
        stream := { q.stream with starve := v.extractLsb' 0 8 } }) ∧
      ∀ g : GateN, s.WritesAs w (.registerWrite w a v) a ⟨.gate d g, 0x00, d, false⟩ (s.modPad d fun q => { q with
        gates := vmod q.gates g fun x => { x with putCleanEn := bitAt v 0, cbEn := bitAt v 1 } })

/-- A write to a replicated register reaches the copy of every member and of no other die (18 R471): the privilege masks,
which the lock freezes, and the lock, which GUARD alone sets and nothing clears (18 R482); every other replicated
register ignores writes. -/
def Obligations.ReplicatedWritesReachEveryMember : Prop :=
  ∀ (s : State) (w : Who) (a : RegAddr) (v : Word) (off : Nat), s.inRange w.via = true →
    s.Granted w a ⟨.repl, off, w.via, false⟩ true →
    ∃ t, exec (.replicatedRegisterWrite w a v) s = .next t ∧ t.krovol = s.krovol ∧ t.tether = s.tether ∧
      t.fresh = s.fresh ∧ t.pending = s.pending ∧ s.SameUnits t ∧
      (t.pad w.via).rp = { rdata := 0, resp := respOkay, ack := true } ∧
      (∀ x, x ∉ s.members w.via → (t.pad x).repl = (s.pad x).repl) ∧
      ∀ x ∈ s.members w.via,
        let r := (s.pad x).repl
        let r' := (t.pad x).repl
        (off = 0x08 → r' = { r with lockPriv := r.lockPriv || (w.dom == 0 && bitAt v 1) }) ∧
        (off ≠ 0x08 → r.lockPriv = true → r' = r) ∧
        (off = 0x80 → r.lockPriv = false → r' = { r with privBlk := r.privBlk.extractLsb' 32 32 ++ v }) ∧
        (off = 0x84 → r.lockPriv = false → r' = { r with privBlk := (v &&& 0x00FFFFFF) ++ r.privBlk.extractLsb' 0 32 }) ∧
        (∀ i : Fin 8, off = 0x90 + 4 * i.val → r.lockPriv = false → r' = { r with privQp := vset r.privQp i v }) ∧
        (∀ i : Fin 4, off = 0xB0 + 4 * i.val → r.lockPriv = false → r' = { r with privEq := vset r.privEq i v }) ∧
        (off < 0x80 ∨ 0xC0 ≤ off → off ≠ 0x08 → r' = r)

/-- A pushed word joins the uncommitted packet, and the last one commits a packet that passes its check; another vanishes
and is counted (0xC21), as does the packet that a 65th word would enter; a push waits while no word is free, and a
host-ring queue discards it; a last word in the cycle of a flush is discarded with its packet (15 R398, R399, R406,
R409). -/
def Obligations.PushesBuildAndCommitPackets : Prop :=
  ∀ (s : State) (w : Who) (l : Die) (q : QN) (v : Word),
    let x := (s.pad l).shep.cq[q]
    let u : Who := { w with bar0 := false }
    x.same = true → ∀ last : Bool,
    let c : Instr := if last then .cqPushLast w q v else .cqPush w q v
    let j : Nat := if last then 4 else 0
    s.Granted w (queueAddr 0x10000 q.val j) ⟨.queue, 0x20 * q.val + j, l, false⟩ true →
    (x.ringMode = true → exec c s = .next ((s.modCq l q fun y => { y with wrongMode := true }).okay w.via 0)) ∧
    (x.ringMode = false → last = true ∧ x.words = [] ∧ x.flushed = some (s.pad l).aon.hcycle →
      exec c s = .next (s.okay w.via 0)) ∧
    (x.ringMode = false → ¬(last = true ∧ x.words = [] ∧ x.flushed = some (s.pad l).aon.hcycle) →
      (x.free = 0 ∨ x.stalled ≠ [] →
        exec c s = .next ((s.modCq l q fun y => { y with stalled := y.stalled ++ [(u, last, v)] }).portWaits w.via)) ∧
      (x.free ≠ 0 → x.stalled = [] →
        (last = false → x.words.length < 64 →
          exec c s = .next ((s.modCq l q fun y => { y with words := y.words ++ [v], tail := y.tail.add 1 }).okay
            w.via 0)) ∧
        (last = true → packetOk (x.words ++ [v]) = true →
          exec c s = .next ((s.modCq l q fun y => { y with
            packets := y.packets ++ [y.words ++ [v]], words := [], tail := y.tail.add 1 }).okay w.via 0)) ∧
        (last = true ∧ packetOk (x.words ++ [v]) = false ∨ last = false ∧ 64 ≤ x.words.length →
          exec c s = .next ((((s.modCq l q fun y => { y with
            words := [], rewound := y.rewound + 1, tail := y.tail.back y.words.length }).queueRep l 0xC21
            q.val).pcount l 0x29 0).okay w.via 0))))

/-- A write of CQ_CTL that sets FLUSH or changes MODE empties the queue; RQ_CTL and EQ_CTL flush theirs (15 R404, R427,
R428). RQ_POP returns the rest of the reply being popped, else the header of the oldest reply of lowest PRI, else
VALID 0; EQ_POP returns the oldest event (15 R402, R407, R428). -/
def Obligations.QueuesFlushAndPop : Prop :=
  (∀ (s : State) (w : Who) (l : Die) (v : Word),
     (∀ q : QN,
       let x := (s.pad l).shep.cq[q]
       x.same = true → x.stalled = [] →
       s.Granted w (queueAddr 0x10000 q.val 0x0C) ⟨.queue, 0x20 * q.val + 0x0C, l, false⟩ true →
       ∀ c ∈ [Instr.cqFlush w q v, .mode w q v],
         (bitAt v 1 = true ∨ bitAt v 0 ≠ x.ringMode →
           exec c s = .next ((s.modCq l q fun y => { y with
             packets := [], words := [], stalled := [], head := {}, tail := {}
             flushed := some (s.pad l).aon.hcycle, ringMode := bitAt v 0 }).okay w.via 0)) ∧
         (bitAt v 1 = false → bitAt v 0 = x.ringMode → exec c s = .next (s.okay w.via 0))) ∧
     (∀ q : QN, ((s.pad l).shep.rq[q]).same = true →
       s.WritesAs w (.rqFlush w q v) (queueAddr 0x11000 q.val 0x0C) ⟨.queue, 0x1000 + 0x20 * q.val + 0x0C, l, false⟩
         (s.modRq l q fun y => if bitAt v 1 then { y with replies := [], current := [], head := {}, tail := {}, irqEn := bitAt v 0 }
           else { y with irqEn := bitAt v 0 })) ∧
     ∀ e : EQN, ((s.pad l).shep.eq[e]).same = true →
       s.WritesAs w (.eqFlush w e v) (queueAddr 0x12000 e.val 0x08) ⟨.queue, 0x2000 + 0x20 * e.val + 0x08, l, false⟩
         (let f (y : EventQueue) : EventQueue := { y with
            events := if bitAt v 9 then [] else y.events, dropped := if bitAt v 9 then 0 else y.dropped
            head := if bitAt v 9 then {} else y.head, tail := if bitAt v 9 then {} else y.tail
            mask := v.extractLsb' 0 8 &&& 0x7F, irqEn := bitAt v 8 }
          s.modShep l fun h => { h with eq := vmod h.eq e f })) ∧
  (∀ (s : State) (w : Who) (l : Die),
     (∀ q : QN,
       let x := (s.pad l).shep.rq[q]
       x.same = true → s.Granted w (queueAddr 0x11000 q.val 0x00) ⟨.queue, 0x1000 + 0x20 * q.val, l, false⟩ false →
       (∀ h t, x.current = h :: t → exec (.rqPop w q) s = .next ((s.modRq l q fun y => { y with
         current := t, popHi := BitVec.ofNat 32 (2 ^ 31 + y.currentPri.toNat * 2 ^ 29), head := y.head.add 1 }).okay w.via h)) ∧
       (∀ before r after, x.current = [] → x.replies = before ++ r :: after → (∀ b ∈ before, r.pri < b.pri) →
         (∀ b ∈ after, r.pri ≤ b.pri) → exec (.rqPop w q) s = .next ((s.modRq l q fun y => { y with
           replies := before ++ after, current := r.words.tail, currentPri := r.pri
           popHi := BitVec.ofNat 32 (2 ^ 31 + r.pri.toNat * 2 ^ 29 + 2 ^ 28), head := y.head.add 1 }).okay w.via (r.words.headD 0))) ∧
       (x.current = [] → x.replies = [] →
         exec (.rqPop w q) s = .next ((s.modRq l q fun y => { y with popHi := 0 }).okay w.via 0))) ∧
     ∀ e : EQN,
       let x := (s.pad l).shep.eq[e]
       s.Granted w (queueAddr 0x12000 e.val 0x00) ⟨.queue, 0x2000 + 0x20 * e.val, l, false⟩ false → x.same = true →
       (∀ h t, x.events = h :: t → exec (.eqPop w e) s = .next ((s.modShep l fun k => { k with
         eq := vmod k.eq e fun y => { y with events := t, popHi := h.extractLsb' 32 32, head := y.head.add 1 } }).okay
           w.via (h.extractLsb' 0 32))) ∧
       (x.events = [] → exec (.eqPop w e) s = .next ((s.modShep l fun k => { k with
         eq := vmod k.eq e fun y => { y with popHi := 0 } }).okay w.via 0)))

/-- A Gate opens one stamped transaction for an access whose bytes lie in one line, two halves for one that crosses a
line, keeps a NORMAL-NC or non-temporal store for its data, and refuses under 0x601 a NORMAL access of a device window
(01 R28, 08 R206, R213, R215, 11 R287). Where a split access meets a device window, its first byte alone decides: the
model's reading, log entry 42. -/
def Obligations.GateOpensStampedTransactions : Prop :=
  ∀ (s : State) (d : Die) (g : GateN) (it : ReqItem) (a : AgentPort), s.AgentIs d (gateAgent g) a → a.Quiet →
    (s.pad d).repl.formed = true → s.member d d = true → (s.pad d).repl.leaving = 0 →
    let r := (s.pad d).repl
    let up := lineAddr (lineOf it.addr + 1)
    let there (x : Addr) : Prop := bitAt r.present (dieOf (r.home x)).val = true ∧
      bitAt (s.pad d).conf.unreach (dieOf (r.home x)).val = false ∧ (r.pfoldOf (dieOf (r.home x)) (lfoldOf (r.home x))).isSome = true
    (s.krovol.devwinOf it.addr = none → it.kind = .ncLoad → there it.addr →
      (∀ z, a.port.freeTxid = some z → offOf it.addr + it.len.toNat ≤ 64 →
        ∃ t x, exec (.c2gReq d (gateAgent g) it) s = .next t ∧ s.OnlyPad t d ∧
          ((t.pad d).agent (gateAgent g)).port.txns = a.port.txns ++ [x] ∧
          x.Stamped r (s.pad d).now .getOnce (agent d g.val) it.addr ∧ x.flit.len = it.len ∧
          x.purpose = .agent it.ctag it.core ∧ x.flit.txid = z ∧ (∀ y ∈ a.port.txns, y.flit.txid ≠ z) ∧
          (t.pad d).stream = (s.pad d).stream ∧ (t.pad d).folds = (s.pad d).folds) ∧
      (a.port.txns = [] → 64 < offOf it.addr + it.len.toNat → there up →
        ∃ t x y, exec (.c2gReq d (gateAgent g) it) s = .next t ∧ s.OnlyPad t d ∧
          ((t.pad d).agent (gateAgent g)).port.txns = [x, y] ∧
          x.Stamped r (s.pad d).now .getOnce (agent d g.val) it.addr ∧ y.Stamped r (s.pad d).now .getOnce (agent d g.val) up ∧
          x.flit.len.toNat = 64 - offOf it.addr ∧ x.flit.len.toNat + y.flit.len.toNat = it.len.toNat ∧
          x.purpose = .half it.ctag it.core false ∧ y.purpose = .half it.ctag it.core true ∧ x.seq < y.seq)) ∧
    (s.krovol.devwinOf it.addr = none → it.kind = .ntStore → offOf it.addr + it.len.toNat ≤ 64 →
      exec (.c2gReq d (gateAgent g) it) s = .next (s.withAgent d (gateAgent g) { a with
        port := { a.port with nextSeq := a.port.nextSeq + 1 }
        stores := [{ seq := a.port.nextSeq, ctag := it.ctag, core := it.core, line := lineOf it.addr, off := offOf it.addr
                     len := it.len.toNat }] })) ∧
    ((s.krovol.devwinOf it.addr).isSome = true → it.kind = .ncLoad ∨ it.kind = .ntStore →
      ∃ t, exec (.c2gReq d (gateAgent g) it) s = .next t ∧ s.OnlyPad t d ∧
        (t.pad d).agent (gateAgent g) = { a with out := a.out ++ [.refused it.ctag it.core] } ∧
        (s.pad d).Filed (t.pad d) { code := 0x601, reporter := agent d g.val, subject := agent d g.val
                                    addr := some it.addr, atype := if it.kind = .ncLoad then 3 else 12
                                    t := (s.pad d).now, detail := 0 })

/-- What the agent sends back: a snoop answer goes out under the snoop's TXID and frees its inbox item, CompAck goes out
and closes its transaction, and the data of a request goes out where its REQ flit did, or is kept until then; a home
query is answered with the package-wide fold of the address (02 R57, R65, R67, 19 R503 to R505), that of the first
address of the page asked for, the model's reading, log entry 42. -/
def Obligations.AgentsAnswerThroughTheirPorts : Prop :=
  ∀ (s : State) (d : Die) (n : AgentN) (a : AgentPort), s.AgentIs d n a → a.Quiet →
    (∀ i st, a.snpIn = [i] → i.acked = none →
      exec (.c2gRsp d n (.snpAck i.stag st false)) s = .next ((s.withAgent d n { a with snpIn := [] }).sends d
        [s.agentSends d n .rsp 0 (.rsp { op := .snpAck, src := portAgent d n, tgt := i.flit.src, txid := i.flit.txid
                                         state := st })]) ∧
      exec (.c2gRsp d n (.snpAckWB i.stag st)) s = .next ((s.withAgent d n { a with snpIn := [] }).sends d
        [s.agentSends d n .rsp 0 (.rsp { op := .snpAckWB, src := portAgent d n, tgt := i.flit.src, txid := i.flit.txid
                                         state := st })]) ∧
      exec (.c2gRsp d n (.snpAck i.stag st true)) s = .next ((s.withAgent d n { a with
        snpIn := [{ i with acked := some st }] }).sends d
        [s.agentSends d n .rsp 0 (.rsp { op := .snpAck, src := portAgent d n, tgt := i.flit.src, txid := i.flit.txid
                                         state := st, data := true })])) ∧
    (∀ t r g core, a.port.txns = [t] → t.purpose = .agent g core → t.comp = some r → r.ackreq = true → t.answered = true →
      exec (.c2gRsp d n (.compAck g)) s = .next ((s.withAgent d n { a with port := { a.port with txns := [] } }).sends d
        [s.agentSends d n .rsp t.flit.cls (.rsp { op := .compAck, src := portAgent d n, tgt := t.flit.tgt, txid := r.aux })])) ∧
    (∀ t g core data be poison, a.port.txns = [t] → t.purpose = .agent g core → t.flit.op.carriesData = true →
      t.haveData = false →
      let u : Txn := { t with data := t.flit.payload data, haveData := true, dataPoison := poison }
      let b := s.withAgent d n { a with port := { a.port with txns := [u] } }
      (t.phase ≠ .injected → exec (.c2gDat d n (.pushData g data be poison)) s = .next b) ∧
      (t.phase = .injected → exec (.c2gDat d n (.pushData g data be poison)) s = .next (b.sends d
        [s.agentSends d n .dat t.flit.cls (.dat { op := if t.flit.op.isPut then .putData else .pushData
                                                  src := portAgent d n, tgt := t.flit.tgt, txid := t.flit.txid
                                                  payload := t.flit.payload data, poison := poison })]))) ∧
    ∀ page, exec (.homeQuery d n page) s = .next (s.withAgent d n { a with
      hq := some (BitVec.ofNat 5 (pkgFold ((s.pad d).repl.home (BitVec.ofNat 52 (page.toNat * 4096)))).val) })

/-- A combining-buffer entry with every byte drains as one PushFull 512 cycles after its allocation, and not before (08
R207); a barrier of a core with nothing open is answered at once, with the error of an earlier write for STORE and
FULL, and one that must wait waits (R209 to R211); a split access cancelled before its upper half is issued goes on
with its lower half alone (R214). -/
def Obligations.GateBuffersBarriersAndCancels : Prop :=
  ∀ (s : State) (d : Die) (g : GateN) (a : AgentPort), s.AgentIs d (gateAgent g) a →
    let tgt (e : CbEntry) : AgentId := (s.pad d).repl.home (lineAddr e.line)
    (∀ e, a.cb = [e] → a.rob = [] → a.bars = [] → a.stores = [] → a.dataIn = [] → e.draining = false →
      ((s.pad d).aon.hcycle < e.alloc + 512 → exec (.combiningBufferAge d g e.line) s = .next s) ∧
      (∀ z, e.alloc + 512 ≤ (s.pad d).aon.hcycle → e.be = BitVec.allOnes 64 → a.port.freeTxid = some z →
        (s.pad d).repl.absent (s.pad d).conf.unreach d (tgt e) false = false → 0 < a.port.credits[pkgFold (tgt e)] →
        ∃ t x, exec (.combiningBufferAge d g e.line) s = .next t ∧ s.OnlyPad t d ∧
          ((t.pad d).agent (gateAgent g)).cb = [] ∧ ((t.pad d).agent (gateAgent g)).port.txns = a.port.txns ++ [x] ∧
          x.Stamped (s.pad d).repl (s.pad d).now .pushFull (agent d g.val) (lineAddr e.line) ∧ x.data = e.data ∧
          x.haveData = true ∧ x.credit = true ∧ x.purpose = .drain e.line e.cores ∧
          ((t.pad d).agent (gateAgent g)).port.credits = vmod a.port.credits (pkgFold (tgt e)) (fun k => k - 1))) ∧
    (a.Quiet → ∀ core kind scope ctag,
      let mine : List Txn := a.port.txns.filter fun t => t.purpose.core == some core
      (a.port.txns = [] →
        let err := decide (kind ≠ .load) && (a.core[core]).errPending
        ∃ t, exec (.barrier d g core kind scope ctag) s = .next t ∧ s.OnlyPad t d ∧
          ((t.pad d).agent (gateAgent g)).out = a.out ++ [.barrier ctag core err] ∧
          ((t.pad d).agent (gateAgent g)).bars = [] ∧
          ((t.pad d).agent (gateAgent g)).core = (if err then vmod a.core core fun x => { x with
            errPending := false, barrierErr := true } else a.core) ∧
          (t.pad d).stream = (s.pad d).stream ∧ (t.pad d).folds = (s.pad d).folds) ∧
      (∀ x ∈ mine, x.seq < a.port.nextSeq → kind ≠ .load → x.flit.op = .pushIO → x.comp = none → x.ordered = false →
        ∃ t, exec (.barrier d g core kind scope ctag) s = .next t ∧ s.OnlyPad t d ∧
          ((t.pad d).agent (gateAgent g)).out = a.out ∧
          ((t.pad d).agent (gateAgent g)).bars = [{ core := core, kind := kind, scope := scope, ctag := ctag
                                                    seq := a.port.nextSeq }])) ∧
    (a.Quiet → ∀ lo up ctag core, a.port.txns = [lo, up] → lo.flit.txid ≠ up.flit.txid → lo.purpose = .half ctag core false →
      up.purpose = .half ctag core true → up.phase = .waiting →
      exec (.splitCancel d g ctag) s = .next (s.withAgent d (gateAgent g) { a with port := { a.port with
        txns := [{ lo with purpose := .lowerOnly ctag core }] } }))

/-- A target Stile delivers its oldest access to the device under a tag that is not in use, while fewer than 32 are open;
the device's answer becomes Comp, with the bytes read, or Err DEVICE_ERROR and 0x611; at its abandon limit an access
ends in Err ABANDONED and 0xD02, its tag kept out of use, and an answer that comes later is counted under 0x612 (08
R212, R223, 19 R509). -/
def Obligations.StileServesItsDevice : Prop :=
  ∀ (s : State) (d : Die) (n : StileN) (a : AgentPort) (i : DevAcc), s.AgentIs d (stileAgent n) a →
    let me := portAgent d (stileAgent n)
    let rep (code : BitVec 12) : Report :=
      { code := code, reporter := me, subject := me, addr := some i.flit.addr, atype := i.flit.op.code
        t := (s.pad d).now, detail := 0 }
    let sends (net : Net) (f : Flit) : InjItem := s.agentSends d (stileAgent n) net i.flit.cls f
    (∀ rest tag, a.devQ = i :: rest → a.freeDevTag = some tag → a.devOpen.length < 32 →
      (i.flit.op = .devWrite → i.data.isSome = true) →
      exec (.stileDeviceAccess d n) s = .next (s.withAgent d (stileAgent n) { a with
        devQ := rest, devOpen := a.devOpen ++ [(tag, i)]
        dq := a.dq ++ [{ tag := tag, write := i.flit.op == .devWrite, addr := i.flit.addr, len := i.flit.len
                         data := match i.data with
                           | some x => x.1
                           | none => 0 }] })) ∧
    (∀ tag err data, a.devOpen = [(tag, i)] → a.devDead = [] →
      (err = false → exec (.dr d n tag err data) s = .next ((s.withAgent d (stileAgent n) { a with devOpen := [] }).sends d
        ((if i.flit.op = .devRead then [sends .dat (.dat { op := .dataToReq, src := me, tgt := i.flit.src, txid := i.flit.txid
                                                           payload := keepBytes data (offOf i.flit.addr) i.flit.len.toNat })]
          else []) ++ [sends .rsp (.rsp { op := .comp, src := me, tgt := i.flit.src, txid := i.flit.txid
                                          data := decide (i.flit.op = .devRead) })]))) ∧
      (err = true → ∃ t, exec (.dr d n tag err data) s = .next t ∧ s.OnlyPad t d ∧
        (t.pad d).agent (stileAgent n) = { a with devOpen := [] } ∧ (s.pad d).Filed (t.pad d) (rep 0x611) ∧
        (t.pad d).stream.inj = (s.pad d).stream.inj ++ [sends .rsp (.rsp { op := .err, src := me, tgt := i.flit.src
                                                                           txid := i.flit.txid, ecode := 3 })])) ∧
    (∀ tag, a.devOpen = [(tag, i)] → a.devQ = [] →
      ((s.pad d).now < i.limit → exec (.stileAbandon d n i.flit.src i.flit.txid) s = .next s) ∧
      (i.limit ≤ (s.pad d).now → ∃ t, exec (.stileAbandon d n i.flit.src i.flit.txid) s = .next t ∧ s.OnlyPad t d ∧
        (t.pad d).agent (stileAgent n) = { a with devOpen := [], devDead := a.devDead ++ [(tag, i)] } ∧
        (s.pad d).Filed (t.pad d) (rep 0xD02) ∧
        (t.pad d).stream.inj = (s.pad d).stream.inj ++ [sends .rsp (.rsp { op := .err, src := me, tgt := i.flit.src
                                                                           txid := i.flit.txid, ecode := 2 })])) ∧
    ∀ tag err data, a.devDead = [(tag, i)] → ∃ t, exec (.dr d n tag err data) s = .next t ∧ s.OnlyPad t d ∧
      (t.pad d).agent (stileAgent n) = { a with devDead := [], late := a.late + 1 } ∧ (s.pad d).Filed (t.pad d) (rep 0x612) ∧
      (t.pad d).stream = (s.pad d).stream

/-- An answer leaves the Stream at its requester: a Gate or Stile passes Comp, Ordered, Err and data on to its agent,
notes what came, and closes the transaction at Err and at a Comp that asks for no CompAck, its data there (02 R60,
R61, R66, R67). An answer at the deadline or later is a miss first: 0xD01 is filed about the home, and the answer is
taken all the same (00 R4, 11 R288). A transaction that is incomplete at its deadline is reported once (0xD01) and
goes on; one that reaches its abandon limit before it is injected ends in Err ABANDONED and 0xD02 at its port, after a
miss not yet reported, and never goes out (11 R288, R292): these two shown for a Shepherd. -/
def Obligations.PortsTakeAnswersAndKeepTimes : Prop :=
  (∀ (s : State) (d : Die) (p : Spot) (n : AgentN) (a : AgentPort) (t : Txn) (g : BitVec 8) (core : Option Core),
     s.AgentIs d n a → a.Quiet → a.port.txns = [t] → t.purpose = .agent g core → t.rob = false → t.credit = false →
     dieOf t.flit.tgt = d →
     let late : Prop := t.missed = false ∧ t.answered = false ∧ t.deadline ≤ (s.pad d).now
     let with' (l : Txn → List Txn) (u : Txn) (o : List OutItem) : AgentPort :=
       { a with port := { a.port with txns := l u }, out := a.out ++ o }
     let takes (c : Instr) (net : Net) (l : Txn → List Txn) (o : List OutItem) : Prop :=
       ∃ v, exec c s = .next v ∧ s.OnlyPad v d ∧ (v.pad d).stream = (s.pad d).stream.take net p ∧
         (v.pad d).folds = (s.pad d).folds ∧ (v.pad d).shep = (s.pad d).shep ∧
         (¬late → (v.pad d).agent n = with' l t o ∧ (v.pad d).bell.inbox = (s.pad d).bell.inbox) ∧
         (late → (v.pad d).agent n = with' l { t with missed := true } o ∧ (s.pad d).Filed (v.pad d)
           { code := 0xD01, reporter := portAgent d n, subject := t.flit.tgt, addr := some t.flit.addr
             atype := t.flit.op.code, t := (s.pad d).now })
     (∀ r, s.Stands d .rsp p (.rsp r) → r.tgt = portAgent d n → r.txid = t.flit.txid →
       (r.op = .comp → t.dat = none →
         takes (.comp d p 0) .rsp (fun u => if r.data = false ∧ r.ackreq = false then []
           else [{ u with comp := some r, credit := false }]) [.comp g r.state r.data core t.datPoison]) ∧
       (r.op = .ordered → takes (.ordered d p 0) .rsp (fun u => [{ u with ordered := true }]) [.ordered g core]) ∧
       (r.op = .err → r.ecode ≠ 0 → t.flit.op.isStore = false →
         takes (.err d p 0) .rsp (fun _ => []) [.err g r.ecode core])) ∧
     ∀ x, s.Stands d .dat p (.dat x) → x.op = .dataToReq → x.tgt = portAgent d n → x.txid = t.flit.txid → x.poison = false →
       t.comp = none →
       takes (.dataToReq d p 0) .dat (fun u => [{ u with dat := some (x.payload, x.poison) }]) [.data g x.payload x.poison]) ∧
  (∀ (s : State) (d : Die) (t : Txn), (s.pad d).running = true → (s.pad d).domOn domSH = true → (s.pad d).shep.Asks t →
     let rep (code : BitVec 12) : Report :=
       { code := code, reporter := agent d 127, subject := t.flit.tgt, addr := some t.flit.addr, atype := t.flit.op.code
         t := (s.pad d).now }
     dieOf t.flit.tgt = d →
     (t.missed = false → t.answered = false →
       ((s.pad d).now < t.deadline → exec (.deadlineMissed d 29 t.flit.txid) s = .next s) ∧
       (t.deadline ≤ (s.pad d).now → ∃ u, exec (.deadlineMissed d 29 t.flit.txid) s = .next u ∧ s.OnlyPad u d ∧
         (u.pad d).shep = { (s.pad d).shep with port := { (s.pad d).shep.port with txns := [{ t with missed := true }] } } ∧
         (s.pad d).Filed (u.pad d) (rep 0xD01) ∧ (u.pad d).stream = (s.pad d).stream)) ∧
     (t.phase ≠ .injected → (∃ k, t.purpose = .job (2 * k + 1)) →
       let known : Prop := t.missed = true ∨ t.answered = true ∨ (s.pad d).now < t.deadline
       (known → (s.pad d).now < t.abandon → exec (.abandonBeforeInjection d 29 t.flit.txid) s = .next s) ∧
       (t.abandon ≤ (s.pad d).now → ∃ u, exec (.abandonBeforeInjection d 29 t.flit.txid) s = .next u ∧ s.OnlyPad u d ∧
         (u.pad d).shep = { (s.pad d).shep with port := { (s.pad d).shep.port with txns := [] } } ∧
         (known → (s.pad d).Filed (u.pad d) (rep 0xD02)) ∧
         (¬known → (u.pad d).bell.inbox = (s.pad d).bell.inbox ++ [rep 0xD01, rep 0xD02]) ∧
         (u.pad d).stream.inj = (s.pad d).stream.inj.filter fun i => match i.flit with
           | .req f => !(i.agent == agent d 127 && f.src == agent d 127 && f.txid == t.flit.txid)
           | _ => true)))

/-- A sweep goes over its way set by set. WAY_SWEEP invalidates a clean line, moves a dirty one to the Eddy with its
memory write, passes over an invalid way, and waits while the line is in use or the Eddy is full; MILLPOND_CONVERSION
leaves a zero line behind (06 R163, R165, R170, R154). A sweep uses idle pipeline slots alone (06 R163). A tag entry
that fails its check is reported, and the way is left invalid there (06 R158, 12 R311). -/
def Obligations.SweepsGoSetBySet : Prop :=
  ∀ (s : State) (d : Die) (p : PFold) (x : PoolSweep),
    let f := (s.pad d).folds[p]
    let c := s.fc d p
    let r := f.ptag x.ptr x.old
    let data := f.pdata x.ptr x.old
    let l := lineOfPool c.n x.ptr r.tag
    let on (g : Fold) : State := s.modFold d p fun _ => { g with poolSweep := [{ x with ptr := x.ptr + 1 }] }
    let waits : Prop := r.valid = true ∧ (c.blocked l = true ∨ (r.dirty = true ∧ f.eddyFull = true))
    (s.pad d).foldRuns p = true → f.poolSweep = [x] → x.ptr < 4095 → (f.pset x.ptr).ok = true →
    (x.kind ≠ .convert → (s.pad d).aon.hcycle < f.pullFrom ∨ c.pull.isSome = true → exec (.waySweep d p) s = .next s) ∧
    (f.pullFrom ≤ (s.pad d).aon.hcycle → c.pull = none →
    (x.kind = .disable ∨ x.kind = .retire → r.ok = false → (s.pad d).aon.wayFails = [] →
      (∀ w, f.poolPhysAt x.ptr w = some x.old → f.isCacheWay x.ptr w = true) →
      ∃ t, exec (.waySweep d p) s = .next t ∧ t.krovol = s.krovol ∧ t.pending = s.pending ∧
        ((t.pad d).folds[p]).poolSweep = [{ x with ptr := x.ptr + 1 }] ∧
        (((t.pad d).folds[p]).ptag x.ptr x.old).valid = false ∧ ((t.pad d).folds[p]).memQ = f.memQ ∧
        (s.pad d).Filed (t.pad d) (s.foldNote d p (if bitAt (f.pset x.ptr).dv x.old then 0x405 else 0x404))) ∧
    (r.ok = true →
    (x.kind = .disable ∨ x.kind = .retire →
      (waits → exec (.waySweep d p) s = .next s) ∧
      (r.valid = false → exec (.waySweep d p) s = .next (on f)) ∧
      (¬waits → r.valid = true → r.dirty = false → exec (.waySweep d p) s = .next (on (f.pinval x.ptr x.old))) ∧
      (¬waits → r.valid = true → r.dirty = true → r.poison = true ∨ r.dcrc = dataCrc data →
        exec (.waySweep d p) s = .next (on { f.pinval x.ptr x.old with
          eddy := f.eddy ++ [{ line := l, data := data, dcrc := r.dcrc, poison := r.poison }]
          memQ := f.memQ ++ [{ op := .lineWrite, cls := 3, line := l, data := data, poison := r.poison
                               purpose := .eddy }] }))) ∧
    (x.kind = .convert → (∀ k, k ≠ p → ((s.pad d).folds[k]).poolSweep = []) →
      (waits → exec (.millpondConversion d) s = .next s) ∧
      (¬waits → r.valid = false ∨ r.dirty = false →
        exec (.millpondConversion d) s = .next (on (f.pline x.ptr x.old 0 0 false false))))))

/-- WAY_COPY copies one Tally row at a time in an idle slot, waiting for a line in use; an entry that fails its check
is reported and asked for with a WayProbe of its set and way, not copied (04 R121; that a copy checks what it reads,
and the WayProbe's TXID 512 + index where no entry sent it, are the model's choices, log entries 20 and 68); at the
last row the spare way takes the old one's place: 0x220 is filed and the repair recorded (12 R322, R333). It copies
one Earmark set at a time likewise. SCRUB_READ waits for an idle slot and for its PACE, then checks one entry, counts
it, and counts and reports one that fails; an entry that nothing uses takes its reset value (12 R317 to R319). -/
def Obligations.CopiesAndScrubsGoByEntry : Prop :=
  ∀ (s : State) (d : Die) (p : PFold), s.Clocked d p →
    let f := (s.pad d).folds[p]
    let c := s.fc d p
    let idle : Prop := f.pullFrom ≤ (s.pad d).aon.hcycle ∧ c.pull = none
    (∀ k, ¬idle → exec (.wayCopy d p k) s = .next s) ∧
    (∀ (x : WayCopy) (rest : List WayCopy), idle → f.tallyCopy = x :: rest →
      let old := smFind f.tally (x.ptr * 17 + x.old)
      let put (e : TallyRec) : SMap TallyRec := smSet f.tally tallyDflt (x.ptr * 17 + x.new) e
      let busy (r : TallyRec) : Prop := r.ok = true ∧ r.st ≠ 0 ∧
        c.blocked (s.krovol.lineOfTally c.n (x.ptr % 2048) r.tag) = true
      let g : GateN := Fin.ofNat 4 (x.ptr / 2048)
      (∀ r, old = some r → busy r → exec (.wayCopy d p .tally) s = .next s) ∧
      (x.ptr < 8191 → ∀ e, (old = none ∧ e = tallyDflt) ∨ (old = some e ∧ e.ok = true ∧ ¬busy e) →
        exec (.wayCopy d p .tally) s = .next (s.modFold d p fun y => { y with
          tally := put e, tallyCopy := { x with ptr := x.ptr + 1 } :: rest })) ∧
      (∀ r i, old = some r → r.ok = false → s.krovol.hasGate d g.val = true →
        f.tallyKey g (x.ptr % 2048) x.way = x.ptr * 17 + x.old → f.fixes = [] → f.found = [] → f.tt = [] → freeIdx f = some i →
        (s.pad d).aon.wayFails = [] →
        ∃ t, exec (.wayCopy d p .tally) s = .next t ∧ t.krovol = s.krovol ∧ t.pending = s.pending ∧
          ((t.pad d).folds[p]).fixes = [{ idx := i, g := g, row := x.ptr % 2048, w := x.way }] ∧
          ((t.pad d).folds[p]).tally = f.tally ∧ ((t.pad d).folds[p]).tallyCopy = f.tallyCopy ∧
          (s.pad d).Filed (t.pad d) (s.foldNote d p 0x201) ∧
          ∃ y, (t.pad d).stream.inj = (s.pad d).stream.inj ++ [y] ∧ y.pos = fordOfFold p ∧
            y.flit = .snp ⟨.wayProbe, c.agent, agent d g.val, BitVec.ofNat 12 (512 + i.val),
              BitVec.ofNat 46 (s.krovol.setOfLine (s.krovol.lineOfTally c.n (x.ptr % 2048) 0) + x.way * 8192), false, 0⟩) ∧
      (x.ptr = 8191 → old = none → f.tallyPend = [] → (s.pad d).aon.hlog = [] →
        ∃ t, exec (.wayCopy d p .tally) s = .next t ∧ t.krovol = s.krovol ∧ t.pending = s.pending ∧
          (t.pad d).folds[p] = { f with
            tally := put tallyDflt, tallyCopy := rest, tallyPhys := vset f.tallyPhys (Fin.ofNat 16 x.way) x.new
            tallyOut := putBit f.tallyOut x.old true } ∧
          s.foldNote d p 0x220 ∈ (t.pad d).bell.inbox ∧
          (t.pad d).aon.hlog = [hurdleRec 3 d p.val 0 0 x.old 0 (s.pad d).hours])) ∧
    (∀ (x : WayCopy) (rest : List WayCopy) (k : ArrayKind), idle → k = .emTagA ∨ k = .emTagB ∨ k = .emPayload →
      f.emCopy = x :: rest → x.ptr < 8191 → x.old ≠ x.new → smFind f.em (x.ptr * 17 + x.old) = none →
      exec (.wayCopy d p k) s = .next (s.modFold d p fun y => { y with
        em := smSet f.em emDflt (x.ptr * 17 + x.new) emDflt, emCopy := { x with ptr := x.ptr + 1 } :: rest })) ∧
    (∀ k : ArrayKind, k = .poolTag ∨ k = .poolData ∨ k = .poolSet ∨ k = .pred → exec (.wayCopy d p k) s = .next s) ∧
    (f.scrub = none → exec (.scrubRead d p) s = .next s) ∧
    (∀ x : Scrub, f.scrub = some x → x.done = false →
      let soon := x.lastCycle ≠ 0 ∧ (s.pad d).aon.hcycle < x.lastCycle + 2 ^ x.pace
      let next : Scrub := { x with
        checked := x.checked + 1, next := x.next + 1, done := decide (x.limit ≤ x.next + 1)
        lastCycle := (s.pad d).aon.hcycle }
      let counted : State := s.modFold d p fun y => { y with scrub := some next, census := foldCount 0x35 8 y.census }
      (soon ∨ ¬idle → exec (.scrubRead d p) s = .next s) ∧
      (¬soon → idle → f.found = [] → x.array = some .tally →
        let g : GateN := Fin.ofNat 4 (x.next / 17 / 2048)
        let plays (w : Nat) : Prop :=
          w < s.krovol.ways ∧ s.krovol.hasGate d g.val = true ∧ f.tallyKey g (x.next / 17 % 2048) w = x.next
        (f.fixes = [] → smFind f.tally x.next = none → exec (.scrubRead d p) s = .next counted) ∧
        (∀ r, f.fixes = [] → smFind f.tally x.next = some r → r.ok = true →
          (r.st ≠ 0 → c.blocked (s.krovol.lineOfTally c.n (x.next / 17 % 2048) r.tag) = false) →
          exec (.scrubRead d p) s = .next counted) ∧
        (∀ r, smFind f.tally x.next = some r → r.ok = false → (∀ w, ¬plays w) → (s.pad d).aon.wayFails = [] →
          x.record = false →
          ∃ t, exec (.scrubRead d p) s = .next t ∧ t.krovol = s.krovol ∧ t.pending = s.pending ∧
            ((t.pad d).folds[p]).scrub = some { next with
              ce := x.ce + 1, firstBad := some (x.firstBad.getD ((s.pad d).now, x.next)) } ∧
            ((t.pad d).folds[p]).tally = smSet f.tally tallyDflt x.next tallyDflt ∧
            (s.pad d).Filed (t.pad d) (s.foldNote d p 0x201))))

/-- RACE_SWITCH waits until the fold that is left holds no work, its lines are swept, its dirty ways written and its
Millpond lines copied; then every copy of the fold map gives the logical fold to the incoming one, and the
outgoing fold drains to OFF behind its fence (12 R324, R327). That every copy changes in one step is the model's
reading, log entry 29. -/
def Obligations.RaceSwitchMovesTheFold : Prop :=
  ∀ (s : State) (d lead : Die) (n : LFold) (id : Nat) (m : FoldMove),
    s.moveOf (fun m => m.d == d && m.n == n && m.step == 2) = some (lead, id, m) → m.src ≠ m.dst →
    let f := (s.pad d).folds[m.src]
    let ready := f.quiet = true ∧ s.jobOpen (jobOf id) = false ∧ (s.fc d m.src).recorded = [] ∧ f.dirtyLines = [] ∧
      m.millDone f = true
    (¬ready → exec (.raceSwitch d n) s = .next s) ∧
    (ready → ∃ t, exec (.raceSwitch d n) s = .next t ∧ t.krovol = s.krovol ∧ t.tether = s.tether ∧ t.pending = s.pending ∧
      (∀ x, (t.pad x).repl = { (s.pad x).repl with
        foldmap := vmod (s.pad x).repl.foldmap d fun y => { y with
          pfold := vset y.pfold n m.dst, vacant := putBit y.vacant n.val false } }) ∧
      ((t.pad d).folds[m.dst]).rcred = s.krovol.rcred ∧ ((t.pad d).folds[m.dst]).wcred = s.krovol.wcred ∧
      ((t.pad d).folds[m.dst]).scrub = f.scrub ∧ (t.pad d).folds[m.src] = { f with scrub := none } ∧
      (t.pad d).ebb.fold[m.src] = { s.power d m.src with state := .drain, target := .off, gated := false } ∧
      (t.pad d).ebb.fenceReq = putBit (s.pad d).ebb.fenceReq (fordOfFold m.src) true)

/-- BELL_REPORT: a report of a reporter and code that the store holds counts as a later one; else one of an open storm
joins its record; else it takes a new record with the next SEQ; and with 256 records it is lost and counted (13 R347
to R349). A storm entry retires 8,000 ns after FIRST (R348); TESTMODE's fall clears UNLOCKED (R358). -/
def Obligations.BellFilesReports : Prop :=
  ∀ (s : State) (d : Die),
    let q := s.pad d
    (∀ r, q.bell.inbox = [r] → q.Released → q.domOn domSH = true → q.running = true →
      let own (x : BellRec) : Prop := x.rep.reporter = r.reporter ∧ x.rep.code = r.code
      let live := q.bell.storms.filter fun y => decide (q.now < y.first + 8000)
      let storm (y : Storm) : Prop := y.subject = r.subject ∧ y.code = r.code ∧ r.t < y.first + 4000
      ∃ t, exec (.bellReport d) s = .next t ∧ s.KeepsTraffic t ∧ (t.pad d).bell.inbox = [] ∧
        (∀ x, q.bell.recs = [x] → own x →
          (t.pad d).bell.recs = [{ x with later := min 65535 (x.later + 1) }] ∧ (t.pad d).aon.nextSeq = q.aon.nextSeq ∧
          (t.pad d).bell.storms = live) ∧
        (∀ x y, q.bell.recs = [x] → ¬own x → live = [y] → storm y → x.slot = y.slot →
          (t.pad d).bell.recs = [BellRec.with' { x with
            reports := min 65535 (x.reports + 1), merged := true } r.reporter] ∧
          (t.pad d).aon.nextSeq = q.aon.nextSeq ∧ (t.pad d).bell.storms = live) ∧
        ((∀ x ∈ q.bell.recs, ¬own x) → (∀ y ∈ live, ¬storm y) →
          (q.bell.recs.length < 256 →
            (t.pad d).bell.recs = q.bell.recs ++ [BellRec.with' { slot := q.bell.nextSlot, seq := q.aon.nextSeq, rep := r
                                                                  lo := localOf r.reporter, hi := localOf r.reporter } r.reporter] ∧
            (t.pad d).aon.nextSeq = q.aon.nextSeq + 1 ∧ (t.pad d).bell.nextSlot = (q.bell.nextSlot + 1) % 256 ∧
            ({ subject := r.subject, code := r.code, first := r.t, slot := q.bell.nextSlot } : Storm) ∈
              (t.pad d).bell.storms ∧ (t.pad d).bell.lost = q.bell.lost) ∧
          (256 ≤ q.bell.recs.length →
            (t.pad d).bell.recs = q.bell.recs ∧ (t.pad d).aon.nextSeq = q.aon.nextSeq ∧
            (t.pad d).bell.lost = min 65535 (q.bell.lost + 1) ∧
            (t.pad d).bell.ovf = putBit q.bell.ovf (codeClass r.code).no true))) ∧
    exec (.stormEntryRetire d) s = .next (s.modPad d fun q => { q with bell := { q.bell with
      storms := q.bell.storms.filter fun y => !q.running || decide (q.now < y.first + 8000) } }) ∧
    exec (.testmodeFall d) s = .next (s.modPad d fun q => { q with
      boot := { q.boot with testmode := false }, bell := { q.bell with unlocked := false } })

/-- A switch acknowledges what PSW_REQ asks of it, and nothing else is taken: a domain that came on has its isolation
released, the fords of SH and SD are unfenced with it and take what their agents kept (log entry 38), and a fold's FL
restarts the fold; a fold in DRAIN whose FL went off is in RETAIN, or its FA goes off too. An acknowledgement 100
ticks late sets BELL_STICKY bit 0 once, a source of wakes (14 R366, R367, R369). -/
def Obligations.DomainsFollowTheirSwitches : Prop :=
  ∀ (s : State) (d : Die) (i : DomN),
    let q := s.pad d
    let e := q.ebb
    (∀ level, bitAt e.pswReq i.val ≠ level ∨ bitAt e.pswAck i.val = level → exec (.pswAck d i level) s = .next s) ∧
    (∀ x, q.Settled → e.sample = none → e.switching = [x] → x.dom = i →
      (x.on = true → bitAt e.pswReq i.val = true → bitAt e.pswAck i.val = false →
        (∀ p : PFold, domFA p = i → (s.power d p).waking = none) →
        (∀ p : PFold, domFL p = i → (s.power d p).state = .retain → (s.power d p).waking ≠ none) →
        ∃ t, exec (.pswAck d i true) s = .next t ∧ s.OnlyPad t d ∧
          (t.pad d).ebb = { e with
            pswAck := putBit e.pswAck i.val true, iso := putBit e.iso i.val false, switching := []
            fenceReq := (t.pad d).ebb.fenceReq, fenceAck := (t.pad d).ebb.fenceAck, culvertEn := (t.pad d).ebb.culvertEn } ∧
          (let back (k : Nat) : Bool :=
             i == domSH && k == 15 || i == domSD && (s.sdFords d).any fun y => y.val == k
           ∀ k : Nat, bitAt (t.pad d).ebb.fenceReq k = (bitAt e.fenceReq k && !back k) ∧
             bitAt (t.pad d).ebb.fenceAck k = (bitAt e.fenceAck k && !back k) ∧
             bitAt (t.pad d).ebb.culvertEn k = (bitAt e.culvertEn k && !back k)) ∧
          (let back (k : Nat) : Bool :=
             i == domSH && k == 15 || i == domSD && ((s.sdFords d).any fun y => y.val == k)
           (t.pad d).stream = { q.stream with
             inj := q.stream.inj.map fun y =>
               if back y.pos && y.held then { y with held := false, since := q.aon.hcycle } else y }) ∧
          (t.pad d).boot = q.boot ∧ (t.pad d).repl = q.repl ∧
          (∀ p : PFold, (t.pad d).folds[p] = if domFL p = i then (q.folds[p]).flReset else q.folds[p])) ∧
      (x.on = false → bitAt e.pswReq i.val = false → bitAt e.pswAck i.val = true →
        ∀ p : PFold, domFL p = i → (s.power d p).state = .drain → (s.power d p).heldWake = false →
          ((s.power d p).target = .retain → (∀ l ∈ s.leaders, (s.pad l).shep.deferred = []) →
            bitAt (q.repl.foldmap[d]).failed p.val = false →
            ∃ t, exec (.pswAck d i false) s = .next t ∧ s.OnlyPad t d ∧ (t.pad d).folds = q.folds ∧
              (t.pad d).ebb = { e with
                pswAck := putBit e.pswAck i.val false, switching := []
                fold := vset e.fold p { s.power d p with state := .retain } }) ∧
          ((s.power d p).target = .off →
            ∃ t, exec (.pswAck d i false) s = .next t ∧ s.OnlyPad t d ∧ (t.pad d).folds = q.folds ∧
              (t.pad d).ebb = { e with
                pswAck := putBit e.pswAck i.val false, iso := putBit e.iso (domFA p).val true
                pswReq := putBit e.pswReq (domFA p).val false
                switching := [{ dom := domFA p, on := false, tick := q.aon.ticks }] }))) ∧
    (∀ x, e.switching = [x] → x.dom = i → x.late = false → bitAt e.pswReq i.val = x.on →
      exec (.pswAckTimeout d i) s = .next (if x.tick + 100 ≤ q.aon.ticks then (s.modPad d fun q => { q with
        ebb := { q.ebb with switching := [{ x with late := true }] } }).stick d 0 else s))

/-- A fold's drain is complete once it holds no work and, towards OFF, no line: DRAIN is set and its ford fenced. A
wake is complete once its domains are on and its tests passed: RUN, its ford open, which takes what the fold kept for
it (log entry 38). An AUTOWAKE access waits with its domain's wake begun and is answered SLUMBER 40,000 ns after it
came (14 R367, R369, R370, R386, 09 R250). -/
def Obligations.FoldsDrainAndWake : Prop :=
  ∀ (s : State) (d : Die) (p : PFold),
    let q := s.pad d
    let x := s.power d p
    let f := q.folds[p]
    (x.state = .drain → f.drain = false →
      let done := f.quiet = true ∧ (x.target = .off → s.emptied d p (drainJob d p) = true)
      (¬done → exec (.foldDrainComplete d p) s = .next s) ∧
      (done → exec (.foldDrainComplete d p) s = .next (s.modPad d fun q => { q with
        folds := vmod q.folds p fun y => { y with drain := true }
        ebb := { q.ebb with fenceReq := putBit q.ebb.fenceReq (fordOfFold p) true } }))) ∧
    (let up := x.waking.isSome = true ∧ q.running = true ∧ q.domOn (domFA p) = true ∧ q.domOn (domFL p) = true ∧
       bitAt q.boot.selfTested p.val = true ∧ bitAt q.boot.arrayInit p.val = true
     (¬up → exec (.wakeComplete d p) s = .next s) ∧
     (up → (q.repl.carries d p).isSome = true → (∀ l ∈ s.leaders, (s.pad l).shep.deferred = []) →
       x.target = .run ∨ x.target = .doze →
       exec (.wakeComplete d p) s = .next (s.modPad d fun q =>
         let k := fordOfFold p
         { q with
           folds := vmod q.folds p fun y => { y with census := foldCount 0x39 8 y.census }
           stream := { q.stream with inj := q.stream.inj.map fun y =>
             if y.pos = k ∧ y.held = true then { y with held := false, since := q.aon.hcycle } else y }
           ebb := { q.ebb with
             fold := vmod q.ebb.fold p fun y => { y with state := .run, waking := none }
             fenceReq := putBit q.ebb.fenceReq k false, fenceAck := putBit q.ebb.fenceAck k false
             culvertEn := putBit q.ebb.culvertEn k false } }))) ∧
    (∀ (w : Who) (a : RegAddr) (i : DomN), w.bar0 = false →
      (let t := s.target w.via a
       (s.pad w.via).boot.poreset = false → (s.pad w.via).rp.busy = false → a.toNat % 4 = 0 →
       (s.pad t.srv).repl.permits (s.krovol.privOf t) false w.dom = true → t.absent = false →
       s.asleep w t = some (d, i) → q.autoWakes d i = true → q.ebb.nf = .idle →
       let u := match flOf i with
         | some k => s.wakeFold d k 1
         | none => s
       exec (.registerRead w a) s = .next ((u.modPad d fun q => { q with ebb := { q.ebb with
         autoAcc := q.ebb.autoAcc ++ [{ who := w, addr := a, write := none, dom := i, tide := (s.pad d).now }] } }).portWaits w.via)) ∧
      ∀ (wr : Option Word) (tide : Nat), q.ebb.autoAcc = [{ who := w, addr := a, write := wr, dom := i, tide := tide }] →
        (q.now < tide + 40000 → exec (.autowakeTimeout d) s = .next s) ∧
        (tide + 40000 ≤ q.now → (s.pad w.via).rp.busy = true →
          let srv := (s.target w.via a).srv
          let count (e : Ebb) : Ebb := { e with offAccess := e.offAccess + 1 }
          exec (.autowakeTimeout d) s = .next (((s.modPad d fun q => { q with ebb := { q.ebb with autoAcc := [] } }).modPad srv
            fun q => { q with ebb := count q.ebb }).portReply w.via 1 0xFFFFFFFF)))

/-- A rail has its supply once the regulator acknowledges; a write without an answer for 500 ticks is issued again, and
the third unanswered retry sets BELL_STICKY bit 1 (14 R372, R374). HCLK_OPACK takes the point that Ebb asked for (19
R493), and a switch that no OPPOINT_SET waits for any more writes the paces of the point in force once every member's
clock has followed (10 R261). An OPPOINT_SET switches in every member at once, once every clock has followed its last
change (19 R493) and S has come, which the model puts exactly 4,000 ns after the last step (14 R373 has the Shepherd
choose it, no earlier: log entry 47). -/
def Obligations.SuppliesAndClocksFollow : Prop :=
  ∀ (s : State) (d : Die),
    let e := (s.pad d).ebb
    (∀ rail : RailN,
      (e.avs[rail] = none → exec (.avsbusAck d rail) s = .next s ∧ exec (.avsbusRetry d rail) s = .next s) ∧
      ∀ w, e.avs[rail] = some w →
        ((∀ l, s.leadOf d = some l → s.oppOp l = none) → e.nf ≠ .exit1 → e.nf ≠ .exit2 → e.nf ≠ .exit3 →
          e.sample = none →
          exec (.avsbusAck d rail) s = .next (s.modPad d fun q => { q with ebb := { q.ebb with
            avs := vset q.ebb.avs rail none, volt := vset q.ebb.volt rail w.mv } })) ∧
        ((s.pad d).aon.ticks < w.tick + 500 → exec (.avsbusRetry d rail) s = .next s) ∧
        (w.tick + 500 ≤ (s.pad d).aon.ticks →
          let put (k : Nat) : State := s.modPad d fun q => { q with
            ebb := { q.ebb with avs := vset q.ebb.avs rail (some { w with tick := q.aon.ticks, retries := k }) }
            census := padCount 0x32 0 16 q.census }
          (w.retries < 3 → exec (.avsbusRetry d rail) s = .next (put (w.retries + 1))) ∧
          (w.retries = 3 → (∀ l, s.leadOf d = some l → s.oppOp l = none ∧ s.nfOp l = none) →
            exec (.avsbusRetry d rail) s = .next ((put 4).stick d 1)) ∧
          (3 < w.retries → exec (.avsbusRetry d rail) s = .next (put 4)))) ∧
    (∀ pt, let moves := e.hclkAck = true ∧ pt = e.hclkOp ∧ e.hclkOpack ≠ pt
      (¬moves → exec (.hclkOpack d pt) s = .next s) ∧
      let u := s.modPad d fun q => { q with
        ebb := { q.ebb with hclkOpack := pt, point := pt }, census := padCount 0x33 0 16 q.census }
      (moves → s.leadOf d = none → exec (.hclkOpack d pt) s = .next u) ∧
      (moves → ∀ l, s.leadOf d = some l → s.oppOp l = none →
        ((∃ x ∈ s.members l, x ≠ d ∧ (s.pad x).ebb.hclkOp ≠ (s.pad x).ebb.hclkOpack) → exec (.hclkOpack d pt) s = .next u) ∧
        ((∀ x ∈ s.members l, x ≠ d → (s.pad x).ebb.hclkOp = (s.pad x).ebb.hclkOpack) →
          exec (.hclkOpack d pt) s = .next (u.writePaces (u.members l) (u.mhz l))))) ∧
    ∀ lead o, lead ∈ s.leaders → (∀ l ∈ s.leaders, l ≠ lead → s.oppOp l = none) → s.oppOp lead = some o → o.ph = .armed →
      let due := ∀ x ∈ s.members o.lead, o.since + 4000 ≤ (s.pad x).now ∧ (s.pad x).ebb.hclkOp = (s.pad x).ebb.hclkOpack
      (¬due → exec .oppointSwitch s = .next s) ∧
      (due → (∃ x ∈ s.members o.lead, (s.pad x).ebb.hclkOpack ≠ o.pt) →
        ∃ t, exec .oppointSwitch s = .next t ∧ t.krovol = s.krovol ∧ t.tether = s.tether ∧ t.pending = s.pending ∧
          ∀ x, (t.pad x).ebb = if x ∈ s.members o.lead then { (s.pad x).ebb with hclkOp := o.pt } else (s.pad x).ebb)

/-- The entry to Nightfold goes by its points: N1 when no fold holds a request, N2 when every cache and Pool way is swept
and every other command accepted before has ended, so that no final reply is lost with SH (15 R401, R417, log entry 98),
N3 when HCLK has stopped everywhere, N4 when every regulator acknowledged; before that a point does nothing, and after
a wake N1 and N2 end the entry, N3 and N4 turn to the exit, each counted (14 R378, R379). -/
def Obligations.NightfoldGoesByItsPoints : Prop :=
  ∀ (s : State) (lead : Die) (o : Deferred),
    let m := s.members lead
    let wakes := (s.pad lead).ebb.nfAbort = true
    let kept (t : State) : Prop := t.krovol = s.krovol ∧ t.pending = s.pending
    let ended (t : State) (k : BitVec 3) : Prop := kept t ∧ s.NowIn t lead .idle ∧
      ∀ x ∈ m, (t.pad x).aon.nfLastAbort = k
    (s.NightAt lead o .step1 →
      let empty := ∀ x ∈ m, ∀ p : PFold, ((s.pad x).folds[p]).pens = [] ∧ ((s.pad x).folds[p]).tt = []
      (¬empty → exec .n1 s = .next s) ∧
      (empty → ∃ t, exec .n1 s = .next t ∧ (¬wakes → kept t ∧ s.NowIn t lead .step2) ∧ (wakes → ended t 1))) ∧
    (s.NightAt lead o .step2 →
      let swept := s.jobOpen (jobOf o.id) = false ∧ (∀ x ∈ m, s.sweptOut x = true) ∧
        ∀ y ∈ (s.pad lead).shep.deferred, y.kind = .nightfold
      (¬swept → exec .n2 s = .next s) ∧
      (swept → ∃ t, exec .n2 s = .next t ∧
        (¬wakes → kept t ∧ s.NowIn t lead .step3 ∧
          t.tether = { s.tether with noTlp := s.leadsTether lead || s.tether.noTlp } ∧
          ∀ x ∈ m, ∀ p : PFold, ((s.pad x).repl.carries x p).isSome = true → (s.power x p).state = .run →
            (t.power x p).state = .drain ∧ (t.power x p).target = .retain) ∧
        (wakes → ended t 2))) ∧
    (s.NightAt lead o .step3 →
      let stopped := ∀ x ∈ m, (s.pad x).ebb.hclkReq = false ∧ (s.pad x).ebb.hclkAck = false
      (¬stopped → exec .n3 s = .next s) ∧
      (stopped → wakes → ∃ t, exec .n3 s = .next t ∧ kept t ∧ s.NowIn t lead .exit2 ∧
        ∀ x ∈ m, (t.pad x).aon.nfLastAbort = 3) ∧
      (stopped → ¬wakes → ∃ t, exec .n3 s = .next t ∧ kept t ∧ t.tether = s.tether ∧ s.NowIn t lead .step4 ∧
        ∀ x ∈ m, (t.pad x).ebb.avs[(0 : RailN)] = some { mv := 450, tick := (s.pad x).aon.ticks })) ∧
    (s.NightAt lead o .step4 →
      let acked := ∀ x ∈ m, ∀ r : RailN, (s.pad x).ebb.avs[r] = none
      (¬acked → exec .n4 s = .next s) ∧
      (acked → wakes → ∃ t, exec .n4 s = .next t ∧ kept t ∧ s.NowIn t lead .exit1 ∧
        ∀ x ∈ m, (t.pad x).aon.nfLastAbort = 4) ∧
      (acked → ¬wakes → ∃ t, exec .n4 s = .next t ∧ kept t ∧ t.tether = s.tether ∧
        ∀ x, (t.pad x).ebb = if x ∈ m then { (s.pad x).ebb with nf := .inside (s.pad x).aon.ticks, nfNext := 1 }
          else (s.pad x).ebb))

/-- The alarm wakes the package in the LCLK tick in which Tide reaches it, while WAKEEN has its bit: Nightfold ends with
the supply written back, and an entry is marked to be abandoned (14 R379, R380, R393). A sample does not begin before
its tick; a wake due in that tick goes instead, a sample still running lets it go by, and else the sampled supply is
written to the rails for sample k's fold, retained fold (k - 1) mod r in rising number (R381); then the fold's logic
comes on, its sentinels are checked and counted, and a mismatch is kept and wakes (14 R381, R382). That the alarm is
bound to its own tick is log entry 32 (DEDUCED), and that a signature which alone differs names sentinel 0 is log entry
52 (DEDUCED). -/
def Obligations.WakesAndSamplesInNightfold : Prop :=
  ∀ (s : State) (d : Die),
    let q := s.pad d
    let due (x : Die) : Prop :=
      (s.pad x).aon.alarm.toNat ≤ (s.pad x).now ∧ (s.pad x).now < (s.pad x).aon.alarm.toNat + 1000 ∧ (s.pad x).wakeEn 2 = true
    let woken (t : State) : Prop := t.krovol = s.krovol ∧ t.tether = s.tether ∧ t.pending = s.pending ∧
      ∀ x, (t.pad x).ebb.nf = ((s.pad x).ebb.nf).waked ∧ (t.pad x).folds = (s.pad x).folds ∧
        ((s.pad x).ebb.entering = true → (t.pad x).ebb.nfAbort = true) ∧
        (∀ a, (s.pad x).ebb.nf = .inside a → (t.pad x).ebb.sample = none ∧ (t.pad x).ebb.avs[(0 : RailN)] =
          some { mv := Config.supplyMv (s.pad x).ebb.point, tick := (s.pad x).aon.ticks })
    (q.now < q.aon.alarm.toNat ∨ q.wakeEn 2 = false → exec (.ebbAlarm d) s = .next s) ∧
    (due d → ∃ t, exec (.ebbAlarm d) s = .next t ∧ woken t) ∧
    ∀ (a : Nat) (pr : NfProgram), q.ebb.nf = .inside a → q.aon.nfProg = some pr →
      let k := (q.aon.ticks - a) / (1000 * max 1 pr.interval)
      let skipped (n : Nat) : BitVec 16 := BitVec.ofNat 16 (min 65535 (q.aon.nfSkipped.toNat + (k - q.ebb.nfNext) + n))
      (k < q.ebb.nfNext → ∀ bad, exec (.sentinelSample d bad) s = .next s) ∧
      (∀ (n : LFold) (p : PFold) (bad : Option (BitVec 13)),
        q.aon.retained[(k - 1) % q.aon.retained.length]? = some n → q.repl.pfoldOf d n = some p →
        0 < pr.sentinels → q.ebb.nfNext ≤ k →
        (∀ x, due x → ∃ t, exec (.sentinelSample d bad) s = .next t ∧ woken t) ∧
        ((∀ x, (s.pad x).alarmDue = false) → q.ebb.sample = none → q.aon.islandOk = true →
          exec (.sentinelSample d bad) s = .next ((s.modPad d fun q => { q with
            ebb := { q.ebb with nfNext := k + 1, sample := some { n := n, p := p, bad := bad, phase := .rails } }
            aon := { q.aon with nfSkipped := skipped 0 } }).writeSupply d 550)) ∧
        ((∀ x, (s.pad x).alarmDue = false) → q.ebb.sample ≠ none →
          exec (.sentinelSample d bad) s = .next (s.modPad d fun q => { q with
            ebb := { q.ebb with nfNext := k + 1 }, aon := { q.aon with nfSkipped := skipped 1 } }))) ∧
      ∀ x, q.ebb.sample = some x →
        (∀ (r : RailN) (w : AvsWrite), x.phase = .rails → q.ebb.avs = vset (Vector.replicate 2 none) r (some w) →
          q.domOn (domFL x.p) = false → q.ebb.switching = [] → (∀ l, s.leadOf d = some l → s.oppOp l = none) →
          ∃ t, exec (.avsbusAck d r) s = .next t ∧ s.OnlyPad t d ∧ (t.pad d).folds = q.folds ∧
            (t.pad d).ebb.sample = some { x with phase := .power } ∧ (t.pad d).ebb.volt = vset q.ebb.volt r w.mv ∧
            (q.ebb.pswAck = 0 → (t.pad d).ebb.pswReq = putBit q.ebb.pswReq (domFL x.p).val true)) ∧
        (∀ y, x.phase = .power → x.bad = none → q.ebb.switching = [y] → y.dom = domFL x.p → y.on = true →
          bitAt q.ebb.pswReq (domFL x.p).val = true → bitAt q.ebb.pswAck (domFL x.p).val = false →
          q.boot.step = 10 →
          let ks := pr.ways d (s.mpWays d)
          let found := ((q.folds[x.p]).flReset).sentinelBad ks (min pr.sentinels (4096 * ks.length)) ((q.aon.nfSig[x.n]).getD 0)
          ∃ t, exec (.pswAck d (domFL x.p) true) s = .next t ∧ t.krovol = s.krovol ∧ t.pending = s.pending ∧
            (t.pad d).aon.nfSamples = q.aon.nfSamples + 1 ∧ bitAt (t.pad d).ebb.pswReq (domFL x.p).val = false ∧
            (found = none → s.OnlyPad t d ∧ (t.pad d).ebb.sample = some { x with phase := .back } ∧
              (t.pad d).ebb.avs[(0 : RailN)] = some { mv := 450, tick := q.aon.ticks } ∧
              (t.pad d).aon.nfMismatch = q.aon.nfMismatch) ∧
            (∀ i, found = some i → (t.pad d).ebb.nf = .exit1 ∧ (t.pad d).ebb.sample = none ∧
              (t.pad d).aon.nfMismatch = some { addr := q.repl.millAddr d x.n (sentinelAt ks
                  (min pr.sentinels (4096 * ks.length)) i), pfold := x.p, tide := q.now }))

/-- An LCLK tick counts in every paddock that PORESET_N has released: Tide steps up to 1,000k ns at tick k where it lags,
or goes on by 1,000 while HCLK is stopped (11 R284), where no Census period ends with the tick; TESTMODE, which is
followed from the release on (19 R497), rises in the ticks that a free value names (log entry 96). No tick for
3,000 ns of HCLK cycles, or for 1,500 SOSC cycles while HCLK is stopped, sets BELL_STICKY bit 4, a source of wakes (11
R286, 14 R380). A Census period ends when Tide reaches (k + 1) × PERIOD, and not before; then a configuration that
waited takes effect, and with its CLEAR every counter and overflow bit of the paddock's banks is zero (17 R459, R460,
R462). That a period which starts late skips the boundaries it missed is log entry 56 (DEDUCED); that a tick, an HCLK
cycle and CENSUS_PERIOD_BOUNDARY are the events which capture a period is log entry 72 (DESIGN CHOICE). -/
def Obligations.TicksAndPeriods : Prop :=
  (∀ s : State,
     ((∀ x a, (s.pad x).ebb.nf ≠ .inside a) →
       (∀ x, (s.pad x).running = true → (s.pad x).domOn domSD = true →
         (s.pad x).census.cfgSet = true ∨ (s.pad x).census.pendCfg ≠ none →
         max (s.pad x).now (1000 * ((s.pad x).aon.ticks + 1)) < ((s.pad x).census.nextK + 1) * (s.pad x).census.periodNow) →
       ∃ t, exec .lclkTick s = .next t ∧ t.krovol = s.krovol ∧ t.tether = s.tether ∧ t.fresh = s.fresh ∧
         t.pending = s.pending ∧ ∀ d,
         ((s.pad d).boot.poreset = true → t.pad d = s.pad d) ∧
         ((s.pad d).boot.poreset = false → t.pad d = { s.pad d with
           boot := if (s.pad d).boot.padreset then (s.pad d).boot else { (s.pad d).boot with
             testmode := (s.pad d).boot.testmode || Config.testmodeRises d.val (s.pad d).aon.ticks }
           aon := { (s.pad d).aon with
             ticks := (s.pad d).aon.ticks + 1, gapFx := 0, soscGap := 0
             tideFx := if (s.pad d).running then max (s.pad d).aon.tideFx (1000 * ((s.pad d).aon.ticks + 1) * 2 ^ 24)
               else (s.pad d).aon.tideFx + 1000 * 2 ^ 24 } })) ∧
     ∀ d,
       ((s.pad d).boot.poreset = true → exec (.lclkAbsent d) s = .next s) ∧
       ((s.pad d).boot.poreset = false → exec (.lclkAbsent d) s = .next
         (if 3000 * 2 ^ 24 < (s.pad d).aon.gapFx ∨ 1500 ≤ (s.pad d).aon.soscGap then s.stick d 4 else s))) ∧
  (∀ (s : State) (d : Die),
     let q := s.pad d
     let x := q.census
     (x.cfgSet = true → q.now < (x.nextK + 1) * x.cfg.period → exec (.censusPeriodBoundary d) s = .next s) ∧
     (q.running = true → q.domOn domSD = true → (∀ p : PFold, (q.ebb.fold[p]).gated = false) → x.cfgSet = true →
       x.cfg.en = false → (x.nextK + 1) * x.cfg.period ≤ q.now →
       ∃ t, exec (.censusPeriodBoundary d) s = .next t ∧ s.OnlyPad t d ∧ (t.pad d).stream = q.stream ∧
         (t.pad d).shep = q.shep ∧ (t.pad d).bell = q.bell ∧
         (t.pad d).census.cfg = x.pendCfg.getD x.cfg ∧ (t.pad d).census.pendCfg = none ∧
         (x.pendCfg = none → (t.pad d).census.nextK = max (x.nextK + 1) (q.now / max 1 x.cfg.period) ∧
           (t.pad d).census.ctr = x.ctr ∧ (t.pad d).census.cycle = x.cycle) ∧
         (∀ c, x.pendCfg = some c → c.clear = true →
           (∀ n : Fin 16, (t.pad d).census.ctr[n] = { x.ctr[n] with val := 0 }) ∧ (t.pad d).census.ovf = 0 ∧
           (t.pad d).census.cycle = 0 ∧ ∀ p : PFold,
             ((t.pad d).folds[p]).census.cycle = 0 ∧ ((t.pad d).folds[p]).census.ovf = 0 ∧
             ∀ n : Fin 8, ((((t.pad d).folds[p]).census.ctr)[n]).val = 0)))

/-- Every command answers a next state, in every state, and keeps the Range's parameters and the waiting commands: an
event that cannot happen where it is sent changes nothing (the model's choice, log entries 4 and 74). A TLP that crosses
a 4 KiB boundary or is longer than a Max Payload Size can be is malformed: it is discarded under AER bit 18, a place and
a treatment taken from PCI Express (PRESUMED, log entry 74; 16 R430), and what AER sets is filed as 0x903 (16 R450). A
link report of a shape there is none of, and L1 with no substate, change nothing (log entries 74 and 4). -/
def Obligations.WellFormedCommandsRun : Prop :=
  ∀ (s : State) (i : Instr),
    (∃ t : State, exec i s = .next t ∧ t.krovol = s.krovol ∧ t.pending = s.pending) ∧
    (i.wf = false →
      let report : Prop := (∃ r w f, i = .linkUp r w f) ∨ ∃ b, i = .l1Entry b
      (report ∨ s.tetherDie = none ∨ s.tether.linkUp = false ∨ s.tether.perst = true ∨ ¬s.tether.Takes → exec i s = .next s) ∧
      ∀ d, ¬report → s.TetherUp d → s.tether.Takes →
        ∃ t : State, exec i s = .next t ∧ t.tether = { s.tether with aerSticky := putBit s.tether.aerSticky 18 true } ∧
          (s.pad d).Filed (t.pad d) (s.tetherReport d 0x903 18) ∧ (t.pad d).stream = (s.pad d).stream ∧
          (t.pad d).common = (s.pad d).common)

/-- Writes of the Tether's registers: a ring's TAIL, which wakes the link of a ring in use (16 R442, R446); MSI-X EOI,
which makes a vector whose condition still holds due again (R445); LTR (R446); COMMIT, which needs sound windows
(R441). WINDOW_SWAP puts the shadows in force (R441). -/
def Obligations.TetherRegistersTakeWrites : Prop :=
  ∀ (s : State) (w : Who) (v : Word) (d : Die), s.krovol.tether = some d →
    let t := s.tether
    let at' (off : Nat) : Target := ⟨.tether, off, d, false⟩
    let put (u : Tether) : State := { s with tether := u }
    (∀ q : QN,
      let u : Tether := { t with ring := vmod t.ring q fun r => { r with tail := v.extractLsb' 0 16 } }
      s.WritesAs w (.tail w q v) (queueAddr 0x21000 q.val 0x0C) (at' (0x1000 + 0x20 * q.val + 0x0C))
        (put (if ((s.pad (s.queueDie d)).shep.cq[q]).ringMode then { u with lpm := 0, idleSince := (s.pad d).now } else u))) ∧
    (let n : QN := Fin.ofNat 64 (v.toNat % 64)
     let e := t.msix[n]
     (s.msixCond d n = false → s.WritesAs w (.tetherMsixEoi w v) 0x20480 (at' 0x480) s) ∧
     (s.msixCond d n = true → s.TetherUp d → t.VectorOpen n → s.WritesAs w (.tetherMsixEoi w v) 0x20480 (at' 0x480)
       ((s.sentToHost d [.memWrite (e.addrHi ++ e.addrLo) e.data]).pcount d 0x25 0)) ∧
     (s.msixCond d n = true → e.masked = true ∨ t.bme = false → s.WritesAs w (.tetherMsixEoi w v) 0x20480 (at' 0x480)
       (put { t with pba := putBit t.pba n.val true, lpm := 0, idleSince := (s.pad d).now }))) ∧
    (t.ltrEn = false ∨ t.linkUp = false ∨ v = t.ltr → s.WritesAs w (.tetherLtr w v) 0x20484 (at' 0x484) (put { t with ltr := v })) ∧
    (t.ltrEn = true → s.TetherUp d → t.flr = none → v ≠ t.ltr → s.WritesAs w (.tetherLtr w v) 0x20484 (at' 0x484)
      (put { t with ltr := v, ltrSent := v, out := t.out ++ [.ltr v], idleSince := (s.pad d).now, lpm := 0 })) ∧
    (let u : Tether := { t with commitDone := t.commitDone && !bitAt v 2, commitErr := t.commitErr && !bitAt v 3 }
     s.WritesAs w (.commit w v) 0x20010 (at' 0x10) (put (
       if bitAt v 0 = true ∧ t.pending = false then
         (if t.windowsOk then { u with pending := true } else { u with commitErr := true })
       else u))) ∧
    (s.tetherDie = some d → t.stalled = [] → exec .windowSwap s = .next (put (
      if t.pending then { t with win := t.shadow, pending := false, commitDone := true } else t)))

/-- An inbound memory TLP beyond BAR2 is Unsupported Request and filed as 0x903 (16 R433); one outside every window as
0x904 (R437); in a window a read becomes one GetOnce per line, which waits while 1,024 requests are open, and a full
line written becomes one PushFull, with no completion (R434, R438). During an FLR a read is answered Unsupported Request
and nothing else (R449). Taken from PCI Express (PRESUMED): a read of no byte is completed at once with one DW of open
content, and a write longer than the Max Payload Size is malformed and discarded (log entry 74); the place of Max
Payload Size and the AER bits (log entry 22). -/
def Obligations.MemoryTlpsBecomeRequests : Prop :=
  ∀ (s : State) (d : Die) (off : BitVec 36), s.TetherUp d →
    let t := s.tether
    (∀ (bytes : BitVec 13) (tag : BitVec 10), tlpSpan off.toNat bytes.toNat = true →
      (t.Takes ∨ exec (.memoryReadTlp off bytes tag) s = .next (s.sentToHost d [.complUR tag])) ∧
      (t.Decodes → 2 ^ t.aperLog2.toNat ≤ off.toNat →
        ∃ u : State, exec (.memoryReadTlp off bytes tag) s = .next u ∧ u.krovol = s.krovol ∧ u.pending = s.pending ∧
          u.tether = { t with
            out := t.out ++ [.complUR tag], idleSince := (s.pad d).now, lpm := 0, aerSticky := putBit t.aerSticky 20 true } ∧
          (s.pad d).Filed (u.pad d) (s.tetherReport d 0x903 20) ∧ (u.pad d).stream = (s.pad d).stream) ∧
      (t.Decodes → off.toNat < 2 ^ t.aperLog2.toNat → t.window off.toNat bytes.toNat = none →
        ∃ u : State, exec (.memoryReadTlp off bytes tag) s = .next u ∧ u.krovol = s.krovol ∧ u.pending = s.pending ∧
          u.tether = { t with
            out := t.out ++ [.complUR tag], idleSince := (s.pad d).now, lpm := 0
            aerSticky := putBit t.aerSticky 20 true, inbOut := t.inbOut + 1 } ∧
          (s.pad d).Filed (u.pad d) (s.tetherReport d 0x904 20) ∧ (u.pad d).stream = (s.pad d).stream) ∧
      (∀ a, t.Decodes → off.toNat < 2 ^ t.aperLog2.toNat → t.window off.toNat bytes.toNat = some a → bytes.toNat = 0 →
        t.waiting = [] →
        ∃ (u : State) (l : List Byte), exec (.memoryReadTlp off bytes tag) s = .next u ∧ u.krovol = s.krovol ∧
          u.pending = s.pending ∧ l.length = 4 ∧ u.tether.out = t.out ++ [.complD tag l false] ∧
          u.tether.port = t.port ∧ u.tether.tlps = t.tlps) ∧
      (∀ a, t.Decodes → off.toNat < 2 ^ t.aperLog2.toNat → t.window off.toNat bytes.toNat = some a → 1 ≤ bytes.toNat →
        a.toNat % 64 + bytes.toNat ≤ 64 → a.toNat + bytes.toNat ≤ 2 ^ 52 → 1024 ≤ t.port.txns.length →
        ∃ u : State, exec (.memoryReadTlp off bytes tag) s = .next u ∧ u.krovol = s.krovol ∧ u.pending = s.pending ∧
          u.tether = { t with
            nextTlp := t.nextTlp + 1, idleSince := (s.pad d).now, lpm := 0
            waiting := t.waiting ++ [{ id := t.nextTlp, relaxed := false
                                       req := { op := .getOnce, addr := a, len := bytes.toNat } }]
            tlps := t.tlps ++ [{ id := t.nextTlp, tag := tag, pieces := [{ addr := a, len := bytes.toNat }] }] }) ∧
      (∀ a x, t.Decodes → off.toNat < 2 ^ t.aperLog2.toNat → t.window off.toNat bytes.toNat = some a → 1 ≤ bytes.toNat →
        a.toNat % 64 + bytes.toNat ≤ 64 → a.toNat + bytes.toNat ≤ 2 ^ 52 → t.waiting = [] → t.port.txns.length < 1024 →
        t.port.freeTxid = some x →
        (s.pad d).repl.absent (s.pad d).conf.unreach d ((s.pad d).repl.home a) false = false →
        ∃ u e, exec (.memoryReadTlp off bytes tag) s = .next u ∧ u.krovol = s.krovol ∧ u.pending = s.pending ∧
          u.tether.port.txns = t.port.txns ++ [e] ∧ e.flit.op = .getOnce ∧ e.flit.addr = a ∧ e.flit.txid = x ∧
          e.flit.len.toNat = bytes.toNat ∧ e.flit.tgt = (s.pad d).repl.home a ∧ e.stamp = (s.pad d).now ∧
          e.purpose = .tlp t.nextTlp ∧ u.tether.out = t.out ∧ u.tether.nextTlp = t.nextTlp + 1 ∧
          u.tether.tlps = t.tlps ++ [{ id := t.nextTlp, tag := tag, pieces := [{ addr := a, len := bytes.toNat }] }])) ∧
    (∀ (data : List (Option Byte)) (relaxed : Bool), t.maxPayload < data.length → t.Takes →
      ∃ u : State, exec (.memoryWriteTlp off data relaxed) s = .next u ∧
        u.tether = { t with aerSticky := putBit t.aerSticky 18 true } ∧
        (s.pad d).Filed (u.pad d) (s.tetherReport d 0x903 18) ∧ (u.pad d).stream = (s.pad d).stream) ∧
    ∀ (data : List Byte) (relaxed : Bool) (a : Addr) (x : TxId), data.length = 64 → off.toNat % 64 = 0 → t.Decodes →
      off.toNat < 2 ^ t.aperLog2.toNat → t.waiting = [] → t.window off.toNat 64 = some a → a.toNat % 64 = 0 →
      t.port.txns.length < 1024 → t.port.freeTxid = some x →
      (s.pad d).repl.absent (s.pad d).conf.unreach d ((s.pad d).repl.home a) false = false →
      ∃ u e, exec (.memoryWriteTlp off (data.map some) relaxed) s = .next u ∧ u.krovol = s.krovol ∧ u.pending = s.pending ∧
        u.tether.port.txns = t.port.txns ++ [e] ∧ e.flit.op = .pushFull ∧ e.flit.addr = a ∧ e.flit.txid = x ∧
        e.data = lineOfBytes 0 data ∧ e.haveData = true ∧ e.inOrder = !relaxed ∧ u.tether.out = t.out ∧ u.tether.tlps = t.tlps

/-- A BAR0 read of one DW is a register access tagged HOST: its value, or Completer Abort and 0x903 where it is DENIED;
other lengths are Completer Abort (16 R433, 18 R479). An H4 alias access is the BAR0 access of the register it names,
or reads 0 (16 R435). The expansion ROM shows the Charter (16 R436); a configuration read shows the identity, and
during an FLR every configuration request is answered Request Retry (16 R431, R449). The configuration offsets 0 and
0x10 and the status bits that an abort sets, AER's and bit 11 of Status, are PCI Express's (PRESUMED, log entry 22). -/
def Obligations.RegisterTlpsAreAnswered : Prop :=
  ∀ (s : State) (d : Die) (tag : BitVec 10), s.TetherUp d →
    let t := s.tether
    let host : Who := { via := d, dom := 2, strb := 15, bar0 := true }
    let base (u : State) : Prop := u.krovol = s.krovol ∧ u.pending = s.pending ∧ u.tether.bar0 = none ∧ u.tether.barWait = []
    (t.Decodes → t.bar0 = none → t.barWait = [] →
      (∀ be, s.target d 0 = ⟨.repl, 0, d, false⟩ → s.asleep host ⟨.repl, 0, d, false⟩ = none →
        (s.pad d).repl.permits (Block.repl.priv 0) false 2 = true →
        ∃ u : State, exec (.bar0Access 0 1 none be tag) s = .next u ∧ base u ∧
          u.tether.out = t.out ++ [.complD tag (bytesOfWord 0x01080B00) false] ∧ (u.pad d).bell = (s.pad d).bell) ∧
      (∀ (off : BitVec 26) (be : BitVec 8), tlpSpan (off.toNat / 4 * 4) 4 = true →
        let a : RegAddr := BitVec.ofNat 26 (off.toNat / 4 * 4)
        let g := s.target d a
        g.absent = false → s.asleep host g = none → s.krovol.laid g.block g.off = true →
        (s.pad g.srv).repl.permits (g.block.priv g.off) false 2 = false → g.srv = d →
        ∃ u : State, exec (.bar0Access off 1 none be tag) s = .next u ∧ base u ∧ u.tether.out = t.out ++ [.complCA tag] ∧
          u.tether.pciStat = putBit t.pciStat 11 true ∧ (u.pad d).common.denied = (s.pad d).common.denied + 1 ∧
          (s.pad d).Filed (u.pad d) (s.tetherReport d 0x903 15)) ∧
      (∀ (off : BitVec 26) (dws : BitVec 10) (be : BitVec 8), tlpSpan (off.toNat / 4 * 4) (dwCount dws * 4) = true →
        2 < dwCount dws ∨ (dwCount dws = 2 ∧ off.toNat / 4 * 4 % 8 = 4) →
        ∃ u : State, exec (.bar0Access off dws none be tag) s = .next u ∧ base u ∧ u.tether.out = t.out ++ [.complCA tag] ∧
          u.tether.pciStat = putBit t.pciStat 11 true ∧ (s.pad d).Filed (u.pad d) (s.tetherReport d 0x903 15)) ∧
      (∀ (off : BitVec 16) (x : BarPayload),
        (s.h4Target d (off.toNat / 4 * 4) = none → x.dws = 1 → x.write = none →
          ∃ u : State, exec (.h4AliasAccess off x tag) s = .next u ∧ base u ∧
            u.tether.out = t.out ++ [.complD tag (bytesOfWord 0) false]) ∧
        (∀ a : RegAddr, s.h4Target d (off.toNat / 4 * 4) = some a → tlpSpan (off.toNat / 4 * 4) (dwCount x.dws * 4) = true →
          tlpSpan (a.toNat / 4 * 4) (dwCount x.dws * 4) = true →
          exec (.h4AliasAccess off x tag) s = exec (.bar0Access a x.dws x.write x.be tag) s))) ∧
    (∀ (off : BitVec 16) (dws : BitVec 10), tlpSpan (off.toNat / 4 * 4) (dwCount dws * 4) = true → t.Decodes →
      (t.romEn = true → exec (.charterRead off dws tag) s = .next ((s.pcount d 0x20 0).sentToHost d
        [.complD tag ((List.range (dwCount dws)).flatMap fun i => bytesOfWord (s.charterWord d (off.toNat / 4 + i))) false])) ∧
      (t.romEn = false → ∃ u : State, exec (.charterRead off dws tag) s = .next u ∧ u.tether.out = t.out ++ [.complUR tag] ∧
        (s.pad d).Filed (u.pad d) (s.tetherReport d 0x903 20))) ∧
    (¬t.Takes → ∀ off wr, exec (.configurationRequest off wr tag) s = .next (s.sentToHost d [.cfgRetry tag])) ∧
    (t.Takes →
      exec (.configurationRequest 0 none tag) s = .next (s.sentToHost d
        [.complD tag (bytesOfWord (s.krovol.device ++ s.krovol.vendor)) false]) ∧
      (∀ v : Word, t.bar[0] = 0 → exec (.configurationRequest 0x10 (some (v, 15)) tag) s = .next (
        let u := s.sentToHost d [.compl tag]
        { u with tether := { u.tether with bar := vset t.bar 0 (((0 : Word) ++ v) >>> 26 <<< 26) } })))

/-- A link that trains is up at the rate and width reached (16 R451). An FLR returns the Tether to reset values and keeps
the link, and a second one merges with it; a Hot Reset or link-down event takes the link too, and link-down and PERST#
file 0x901 (16 R447, R449, R450, 19 R516). TETHER_CTL.LOCK outlives them all, which is read from 18 R484 (DEDUCED, log
entry 58). Clearing Bus Master Enable discards the words of reads that are still to come (16 R448). -/
def Obligations.ResetsAndLinkEvents : Prop :=
  ∀ (s : State) (d : Die),
    let t := s.tether
    let put (u : Tether) : State := { s with tether := u }
    let fresh (u : Tether) : Prop := u.flr = some (t.flr.getD (s.pad d).now) ∧ u.mse = false ∧ u.bme = false ∧
      u.win = Vector.replicate 4 {} ∧ u.shadow = Vector.replicate 4 {} ∧ u.ring = Vector.replicate 64 {} ∧ u.pba = 0 ∧
      u.msixEn = false ∧ u.tlps = [] ∧ u.waiting = [] ∧ u.barWait = [] ∧ u.lock = t.lock ∧ u.out = t.out
    let calm : Prop := ∀ q : QN, ((s.pad (s.queueDie d)).shep.cq[q]).ringMode = false
    exec .tetherPerstRelease s = .next (put { t with perst := false }) ∧
    exec .flrComplete s = .next (put { t with flr := none }) ∧
    (s.tetherDie = some d →
      (∀ (rate : BitVec 3) (width : BitVec 5), linkShape rate.toNat width.toNat = true → t.linkUp = false → t.perst = false →
        (s.krovol.linkWidth < width.toNat → ∀ flit, exec (.linkUp rate width flit) s = .next s) ∧
        (width.toNat ≤ s.krovol.linkWidth → t.noTlp = false →
          ∀ flit, (flit = true → s.krovol.flitMode = true) → (flit = false → rate ≠ 5) →
        exec (.linkUp rate width flit) s = .next (put { t with
          linkUp := true, rate := rate, width := width, flit := flit, lpm := 0, idleSince := (s.pad d).now }))) ∧
      (calm → t.linkUp = true → t.perst = false →
        (∃ u : Tether, exec .flr s = .next (put u) ∧ (t.flr = none → fresh u) ∧ (t.flr.isSome = true → u = t) ∧
          u.linkUp = true ∧ u.rate = t.rate ∧ u.width = t.width) ∧
        (∃ u : Tether, exec .hotReset s = .next (put u) ∧ fresh u ∧ u.linkUp = false ∧ u.cfg = []) ∧
        (t.noTlp = false →
          (∃ u : State, exec .linkDown s = .next u ∧ u.pending = s.pending ∧ fresh u.tether ∧ u.tether.linkUp = false ∧
            (s.pad d).Filed (u.pad d) (s.tetherReport d 0x901 0)) ∧
          (∃ u : State, exec .tetherPerst s = .next u ∧ u.pending = s.pending ∧ fresh u.tether ∧ u.tether.perst = true ∧
            u.tether.linkUp = false ∧ (s.pad d).Filed (u.pad d) (s.tetherReport d 0x901 0)))) ∧
      (t.linkUp = true → t.perst = false → t.flr = none →
        ((∀ q : QN, (t.ring[q]).open' = []) →
          (∀ on, on = true ∨ t.bme = false ∨ t.dropTags = [] →
            exec (.busMasterEnable on) s = .next (put { t with bme := on })) ∧
          (t.bme = true → t.dropTags ≠ [] →
            exec (.busMasterEnable false) s = .next (put { t with bme := false, quiescing := true }))) ∧
        (∀ (q : QN) (r : RingRead), (t.ring[q]).open' = [r] → (∀ k, k ≠ q → (t.ring[k]).open' = []) →
          ((s.pad (s.queueDie d)).shep.cq[q]).words = [] → ((s.pad (s.queueDie d)).shep.cq[q]).same = true →
          r.got.length < r.want → t.bme = true → t.dropTags = [] →
          ∃ u : State, exec (.busMasterEnable false) s = .next u ∧ u.pads = s.pads ∧ u.tether.bme = false ∧
            u.tether.quiescing = true ∧ u.tether.dropTags = [{ tag := r.tag, left := r.want - r.got.length }] ∧
            ∀ k : QN, (u.tether.ring[k]).open' = [])))

/-- A host ring reads the words that wait, under a free tag, within its ring, 4 KiB and the queue's room (16 R442); words
that come enter the queue in ring order and move HEAD; a read that fails, comes poisoned or times out faults the ring and
files 0x903 (R443). A vector whose condition turns true is sent, or stays pending until it may be (R445). An idle link
enters an L1 substate after its time (R446). The numbers of AER's and Status's bits and Device Control 2 bit 4, which
disables the timeout, are PCI Express's (PRESUMED, log entry 22). -/
def Obligations.RingsVectorsAndL1 : Prop :=
  ∀ (s : State) (d : Die) (q : QN),
    let t := s.tether
    let r := t.ring[q]
    let c := (s.pad (s.queueDie d)).shep.cq[q]
    (∀ g n, s.RingReady d q g → r.open' = [] → 0 < n →
      let addr := r.base.toNat + 4 * (r.head.toNat % r.size)
      n = min (min (min r.waiting (r.size - r.head.toNat % r.size)) (min t.maxReadWords ((4096 - addr % 4096) / 4))) c.free →
      exec (.hostRingFetch q) s = .next (
        let u := s.sentToHost d [.memRead g (BitVec.ofNat 64 addr) n]
        { u with tether := { u.tether with ring := vmod t.ring q fun r => { r with open' := [{ tag := g, want := n }] } } })) ∧
    (s.TetherUp d →
      (∀ g v, r.open' = [{ tag := g, want := 1 }] → r.head.toNat + 1 < r.size → c.words = [] → c.same = true → 1 ≤ bits v 8 6 →
        ∃ u : State, exec (.hostRingCompletion q g (.words [v])) s = .next u ∧ u.krovol = s.krovol ∧ u.pending = s.pending ∧
          u.tether.ring[q] = { r with open' := [], head := r.head + 1 } ∧
          ((u.pad (s.queueDie d)).shep.cq[q]).words = [v] ∧ u.tether.out = t.out) ∧
      (∀ g n, r.open' = [{ tag := g, want := n }] → 0 < n → c.words = [] → c.same = true →
        let faulted (u : State) (detail : Nat) (st : BitVec 16) : Prop :=
          u.tether.pciStat = st ∧ u.krovol = s.krovol ∧ u.pending = s.pending ∧
          (u.tether.ring[q]).fault = true ∧ (u.tether.ring[q]).open' = [] ∧
          u.tether.aerSticky = putBit t.aerSticky detail true ∧
          (s.pad d).Filed (u.pad d) (s.tetherReport d 0x903 detail)
        (∃ u : State, exec (.hostRingCompletion q g .unsupported) s = .next u ∧ faulted u 20 (putBit t.pciStat 13 true)) ∧
        (∃ u : State, exec (.hostRingCompletion q g .abort) s = .next u ∧ faulted u 15 (putBit t.pciStat 12 true)) ∧
        (∃ u : State, exec (.hostRingCompletion q g .poisoned) s = .next u ∧ faulted u 12
          (if bitAt (smGet t.cfg 0 0x04) 6 then putBit (putBit t.pciStat 15 true) 8 true else putBit t.pciStat 15 true)) ∧
        (bitAt (smGet t.cfg 0 0x78) 4 = true → exec (.completionTimeout q g) s = .next s) ∧
        (bitAt (smGet t.cfg 0 0x78) 4 = false →
          ∃ u : State, exec (.completionTimeout q g) s = .next u ∧ faulted u 14 t.pciStat)) ∧
      (let e := t.msix[q]
       let note (u : State) : State := { u with tether := { u.tether with cond := putBit t.cond q.val (s.msixCond d q) } }
       let sent : State := (s.sentToHost d [.memWrite (e.addrHi ++ e.addrLo) e.data]).pcount d 0x25 0
       let due := s.msixCond d q = true ∧ bitAt t.cond q.val = false
       (¬due → exec (.msixVectorDue q) s = .next (note s)) ∧
       (due → t.VectorOpen q → exec (.msixVectorDue q) s = .next (note sent)) ∧
       (due → t.bme = false → exec (.msixVectorDue q) s = .next (note { s with
         tether := { t with pba := putBit t.pba q.val true, lpm := 0, idleSince := (s.pad d).now } })) ∧
       (bitAt t.pba q.val = true → t.VectorOpen q → exec (.msixSend q) s = .next { sent with
         tether := { sent.tether with pba := putBit t.pba q.val false } }) ∧
       (bitAt t.pba q.val = false → exec (.msixSend q) s = .next s)) ∧
      (∀ sub : BitVec 2, sub ≠ 0 → t.l1En = true → t.lpm = 0 → t.idle = true → t.ltrEn = false →
        exec (.l1Entry sub) s = .next (if t.subOk sub = true ∧ t.idleSince + t.idleNs ≤ (s.pad d).now then
          { s with tether := { t with lpm := sub } } else s)))

/-- The Shepherd takes the packet of the queue that is next, and no other packet of that queue before its first reply; one
that fails a check is answered by the check's status, else it waits to run (15 R397, R400, R410). A held reply is
posted once it fits (R403). The watchdog sets BELL_STICKY bit 5, a source of wakes, after 10,000 ticks, which the model
counts from the last packet taken or run, an idle Shepherd's too (DEDUCED, log entry 55); what was taken and what is
not resumed is answered FAILED, and what is never abandoned goes on (R417, R420). -/
def Obligations.PacketsAreTakenInTurn : Prop :=
  ∀ (s : State) (d : Die) (q : QN),
    let x := (s.pad d).shep
    let c := x.cq[q]
    let y := x.rq[q]
    (∀ l rest, s.shepTakes d = true → x.nextQueue = some q → c.packets = l :: rest → c.same = true → c.stalled = [] →
      let k := takenOf q l
      let took (b : Bool) (q' : CmdQueue) : CmdQueue := { q' with
        packets := rest, head := q'.head.add l.length, lastSeq := k.seq, busyFirst := b }
      ∃ t : State, exec (.packetTake d) s = .next t ∧ s.OnlyPad t d ∧ (t.pad d).shep.rrLast = q ∧ (t.pad d).folds = (s.pad d).folds ∧
        (s.formCheck d k (l.headD 0) = none →
          (t.pad d).shep.taken = x.taken ++ [k] ∧ (t.pad d).shep.cq[q] = took true c ∧ (t.pad d).shep.rq = x.rq) ∧
        (∀ st, s.formCheck d k (l.headD 0) = some st → y.replies = [] → y.current = [] → y.held = [] → y.same = true →
          (t.pad d).shep.taken = x.taken ∧ (t.pad d).shep.cq[q] = took false c ∧
          (t.pad d).shep.rq[q] = { y with
            replies := [{ pri := k.pri, words := replyWords k.opc k.tag k.pri k.seq st [] }], tail := y.tail.add 2 })) ∧
    (s.shepTakes d = false ∨ x.nextQueue = none → exec (.packetTake d) s = .next s) ∧
    ((s.pad d).shepRuns = false → exec (.heldReplyPost d q) s = .next s) ∧
    ((s.pad d).shepRuns = true → y.same = true → y.held = [] → exec (.heldReplyPost d q) s = .next s) ∧
    ((s.pad d).shepRuns = true → y.same = true → ∀ r rest, y.held = r :: rest →
      exec (.heldReplyPost d q) s = .next (if y.used + r.words.length ≤ 256 then s.modRq d q fun z => { z with
        replies := z.replies ++ [r], held := rest, tail := z.tail.add r.words.length } else s)) ∧
    ((s.pad d).aon.ticks < x.wdogTick + 10000 → exec (.watchdog d) s = .next s) ∧
    ((s.pad d).Released → (s.pad d).domOn domSH = true → x.wdogTick + 10000 ≤ (s.pad d).aon.ticks →
      let stuck : State := (s.modPad d fun p => { p with shep := { p.shep with wdogTick := p.aon.ticks } }).stick d 5
      let empty (z : ReplyQueue) : Prop := z.replies = [] ∧ z.current = [] ∧ z.held = [] ∧ z.same = true
      (x.deferred = [] → x.taken = [] → exec (.watchdog d) s = .next stuck) ∧
      (∀ k, x.deferred = [] → x.taken = [k] → k.quiet = false → empty x.rq[k.q] →
        exec (.watchdog d) s = .next (stuck.replies d k .failed [])) ∧
      (∀ o, x.deferred = [o] → x.taken = [] → o.kind.keeps = true → o.kind ≠ .nightfold → exec (.watchdog d) s = .next stuck) ∧
      (∀ o todo n, x.deferred = [o] → x.taken = [] → o.kind = .hurdleLoad todo n → o.pkt.quiet = false → empty x.rq[o.pkt.q] →
        ∃ t : State, exec (.watchdog d) s = .next t ∧ t.krovol = s.krovol ∧ t.pending = s.pending ∧ (t.pad d).shep.deferred = [] ∧
          bitAt (t.pad d).aon.sticky 5 = true ∧ ((t.pad d).shep.rq[o.pkt.q]).replies =
            [{ pri := o.pkt.pri, words := replyWords o.pkt.opc o.pkt.tag o.pkt.pri o.pkt.seq .failed [] }]))

/-- Queries answer DONE with their words: PING, QUERY_CHARTER, TT_DUMP and HURDLE_LOG_READ (15 R414, R416, 12 R335); a
count out of range is BAD_PARAM. TT_DUMP of a fold whose FL domain is off reads zeros (DESIGN CHOICE, log entry 15), and
a reply restarts the watchdog's time (DEDUCED, log entry 55). -/
def Obligations.QueriesAnswer : Prop :=
  ∀ (s : State) (d : Die) (k : Taken),
    let w := k.p 1
    let x := dieAt w 0
    (s.Ran d 0x01 k → exec (.ping d) s = .next (s.replies d k .done
      [word [(0, 2), (8, 1), (16, (s.pad d).shep.patch.level.toNat)], popWord s.krovol (s.pad d).repl])) ∧
    (s.Ran d 0x02 k →
      let off := bits w 0 14
      let n := bits w 14 6
      let ok := 1 ≤ n ∧ n ≤ 62 ∧ off + n ≤ 16384
      (ok → exec (.queryCharter d) s = .next (s.replies d k .done
        ((List.range n).map fun i => s.charterWord d (off + i)))) ∧
      (¬ok → s.Answers (.queryCharter d) d k .badParam)) ∧
    (s.Ran d 0x06 k →
      let p : PFold := Fin.ofNat 5 (bits w 3 3)
      let first := bits w 6 9
      let n := bits w 15 4
      let ok := bits w 3 3 ≤ 4 ∧ 1 ≤ n ∧ first + n ≤ 512 ∧ s.planned x = true
      (¬ok → s.Answers (.ttDump d) d k .badParam) ∧
      (ok → s.present d x = false → s.Answers (.ttDump d) d k .notPresent) ∧
      (ok → s.present d x = true → (s.pad x).domOn (domFL p) = true →
        exec (.ttDump d) s = .next { s.replies d k .done (((s.pad x).folds[p]).dump first n s.fresh) with
          fresh := s.fresh + n }) ∧
      (ok → s.present d x = true → (s.pad x).domOn (domFL p) = false →
        exec (.ttDump d) s = .next (s.replies d k .done (List.replicate (4 * n) 0)))) ∧
    (s.Ran d 0x71 k →
      let first := bits w 3 7
      let n := bits w 10 5
      let ok := 1 ≤ n ∧ n ≤ 30 ∧ first + n ≤ 128
      (¬ok → s.Answers (.hurdleLogRead d) d k .badParam) ∧
      (ok → s.dieCheck d x = none → first + n ≤ (s.pad x).aon.hlog.length →
        ∃ (t : State) (words : List Word), exec (.hurdleLogRead d) s = .next { t.replies d k .done words with fresh := s.fresh + 2 * n } ∧
          t.krovol = s.krovol ∧ t.tether = s.tether ∧ t.pending = s.pending ∧
          words.length = 2 * n ∧
          (∀ i, i < n → words[2 * i]? = ((s.pad x).aon.hlog[first + i]?).map (fun r => r.extractLsb' 0 32) ∧
            words[2 * i + 1]? = ((s.pad x).aon.hlog[first + i]?).map (fun r => r.extractLsb' 32 32)) ∧
          (∀ j, j < 128 → bitAt (t.pad x).aon.hlogUnread j =
            (bitAt (s.pad x).aon.hlogUnread j && !decide (first ≤ j ∧ j < first + n))) ∧
          (∀ y, y ≠ x → t.pad y = s.pad y) ∧
          t.pad x = { s.pad x with aon := { (s.pad x).aon with hlogUnread := (t.pad x).aon.hlogUnread } }))

/-- Settings that take effect at once: DEADLINE_SET and CENSUS_CONFIG in every member, NIGHTFOLD_PROGRAM in every island,
each BAD_PARAM out of range (11 R294, 17 R459, 14 R375); FACTORY_UNLOCK, which needs TESTMODE and the key, with three
tries (13 R358); INJECT_FAULT, which needs UNLOCKED (13 R359). Three points are the model's (DEDUCED): FACTORY_UNLOCK
unlocks its own paddock alone (log entry 17), the ADDR of an injected report is always valid (log entry 54), and the
first period number of a census that never ran is Tide / PERIOD (log entry 56). -/
def Obligations.SettingsTakeEffect : Prop :=
  ∀ (s : State) (d : Die) (k : Taken),
    let q := s.pad d
    (s.Ran d 0xA0 k →
      let c : Cls := Fin.ofNat 4 (bits (k.p 1) 0 2)
      let dl := bits (k.p 2) 0 17
      let sh := bits (k.p 3) 0 17
      let ok := 100 ≤ dl ∧ dl ≤ 100000 ∧ 50 ≤ sh ∧ sh ≤ dl
      let set (r : Repl) : Repl := { r with
        deadline := vset r.deadline c dl, share := vset r.share c sh
        qAllow := if bitAt (k.p 1) 2 then (k.p 4).extractLsb' 0 8 else r.qAllow
        jAllow := if bitAt (k.p 1) 2 then (k.p 4).extractLsb' 8 8 else r.jAllow }
      let old := s.envNow d
      (¬ok → s.Answers (.deadlineSet d) d k .badParam) ∧
      (ok → envRefuses old { old with r := set old.r } = true → s.Answers (.deadlineSet d) d k .notPermitted) ∧
      (ok → envRefuses old { old with r := set old.r } = false → q.shep.recheck.isSome = true →
        ∃ t : State, exec (.deadlineSet d) s = .next (t.replies d k .done []) ∧ s.OnlyRepl t d set)) ∧
    (s.Ran d 0x90 k →
      let depth := bits (k.p 1) 2 4
      let base := bits (k.p 1) 14 18 * 2 ^ 14 + bits (k.p 2) 0 20 * 2 ^ 32
      let period := (k.p 3).toNat
      let ok := 50000 ≤ period ∧ depth ≤ 8 ∧ s.ringOk d base (base + 2 ^ depth * 16384) = true
      let cfg : DumpCfg := { en := bitAt (k.p 1) 0, clear := bitAt (k.p 1) 1, depth := depth
                             base := BitVec.ofNat 52 base, period := period }
      (¬ok → s.Answers (.censusConfig d) d k .badParam) ∧
      (ok → ∃ t : State, exec (.censusConfig d) s = .next (t.replies d k .done []) ∧ t.krovol = s.krovol ∧ t.tether = s.tether ∧
        t.pending = s.pending ∧ ∀ x, t.pad x = if x ∈ s.members d then { s.pad x with census := { (s.pad x).census with
            pendCfg := some cfg
            nextK := if (s.pad x).census.cfgSet then (s.pad x).census.nextK else (s.pad x).now / period } }
          else s.pad x)) ∧
    (s.Ran d 0x60 k → s.anyDef d (fun y => y == .nightfold) = false →
      let p : NfProgram := { interval := bits (k.p 1) 0 16, sentinels := bits (k.p 1) 16 13, retain := (k.p 3) ++ (k.p 2)
                             wakeEn := (k.p 4).extractLsb' 0 5 }
      let ok := 1 ≤ p.interval ∧ p.interval ≤ 60000 ∧ p.sentinels ≤ 4096 ∧ s.retainOk p.retain = true
      (¬ok → s.Answers (.nightfoldProgram d) d k .badParam) ∧
      (ok → ∃ t : State, exec (.nightfoldProgram d) s = .next (t.replies d k .done []) ∧ t.krovol = s.krovol ∧ t.tether = s.tether ∧
        t.pending = s.pending ∧ ∀ x, t.pad x = if x ∈ s.members d then { s.pad x with
          aon := { (s.pad x).aon with nfProg := some p } } else s.pad x)) ∧
    (s.Ran d 0xF0 k →
      (q.aon.unlockTries = 3 ∨ q.boot.testmode = false → s.Answers (.factoryUnlock d) d k .notPermitted) ∧
      (q.aon.unlockTries ≠ 3 → q.boot.testmode = true → exec (.factoryUnlock d) s = .next (
        if (k.p 1).extractLsb' 0 16 = s.krovol.unlock then
          (s.modPad d fun q => { q with bell := { q.bell with unlocked := true } }).replies d k .done []
        else (s.modPad d fun q => { q with aon := { q.aon with unlockTries := q.aon.unlockTries + 1 } }).replies d k
          .notPermitted []))) ∧
    (s.Ran d 0xF1 k →
      let x := dieAt (k.p 1) 14
      let code : BitVec 12 := (k.p 1).extractLsb' 0 12
      (q.bell.unlocked = false → s.Answers (.injectFault d) d k .notPermitted) ∧
      (q.bell.unlocked = true → (stickyCodes.map fun e => e.1).contains code.toNat = false → codeKnown code = true →
        bits (k.p 1) 12 2 = 0 → bits (k.p 1) 17 3 < 5 → s.present d x = true → dieOf ((k.p 2).extractLsb' 0 10) = d →
        dieOf ((k.p 2).extractLsb' 10 10) = d →
        exec (.injectFault d) s = .next ((s.modPad d fun q => { q with bell := { q.bell with inbox := q.bell.inbox ++
          [{ code := code, reporter := (k.p 2).extractLsb' 0 10, subject := (k.p 2).extractLsb' 10 10
             addr := some ((k.p 4).extractLsb' 0 20 ++ (k.p 3)), atype := (k.p 2).extractLsb' 20 6, t := q.now
             detail := BitVec.ofNat 16 (bits (k.p 1) 17 3), injected := true }] } }).replies d k .done [])))

/-- Commands about folds and lines that take long: MAINT_RANGE, MAINT_SETWAY, SCRUB_RANGE, MILLPOND_CONFIG, FOLD_POWER,
FOLD_SPARE_IN and FOLD_RETIRE answer DEFERRED and go on, or refuse a parameter out of range or one that is in progress
(06 R167 to R169, 12 R316, R326, R327, 14 R368). The model's own (DEDUCED): a FOLD_RETIRE whose PFOLD is above 4 is
BAD_PARAM and one of a failed fold DONE, and a FOLD_SPARE_IN of a vacant logical fold moves it, with nothing to sweep
(log entry 46); how MAINT_SETWAY takes its sets and ways (log entry 45). -/
def Obligations.FoldCommandsGoOn : Prop :=
  ∀ (s : State) (d : Die) (k : Taken), s.Idle d →
    let w := k.p 1
    let x := dieAt w 0
    let n : LFold := Fin.ofNat 4 (bits w 3 2)
    (s.Ran d 0x30 k →
      let lo := lineOfWords w (k.p 2)
      let hi := lineOfWords (k.p 3) (k.p 4)
      (bits w 0 2 = 3 ∨ hi ≤ lo → s.Answers (.maintRange d) d k .badParam) ∧
      (∀ op, (bits w 0 2, op) ∈ [(0, ReqOp.sweep), (1, .purge), (2, .sweepPurge)] → lo < hi →
        exec (.maintRange d) s = .next (s.defers d k (.maint { op := op, limit := hi, next := Vector.replicate 8 lo })))) ∧
    (s.Ran d 0x31 k →
      let first := bits w 7 12
      let cnt := bits (k.p 2) 0 13
      (cnt = 0 ∨ 4096 < first + cnt → s.Answers (.maintSetway d) d k .badParam) ∧
      (1 ≤ cnt → first + cnt ≤ 4096 → s.dieCheck d x = none → ∀ p, (s.pad x).repl.pfoldOf x n = some p →
        let act : BitVec 2 := w.extractLsb' 5 2
        let m (a b : Nat) : DefKind := .setway { d := x, n := n, action := act, ways := (k.p 2).extractLsb' 13 16
                                                 next := a, limit := b }
        (act ≠ 3 → exec (.maintSetway d) s = .next (s.defers d k (m (first * 16) ((first + cnt) * 16)))) ∧
        (act = 3 → exec (.maintSetway d) s = .next ((s.modFold x p fun f => { f with
          poolLost := f.poolLost.filter fun i => i < first || first + cnt ≤ i }).defers d k
            (m ((first + cnt) * 16) ((first + cnt) * 16)))))) ∧
    (s.Ran d 0x20 k → bitAt w 0 = true →
      let y := dieAt (k.p 2) 0
      let a := arrayOf (bits (k.p 2) 6 3)
      let first := bits (k.p 3) 0 18
      let cnt := bits (k.p 4) 0 18
      let ok := 1 ≤ cnt ∧ first + cnt ≤ arraySize a ∧ bits (k.p 2) 3 3 ≤ 4
      (¬ok → s.Answers (.scrubRange d) d k .badParam) ∧
      (ok → s.dieCheck d y = none → exec (.scrubRange d) s = .next ((s.modFold y (Fin.ofNat 5 (bits (k.p 2) 3 3)) fun f =>
        { f with scrub := some { array := some a, next := first, limit := first + cnt, pace := bits w 1 4, lastCycle := 0
                                 record := bitAt w 5 } }).defers d k (.scrub true 0 (s.pad d).now 0 0)))) ∧
    (s.Ran d 0x32 k →
      let new := bits w 3 4
      (8 < new → s.Answers (.millpondConfig d) d k .badParam) ∧
      (new ≤ 8 → s.dieCheck d x = none → new ≤ s.mpWays x → (s.pad d).repl.mpMiB x ≤ new →
        exec (.millpondConfig d) s = .next (s.defers d k (.millpond x new)))) ∧
    (s.Ran d 0x10 k →
      let t := bits w 5 3
      (t ∉ [0, 1, 3, 4] → s.Answers (.foldPower d) d k .badParam) ∧
      ∀ p, t ∈ [0, 1, 3, 4] → s.dieCheck d x = none → (s.pad d).repl.pfoldOf x n = some p → (s.power x p).state = .run →
        (t = 3 → s.homesC0 d x = false → exec (.foldPower d) s = .next ((s.defers d k (.foldPower x n .retain)).modPad x fun q =>
          { q with
            folds := vmod q.folds p fun f => { f with refuseReq := true }
            ebb := { q.ebb with fold := vmod q.ebb.fold p fun y => { y with
              state := .drain, target := .retain, gated := false, waking := none } } })) ∧
        (t = 0 → (s.power x p).gated = false → (s.pad d).shep.recheck.isSome = true →
          exec (.foldPower d) s = .next ((s.modPad x fun q => { q with ebb := { q.ebb with
            fold := vmod q.ebb.fold p fun y => { y with target := .run } } }).replies d k .done []))) ∧
    (s.Ran d 0x12 k →
      let t := bits w 5 3
      (t ≠ 4 → t ≠ n.val → s.Answers (.foldSpareIn d) d k .badParam) ∧
      (t = 4 → s.dieCheck d x ≠ none → ∃ st, s.Answers (.foldSpareIn d) d k st) ∧
      (t = 4 → s.dieCheck d x = none → (s.pad d).repl.carries x 4 = none →
        bitAt ((s.pad d).repl.foldmap[x]).failed 4 = true → s.Answers (.foldSpareIn d) d k .notPermitted) ∧
      (t = 4 → s.dieCheck d x = none → (s.pad d).repl.carries x 4 = none →
        bitAt ((s.pad d).repl.foldmap[x]).failed 4 = false → s.millBlocked d x 4 = false →
        let m := (s.pad d).repl.foldmap[x]
        exec (.foldSpareIn d) s = .next (((s.defers d k (.move { d := x, n := n, src := m.pfold[n], dst := 4, retire := false
                                                                 vacant := bitAt m.vacant n.val })).modPad x
          fun q => { q with
            boot := { q.boot with selfTested := putBit q.boot.selfTested 4 false, arrayInit := putBit q.boot.arrayInit 4 false }
            ebb := { q.ebb with fold := vmod q.ebb.fold 4 fun y => { y with target := .run } } }).startWake x 4))) ∧
    (s.Ran d 0x11 k →
      let p : PFold := Fin.ofNat 5 (bits w 3 3)
      let m := (s.pad d).repl.foldmap[x]
      (4 < bits w 3 3 → s.Answers (.foldRetire d) d k .badParam) ∧
      (bits w 3 3 ≤ 4 → s.dieCheck d x = none → bitAt m.failed p.val = true → s.Answers (.foldRetire d) d k .done) ∧
      (bits w 3 3 ≤ 4 → s.dieCheck d x = none → bitAt m.failed p.val = false → ((s.pad d).repl.carries x p).isSome = true →
        m.standby = none → s.Answers (.foldRetire d) d k .notPermitted) ∧
      (∀ c, bits w 3 3 ≤ 4 → s.dieCheck d x = none → bitAt m.failed p.val = false → (s.pad d).repl.carries x p = some c →
        m.standby = some 4 → s.millBlocked d x 4 = false →
        exec (.foldRetire d) s = .next (((s.defers d k (.move { d := x, n := c, src := p, dst := 4, retire := true })).modPad x
          fun q => { q with
            boot := { q.boot with selfTested := putBit q.boot.selfTested 4 false, arrayInit := putBit q.boot.arrayInit 4 false }
            ebb := { q.ebb with fold := vmod q.ebb.fold 4 fun y => { y with target := .run } } }).startWake x 4)))

/-- Commands about the Range: DIE_JOIN, DIE_FENCE, OPPOINT_SET, NIGHTFOLD_ENTER, PATCH_LOAD and HURDLE_LOG_LOAD begin, or
are refused or BUSY by their rules; a join writes the joining paddock's regions, sluice settings and patch and starts the
route-epoch switch, and an accepted PATCH_LOAD reads its image before its first reply (10 R272, R275, 14 R373, R377,
15 R421, 12 R334). A sluice's copy starts with a full bucket (DEDUCED, log entry 48), and how PATCH_LOAD's image is
read is log entry 50 (DEDUCED). -/
def Obligations.RangeCommandsBegin : Prop :=
  ∀ (s : State) (d : Die) (k : Taken),
    let x := dieAt (k.p 1) 0
    let r := (s.pad d).repl
    let fields (t : State) : Prop := t.krovol = s.krovol ∧ t.tether = s.tether ∧ t.pending = s.pending
    (s.Ran d 0x50 k → s.Idle d →
      (s.planned x = false → s.Answers (.dieJoin d) d k .badParam) ∧
      (s.planned x = true → s.member d x = true → s.Answers (.dieJoin d) d k .done) ∧
      (s.planned x = true → s.member d x = false → bitAt r.readyDies x.val = false → s.Answers (.dieJoin d) d k .notPresent) ∧
      (s.planned x = true → s.member d x = false → bitAt r.readyDies x.val = true → (s.pad d).shep.sw = none →
        d ∈ s.members d → let l := s.pad d
        ∃ t : State, exec (.dieJoin d) s = .next (t.defers d k (.join x true)) ∧ t.krovol = s.krovol ∧ t.pending = s.pending ∧
          (s.krovol.tether ≠ some x → t.tether = s.tether ∧ (x ∉ s.live d →
            (t.pad x).stream = { (s.pad x).stream with sluice28 := (s.sluice28 d).map Sluice.copyOf })) ∧
          (s.krovol.tether = some x → t.tether = { s.tether with port := { s.tether.port with
            sluice := (s.sluice28 d).map Sluice.copyOf } }) ∧ (t.pad x).shep.patch = l.shep.patch ∧
          (∀ y, (t.pad y).repl = if y ∈ s.members d then { (s.pad y).repl with joinBusy := true }
            else if y = x then { (s.pad y).repl with regions := r.regions, regionDefault := r.regionDefault }
            else (s.pad y).repl) ∧
          (∀ (g : GateN) (c : Cls), (((t.pad x).gates[g]).port.sluice)[c] = Sluice.copyOf (((l.gates[g]).port.sluice)[c])) ∧
          (∀ (n : Fin 24) (c : Cls), (((t.pad x).stiles[n]).port.sluice)[c] = Sluice.copyOf (((l.stiles[n]).port.sluice)[c])) ∧
          (t.pad d).shep.sw = some { start := (s.pad d).now, present := putBit r.present x.val true
                                     forOp := some (s.pad d).shep.nextId } ∧
          ∀ y ∈ s.live d, (t.pad y).stream = { (s.pad y).stream with hold := true })) ∧
    (s.Ran d 0x51 k → s.Idle d →
      let rest := putBit r.present x.val false
      (s.planned x = false → s.Answers (.dieFence d) d k .badParam) ∧
      (s.planned x = true → s.member d x = false → s.Answers (.dieFence d) d k .notPresent) ∧
      (s.planned x = true → s.member d x = true → x = d ∨ connected rest d ≠ rest → s.Answers (.dieFence d) d k .notPermitted) ∧
      (s.planned x = true → s.member d x = true → x ≠ d → connected rest d = rest → r.mpMiB x = 0 →
        ∃ t : State, exec (.dieFence d) s = .next (t.defers d k (.fence x 1)) ∧ fields t ∧
          s.ReplOf t d (fun y => { y with fenceBusy := true, leaving := putBit y.leaving x.val true }) ∧
          ∀ y, (t.pad y).shep = (s.pad y).shep)) ∧
    (s.Ran d 0x80 k →
      let pt : Point := Fin.ofNat 4 (bits (k.p 1) 0 2)
      let old := (s.pad d).ebb.point
      (envRefuses (s.envNow d) (s.envAt d pt) = true → s.Answers (.oppointSet d) d k .notPermitted) ∧
      (envRefuses (s.envNow d) (s.envAt d pt) = false → (s.pad d).shep.deferred.map (fun o => o.kind) = [.nightfold] →
        s.Answers (.oppointSet d) d k .busy) ∧
      (envRefuses (s.envNow d) (s.envAt d pt) = false → s.Idle d →
        let up := Config.mhz old ≤ Config.mhz pt
        ∃ t : State, exec (.oppointSet d) s = .next (t.defers d k (.oppoint pt old (if up then .supply else .armed) (s.pad d).now)) ∧
          fields t ∧ (∀ y, (t.pad y).shep = (s.pad y).shep) ∧ ∀ y ∈ s.members d,
            (t.pad y).ebb.changing = true ∧ (t.pad y).ebb.opTarget = pt ∧
            (t.pad y).ebb.avs[(0 : RailN)] = if up then some { mv := Config.supplyMv pt, tick := (s.pad y).aon.ticks }
              else (s.pad y).ebb.avs[(0 : RailN)])) ∧
    (s.Ran d 0x61 k →
      ((s.pad d).aon.nfProg = none → s.Answers (.nightfoldEnter d) d k .notPermitted) ∧
      ((s.pad d).aon.nfProg.isSome = true → (∀ y ∈ s.members d, (s.pad y).bell.ftHalt = false) → s.Idle d →
        ∃ t : State, exec (.nightfoldEnter d) s = .next (t.defers d k .nightfold) ∧ fields t ∧
          ∀ y ∈ s.members d, (t.pad y).ebb.nf = .step1 ∧ (t.pad y).ebb.nfAbort = false ∧
            (t.pad y).aon.nfStart = (s.pad y).now ∧ (t.pad y).folds = (s.pad y).folds)) ∧
    (s.Ran d 0x03 k →
      (¬s.Idle d → s.Answers (.patchLoad d) d k .busy) ∧
      (s.Idle d → exec (.patchLoad d) s = .next (s.modPad d fun q => { q with shep := { q.shep with
        taken := [], wdogTick := q.aon.ticks, nextId := q.shep.nextId + 1
        deferred := [{ id := q.shep.nextId, pkt := k
                       kind := .patch (BitVec.ofNat 52 (lineOfWords (k.p 1) (k.p 2) * 64)) (bits (k.p 3) 0 17) false 0 [] }] } }))) ∧
    (s.Ran d 0x70 k →
      let n := bits (k.p 1) 0 5
      let recs := (List.range n).map fun i => (k.p (2 * i + 3)) ++ (k.p (2 * i + 2))
      (n = 0 ∨ 30 < n → s.Answers (.hurdleLogLoad d) d k .badParam) ∧
      (1 ≤ n → n ≤ 30 → (∀ y ∈ recs, recValid y = true ∧ s.planned (recDie y) = true ∧ s.member d (recDie y) = true) →
        exec (.hurdleLogLoad d) s = .next (s.defers d k (.hurdleLoad recs 0))))

/-- REGION_SET refuses a region that breaks its rules, waits for a join or fence, and holds REQ at every port for a change
of a region's lines (01 R25, R29, 15 R415). REGION_SWITCH then waits until no fold works on those lines, and until
none is held; it writes the region in every member at once and lets REQ go (01 R29). FENCE_DRAINED waits until the
leaving die's folds hold no request, and until they record nothing (10 R276). Which lines a region's change sweeps, and
in what order a fence waits for its parts, are log entries 43 and 44 (DEDUCED). -/
def Obligations.RegionsSwitchAndFencesDrain : Prop :=
  ∀ (s : State) (d : Die),
    (∀ k, s.Ran d 0x40 k →
      let n := bits (k.p 1) 0 7
      let r := (s.pad d).repl
      let old := r.regionAt n
      let g := regionOfWords k n old
      let v := s.envNow d
      (s.regionBad r n g (k.p 6) = true → s.Answers (.regionSet d) d k .badParam) ∧
      (s.regionBad r n g (k.p 6) = false → (∃ x b, (s.pad d).shep.deferred.map (fun o => o.kind) = [.join x b]) →
        s.Answers (.regionSet d) d k .busy) ∧
      (s.regionBad r n g (k.p 6) = false → s.Idle d → envRefuses v { v with r := v.r.setRegion n g } = false →
        (regionFull n old g = true → ∃ t : State, exec (.regionSet d) s = .next (t.defers d k (.region { n := n, new := g, full := true })) ∧
          t.krovol = s.krovol ∧ t.tether = s.tether ∧ t.pending = s.pending ∧
          ∀ x, t.pad x = if x ∈ s.members d then { s.pad x with shep := { (s.pad x).shep with regionHold := true } }
            else s.pad x) ∧
        (regionFull n old g = false → regionSweeps n old g = false → (s.pad d).shep.recheck.isSome = true →
          ∃ t : State, exec (.regionSet d) s = .next (t.replies d k .done []) ∧ s.OnlyRepl t d fun y => y.setRegion n g))) ∧
    (∀ id r, d ∈ s.leaders → (∀ l ∈ s.leaders, l ≠ d → s.regionOp l = none) → s.regionOp d = some (id, r) → r.full = true →
      let f := s.regionLines d r
      let none' := ∀ x, ∀ p : PFold, ((s.pad x).repl.carries x p).isSome = true → s.heldLines x p f = []
      (s.linesIdle d f = false → exec .regionSwitch s = .next s) ∧
      (r.step ≠ 1 → s.jobOpen (jobOf id) = true → exec .regionSwitch s = .next s) ∧
      (r.step ≠ 1 → s.jobOpen (jobOf id) = false → s.linesIdle d f = true → none' → (s.pad d).shep.recheck.isSome = true →
        ∃ t : State, exec .regionSwitch s = .next t ∧ t.krovol = s.krovol ∧ t.tether = s.tether ∧ t.pending = s.pending ∧
          s.ReplOf t d (fun y => y.setRegion r.n r.new) ∧ (∀ x ∈ s.members d, (t.pad x).shep.regionHold = false) ∧
          (∀ x, (t.pad x).folds = (s.pad x).folds))) ∧
    (∀ o x, d ∈ s.leaders → (∀ l ∈ s.leaders, l ≠ d → s.defAt l DefKind.anyFence = none) →
      s.defAt d DefKind.anyFence = some o →
      let carried (p : PFold) : Prop := ((s.pad x).repl.carries x p).isSome = true
      (o.kind = .fence x 1 →
        let idle := ∀ p, carried p → ((s.pad x).folds[p]).tt = [] ∧ ((s.pad x).folds[p]).pens = []
        (¬idle → exec .fenceDrained s = .next s) ∧
        (idle → ∃ t : State, exec .fenceDrained s = .next t ∧ t.krovol = s.krovol ∧ t.tether = s.tether ∧ t.pending = s.pending ∧
          (∀ y, (t.pad y).repl = (s.pad y).repl ∧ (t.pad y).folds = (s.pad y).folds) ∧
          ∀ e ∈ (t.pad d).shep.deferred, e.id = o.id → e.kind = .fence x 3)) ∧
      (o.kind = .fence x 3 →
        (s.jobOpen (jobOf o.id) = true ∨ (s.pad d).shep.sw.isSome = true → exec .fenceDrained s = .next s) ∧
        ((∃ p, carried p ∧ (s.fc x p).recorded ≠ []) → exec .fenceDrained s = .next s) ∧
        (s.jobOpen (jobOf o.id) = false → (s.pad d).shep.sw = none →
          (∀ p, carried p → (s.fc x p).recorded = [] ∧ ((s.pad x).folds[p]).dirtyLines = [] ∧ ((s.pad x).folds[p]).quiet = true) →
          ∃ t : State, exec .fenceDrained s = .next t ∧ t.krovol = s.krovol ∧ t.tether = s.tether ∧ t.pending = s.pending ∧
            (t.pad d).shep.sw = some { start := (s.pad d).now, present := putBit (s.pad d).repl.present x.val false
                                       forOp := some o.id } ∧
            ∀ y ∈ s.live d, (t.pad y).stream = { (s.pad y).stream with hold := true })))
end

