-- ==== Sys2Proof/Laws/State.lean ====
section
/-!
SUPPORT. One lemma for each field of State under each update of a paddock or of the Tether: what it becomes. Cite these
(they are simp lemmas); no proof has to unfold a record update.
-/

namespace Sys2Proof.Machine

/-! ### Vectors -/

theorem vmod_get {α : Type} {n : Nat} (v : Vector α n) (i j : Fin n) (f : α → α) :
    (vmod v i f)[j] = if j = i then f v[i] else v[j] := by
  unfold vmod
  by_cases h : j = i
  · subst h; simp
  · have : i.val ≠ j.val := fun e => h (Fin.ext e.symm)
    simp [h, Vector.getElem_set_ne, this]

@[simp] theorem vmod_get_same {α : Type} {n : Nat} (v : Vector α n) (i : Fin n) (f : α → α) : (vmod v i f)[i] = f v[i] := by
  simp [vmod]

theorem vmod_get_other {α : Type} {n : Nat} (v : Vector α n) (i j : Fin n) (f : α → α) (h : j ≠ i) :
    (vmod v i f)[j] = v[j] := by
  rw [vmod_get, if_neg h]

/-! ### Paddocks -/

theorem State.pad_modPad (s : State) (d x : Die) (f : Paddock → Paddock) :
    (s.modPad d f).pad x = if x = d then f (s.pad d) else s.pad x := by
  unfold State.pad State.modPad
  exact vmod_get s.pads d x f

@[simp] theorem State.pad_modPad_other (s : State) (d x : Die) (f : Paddock → Paddock) (h : x ≠ d) :
    (s.modPad d f).pad x = s.pad x := by
  rw [State.pad_modPad, if_neg h]

@[simp] theorem State.modPad_krovol (s : State) (d : Die) (f : Paddock → Paddock) : (s.modPad d f).krovol = s.krovol := rfl
@[simp] theorem State.modPad_tether (s : State) (d : Die) (f : Paddock → Paddock) : (s.modPad d f).tether = s.tether := rfl
@[simp] theorem State.modPad_fresh (s : State) (d : Die) (f : Paddock → Paddock) : (s.modPad d f).fresh = s.fresh := rfl
@[simp] theorem State.modPad_pending (s : State) (d : Die) (f : Paddock → Paddock) : (s.modPad d f).pending = s.pending := rfl
@[simp] theorem State.pad_modPad_same (s : State) (d : Die) (f : Paddock → Paddock) :
    (s.modPad d f).pad d = f (s.pad d) := by
  rw [State.pad_modPad, if_pos rfl]

/-- Two changes of a paddock that agree on it are one. -/
theorem State.modPad_congr {s : State} {d : Die} {f g : Paddock → Paddock} (h : f (s.pad d) = g (s.pad d)) :
    s.modPad d f = s.modPad d g := by
  unfold State.modPad vmod; unfold State.pad at h
  rw [h]

/-- A change that leaves the paddock as it is changes nothing. -/
theorem State.modPad_eq_self (s : State) (d : Die) (f : Paddock → Paddock) (h : f (s.pad d) = s.pad d) :
    s.modPad d f = s := by
  unfold State.modPad vmod State.pad at *
  rw [h]; simp

/-- Two changes of a paddock in turn are one. -/
theorem State.modPad_modPad (s : State) (d : Die) (f g : Paddock → Paddock) :
    (s.modPad d f).modPad d g = s.modPad d (fun q => g (f q)) := by
  unfold State.modPad vmod
  simp

@[simp] theorem State.modBoot_krovol (s : State) (d : Die) (f : Boot → Boot) : (s.modBoot d f).krovol = s.krovol := rfl
@[simp] theorem State.modBoot_tether (s : State) (d : Die) (f : Boot → Boot) : (s.modBoot d f).tether = s.tether := rfl
@[simp] theorem State.modBoot_fresh (s : State) (d : Die) (f : Boot → Boot) : (s.modBoot d f).fresh = s.fresh := rfl
@[simp] theorem State.modBoot_pending (s : State) (d : Die) (f : Boot → Boot) : (s.modBoot d f).pending = s.pending := rfl
@[simp] theorem State.pad_modBoot_same (s : State) (d : Die) (f : Boot → Boot) :
    (s.modBoot d f).pad d = { s.pad d with boot := f (s.pad d).boot } := by
  exact State.pad_modPad_same s d _
@[simp] theorem State.pad_modBoot_other (s : State) (d x : Die) (f : Boot → Boot) (h : x ≠ d) :
    (s.modBoot d f).pad x = s.pad x :=
  State.pad_modPad_other s d x _ h

@[simp] theorem State.modEbb_krovol (s : State) (d : Die) (f : Ebb → Ebb) : (s.modEbb d f).krovol = s.krovol := rfl
@[simp] theorem State.modEbb_tether (s : State) (d : Die) (f : Ebb → Ebb) : (s.modEbb d f).tether = s.tether := rfl
@[simp] theorem State.modEbb_fresh (s : State) (d : Die) (f : Ebb → Ebb) : (s.modEbb d f).fresh = s.fresh := rfl
@[simp] theorem State.modEbb_pending (s : State) (d : Die) (f : Ebb → Ebb) : (s.modEbb d f).pending = s.pending := rfl
@[simp] theorem State.pad_modEbb_same (s : State) (d : Die) (f : Ebb → Ebb) :
    (s.modEbb d f).pad d = { s.pad d with ebb := f (s.pad d).ebb } := by
  exact State.pad_modPad_same s d _
@[simp] theorem State.pad_modEbb_other (s : State) (d x : Die) (f : Ebb → Ebb) (h : x ≠ d) :
    (s.modEbb d f).pad x = s.pad x :=
  State.pad_modPad_other s d x _ h

@[simp] theorem State.modPower_krovol (s : State) (d : Die) (p : PFold) (f : FoldPower → FoldPower) : (s.modPower d p f).krovol = s.krovol := rfl
@[simp] theorem State.modPower_tether (s : State) (d : Die) (p : PFold) (f : FoldPower → FoldPower) : (s.modPower d p f).tether = s.tether := rfl
@[simp] theorem State.modPower_fresh (s : State) (d : Die) (p : PFold) (f : FoldPower → FoldPower) : (s.modPower d p f).fresh = s.fresh := rfl
@[simp] theorem State.modPower_pending (s : State) (d : Die) (p : PFold) (f : FoldPower → FoldPower) : (s.modPower d p f).pending = s.pending := rfl
@[simp] theorem State.pad_modPower_other (s : State) (d x : Die) (p : PFold) (f : FoldPower → FoldPower) (h : x ≠ d) :
    (s.modPower d p f).pad x = s.pad x :=
  State.pad_modPad_other s d x _ h

@[simp] theorem State.modShep_krovol (s : State) (d : Die) (f : Shep → Shep) : (s.modShep d f).krovol = s.krovol := rfl
@[simp] theorem State.modShep_tether (s : State) (d : Die) (f : Shep → Shep) : (s.modShep d f).tether = s.tether := rfl
@[simp] theorem State.modShep_fresh (s : State) (d : Die) (f : Shep → Shep) : (s.modShep d f).fresh = s.fresh := rfl
@[simp] theorem State.modShep_pending (s : State) (d : Die) (f : Shep → Shep) : (s.modShep d f).pending = s.pending := rfl
@[simp] theorem State.pad_modShep_same (s : State) (d : Die) (f : Shep → Shep) :
    (s.modShep d f).pad d = { s.pad d with shep := f (s.pad d).shep } := by
  exact State.pad_modPad_same s d _
@[simp] theorem State.pad_modShep_other (s : State) (d x : Die) (f : Shep → Shep) (h : x ≠ d) :
    (s.modShep d f).pad x = s.pad x :=
  State.pad_modPad_other s d x _ h

@[simp] theorem State.modConf_krovol (s : State) (d : Die) (f : Conf → Conf) : (s.modConf d f).krovol = s.krovol := rfl
@[simp] theorem State.modConf_tether (s : State) (d : Die) (f : Conf → Conf) : (s.modConf d f).tether = s.tether := rfl
@[simp] theorem State.modConf_fresh (s : State) (d : Die) (f : Conf → Conf) : (s.modConf d f).fresh = s.fresh := rfl
@[simp] theorem State.modConf_pending (s : State) (d : Die) (f : Conf → Conf) : (s.modConf d f).pending = s.pending := rfl
@[simp] theorem State.pad_modConf_same (s : State) (d : Die) (f : Conf → Conf) :
    (s.modConf d f).pad d = { s.pad d with conf := f (s.pad d).conf } := by
  exact State.pad_modPad_same s d _
@[simp] theorem State.pad_modConf_other (s : State) (d x : Die) (f : Conf → Conf) (h : x ≠ d) :
    (s.modConf d f).pad x = s.pad x :=
  State.pad_modPad_other s d x _ h

@[simp] theorem State.modMod_krovol (s : State) (d : Die) (m : ModN) (f : ModStat → ModStat) : (s.modMod d m f).krovol = s.krovol := rfl
@[simp] theorem State.modMod_tether (s : State) (d : Die) (m : ModN) (f : ModStat → ModStat) : (s.modMod d m f).tether = s.tether := rfl
@[simp] theorem State.modMod_fresh (s : State) (d : Die) (m : ModN) (f : ModStat → ModStat) : (s.modMod d m f).fresh = s.fresh := rfl
@[simp] theorem State.modMod_pending (s : State) (d : Die) (m : ModN) (f : ModStat → ModStat) : (s.modMod d m f).pending = s.pending := rfl
@[simp] theorem State.pad_modMod_same (s : State) (d : Die) (m : ModN) (f : ModStat → ModStat) :
    (s.modMod d m f).pad d = { s.pad d with conf := { (s.pad d).conf with mod := vmod (s.pad d).conf.mod m f } } := by
  exact State.pad_modPad_same s d _
@[simp] theorem State.pad_modMod_other (s : State) (d x : Die) (m : ModN) (f : ModStat → ModStat) (h : x ≠ d) :
    (s.modMod d m f).pad x = s.pad x :=
  State.pad_modPad_other s d x _ h

@[simp] theorem State.modEdgeOf_krovol (s : State) (d : Die) (e : Edge) (f : EdgeStat → EdgeStat) : (s.modEdgeOf d e f).krovol = s.krovol := rfl
@[simp] theorem State.modEdgeOf_tether (s : State) (d : Die) (e : Edge) (f : EdgeStat → EdgeStat) : (s.modEdgeOf d e f).tether = s.tether := rfl
@[simp] theorem State.modEdgeOf_fresh (s : State) (d : Die) (e : Edge) (f : EdgeStat → EdgeStat) : (s.modEdgeOf d e f).fresh = s.fresh := rfl
@[simp] theorem State.modEdgeOf_pending (s : State) (d : Die) (e : Edge) (f : EdgeStat → EdgeStat) : (s.modEdgeOf d e f).pending = s.pending := rfl
@[simp] theorem State.pad_modEdgeOf_same (s : State) (d : Die) (e : Edge) (f : EdgeStat → EdgeStat) :
    (s.modEdgeOf d e f).pad d = { s.pad d with conf := { (s.pad d).conf with edge := vmod (s.pad d).conf.edge (edgeNo e) f } } := by
  exact State.pad_modPad_same s d _
@[simp] theorem State.pad_modEdgeOf_other (s : State) (d x : Die) (e : Edge) (f : EdgeStat → EdgeStat) (h : x ≠ d) :
    (s.modEdgeOf d e f).pad x = s.pad x :=
  State.pad_modPad_other s d x _ h

@[simp] theorem State.modStream_krovol (s : State) (d : Die) (f : Stream → Stream) : (s.modStream d f).krovol = s.krovol := rfl
@[simp] theorem State.modStream_tether (s : State) (d : Die) (f : Stream → Stream) : (s.modStream d f).tether = s.tether := rfl
@[simp] theorem State.modStream_fresh (s : State) (d : Die) (f : Stream → Stream) : (s.modStream d f).fresh = s.fresh := rfl
@[simp] theorem State.modStream_pending (s : State) (d : Die) (f : Stream → Stream) : (s.modStream d f).pending = s.pending := rfl
@[simp] theorem State.pad_modStream_same (s : State) (d : Die) (f : Stream → Stream) :
    (s.modStream d f).pad d = { s.pad d with stream := f (s.pad d).stream } := by
  exact State.pad_modPad_same s d _
@[simp] theorem State.pad_modStream_other (s : State) (d x : Die) (f : Stream → Stream) (h : x ≠ d) :
    (s.modStream d f).pad x = s.pad x :=
  State.pad_modPad_other s d x _ h

@[simp] theorem State.modFold_krovol (s : State) (d : Die) (p : PFold) (f : Fold → Fold) : (s.modFold d p f).krovol = s.krovol := rfl
@[simp] theorem State.modFold_tether (s : State) (d : Die) (p : PFold) (f : Fold → Fold) : (s.modFold d p f).tether = s.tether := rfl
@[simp] theorem State.modFold_fresh (s : State) (d : Die) (p : PFold) (f : Fold → Fold) : (s.modFold d p f).fresh = s.fresh := rfl
@[simp] theorem State.modFold_pending (s : State) (d : Die) (p : PFold) (f : Fold → Fold) : (s.modFold d p f).pending = s.pending := rfl
@[simp] theorem State.pad_modFold_same (s : State) (d : Die) (p : PFold) (f : Fold → Fold) :
    (s.modFold d p f).pad d = { s.pad d with folds := vmod (s.pad d).folds p f } := by
  exact State.pad_modPad_same s d _
@[simp] theorem State.pad_modFold_other (s : State) (d x : Die) (p : PFold) (f : Fold → Fold) (h : x ≠ d) :
    (s.modFold d p f).pad x = s.pad x :=
  State.pad_modPad_other s d x _ h

@[simp] theorem State.modAgent_krovol (s : State) (d : Die) (n : AgentN) (f : AgentPort → AgentPort) : (s.modAgent d n f).krovol = s.krovol := rfl
@[simp] theorem State.modAgent_tether (s : State) (d : Die) (n : AgentN) (f : AgentPort → AgentPort) : (s.modAgent d n f).tether = s.tether := rfl
@[simp] theorem State.modAgent_fresh (s : State) (d : Die) (n : AgentN) (f : AgentPort → AgentPort) : (s.modAgent d n f).fresh = s.fresh := rfl
@[simp] theorem State.modAgent_pending (s : State) (d : Die) (n : AgentN) (f : AgentPort → AgentPort) : (s.modAgent d n f).pending = s.pending := rfl
@[simp] theorem State.pad_modAgent_same (s : State) (d : Die) (n : AgentN) (f : AgentPort → AgentPort) :
    (s.modAgent d n f).pad d = (s.pad d).modAgent n f := by
  exact State.pad_modPad_same s d _
@[simp] theorem State.pad_modAgent_other (s : State) (d x : Die) (n : AgentN) (f : AgentPort → AgentPort) (h : x ≠ d) :
    (s.modAgent d n f).pad x = s.pad x :=
  State.pad_modPad_other s d x _ h

@[simp] theorem State.modCensus_krovol (s : State) (d : Die) (f : Census → Census) : (s.modCensus d f).krovol = s.krovol := rfl
@[simp] theorem State.modCensus_tether (s : State) (d : Die) (f : Census → Census) : (s.modCensus d f).tether = s.tether := rfl
@[simp] theorem State.modCensus_fresh (s : State) (d : Die) (f : Census → Census) : (s.modCensus d f).fresh = s.fresh := rfl
@[simp] theorem State.modCensus_pending (s : State) (d : Die) (f : Census → Census) : (s.modCensus d f).pending = s.pending := rfl
@[simp] theorem State.pad_modCensus_same (s : State) (d : Die) (f : Census → Census) :
    (s.modCensus d f).pad d = { s.pad d with census := f (s.pad d).census } := by
  exact State.pad_modPad_same s d _
@[simp] theorem State.pad_modCensus_other (s : State) (d x : Die) (f : Census → Census) (h : x ≠ d) :
    (s.modCensus d f).pad x = s.pad x :=
  State.pad_modPad_other s d x _ h

@[simp] theorem State.modBank_krovol (s : State) (d : Die) (j : Fin 5) (f : DumpBank → DumpBank) : (s.modBank d j f).krovol = s.krovol := rfl
@[simp] theorem State.modBank_tether (s : State) (d : Die) (j : Fin 5) (f : DumpBank → DumpBank) : (s.modBank d j f).tether = s.tether := rfl
@[simp] theorem State.modBank_fresh (s : State) (d : Die) (j : Fin 5) (f : DumpBank → DumpBank) : (s.modBank d j f).fresh = s.fresh := rfl
@[simp] theorem State.modBank_pending (s : State) (d : Die) (j : Fin 5) (f : DumpBank → DumpBank) : (s.modBank d j f).pending = s.pending := rfl
@[simp] theorem State.pad_modBank_same (s : State) (d : Die) (j : Fin 5) (f : DumpBank → DumpBank) :
    (s.modBank d j f).pad d = { s.pad d with census := { (s.pad d).census with bank := vmod (s.pad d).census.bank j f } } := by
  exact State.pad_modPad_same s d _
@[simp] theorem State.pad_modBank_other (s : State) (d x : Die) (j : Fin 5) (f : DumpBank → DumpBank) (h : x ≠ d) :
    (s.modBank d j f).pad x = s.pad x :=
  State.pad_modPad_other s d x _ h

@[simp] theorem State.pcount_krovol (s : State) (d : Die) (sel unit : Nat) : (s.pcount d sel unit).krovol = s.krovol := rfl
@[simp] theorem State.pcount_tether (s : State) (d : Die) (sel unit : Nat) : (s.pcount d sel unit).tether = s.tether := rfl
@[simp] theorem State.pcount_fresh (s : State) (d : Die) (sel unit : Nat) : (s.pcount d sel unit).fresh = s.fresh := rfl
@[simp] theorem State.pcount_pending (s : State) (d : Die) (sel unit : Nat) : (s.pcount d sel unit).pending = s.pending := rfl
@[simp] theorem State.pad_pcount_same (s : State) (d : Die) (sel unit : Nat) :
    (s.pcount d sel unit).pad d = { s.pad d with census := padCount sel unit 16 (s.pad d).census } := by
  exact State.pad_modPad_same s d _
@[simp] theorem State.pad_pcount_other (s : State) (d x : Die) (sel unit : Nat) (h : x ≠ d) :
    (s.pcount d sel unit).pad x = s.pad x :=
  State.pad_modPad_other s d x _ h

/-- Where the bit wakes nothing, setting it changes the sticky bits of its paddock alone. -/
theorem State.stick_quiet (s : State) (d : Die) (i : Nat) (h : (decide (i < 7) && (s.pad d).wakeEn 3) = false) :
    s.stick d i = s.modPad d fun p => { p with aon := { p.aon with sticky := putBit p.aon.sticky i true } } := by
  have h' : (decide (i < 7) && ((s.modPad d fun p =>
      { p with aon := { p.aon with sticky := putBit p.aon.sticky i true } }).pad d).wakeEn 3) = false := by
    simpa [Paddock.wakeEn] using h
  simp only [State.stick, h']; rfl

@[simp] theorem State.inject_krovol (s : State) (d : Die) (net : Net) (a : AgentId) (cls : Cls) (fl : Flit) : (s.inject d net a cls fl).krovol = s.krovol := rfl
@[simp] theorem State.inject_tether (s : State) (d : Die) (net : Net) (a : AgentId) (cls : Cls) (fl : Flit) : (s.inject d net a cls fl).tether = s.tether := rfl
@[simp] theorem State.inject_fresh (s : State) (d : Die) (net : Net) (a : AgentId) (cls : Cls) (fl : Flit) : (s.inject d net a cls fl).fresh = s.fresh := rfl
@[simp] theorem State.inject_pending (s : State) (d : Die) (net : Net) (a : AgentId) (cls : Cls) (fl : Flit) : (s.inject d net a cls fl).pending = s.pending := rfl
@[simp] theorem State.pad_inject_same (s : State) (d : Die) (net : Net) (a : AgentId) (cls : Cls) (fl : Flit) :
    (s.inject d net a cls fl).pad d = { s.pad d with stream := { (s.pad d).stream with inj := (s.pad d).stream.inj ++ [⟨net, (s.pad d).repl.fordOf d a, a, cls, fl, (s.pad d).aon.hcycle,
      bitAt (s.pad d).ebb.fenceReq ((s.pad d).repl.fordOf d a)⟩] } } := by
  exact State.pad_modPad_same s d _
@[simp] theorem State.pad_inject_other (s : State) (d x : Die) (net : Net) (a : AgentId) (cls : Cls) (fl : Flit) (h : x ≠ d) :
    (s.inject d net a cls fl).pad x = s.pad x :=
  State.pad_modPad_other s d x _ h

/-! ### Every paddock -/

theorem State.pad_foldl_modPad (f : Die → Paddock → Paddock) (l : List Die) (hl : l.Nodup) (s : State) (x : Die) :
    (l.foldl (fun t d => t.modPad d (f d)) s).pad x = if x ∈ l then f x (s.pad x) else s.pad x := by
  induction l generalizing s with
  | nil => simp
  | cons a l ih =>
    have hn := List.nodup_cons.mp hl
    rw [List.foldl_cons, ih hn.2]
    by_cases h : x = a
    · subst h; simp [hn.1]
    · simp [h]

@[simp] theorem State.pad_modPads (s : State) (f : Die → Paddock → Paddock) (x : Die) :
    (s.modPads f).pad x = f x (s.pad x) := by
  have h : x ∈ dies := by revert x; decide
  exact (State.pad_foldl_modPad f dies (by decide) s x).trans (if_pos h)

@[simp] theorem State.modPads_krovol (s : State) (f : Die → Paddock → Paddock) : (s.modPads f).krovol = s.krovol := rfl
@[simp] theorem State.modPads_tether (s : State) (f : Die → Paddock → Paddock) : (s.modPads f).tether = s.tether := rfl
@[simp] theorem State.modPads_fresh (s : State) (f : Die → Paddock → Paddock) : (s.modPads f).fresh = s.fresh := rfl
@[simp] theorem State.modPads_pending (s : State) (f : Die → Paddock → Paddock) : (s.modPads f).pending = s.pending := rfl

/-! ### The Tether -/

@[simp] theorem State.modTether_krovol (s : State) (f : Tether → Tether) : (s.modTether f).krovol = s.krovol := rfl
@[simp] theorem State.modTether_pads (s : State) (f : Tether → Tether) : (s.modTether f).pads = s.pads := rfl
@[simp] theorem State.modTether_fresh (s : State) (f : Tether → Tether) : (s.modTether f).fresh = s.fresh := rfl
@[simp] theorem State.modTether_pending (s : State) (f : Tether → Tether) : (s.modTether f).pending = s.pending := rfl
@[simp] theorem State.modTether_tether (s : State) (f : Tether → Tether) : (s.modTether f).tether = f s.tether := rfl
@[simp] theorem State.pad_modTether (s : State) (f : Tether → Tether) (d : Die) : (s.modTether f).pad d = s.pad d := rfl
@[simp] theorem State.pad_pending (s : State) (q : List Instr) (d : Die) : ({ s with pending := q } : State).pad d = s.pad d := rfl

end Sys2Proof.Machine
end

