-- ==== Sys2Proof/Laws/Access.lean ====
section
/-!
SUPPORT. What a register access does once it is granted: it performs, and its port answers, or stays busy where the access
waits. Cite this; no proof has to unfold the checks of the access order.
-/

set_option linter.unusedTactic false
set_option linter.unreachableTactic false

namespace Sys2Proof.Machine

theorem State.Granted.access {s : State} {w : Who} {a : RegAddr} {t : Target} {wr : Option Word}
    (h : s.Granted w a t wr.isSome) :
    s.portAccess w a wr = (s.perform { w with bar0 := false } a wr t).1.modPad w.via fun q => { q with rp :=
      match (s.perform { w with bar0 := false } a wr t).2 with
      | .done resp data => { rdata := data, resp := resp, ack := true }
      | .held => { q.rp with ack := false, busy := true } } := by
  obtain ⟨h1, h2, h3, h4, h5, h6, h7, h8, h9⟩ := h
  have hd : s.denies { w with bar0 := false } a t wr.isSome = false := by
    unfold State.denies Krovol.privOf
    simp only [h6, if_true, h7, Bool.not_true, Bool.or_false, h5]
    cases hw : wr.isSome
    · simp
    · simp [h4 hw]
  unfold State.portAccess State.access
  simp [h1, h2, h3, hd, h8, h9] <;> rfl

end Sys2Proof.Machine
end

