-- ==== Sys2Proof/Laws/Keeps.lean ====
section
/-!
SUPPORT. What almost nothing changes: the hardened parameters, the queue of commands, and Tide with its tick count in
every paddock. One lemma for each operation on State: it keeps them. Cite these; do not unfold the operations.
-/
set_option linter.unusedTactic false
set_option linter.unreachableTactic false
namespace Sys2Proof.Machine
/-- Paddock `q` has the Tide, the tick count and the HCLK cycle count of `p`. -/
structure SameTide (p q : Paddock) : Prop where
  tide : q.aon.tideFx = p.aon.tideFx
  ticks : q.aon.ticks = p.aon.ticks
  hcycle : q.aon.hcycle = p.aon.hcycle
/-- State `t` has the parameters, the queue, and the Tide and ticks of every paddock of `s`. -/
structure Keeps (s t : State) : Prop where
  krovol : t.krovol = s.krovol
  pending : t.pending = s.pending
  pads : ∀ d, SameTide (s.pad d) (t.pad d)
theorem SameTide.refl (p : Paddock) : SameTide p p := ⟨rfl, rfl, rfl⟩
theorem Keeps.refl (s : State) : Keeps s s := ⟨rfl, rfl, fun _ => SameTide.refl _⟩
theorem Keeps.trans {s t u : State} (h : Keeps s t) (g : Keeps t u) : Keeps s u :=
  ⟨g.krovol.trans h.krovol, g.pending.trans h.pending,
   fun d => ⟨(g.pads d).tide.trans (h.pads d).tide, (g.pads d).ticks.trans (h.pads d).ticks,
     (g.pads d).hcycle.trans (h.pads d).hcycle⟩⟩
/-- A field of State other than the parameters, the paddocks and the queue was written. -/
theorem Keeps.put {s0 s : State} (h : Keeps s0 s) (te : Tether) (fr : Nat) :
    Keeps s0 { krovol := s.krovol, pads := s.pads, tether := te, fresh := fr, pending := s.pending } :=
  ⟨h.krovol, h.pending, h.pads⟩
theorem Keeps.foldl {α : Type} {s0 s : State} (f : State → α → State) (l : List α) (h : Keeps s0 s)
    (hf : ∀ t x, Keeps s0 t → Keeps s0 (f t x)) : Keeps s0 (l.foldl f s) := by
  induction l generalizing s with
  | nil => exact h
  | cons a l ih => exact ih (hf s a h)
theorem Keeps.ite {s0 a b : State} {c : Prop} [Decidable c] (ha : Keeps s0 a) (hb : Keeps s0 b) :
    Keeps s0 (if c then a else b) := by
  split <;> assumption
theorem Keeps.iteFst {β : Type} {s0 : State} {a b : State × β} {c : Prop} [Decidable c] (ha : Keeps s0 a.1)
    (hb : Keeps s0 b.1) : Keeps s0 (if c then a else b).1 := by
  split <;> assumption
theorem Keeps.foldlFst {α β : Type} {s0 : State} (f : State × β → α → State × β) (l : List α) (x : State × β)
    (h : Keeps s0 x.1) (hf : ∀ t a, Keeps s0 t.1 → Keeps s0 (f t a).1) : Keeps s0 (l.foldl f x).1 := by
  induction l generalizing x with
  | nil => exact h
  | cons a l ih => exact ih (f x a) (hf x a h)
theorem Keeps.modPad {s0 s : State} (h : Keeps s0 s) (d : Die) (f : Paddock → Paddock)
    (hf : ∀ q, SameTide q (f q)) : Keeps s0 (s.modPad d f) := by
  refine ⟨h.krovol, h.pending, fun x => ?_⟩
  rw [State.pad_modPad]
  split
  · subst x
    exact ⟨(hf _).tide.trans (h.pads d).tide, (hf _).ticks.trans (h.pads d).ticks,
      (hf _).hcycle.trans (h.pads d).hcycle⟩
  · exact h.pads x
theorem Keeps.modPads {s0 s : State} (h : Keeps s0 s) (f : Die → Paddock → Paddock)
    (hf : ∀ d q, SameTide q (f d q)) : Keeps s0 (s.modPads f) :=
  Keeps.foldl _ _ h fun _ d ht => ht.modPad d (f d) (hf d)
theorem Paddock.modAgent_aon (q : Paddock) (n : AgentN) (f : AgentPort → AgentPort) : (q.modAgent n f).aon = q.aon := by
  unfold Paddock.modAgent; split <;> rfl
theorem Paddock.sdReset_tide (q : Paddock) (k : Krovol) (d : Die) : SameTide q (q.sdReset k d) := by
  unfold Paddock.sdReset; exact ⟨rfl, rfl, rfl⟩
theorem Paddock.shReset_tide (q : Paddock) (k : Krovol) : SameTide q (q.shReset k) := by
  unfold Paddock.shReset; exact ⟨rfl, rfl, rfl⟩
theorem Paddock.padReset_tide (q : Paddock) (k : Krovol) : SameTide q (q.padReset k) := by
  unfold Paddock.padReset; exact ⟨rfl, rfl, rfl⟩
theorem Paddock.censusClear_tide (q : Paddock) : SameTide q q.censusClear := by
  unfold Paddock.censusClear; exact ⟨rfl, rfl, rfl⟩
theorem Paddock.commonWrite_tide (q : Paddock) (o : Nat) (v : Word) : SameTide q (q.commonWrite o v) := by
  unfold Paddock.commonWrite; repeat' split
  all_goals exact ⟨rfl, rfl, rfl⟩
theorem Paddock.takeHeld_tide (q : Paddock) (n : Nat) : SameTide q (q.takeHeld n) := by
  unfold Paddock.takeHeld; exact ⟨rfl, rfl, rfl⟩
theorem Paddock.bellWrite_tide (q : Paddock) (o : Nat) (v : Word) : SameTide q (q.bellWrite o v) := by
  unfold Paddock.bellWrite; repeat' split
  all_goals exact ⟨rfl, rfl, rfl⟩
theorem State.modFold_keeps {s0 s : State} (h : Keeps s0 s) (a1 a2 a3) : Keeps s0 (State.modFold s a1 a2 a3) := by
  unfold State.modFold
  try dsimp only
  repeat' first
    | with_reducible assumption
    | intro _
    | exact SameTide.mk rfl rfl rfl
    | with_reducible apply Keeps.modPad

theorem State.ftReact_keeps {s0 s : State} (h : Keeps s0 s) (a1) : Keeps s0 (State.ftReact s a1) := by
  unfold State.ftReact
  try dsimp only
  repeat' first
    | with_reducible assumption
    | intro _
    | exact SameTide.mk rfl rfl rfl
    | with_reducible apply State.modFold_keeps
    | with_reducible apply Keeps.modPad
    | with_reducible apply Keeps.ite
    | split

theorem State.file_keeps {s0 s : State} (h : Keeps s0 s) (a1 a2) : Keeps s0 (State.file s a1 a2) := by
  unfold State.file
  try dsimp only
  repeat' first
    | with_reducible assumption
    | intro _
    | exact SameTide.mk rfl rfl rfl
    | with_reducible apply Keeps.modPad
    | with_reducible apply State.ftReact_keeps

theorem State.modPortOf_keeps {s0 s : State} (h : Keeps s0 s) (a1 a2 a3) : Keeps s0 (State.modPortOf s a1 a2 a3) := by
  unfold State.modPortOf
  try dsimp only
  repeat' first
    | with_reducible assumption
    | intro _
    | exact SameTide.mk rfl rfl rfl
    | with_reducible apply Keeps.modPad
    | with_reducible exact h.put _ _
    | with_reducible apply Keeps.foldl
    | with_reducible apply Keeps.ite
    | split

theorem State.pcount_keeps {s0 s : State} (h : Keeps s0 s) (a1 a2 a3) : Keeps s0 (State.pcount s a1 a2 a3) := by
  unfold State.pcount
  try dsimp only
  repeat' first
    | with_reducible assumption
    | intro _
    | exact SameTide.mk rfl rfl rfl
    | with_reducible apply Keeps.modPad

theorem State.missedAt_keeps {s0 s : State} (h : Keeps s0 s) (a1 a2 a3) : Keeps s0 (State.missedAt s a1 a2 a3) := by
  unfold State.missedAt
  try dsimp only
  repeat' first
    | with_reducible assumption
    | intro _
    | exact SameTide.mk rfl rfl rfl
    | with_reducible apply State.modPortOf_keeps
    | with_reducible apply State.file_keeps
    | with_reducible apply State.pcount_keeps
    | with_reducible apply Keeps.ite
    | split

theorem State.modStream_keeps {s0 s : State} (h : Keeps s0 s) (a1 a2) : Keeps s0 (State.modStream s a1 a2) := by
  unfold State.modStream
  try dsimp only
  repeat' first
    | with_reducible assumption
    | intro _
    | exact SameTide.mk rfl rfl rfl
    | with_reducible apply Keeps.modPad

theorem State.modTether_keeps {s0 s : State} (h : Keeps s0 s) (f : Tether → Tether) : Keeps s0 (s.modTether f) := by
  exact h.put _ _

theorem State.aerLog_keeps {s0 s : State} (h : Keeps s0 s) (a1) : Keeps s0 (State.aerLog s a1) := by
  unfold State.aerLog
  try dsimp only
  repeat' first
    | with_reducible assumption
    | with_reducible apply State.modTether_keeps

theorem State.toHost_keeps {s0 s : State} (h : Keeps s0 s) (a1 a2) : Keeps s0 (State.toHost s a1 a2) := by
  unfold State.toHost
  try dsimp only
  repeat' first
    | with_reducible assumption
    | with_reducible apply State.modTether_keeps

theorem State.pciStatus_keeps {s0 s : State} (h : Keeps s0 s) (a1) : Keeps s0 (State.pciStatus s a1) := by
  unfold State.pciStatus
  try dsimp only
  repeat' first
    | with_reducible assumption
    | intro _
    | exact SameTide.mk rfl rfl rfl
    | with_reducible apply State.modTether_keeps
    | with_reducible apply Keeps.ite
    | split

theorem State.abortTlp_keeps {s0 s : State} (h : Keeps s0 s) (a1 a2) : Keeps s0 (State.abortTlp s a1 a2) := by
  unfold State.abortTlp
  try dsimp only
  repeat' first
    | with_reducible assumption
    | intro _
    | exact SameTide.mk rfl rfl rfl
    | with_reducible apply State.toHost_keeps
    | with_reducible apply State.pciStatus_keeps
    | with_reducible apply Keeps.ite
    | split

theorem State.pieceErr_keeps {s0 s : State} (h : Keeps s0 s) (a1 a2 a3 a4) : Keeps s0 (State.pieceErr s a1 a2 a3 a4) := by
  unfold State.pieceErr
  try dsimp only
  repeat' first
    | with_reducible assumption
    | intro _
    | exact SameTide.mk rfl rfl rfl
    | with_reducible apply State.modTether_keeps
    | with_reducible apply State.aerLog_keeps
    | with_reducible apply State.toHost_keeps
    | with_reducible apply State.abortTlp_keeps
    | with_reducible apply Keeps.ite
    | split

theorem State.fileAll_keeps {s0 s : State} (h : Keeps s0 s) (a1 a2) : Keeps s0 (State.fileAll s a1 a2) := by
  unfold State.fileAll
  try dsimp only
  repeat' first
    | with_reducible assumption
    | intro _
    | exact SameTide.mk rfl rfl rfl
    | with_reducible apply State.file_keeps
    | with_reducible apply Keeps.foldl

theorem State.putAc_keeps {s0 s : State} (h : Keeps s0 s) (c : AC) : Keeps s0 (s.putAc c) := by
  refine Keeps.foldl _ _ (State.fileAll_keeps (h.modPad _ _ fun q => ?_) _ _) fun t x ht => State.pcount_keeps ht _ _ _
  exact ⟨congrArg AlwaysOn.tideFx (Paddock.modAgent_aon q _ _), congrArg AlwaysOn.ticks (Paddock.modAgent_aon q _ _),
    congrArg AlwaysOn.hcycle (Paddock.modAgent_aon q _ _)⟩

theorem State.runAgent_keeps {s0 s : State} (h : Keeps s0 s) (a1 a2 a3) : Keeps s0 (State.runAgent s a1 a2 a3) := by
  unfold State.runAgent
  try dsimp only
  repeat' first
    | with_reducible assumption
    | intro _
    | exact SameTide.mk rfl rfl rfl
    | with_reducible apply State.putAc_keeps
    | with_reducible apply Keeps.ite

theorem State.modShep_keeps {s0 s : State} (h : Keeps s0 s) (a1 a2) : Keeps s0 (State.modShep s a1 a2) := by
  unfold State.modShep
  try dsimp only
  repeat' first
    | with_reducible assumption
    | intro _
    | exact SameTide.mk rfl rfl rfl
    | with_reducible apply Keeps.modPad

theorem State.queueRep_keeps {s0 s : State} (h : Keeps s0 s) (a1 a2 a3) : Keeps s0 (State.queueRep s a1 a2 a3) := by
  unfold State.queueRep
  try dsimp only
  repeat' first
    | with_reducible assumption
    | with_reducible apply State.file_keeps

theorem State.eqCheck_keeps {s0 s : State} (h : Keeps s0 s) (a1 a2) : Keeps s0 (State.eqCheck s a1 a2) := by
  unfold State.eqCheck
  try dsimp only
  repeat' first
    | with_reducible assumption
    | intro _
    | exact SameTide.mk rfl rfl rfl
    | with_reducible apply State.modShep_keeps
    | with_reducible apply State.queueRep_keeps
    | with_reducible apply Keeps.ite

theorem State.eqChecks_keeps {s0 s : State} (h : Keeps s0 s) (a1 a2) : Keeps s0 (State.eqChecks s a1 a2) := by
  unfold State.eqChecks
  try dsimp only
  repeat' first
    | with_reducible assumption
    | intro _
    | exact SameTide.mk rfl rfl rfl
    | with_reducible apply State.eqCheck_keeps
    | with_reducible apply Keeps.foldl
    | with_reducible apply Keeps.ite
    | split

theorem State.eventFrom_keeps {s0 s : State} (h : Keeps s0 s) (a1 a2 a3 a4) : Keeps s0 (State.eventFrom s a1 a2 a3 a4) := by
  unfold State.eventFrom
  try dsimp only
  repeat' first
    | with_reducible assumption
    | intro _
    | exact SameTide.mk rfl rfl rfl
    | with_reducible apply Keeps.modPad
    | with_reducible apply State.eqChecks_keeps
    | with_reducible apply Keeps.ite
    | split

theorem State.event_keeps {s0 s : State} (h : Keeps s0 s) (a1 a2 a3) : Keeps s0 (State.event s a1 a2 a3) := by
  unfold State.event
  try dsimp only
  repeat' first
    | with_reducible assumption
    | intro _
    | exact SameTide.mk rfl rfl rfl
    | with_reducible apply State.eventFrom_keeps
    | with_reducible apply Keeps.ite
    | split

theorem State.dumpDone_keeps {s0 s : State} (h : Keeps s0 s) (a1 a2 a3) : Keeps s0 (State.dumpDone s a1 a2 a3) := by
  unfold State.dumpDone
  try dsimp only
  repeat' first
    | with_reducible assumption
    | intro _
    | exact SameTide.mk rfl rfl rfl
    | with_reducible apply State.event_keeps
    | with_reducible apply Keeps.ite
    | split

theorem State.modCensus_keeps {s0 s : State} (h : Keeps s0 s) (a1 a2) : Keeps s0 (State.modCensus s a1 a2) := by
  unfold State.modCensus
  try dsimp only
  repeat' first
    | with_reducible assumption
    | intro _
    | exact SameTide.mk rfl rfl rfl
    | with_reducible apply Keeps.modPad

theorem State.modBank_keeps {s0 s : State} (h : Keeps s0 s) (a1 a2 a3) : Keeps s0 (State.modBank s a1 a2 a3) := by
  unfold State.modBank
  try dsimp only
  repeat' first
    | with_reducible assumption
    | with_reducible apply State.modCensus_keeps

theorem State.dumpComp_keeps {s0 s : State} (h : Keeps s0 s) (a1 a2 a3) : Keeps s0 (State.dumpComp s a1 a2 a3) := by
  unfold State.dumpComp
  try dsimp only
  repeat' first
    | with_reducible assumption
    | intro _
    | exact SameTide.mk rfl rfl rfl
    | with_reducible apply State.modCensus_keeps
    | with_reducible apply State.modBank_keeps
    | with_reducible apply State.dumpDone_keeps
    | with_reducible apply State.modCensus_keeps
    | with_reducible apply Keeps.ite
    | split

theorem State.dumpRep_keeps {s0 s : State} (h : Keeps s0 s) (a1 a2 a3 a4) : Keeps s0 (State.dumpRep s a1 a2 a3 a4) := by
  unfold State.dumpRep
  try dsimp only
  repeat' first
    | with_reducible assumption
    | with_reducible apply State.file_keeps

theorem State.dumpErr_keeps {s0 s : State} (h : Keeps s0 s) (a1 a2 a3 a4) : Keeps s0 (State.dumpErr s a1 a2 a3 a4) := by
  unfold State.dumpErr
  try dsimp only
  repeat' first
    | with_reducible assumption
    | intro _
    | exact SameTide.mk rfl rfl rfl
    | with_reducible apply State.dumpRep_keeps
    | with_reducible apply State.modBank_keeps
    | with_reducible apply Keeps.ite

theorem State.modDef_keeps {s0 s : State} (h : Keeps s0 s) (a1 a2 a3) : Keeps s0 (State.modDef s a1 a2 a3) := by
  unfold State.modDef
  try dsimp only
  repeat' first
    | with_reducible assumption
    | with_reducible apply State.modShep_keeps

theorem State.modMaint_keeps {s0 s : State} (h : Keeps s0 s) (a1 a2 a3) : Keeps s0 (State.modMaint s a1 a2 a3) := by
  unfold State.modMaint
  try dsimp only
  repeat' first
    | with_reducible assumption
    | with_reducible apply State.modDef_keeps

theorem State.jobCount_keeps {s0 s : State} (h : Keeps s0 s) (a1 a2 a3) : Keeps s0 (State.jobCount s a1 a2 a3) := by
  unfold State.jobCount
  try dsimp only
  repeat' first
    | with_reducible assumption
    | intro _
    | exact SameTide.mk rfl rfl rfl
    | with_reducible apply State.modMaint_keeps
    | with_reducible apply Keeps.ite
    | split

theorem State.modCq_keeps {s0 s : State} (h : Keeps s0 s) (a1 a2 a3) : Keeps s0 (State.modCq s a1 a2 a3) := by
  unfold State.modCq
  try dsimp only
  repeat' first
    | with_reducible assumption
    | with_reducible apply State.modShep_keeps

theorem State.modRq_keeps {s0 s : State} (h : Keeps s0 s) (a1 a2 a3) : Keeps s0 (State.modRq s a1 a2 a3) := by
  unfold State.modRq
  try dsimp only
  repeat' first
    | with_reducible assumption
    | with_reducible apply State.modShep_keeps

theorem State.rqCheck_keeps {s0 s : State} (h : Keeps s0 s) (a1 a2) : Keeps s0 (State.rqCheck s a1 a2) := by
  unfold State.rqCheck
  try dsimp only
  repeat' first
    | with_reducible assumption
    | intro _
    | exact SameTide.mk rfl rfl rfl
    | with_reducible apply State.modRq_keeps
    | with_reducible apply State.queueRep_keeps
    | with_reducible apply Keeps.ite

theorem State.post_keeps {s0 s : State} (h : Keeps s0 s) (a1 a2 a3) : Keeps s0 (State.post s a1 a2 a3) := by
  unfold State.post
  try dsimp only
  repeat' first
    | with_reducible assumption
    | with_reducible apply State.rqCheck_keeps
    | with_reducible apply State.modRq_keeps

theorem State.answer_keeps {s0 s : State} (h : Keeps s0 s) (a1 a2 a3 a4 a5) : Keeps s0 (State.answer s a1 a2 a3 a4 a5) := by
  unfold State.answer
  try dsimp only
  repeat' first
    | with_reducible assumption
    | intro _
    | exact SameTide.mk rfl rfl rfl
    | with_reducible apply State.modCq_keeps
    | with_reducible apply State.post_keeps
    | with_reducible apply Keeps.ite

theorem State.finish_keeps {s0 s : State} (h : Keeps s0 s) (a1 a2 a3 a4) : Keeps s0 (State.finish s a1 a2 a3 a4) := by
  unfold State.finish
  try dsimp only
  repeat' first
    | with_reducible assumption
    | intro _
    | exact SameTide.mk rfl rfl rfl
    | with_reducible apply State.modShep_keeps
    | with_reducible apply State.answer_keeps
    | with_reducible apply Keeps.ite
    | split

theorem State.patchFail_keeps {s0 s : State} (h : Keeps s0 s) (a1 a2) : Keeps s0 (State.patchFail s a1 a2) := by
  unfold State.patchFail
  try dsimp only
  repeat' first
    | with_reducible assumption
    | intro _
    | exact SameTide.mk rfl rfl rfl
    | with_reducible apply State.answer_keeps
    | with_reducible apply State.queueRep_keeps
    | with_reducible apply State.finish_keeps
    | with_reducible apply Keeps.ite

theorem State.patchEnd_keeps {s0 s : State} (h : Keeps s0 s) (a1 a2) : Keeps s0 (State.patchEnd s a1 a2) := by
  unfold State.patchEnd
  try dsimp only
  repeat' first
    | with_reducible assumption
    | intro _
    | exact SameTide.mk rfl rfl rfl
    | with_reducible apply State.finish_keeps
    | with_reducible apply State.modShep_keeps
    | with_reducible apply State.patchFail_keeps
    | with_reducible apply Keeps.foldl
    | with_reducible apply Keeps.ite
    | split

theorem State.putPatch_keeps {s0 s : State} (h : Keeps s0 s) (a1 a2) : Keeps s0 (State.putPatch s a1 a2) := by
  unfold State.putPatch
  try dsimp only
  repeat' first
    | with_reducible assumption
    | with_reducible apply State.modDef_keeps

theorem State.reply_keeps {s0 s : State} (h : Keeps s0 s) (a1 a2 a3) : Keeps s0 (State.reply s a1 a2 a3) := by
  unfold State.reply
  try dsimp only
  repeat' first
    | with_reducible assumption
    | with_reducible apply State.answer_keeps

theorem State.patchData_keeps {s0 s : State} (h : Keeps s0 s) (a1 a2 a3) : Keeps s0 (State.patchData s a1 a2 a3) := by
  unfold State.patchData
  try dsimp only
  repeat' first
    | with_reducible assumption
    | intro _
    | exact SameTide.mk rfl rfl rfl
    | with_reducible apply State.reply_keeps
    | with_reducible apply State.modShep_keeps
    | with_reducible apply State.putPatch_keeps
    | with_reducible apply State.patchEnd_keeps
    | with_reducible apply State.answer_keeps
    | with_reducible apply Keeps.ite
    | split

theorem State.patchErr_keeps {s0 s : State} (h : Keeps s0 s) (a1) : Keeps s0 (State.patchErr s a1) := by
  unfold State.patchErr
  try dsimp only
  repeat' first
    | with_reducible assumption
    | intro _
    | exact SameTide.mk rfl rfl rfl
    | with_reducible apply State.patchFail_keeps
    | with_reducible apply Keeps.ite
    | split

theorem State.patchLine_keeps {s0 s : State} (h : Keeps s0 s) (a1 a2 a3) : Keeps s0 (State.patchLine s a1 a2 a3) := by
  unfold State.patchLine
  try dsimp only
  repeat' first
    | with_reducible assumption
    | intro _
    | exact SameTide.mk rfl rfl rfl
    | with_reducible apply State.patchData_keeps
    | with_reducible apply State.patchErr_keeps
    | with_reducible apply Keeps.ite
    | split

theorem State.shepEnd_keeps {s0 s : State} (h : Keeps s0 s) (a1 a2) : Keeps s0 (State.shepEnd s a1 a2) := by
  unfold State.shepEnd
  try dsimp only
  repeat' first
    | with_reducible assumption
    | intro _
    | exact SameTide.mk rfl rfl rfl
    | with_reducible apply State.dumpErr_keeps
    | with_reducible apply State.jobCount_keeps
    | with_reducible apply State.patchErr_keeps
    | with_reducible apply State.patchData_keeps
    | with_reducible apply State.dumpComp_keeps
    | with_reducible apply State.patchLine_keeps
    | with_reducible apply Keeps.ite
    | split

theorem State.portErr_keeps {s0 s : State} (h : Keeps s0 s) (a1 a2 a3 a4) : Keeps s0 (State.portErr s a1 a2 a3 a4) := by
  unfold State.portErr
  try dsimp only
  repeat' first
    | with_reducible assumption
    | intro _
    | exact SameTide.mk rfl rfl rfl
    | with_reducible apply State.shepEnd_keeps
    | with_reducible apply State.pieceErr_keeps
    | with_reducible apply State.modPortOf_keeps
    | with_reducible apply State.runAgent_keeps
    | with_reducible apply Keeps.ite
    | split

theorem State.abandonAt_keeps {s0 s : State} (h : Keeps s0 s) (a1 a2 a3) : Keeps s0 (State.abandonAt s a1 a2 a3) := by
  unfold State.abandonAt
  try dsimp only
  repeat' first
    | with_reducible assumption
    | intro _
    | exact SameTide.mk rfl rfl rfl
    | with_reducible apply State.missedAt_keeps
    | with_reducible apply State.file_keeps
    | with_reducible apply State.modStream_keeps
    | with_reducible apply State.portErr_keeps
    | with_reducible apply Keeps.ite
    | split

theorem State.abandonFlit_keeps {s0 s : State} (h : Keeps s0 s) (a1 a2 a3 a4) : Keeps s0 (State.abandonFlit s a1 a2 a3 a4) := by
  unfold State.abandonFlit
  try dsimp only
  repeat' first
    | with_reducible assumption
    | intro _
    | exact SameTide.mk rfl rfl rfl
    | with_reducible apply State.modStream_keeps
    | with_reducible apply State.file_keeps
    | with_reducible apply Keeps.modPad
    | with_reducible apply Keeps.modPad
    | with_reducible apply Keeps.ite
    | split

theorem State.nfWake_keeps {s0 s : State} (h : Keeps s0 s) : Keeps s0 (State.nfWake s) := by
  unfold State.nfWake
  try dsimp only
  repeat' first
    | with_reducible assumption
    | intro _
    | exact SameTide.mk rfl rfl rfl
    | with_reducible apply Keeps.modPads
    | with_reducible apply Keeps.ite
    | split

theorem State.modEbb_keeps {s0 s : State} (h : Keeps s0 s) (a1 a2) : Keeps s0 (State.modEbb s a1 a2) := by
  unfold State.modEbb
  try dsimp only
  repeat' first
    | with_reducible assumption
    | intro _
    | exact SameTide.mk rfl rfl rfl
    | with_reducible apply Keeps.modPad

theorem State.modPower_keeps {s0 s : State} (h : Keeps s0 s) (a1 a2 a3) : Keeps s0 (State.modPower s a1 a2 a3) := by
  unfold State.modPower
  try dsimp only
  repeat' first
    | with_reducible assumption
    | with_reducible apply State.modEbb_keeps

theorem State.domOnReq_keeps {s0 s : State} (h : Keeps s0 s) (a1 a2) : Keeps s0 (State.domOnReq s a1 a2) := by
  unfold State.domOnReq
  try dsimp only
  repeat' first
    | with_reducible assumption
    | intro _
    | exact SameTide.mk rfl rfl rfl
    | with_reducible apply State.modEbb_keeps
    | with_reducible apply Keeps.ite

theorem State.startWake_keeps {s0 s : State} (h : Keeps s0 s) (a1 a2) : Keeps s0 (State.startWake s a1 a2) := by
  unfold State.startWake
  try dsimp only
  repeat' first
    | with_reducible assumption
    | intro _
    | exact SameTide.mk rfl rfl rfl
    | with_reducible apply State.domOnReq_keeps
    | with_reducible apply State.modPower_keeps
    | with_reducible apply Keeps.modPad
    | with_reducible apply Keeps.ite

theorem State.wakeFold_keeps {s0 s : State} (h : Keeps s0 s) (a1 a2 a3) : Keeps s0 (State.wakeFold s a1 a2 a3) := by
  unfold State.wakeFold
  try dsimp only
  repeat' first
    | with_reducible assumption
    | intro _
    | exact SameTide.mk rfl rfl rfl
    | with_reducible apply State.startWake_keeps
    | with_reducible apply State.modFold_keeps
    | with_reducible apply State.modPower_keeps
    | with_reducible apply State.pcount_keeps
    | with_reducible apply Keeps.ite
    | split

theorem State.autoWake_keeps {s0 s : State} (h : Keeps s0 s) (a1 a2) : Keeps s0 (State.autoWake s a1 a2) := by
  unfold State.autoWake
  try dsimp only
  repeat' first
    | with_reducible assumption
    | intro _
    | exact SameTide.mk rfl rfl rfl
    | with_reducible apply State.pcount_keeps
    | with_reducible apply State.nfWake_keeps
    | with_reducible apply State.wakeFold_keeps
    | with_reducible apply Keeps.ite
    | split

theorem State.hurdleTell_keeps {s0 s : State} (h : Keeps s0 s) (a1 a2 a3) : Keeps s0 (State.hurdleTell s a1 a2 a3) := by
  unfold State.hurdleTell
  try dsimp only
  repeat' first
    | with_reducible assumption
    | with_reducible apply State.file_keeps

theorem State.hurdleRep_keeps {s0 s : State} (h : Keeps s0 s) (a1 a2) : Keeps s0 (State.hurdleRep s a1 a2) := by
  unfold State.hurdleRep
  try dsimp only
  repeat' first
    | with_reducible assumption
    | with_reducible apply State.hurdleTell_keeps

theorem State.hurdleStore_keeps {s0 s : State} (h : Keeps s0 s) (a1 a2) : Keeps s0 (State.hurdleStore s a1 a2) := by
  unfold State.hurdleStore
  try dsimp only
  repeat' first
    | with_reducible assumption
    | intro _
    | exact SameTide.mk rfl rfl rfl
    | with_reducible apply State.event_keeps
    | with_reducible apply State.hurdleRep_keeps
    | with_reducible apply Keeps.modPad
    | with_reducible apply Keeps.ite

theorem State.hurdleAppend_keeps {s0 s : State} (h : Keeps s0 s) (a1 a2) : Keeps s0 (State.hurdleAppend s a1 a2) := by
  unfold State.hurdleAppend
  try dsimp only
  repeat' first
    | with_reducible assumption
    | intro _
    | exact SameTide.mk rfl rfl rfl
    | with_reducible apply State.hurdleRep_keeps
    | with_reducible apply State.hurdleStore_keeps
    | with_reducible apply Keeps.ite

theorem State.recheckDue_keeps {s0 s : State} (h : Keeps s0 s) (a1) : Keeps s0 (State.recheckDue s a1) := by
  unfold State.recheckDue
  try dsimp only
  repeat' first
    | with_reducible assumption
    | intro _
    | exact SameTide.mk rfl rfl rfl
    | with_reducible apply Keeps.modPad
    | with_reducible apply Keeps.ite
    | split

theorem State.hurdleAct_keeps {s0 s : State} (h : Keeps s0 s) (a1 a2 a3) : Keeps s0 (State.hurdleAct s a1 a2 a3) := by
  unfold State.hurdleAct
  try dsimp only
  repeat' first
    | with_reducible assumption
    | intro _
    | exact SameTide.mk rfl rfl rfl
    | with_reducible apply State.recheckDue_keeps
    | with_reducible apply Keeps.modPad
    | with_reducible apply State.hurdleAppend_keeps
    | with_reducible apply Keeps.ite
    | split

theorem State.putFc_keeps {s0 s : State} (h : Keeps s0 s) (a1) : Keeps s0 (State.putFc s a1) := by
  unfold State.putFc
  try dsimp only
  repeat' first
    | with_reducible assumption
    | intro _
    | exact SameTide.mk rfl rfl rfl
    | with_reducible apply State.hurdleAct_keeps
    | with_reducible apply State.fileAll_keeps
    | with_reducible apply Keeps.modPad
    | with_reducible apply Keeps.foldl

theorem State.eqPop_keeps {s0 s : State} (h : Keeps s0 s) (a1 a2) : Keeps s0 (State.eqPop s a1 a2).1 := by
  unfold State.eqPop
  try dsimp only
  repeat' first
    | with_reducible assumption
    | with_reducible apply State.modShep_keeps
    | with_reducible apply State.eqCheck_keeps

theorem State.rqPop_keeps {s0 s : State} (h : Keeps s0 s) (a1 a2) : Keeps s0 (State.rqPop s a1 a2).1 := by
  unfold State.rqPop
  try dsimp only
  repeat' first
    | with_reducible assumption
    | with_reducible apply State.rqCheck_keeps
    | with_reducible apply State.modRq_keeps

theorem State.queueRead_keeps {s0 s : State} (h : Keeps s0 s) (a1 a2) : Keeps s0 (State.queueRead s a1 a2).1 := by
  unfold State.queueRead
  try dsimp only
  repeat' first
    | with_reducible assumption
    | intro _
    | exact SameTide.mk rfl rfl rfl
    | with_reducible apply State.rqPop_keeps
    | with_reducible apply State.eqPop_keeps
    | with_reducible apply Keeps.ite
    | split

theorem State.tideCapture_keeps {s0 s : State} (h : Keeps s0 s) (a1) : Keeps s0 (State.tideCapture s a1) := by
  unfold State.tideCapture
  try dsimp only
  repeat' first
    | with_reducible assumption
    | intro _
    | exact SameTide.mk rfl rfl rfl
    | with_reducible apply Keeps.modPad

theorem State.ungate_keeps {s0 s : State} (h : Keeps s0 s) (a1 a2) : Keeps s0 (State.ungate s a1 a2) := by
  unfold State.ungate
  try dsimp only
  repeat' first
    | with_reducible assumption
    | intro _
    | exact SameTide.mk rfl rfl rfl
    | with_reducible apply State.modFold_keeps
    | with_reducible apply Keeps.modPad
    | with_reducible apply Keeps.ite

theorem State.regRead_keeps {s0 s : State} (h : Keeps s0 s) (a1 a2 a3) : Keeps s0 (State.regRead s a1 a2 a3).1 := by
  unfold State.regRead
  try dsimp only
  repeat' first
    | with_reducible assumption
    | intro _
    | exact SameTide.mk rfl rfl rfl
    | with_reducible apply State.tideCapture_keeps
    | with_reducible apply State.modFold_keeps
    | with_reducible apply State.ungate_keeps
    | with_reducible apply State.queueRead_keeps
    | with_reducible apply Keeps.modPad
    | with_reducible apply State.putFc_keeps
    | with_reducible apply Keeps.ite
    | split

theorem State.modBoot_keeps {s0 s : State} (h : Keeps s0 s) (a1 a2) : Keeps s0 (State.modBoot s a1 a2) := by
  unfold State.modBoot
  try dsimp only
  repeat' first
    | with_reducible assumption
    | intro _
    | exact SameTide.mk rfl rfl rfl
    | with_reducible apply Keeps.modPad

theorem State.modConf_keeps {s0 s : State} (h : Keeps s0 s) (a1 a2) : Keeps s0 (State.modConf s a1 a2) := by
  unfold State.modConf
  try dsimp only
  repeat' first
    | with_reducible assumption
    | intro _
    | exact SameTide.mk rfl rfl rfl
    | with_reducible apply Keeps.modPad

theorem State.modMod_keeps {s0 s : State} (h : Keeps s0 s) (a1 a2 a3) : Keeps s0 (State.modMod s a1 a2 a3) := by
  unfold State.modMod
  try dsimp only
  repeat' first
    | with_reducible assumption
    | with_reducible apply State.modConf_keeps

theorem State.stepTo_keeps {s0 s : State} (h : Keeps s0 s) (a1 a2) : Keeps s0 (State.stepTo s a1 a2) := by
  unfold State.stepTo
  try dsimp only
  repeat' first
    | with_reducible assumption
    | intro _
    | exact SameTide.mk rfl rfl rfl
    | with_reducible apply Keeps.modPad

theorem State.trainStart_keeps {s0 s : State} (h : Keeps s0 s) (a1) : Keeps s0 (State.trainStart s a1) := by
  unfold State.trainStart
  try dsimp only
  repeat' first
    | with_reducible assumption
    | intro _
    | exact SameTide.mk rfl rfl rfl
    | with_reducible apply State.modMod_keeps
    | with_reducible apply State.modBoot_keeps
    | with_reducible apply State.stepTo_keeps
    | with_reducible apply Keeps.foldl
    | with_reducible apply Keeps.ite
    | split

theorem State.bootRelease_keeps {s0 s : State} (h : Keeps s0 s) (a1) : Keeps s0 (State.bootRelease s a1) := by
  unfold State.bootRelease
  try dsimp only
  repeat' first
    | with_reducible assumption
    | intro _
    | exact SameTide.mk rfl rfl rfl
    | with_reducible apply State.trainStart_keeps
    | with_reducible apply State.modBoot_keeps
    | with_reducible apply Keeps.ite

theorem State.bootWrite_keeps {s0 s : State} (h : Keeps s0 s) (a1 a2 a3) : Keeps s0 (State.bootWrite s a1 a2 a3) := by
  unfold State.bootWrite
  try dsimp only
  repeat' first
    | with_reducible assumption
    | intro _
    | exact SameTide.mk rfl rfl rfl
    | with_reducible apply State.bootRelease_keeps
    | with_reducible apply State.modShep_keeps
    | with_reducible apply Keeps.ite

theorem State.ebbWrite_keeps {s0 s : State} (h : Keeps s0 s) (a1 a2 a3) : Keeps s0 (State.ebbWrite s a1 a2 a3) := by
  unfold State.ebbWrite
  try dsimp only
  repeat' first
    | with_reducible assumption
    | intro _
    | exact SameTide.mk rfl rfl rfl
    | with_reducible apply State.nfWake_keeps
    | with_reducible apply State.modEbb_keeps
    | with_reducible apply State.modPower_keeps
    | with_reducible apply Keeps.modPad
    | with_reducible apply State.pcount_keeps
    | with_reducible apply Keeps.ite

theorem State.modAgent_keeps {s0 s : State} (h : Keeps s0 s) (d : Die) (n : AgentN) (f : AgentPort → AgentPort) : Keeps s0 (s.modAgent d n f) := by
  exact h.modPad d _ fun q => ⟨by rw [Paddock.modAgent_aon], by rw [Paddock.modAgent_aon], by rw [Paddock.modAgent_aon]⟩

theorem State.portEnds_keeps {s0 s : State} (h : Keeps s0 s) (a1 a2 a3) : Keeps s0 (State.portEnds s a1 a2 a3) := by
  unfold State.portEnds
  try dsimp only
  repeat' first
    | with_reducible assumption
    | intro _
    | exact SameTide.mk rfl rfl rfl
    | with_reducible apply Keeps.modPad
    | with_reducible exact h.put _ _
    | with_reducible apply Keeps.foldl
    | with_reducible apply Keeps.ite
    | split

theorem State.portDone_keeps {s0 s : State} (h : Keeps s0 s) (a1) : Keeps s0 (State.portDone s a1) := by
  unfold State.portDone
  try dsimp only
  repeat' first
    | with_reducible assumption
    | with_reducible apply State.portEnds_keeps

theorem State.cqFlush_keeps {s0 s : State} (h : Keeps s0 s) (a1 a2) : Keeps s0 (State.cqFlush s a1 a2) := by
  unfold State.cqFlush
  try dsimp only
  repeat' first
    | with_reducible assumption
    | intro _
    | exact SameTide.mk rfl rfl rfl
    | with_reducible apply State.modCq_keeps
    | with_reducible apply State.portDone_keeps
    | with_reducible apply Keeps.foldl

theorem State.cqPut_keeps {s0 s : State} (h : Keeps s0 s) (a1 a2 a3 a4) : Keeps s0 (State.cqPut s a1 a2 a3 a4) := by
  unfold State.cqPut
  try dsimp only
  repeat' first
    | with_reducible assumption
    | intro _
    | exact SameTide.mk rfl rfl rfl
    | with_reducible apply State.queueRep_keeps
    | with_reducible apply State.modCq_keeps
    | with_reducible apply State.pcount_keeps
    | with_reducible apply Keeps.ite

theorem State.cqUnstall_keeps {s0 s : State} (h : Keeps s0 s) (d : Die) (q : QN) (n : Nat) : Keeps s0 (s.cqUnstall d q n) := by
  induction n generalizing s with
  | zero => exact h
  | succ k ih =>
    unfold State.cqUnstall
    dsimp only
    repeat' first
      | with_reducible assumption
      | with_reducible apply ih
      | with_reducible apply State.portDone_keeps
      | with_reducible apply State.cqPut_keeps
      | with_reducible apply State.modCq_keeps
      | with_reducible apply Keeps.ite
      | split

theorem State.cqReset_keeps {s0 s : State} (h : Keeps s0 s) (a1 a2) : Keeps s0 (State.cqReset s a1 a2) := by
  unfold State.cqReset
  try dsimp only
  repeat' first
    | with_reducible assumption
    | intro _
    | exact SameTide.mk rfl rfl rfl
    | with_reducible apply State.queueRep_keeps
    | with_reducible apply State.modCq_keeps
    | with_reducible apply State.post_keeps
    | with_reducible apply Keeps.ite
    | split

theorem State.cqCheck_keeps {s0 s : State} (h : Keeps s0 s) (a1 a2) : Keeps s0 (State.cqCheck s a1 a2) := by
  unfold State.cqCheck
  try dsimp only
  repeat' first
    | with_reducible assumption
    | intro _
    | exact SameTide.mk rfl rfl rfl
    | with_reducible apply State.queueRep_keeps
    | with_reducible apply State.cqFlush_keeps
    | with_reducible apply State.post_keeps
    | with_reducible apply State.cqUnstall_keeps
    | with_reducible apply State.cqReset_keeps
    | with_reducible apply Keeps.ite
    | with_reducible apply Keeps.ite
    | split

theorem State.cqEmpty_keeps {s0 s : State} (h : Keeps s0 s) (a1 a2) : Keeps s0 (State.cqEmpty s a1 a2) := by
  unfold State.cqEmpty
  try dsimp only
  repeat' first
    | with_reducible assumption
    | intro _
    | exact SameTide.mk rfl rfl rfl
    | with_reducible apply State.cqFlush_keeps
    | with_reducible apply State.cqReset_keeps
    | with_reducible apply Keeps.ite
    | split

theorem State.cqCtl_keeps {s0 s : State} (h : Keeps s0 s) (a1 a2 a3) : Keeps s0 (State.cqCtl s a1 a2 a3) := by
  unfold State.cqCtl
  try dsimp only
  repeat' first
    | with_reducible assumption
    | intro _
    | exact SameTide.mk rfl rfl rfl
    | with_reducible apply State.cqCheck_keeps
    | with_reducible apply State.modCq_keeps
    | with_reducible apply State.cqFlush_keeps
    | with_reducible apply State.cqEmpty_keeps
    | with_reducible apply Keeps.ite
    | with_reducible apply Keeps.ite
    | split

theorem State.cqPush_keeps {s0 s : State} (h : Keeps s0 s) (a1 a2 a3 a4 a5) : Keeps s0 (State.cqPush s a1 a2 a3 a4 a5) := by
  unfold State.cqPush
  try dsimp only
  repeat' first
    | with_reducible assumption
    | intro _
    | exact SameTide.mk rfl rfl rfl
    | with_reducible apply State.cqPut_keeps
    | with_reducible apply State.modCq_keeps
    | with_reducible apply Keeps.ite

theorem State.cqWrite_keeps {s0 s : State} (h : Keeps s0 s) (a1 a2 a3 a4 a5) : Keeps s0 (State.cqWrite s a1 a2 a3 a4 a5).1 := by
  unfold State.cqWrite
  try dsimp only
  repeat' first
    | with_reducible assumption
    | intro _
    | exact SameTide.mk rfl rfl rfl
    | with_reducible apply State.cqCheck_keeps
    | with_reducible apply State.cqPush_keeps
    | with_reducible apply Keeps.ite
    | split

theorem State.eqEmpty_keeps {s0 s : State} (h : Keeps s0 s) (a1 a2) : Keeps s0 (State.eqEmpty s a1 a2) := by
  unfold State.eqEmpty
  try dsimp only
  repeat' first
    | with_reducible assumption
    | intro _
    | exact SameTide.mk rfl rfl rfl
    | with_reducible apply State.modShep_keeps
    | with_reducible apply State.eqCheck_keeps
    | with_reducible apply Keeps.ite
    | split

theorem State.eqCtl_keeps {s0 s : State} (h : Keeps s0 s) (a1 a2 a3) : Keeps s0 (State.eqCtl s a1 a2 a3) := by
  unfold State.eqCtl
  try dsimp only
  repeat' first
    | with_reducible assumption
    | intro _
    | exact SameTide.mk rfl rfl rfl
    | with_reducible apply State.modShep_keeps
    | with_reducible apply State.eqCheck_keeps
    | with_reducible apply State.eqEmpty_keeps
    | with_reducible apply Keeps.ite
    | with_reducible apply Keeps.ite
    | split

theorem State.rqEmpty_keeps {s0 s : State} (h : Keeps s0 s) (a1 a2) : Keeps s0 (State.rqEmpty s a1 a2) := by
  unfold State.rqEmpty
  try dsimp only
  repeat' first
    | with_reducible assumption
    | intro _
    | exact SameTide.mk rfl rfl rfl
    | with_reducible apply State.modRq_keeps
    | with_reducible apply State.rqCheck_keeps
    | with_reducible apply Keeps.ite
    | split

theorem State.rqCtl_keeps {s0 s : State} (h : Keeps s0 s) (a1 a2 a3) : Keeps s0 (State.rqCtl s a1 a2 a3) := by
  unfold State.rqCtl
  try dsimp only
  repeat' first
    | with_reducible assumption
    | intro _
    | exact SameTide.mk rfl rfl rfl
    | with_reducible apply State.rqCheck_keeps
    | with_reducible apply State.modRq_keeps
    | with_reducible apply State.rqEmpty_keeps
    | with_reducible apply Keeps.ite
    | with_reducible apply Keeps.ite
    | split

theorem State.queueWrite_keeps {s0 s : State} (h : Keeps s0 s) (a1 a2 a3 a4) : Keeps s0 (State.queueWrite s a1 a2 a3 a4).1 := by
  unfold State.queueWrite
  try dsimp only
  repeat' first
    | with_reducible assumption
    | intro _
    | exact SameTide.mk rfl rfl rfl
    | with_reducible apply State.cqCtl_keeps
    | with_reducible apply State.eqCtl_keeps
    | with_reducible apply State.modCq_keeps
    | with_reducible apply State.rqCtl_keeps
    | with_reducible apply State.cqWrite_keeps
    | with_reducible apply Keeps.ite
    | split

theorem State.clearLclkLost_keeps {s0 s : State} (h : Keeps s0 s) (a1) : Keeps s0 (State.clearLclkLost s a1) := by
  unfold State.clearLclkLost
  try dsimp only
  repeat' first
    | with_reducible assumption
    | intro _
    | exact SameTide.mk rfl rfl rfl
    | with_reducible apply Keeps.modPad
    | with_reducible apply Keeps.foldl

theorem State.modRepl_keeps {s0 s : State} (h : Keeps s0 s) (a1 a2) : Keeps s0 (State.modRepl s a1 a2) := by
  unfold State.modRepl
  try dsimp only
  repeat' first
    | with_reducible assumption
    | intro _
    | exact SameTide.mk rfl rfl rfl
    | with_reducible apply Keeps.modPad
    | with_reducible apply Keeps.foldl

theorem State.modCopies_keeps {s0 s : State} (h : Keeps s0 s) (a1 a2) : Keeps s0 (State.modCopies s a1 a2) := by
  unfold State.modCopies
  try dsimp only
  repeat' first
    | with_reducible assumption
    | intro _
    | exact SameTide.mk rfl rfl rfl
    | with_reducible apply Keeps.modPad
    | with_reducible apply State.modRepl_keeps
    | with_reducible apply Keeps.ite

theorem State.replWrite_keeps {s0 s : State} (h : Keeps s0 s) (a1 a2 a3 a4) : Keeps s0 (State.replWrite s a1 a2 a3 a4) := by
  unfold State.replWrite
  try dsimp only
  repeat' first
    | with_reducible assumption
    | intro _
    | exact SameTide.mk rfl rfl rfl
    | with_reducible apply State.modCopies_keeps
    | with_reducible apply State.clearLclkLost_keeps
    | with_reducible apply Keeps.ite

theorem State.runFold_keeps {s0 s : State} (h : Keeps s0 s) (a1 a2 a3) : Keeps s0 (State.runFold s a1 a2 a3) := by
  unfold State.runFold
  try dsimp only
  repeat' first
    | with_reducible assumption
    | with_reducible apply State.putFc_keeps

theorem State.modSluice_keeps {s0 s : State} (h : Keeps s0 s) (a1 a2 a3 a4) : Keeps s0 (State.modSluice s a1 a2 a3 a4) := by
  unfold State.modSluice
  try dsimp only
  repeat' first
    | with_reducible assumption
    | intro _
    | exact SameTide.mk rfl rfl rfl
    | with_reducible apply State.modTether_keeps
    | with_reducible apply State.modShep_keeps
    | with_reducible apply State.modAgent_keeps
    | with_reducible apply State.modStream_keeps
    | with_reducible apply Keeps.ite

theorem State.streamWrite_keeps {s0 s : State} (h : Keeps s0 s) (a1 a2 a3) : Keeps s0 (State.streamWrite s a1 a2 a3) := by
  unfold State.streamWrite
  try dsimp only
  repeat' first
    | with_reducible assumption
    | intro _
    | exact SameTide.mk rfl rfl rfl
    | with_reducible apply State.modStream_keeps
    | with_reducible apply State.modSluice_keeps
    | with_reducible apply Keeps.ite

theorem State.msixWrite_keeps {s0 s : State} (h : Keeps s0 s) (a1 a2) : Keeps s0 (State.msixWrite s a1 a2) := by
  unfold State.msixWrite
  try dsimp only
  repeat' first
    | with_reducible assumption
    | with_reducible apply State.toHost_keeps
    | with_reducible apply State.pcount_keeps

theorem State.msixDue_keeps {s0 s : State} (h : Keeps s0 s) (a1 a2) : Keeps s0 (State.msixDue s a1 a2) := by
  unfold State.msixDue
  try dsimp only
  repeat' first
    | with_reducible assumption
    | intro _
    | exact SameTide.mk rfl rfl rfl
    | with_reducible apply State.modTether_keeps
    | with_reducible apply State.msixWrite_keeps
    | with_reducible apply Keeps.ite

theorem State.msixEoi_keeps {s0 s : State} (h : Keeps s0 s) (a1 a2) : Keeps s0 (State.msixEoi s a1 a2) := by
  unfold State.msixEoi
  try dsimp only
  repeat' first
    | with_reducible assumption
    | intro _
    | exact SameTide.mk rfl rfl rfl
    | with_reducible apply State.msixDue_keeps
    | with_reducible apply Keeps.ite

theorem State.sendLtr_keeps {s0 s : State} (h : Keeps s0 s) (a1) : Keeps s0 (State.sendLtr s a1) := by
  unfold State.sendLtr
  try dsimp only
  repeat' first
    | with_reducible assumption
    | with_reducible apply State.modTether_keeps
    | with_reducible apply State.toHost_keeps

theorem State.writeLtr_keeps {s0 s : State} (h : Keeps s0 s) (a1 a2) : Keeps s0 (State.writeLtr s a1 a2) := by
  unfold State.writeLtr
  try dsimp only
  repeat' first
    | with_reducible assumption
    | intro _
    | exact SameTide.mk rfl rfl rfl
    | with_reducible apply State.modTether_keeps
    | with_reducible apply State.sendLtr_keeps
    | with_reducible apply Keeps.ite

theorem State.writeTail_keeps {s0 s : State} (h : Keeps s0 s) (a1 a2 a3) : Keeps s0 (State.writeTail s a1 a2 a3) := by
  unfold State.writeTail
  try dsimp only
  repeat' first
    | with_reducible assumption
    | intro _
    | exact SameTide.mk rfl rfl rfl
    | with_reducible apply State.modTether_keeps
    | with_reducible apply Keeps.ite

theorem State.tetherWrite_keeps {s0 s : State} (h : Keeps s0 s) (a1 a2 a3 a4 a5) : Keeps s0 (State.tetherWrite s a1 a2 a3 a4 a5).1 := by
  unfold State.tetherWrite
  try dsimp only
  repeat' first
    | with_reducible assumption
    | intro _
    | exact SameTide.mk rfl rfl rfl
    | with_reducible apply State.msixEoi_keeps
    | with_reducible apply State.modTether_keeps
    | with_reducible apply State.writeLtr_keeps
    | with_reducible apply State.writeTail_keeps
    | with_reducible apply Keeps.ite
    | with_reducible apply Keeps.iteFst
    | split
    | dsimp only

theorem State.regWrite_keeps {s0 s : State} (h : Keeps s0 s) (a1 a2 a3 a4 a5 a6) : Keeps s0 (State.regWrite s a1 a2 a3 a4 a5 a6).1 := by
  unfold State.regWrite
  try dsimp only
  repeat' first
    | with_reducible assumption
    | intro _
    | exact SameTide.mk rfl rfl rfl
    | with_reducible apply State.tetherWrite_keeps
    | with_reducible apply State.ebbWrite_keeps
    | with_reducible apply State.modFold_keeps
    | with_reducible apply State.ungate_keeps
    | with_reducible apply State.runFold_keeps
    | with_reducible apply State.modAgent_keeps
    | with_reducible apply State.queueWrite_keeps
    | with_reducible apply State.streamWrite_keeps
    | with_reducible apply State.replWrite_keeps
    | with_reducible apply Keeps.modPad
    | with_reducible apply State.modConf_keeps
    | with_reducible apply State.bootWrite_keeps
    | with_reducible exact h.put _ _
    | with_reducible apply Keeps.foldl
    | with_reducible apply Keeps.foldlFst
    | with_reducible apply Keeps.ite
    | with_reducible apply Keeps.iteFst
    | split
    | dsimp only
    | exact SameTide.mk (Paddock.modAgent_aon _ _ _ ▸ rfl) (Paddock.modAgent_aon _ _ _ ▸ rfl) (Paddock.modAgent_aon _ _ _ ▸ rfl)
    | apply Paddock.sdReset_tide
    | apply Paddock.shReset_tide
    | apply Paddock.padReset_tide
    | apply Paddock.censusClear_tide
    | apply Paddock.commonWrite_tide
    | apply Paddock.bellWrite_tide

theorem State.perform_keeps {s0 s : State} (h : Keeps s0 s) (a1 a2 a3 a4) : Keeps s0 (State.perform s a1 a2 a3 a4).1 := by
  unfold State.perform
  try dsimp only
  repeat' first
    | with_reducible assumption
    | intro _
    | exact SameTide.mk rfl rfl rfl
    | with_reducible apply State.regWrite_keeps
    | with_reducible apply State.regRead_keeps
    | with_reducible exact h.put _ _
    | with_reducible apply Keeps.foldl
    | with_reducible apply Keeps.ite
    | split

theorem State.slumber_keeps {s0 s : State} (h : Keeps s0 s) (a1) : Keeps s0 (State.slumber s a1) := by
  unfold State.slumber
  try dsimp only
  repeat' first
    | with_reducible assumption
    | with_reducible apply State.modEbb_keeps

theorem State.access_keeps {s0 s : State} (h : Keeps s0 s) (a1 a2 a3) : Keeps s0 (State.access s a1 a2 a3).1 := by
  unfold State.access
  try dsimp only
  repeat' first
    | with_reducible assumption
    | intro _
    | exact SameTide.mk rfl rfl rfl
    | with_reducible apply State.modEbb_keeps
    | with_reducible apply State.slumber_keeps
    | with_reducible apply State.perform_keeps
    | with_reducible apply State.autoWake_keeps
    | with_reducible apply Keeps.modPad
    | with_reducible apply Keeps.ite
    | split

theorem State.addJob_keeps {s0 s : State} (h : Keeps s0 s) (a1 a2 a3) : Keeps s0 (State.addJob s a1 a2 a3) := by
  unfold State.addJob
  try dsimp only
  repeat' first
    | with_reducible assumption
    | intro _
    | exact SameTide.mk rfl rfl rfl
    | with_reducible apply State.modShep_keeps
    | with_reducible apply Keeps.ite

theorem State.lockAperture_keeps {s0 s : State} (h : Keeps s0 s) (a1) : Keeps s0 (State.lockAperture s a1) := by
  unfold State.lockAperture
  try dsimp only
  repeat' first
    | with_reducible assumption
    | intro _
    | exact SameTide.mk rfl rfl rfl
    | with_reducible exact h.put _ _
    | with_reducible apply Keeps.foldl
    | with_reducible apply Keeps.ite
    | split

theorem State.queuesEmpty_keeps {s0 s : State} (h : Keeps s0 s) (a1) : Keeps s0 (State.queuesEmpty s a1) := by
  unfold State.queuesEmpty
  try dsimp only
  repeat' first
    | with_reducible assumption
    | intro _
    | exact SameTide.mk rfl rfl rfl
    | with_reducible apply State.cqEmpty_keeps
    | with_reducible apply State.rqEmpty_keeps
    | with_reducible apply State.eqEmpty_keeps
    | with_reducible apply Keeps.foldl
    | with_reducible apply Keeps.ite
    | split

theorem State.admitNow_keeps {s0 s : State} (h : Keeps s0 s) (a1 a2) : Keeps s0 (State.admitNow s a1 a2) := by
  unfold State.admitNow
  try dsimp only
  repeat' first
    | with_reducible assumption
    | intro _
    | exact SameTide.mk rfl rfl rfl
    | with_reducible apply State.cqFlush_keeps
    | with_reducible apply State.queuesEmpty_keeps
    | with_reducible apply Keeps.modPad
    | with_reducible apply State.lockAperture_keeps
    | with_reducible apply Keeps.foldl
    | with_reducible apply Keeps.ite
    | split

theorem State.inject_keeps {s0 s : State} (h : Keeps s0 s) (a1 a2 a3 a4 a5) : Keeps s0 (State.inject s a1 a2 a3 a4 a5) := by
  unfold State.inject
  try dsimp only
  repeat' first
    | with_reducible assumption
    | intro _
    | exact SameTide.mk rfl rfl rfl
    | with_reducible apply Keeps.modPad

theorem State.admitTxn_keeps {s0 s : State} (h : Keeps s0 s) (a1 a2 a3) : Keeps s0 (State.admitTxn s a1 a2 a3) := by
  unfold State.admitTxn
  try dsimp only
  repeat' first
    | with_reducible assumption
    | intro _
    | exact SameTide.mk rfl rfl rfl
    | with_reducible apply State.modPortOf_keeps
    | with_reducible apply State.inject_keeps
    | with_reducible apply State.putAc_keeps
    | with_reducible apply Keeps.ite

theorem State.tetherRep_keeps {s0 s : State} (h : Keeps s0 s) (a1 a2 a3 a4) : Keeps s0 (State.tetherRep s a1 a2 a3 a4) := by
  unfold State.tetherRep
  try dsimp only
  repeat' first
    | with_reducible assumption
    | with_reducible apply State.file_keeps

theorem State.aer_keeps {s0 s : State} (h : Keeps s0 s) (a1 a2) : Keeps s0 (State.aer s a1 a2) := by
  unfold State.aer
  try dsimp only
  repeat' first
    | with_reducible assumption
    | with_reducible apply State.aerLog_keeps
    | with_reducible apply State.tetherRep_keeps

theorem State.alarmAt_keeps {s0 s : State} (h : Keeps s0 s) (a1) : Keeps s0 (State.alarmAt s a1) := by
  unfold State.alarmAt
  try dsimp only
  repeat' first
    | with_reducible assumption
    | intro _
    | exact SameTide.mk rfl rfl rfl
    | with_reducible apply State.nfWake_keeps
    | with_reducible apply Keeps.ite

theorem State.answerUr_keeps {s0 s : State} (h : Keeps s0 s) (a1 a2) : Keeps s0 (State.answerUr s a1 a2) := by
  unfold State.answerUr
  try dsimp only
  repeat' first
    | with_reducible assumption
    | intro _
    | exact SameTide.mk rfl rfl rfl
    | with_reducible apply State.toHost_keeps
    | with_reducible apply Keeps.ite
    | split

theorem State.bringUp_keeps {s0 s : State} (h : Keeps s0 s) (a1 a2) : Keeps s0 (State.bringUp s a1 a2) := by
  unfold State.bringUp
  try dsimp only
  repeat' first
    | with_reducible assumption
    | intro _
    | exact SameTide.mk rfl rfl rfl
    | with_reducible apply State.startWake_keeps
    | with_reducible apply Keeps.modPad
    | with_reducible apply State.modPower_keeps

theorem State.exhaust_keeps {s0 s : State} (h : Keeps s0 s) (a1 a2) : Keeps s0 (State.exhaust s a1 a2) := by
  unfold State.exhaust
  try dsimp only
  repeat' first
    | with_reducible assumption
    | intro _
    | exact SameTide.mk rfl rfl rfl
    | with_reducible apply State.recheckDue_keeps
    | with_reducible apply Keeps.modPad

theorem State.modFoldmap_keeps {s0 s : State} (h : Keeps s0 s) (a1 a2) : Keeps s0 (State.modFoldmap s a1 a2) := by
  unfold State.modFoldmap
  try dsimp only
  repeat' first
    | with_reducible assumption
    | intro _
    | exact SameTide.mk rfl rfl rfl
    | with_reducible apply Keeps.modPads

theorem State.failFold_keeps {s0 s : State} (h : Keeps s0 s) (a1 a2) : Keeps s0 (State.failFold s a1 a2) := by
  unfold State.failFold
  try dsimp only
  repeat' first
    | with_reducible assumption
    | intro _
    | exact SameTide.mk rfl rfl rfl
    | with_reducible apply State.modFoldmap_keeps
    | with_reducible apply State.exhaust_keeps
    | with_reducible apply Keeps.ite

theorem State.foldRep_keeps {s0 s : State} (h : Keeps s0 s) (a1 a2 a3) : Keeps s0 (State.foldRep s a1 a2 a3) := by
  unfold State.foldRep
  try dsimp only
  repeat' first
    | with_reducible assumption
    | with_reducible apply State.file_keeps

theorem State.finishAll_keeps {s0 s : State} (h : Keeps s0 s) (a1 a2) : Keeps s0 (State.finishAll s a1 a2) := by
  unfold State.finishAll
  try dsimp only
  repeat' first
    | with_reducible assumption
    | intro _
    | exact SameTide.mk rfl rfl rfl
    | with_reducible apply State.finish_keeps
    | with_reducible apply Keeps.foldl
    | with_reducible apply Keeps.ite
    | split

theorem State.parked_keeps {s0 s : State} (h : Keeps s0 s) (a1 a2) : Keeps s0 (State.parked s a1 a2) := by
  unfold State.parked
  try dsimp only
  repeat' first
    | with_reducible assumption
    | intro _
    | exact SameTide.mk rfl rfl rfl
    | with_reducible apply State.startWake_keeps
    | with_reducible apply State.modPower_keeps
    | with_reducible apply State.finishAll_keeps
    | with_reducible apply State.modFoldmap_keeps
    | with_reducible apply Keeps.ite
    | split

theorem State.startDrain_keeps {s0 s : State} (h : Keeps s0 s) (a1 a2 a3) : Keeps s0 (State.startDrain s a1 a2 a3) := by
  unfold State.startDrain
  try dsimp only
  repeat' first
    | with_reducible assumption
    | intro _
    | exact SameTide.mk rfl rfl rfl
    | with_reducible apply State.modPower_keeps
    | with_reducible apply State.modFold_keeps
    | with_reducible apply State.addJob_keeps
    | with_reducible apply Keeps.ite

theorem State.setTarget_keeps {s0 s : State} (h : Keeps s0 s) (a1 a2 a3) : Keeps s0 (State.setTarget s a1 a2 a3) := by
  unfold State.setTarget
  try dsimp only
  repeat' first
    | with_reducible assumption
    | intro _
    | exact SameTide.mk rfl rfl rfl
    | with_reducible apply State.parked_keeps
    | with_reducible apply State.startWake_keeps
    | with_reducible apply State.modPower_keeps
    | with_reducible apply State.ungate_keeps
    | with_reducible apply State.startDrain_keeps
    | with_reducible apply Keeps.ite

theorem State.vacate_keeps {s0 s : State} (h : Keeps s0 s) (a1 a2) : Keeps s0 (State.vacate s a1 a2) := by
  unfold State.vacate
  try dsimp only
  repeat' first
    | with_reducible assumption
    | with_reducible apply State.foldRep_keeps
    | with_reducible apply State.setTarget_keeps
    | with_reducible apply State.exhaust_keeps
    | with_reducible apply State.failFold_keeps

theorem State.applyRec_keeps {s0 s : State} (h : Keeps s0 s) (a1 a2 a3) : Keeps s0 (State.applyRec s a1 a2 a3).1 := by
  unfold State.applyRec
  try dsimp only
  repeat' first
    | with_reducible assumption
    | intro _
    | exact SameTide.mk rfl rfl rfl
    | with_reducible apply State.vacate_keeps
    | with_reducible apply State.runFold_keeps
    | with_reducible apply State.foldRep_keeps
    | with_reducible apply State.bringUp_keeps
    | with_reducible apply State.failFold_keeps
    | with_reducible apply State.hurdleStore_keeps
    | with_reducible apply State.modShep_keeps
    | with_reducible apply State.recheckDue_keeps
    | with_reducible apply Keeps.modPad
    | with_reducible apply Keeps.ite
    | split

theorem State.askClock_keeps {s0 s : State} (h : Keeps s0 s) (a1) : Keeps s0 (State.askClock s a1) := by
  unfold State.askClock
  try dsimp only
  repeat' first
    | with_reducible assumption
    | intro _
    | exact SameTide.mk rfl rfl rfl
    | with_reducible apply Keeps.modPad

theorem State.fuseRead_keeps {s0 s : State} (h : Keeps s0 s) (a1 a2) : Keeps s0 (State.fuseRead s a1 a2) := by
  unfold State.fuseRead
  try dsimp only
  repeat' first
    | with_reducible assumption
    | intro _
    | exact SameTide.mk rfl rfl rfl
    | with_reducible apply Keeps.modPad

theorem State.fuseStart_keeps {s0 s : State} (h : Keeps s0 s) (a1) : Keeps s0 (State.fuseStart s a1) := by
  unfold State.fuseStart
  try dsimp only
  repeat' first
    | with_reducible assumption
    | with_reducible apply State.fuseRead_keeps
    | with_reducible apply State.modBoot_keeps

theorem State.domOffReq_keeps {s0 s : State} (h : Keeps s0 s) (a1 a2) : Keeps s0 (State.domOffReq s a1 a2) := by
  unfold State.domOffReq
  try dsimp only
  repeat' first
    | with_reducible assumption
    | with_reducible apply State.modEbb_keeps

theorem State.fencePos_keeps {s0 s : State} (h : Keeps s0 s) (a1 a2) : Keeps s0 (State.fencePos s a1 a2) := by
  unfold State.fencePos
  try dsimp only
  repeat' first
    | with_reducible assumption
    | with_reducible apply State.modEbb_keeps

theorem State.fenceFold_keeps {s0 s : State} (h : Keeps s0 s) (a1 a2) : Keeps s0 (State.fenceFold s a1 a2) := by
  unfold State.fenceFold
  try dsimp only
  repeat' first
    | with_reducible assumption
    | with_reducible apply State.fencePos_keeps

theorem State.foldOff_keeps {s0 s : State} (h : Keeps s0 s) (a1 a2) : Keeps s0 (State.foldOff s a1 a2) := by
  unfold State.foldOff
  try dsimp only
  repeat' first
    | with_reducible assumption
    | intro _
    | exact SameTide.mk rfl rfl rfl
    | with_reducible apply State.domOffReq_keeps
    | with_reducible apply State.modPower_keeps
    | with_reducible apply State.fenceFold_keeps
    | with_reducible apply Keeps.ite

theorem State.parkSpares_keeps {s0 s : State} (h : Keeps s0 s) (a1) : Keeps s0 (State.parkSpares s a1) := by
  unfold State.parkSpares
  try dsimp only
  repeat' first
    | with_reducible assumption
    | intro _
    | exact SameTide.mk rfl rfl rfl
    | with_reducible apply State.foldOff_keeps
    | with_reducible apply State.modEbb_keeps
    | with_reducible apply Keeps.foldl
    | with_reducible apply Keeps.ite
    | split

theorem State.stepFail_keeps {s0 s : State} (h : Keeps s0 s) (a1) : Keeps s0 (State.stepFail s a1) := by
  unfold State.stepFail
  try dsimp only
  repeat' first
    | with_reducible assumption
    | intro _
    | exact SameTide.mk rfl rfl rfl
    | with_reducible apply Keeps.modPad

theorem State.bootGo_keeps {s0 s : State} (h : Keeps s0 s) (a1) : Keeps s0 (State.bootGo s a1) := by
  unfold State.bootGo
  try dsimp only
  repeat' first
    | with_reducible assumption
    | intro _
    | exact SameTide.mk rfl rfl rfl
    | with_reducible apply State.stepFail_keeps
    | with_reducible apply State.askClock_keeps
    | with_reducible apply State.parkSpares_keeps
    | with_reducible apply State.fuseStart_keeps
    | with_reducible apply State.stepTo_keeps
    | with_reducible apply Keeps.ite
    | split

theorem State.markFailed_keeps {s0 s : State} (h : Keeps s0 s) (a1 a2) : Keeps s0 (State.markFailed s a1 a2) := by
  unfold State.markFailed
  try dsimp only
  repeat' first
    | with_reducible assumption
    | with_reducible apply State.hurdleAppend_keeps
    | with_reducible apply State.failFold_keeps

theorem State.endMove_keeps {s0 s : State} (h : Keeps s0 s) (a1 a2 a3 a4) : Keeps s0 (State.endMove s a1 a2 a3 a4) := by
  unfold State.endMove
  try dsimp only
  repeat' first
    | with_reducible assumption
    | intro _
    | exact SameTide.mk rfl rfl rfl
    | with_reducible apply State.finish_keeps
    | with_reducible apply State.modShep_keeps
    | with_reducible apply Keeps.ite

theorem State.moveFail_keeps {s0 s : State} (h : Keeps s0 s) (a1 a2 a3) : Keeps s0 (State.moveFail s a1 a2 a3) := by
  unfold State.moveFail
  try dsimp only
  repeat' first
    | with_reducible assumption
    | with_reducible apply State.endMove_keeps
    | with_reducible apply State.foldOff_keeps

theorem State.initFails_keeps {s0 s : State} (h : Keeps s0 s) (a1 a2) : Keeps s0 (State.initFails s a1 a2) := by
  unfold State.initFails
  try dsimp only
  repeat' first
    | with_reducible assumption
    | intro _
    | exact SameTide.mk rfl rfl rfl
    | with_reducible apply State.foldRep_keeps
    | with_reducible apply State.moveFail_keeps
    | with_reducible apply State.markFailed_keeps
    | with_reducible apply Keeps.ite
    | split

theorem State.takeSpare_keeps {s0 s : State} (h : Keeps s0 s) (a1 a2 a3 a4) : Keeps s0 (State.takeSpare s a1 a2 a3 a4).1 := by
  unfold State.takeSpare
  try dsimp only
  repeat' first
    | with_reducible assumption
    | intro _
    | exact SameTide.mk rfl rfl rfl
    | with_reducible apply Keeps.modPad
    | with_reducible apply Keeps.ite
    | split

theorem State.replaceRow_keeps {s0 s : State} (h : Keeps s0 s) (a1 a2 a3 a4 a5 a6 a7) : Keeps s0 (State.replaceRow s a1 a2 a3 a4 a5 a6 a7) := by
  unfold State.replaceRow
  try dsimp only
  repeat' first
    | with_reducible assumption
    | intro _
    | exact SameTide.mk rfl rfl rfl
    | with_reducible apply State.takeSpare_keeps
    | with_reducible apply State.foldRep_keeps
    | with_reducible apply State.hurdleAppend_keeps
    | with_reducible apply State.exhaust_keeps
    | with_reducible apply State.hurdleStore_keeps
    | with_reducible apply Keeps.ite
    | split

theorem State.initFound_keeps {s0 s : State} (h : Keeps s0 s) (a1 a2 a3) : Keeps s0 (State.initFound s a1 a2 a3) := by
  unfold State.initFound
  try dsimp only
  repeat' first
    | with_reducible assumption
    | intro _
    | exact SameTide.mk rfl rfl rfl
    | with_reducible apply State.replaceRow_keeps
    | with_reducible apply Keeps.ite
    | split

theorem State.storeNew_keeps {s0 s : State} (h : Keeps s0 s) (a1 a2) : Keeps s0 (State.storeNew s a1 a2) := by
  unfold State.storeNew
  try dsimp only
  repeat' first
    | with_reducible assumption
    | intro _
    | exact SameTide.mk rfl rfl rfl
    | with_reducible apply State.hurdleStore_keeps
    | with_reducible apply Keeps.ite

theorem State.initQueued_keeps {s0 s : State} (h : Keeps s0 s) (a1 a2 a3) : Keeps s0 (State.initQueued s a1 a2 a3) := by
  unfold State.initQueued
  try dsimp only
  repeat' first
    | with_reducible assumption
    | intro _
    | exact SameTide.mk rfl rfl rfl
    | with_reducible apply State.replaceRow_keeps
    | with_reducible apply State.storeNew_keeps
    | with_reducible apply Keeps.ite

theorem State.unqueue_keeps {s0 s : State} (h : Keeps s0 s) (a1 a2) : Keeps s0 (State.unqueue s a1 a2).1 := by
  unfold State.unqueue
  try dsimp only
  repeat' first
    | with_reducible assumption
    | intro _
    | exact SameTide.mk rfl rfl rfl
    | with_reducible apply Keeps.modPad

theorem State.initRec_keeps {s0 s : State} (h : Keeps s0 s) (a1 a2 a3 a4) : Keeps s0 (State.initRec s a1 a2 a3 a4).1 := by
  unfold State.initRec
  try dsimp only
  repeat' first
    | with_reducible assumption
    | intro _
    | exact SameTide.mk rfl rfl rfl
    | with_reducible apply State.storeNew_keeps
    | with_reducible apply State.initQueued_keeps
    | with_reducible apply Keeps.iteFst
    | with_reducible apply Keeps.ite
    | split

theorem State.initFind_keeps {s0 s : State} (h : Keeps s0 s) (a1 a2 a3 a4) : Keeps s0 (State.initFind s a1 a2 a3 a4).1 := by
  unfold State.initFind
  try dsimp only
  repeat' first
    | with_reducible assumption
    | intro _
    | exact SameTide.mk rfl rfl rfl
    | with_reducible apply State.initFound_keeps
    | with_reducible apply Keeps.iteFst
    | with_reducible apply Keeps.ite
    | split

theorem State.initRows_keeps {s0 s : State} (h : Keeps s0 s) (a1 a2 a3 a4) : Keeps s0 (State.initRows s a1 a2 a3 a4) := by
  unfold State.initRows
  try dsimp only
  repeat' first
    | with_reducible assumption
    | intro _
    | exact SameTide.mk rfl rfl rfl
    | with_reducible apply State.initRec_keeps
    | with_reducible apply State.initFind_keeps
    | with_reducible apply Keeps.foldlFst
    | with_reducible apply Keeps.foldl
    | with_reducible apply Keeps.ite
    | split

theorem State.initFold_keeps {s0 s : State} (h : Keeps s0 s) (a1 a2 a3) : Keeps s0 (State.initFold s a1 a2 a3) := by
  unfold State.initFold
  try dsimp only
  repeat' first
    | with_reducible assumption
    | intro _
    | exact SameTide.mk rfl rfl rfl
    | with_reducible apply State.unqueue_keeps
    | with_reducible apply State.initQueued_keeps
    | with_reducible apply State.modBoot_keeps
    | with_reducible apply State.modFold_keeps
    | with_reducible apply State.initFound_keeps
    | with_reducible apply State.initRows_keeps
    | with_reducible apply Keeps.foldl
    | with_reducible apply Keeps.ite
    | split

theorem State.steer_keeps {s0 s : State} (h : Keeps s0 s) (a1 a2 a3 a4) : Keeps s0 (State.steer s a1 a2 a3 a4).1 := by
  unfold State.steer
  try dsimp only
  repeat' first
    | with_reducible assumption
    | intro _
    | exact SameTide.mk rfl rfl rfl
    | with_reducible apply Keeps.modPad
    | with_reducible apply Keeps.ite
    | split

theorem State.laneKept_keeps {s0 s : State} (h : Keeps s0 s) (a1) : Keeps s0 (State.laneKept s a1) := by
  unfold State.laneKept
  try dsimp only
  repeat' first
    | with_reducible assumption
    | intro _
    | exact SameTide.mk rfl rfl rfl
    | with_reducible apply State.hurdleTell_keeps
    | with_reducible apply State.exhaust_keeps
    | with_reducible apply Keeps.ite
    | split

theorem State.laneFound_keeps {s0 s : State} (h : Keeps s0 s) (a1 a2) : Keeps s0 (State.laneFound s a1 a2) := by
  unfold State.laneFound
  try dsimp only
  repeat' first
    | with_reducible assumption
    | intro _
    | exact SameTide.mk rfl rfl rfl
    | with_reducible apply State.hurdleAppend_keeps
    | with_reducible apply State.steer_keeps
    | with_reducible apply State.laneKept_keeps
    | with_reducible apply Keeps.ite
    | split

theorem State.laneRec_keeps {s0 s : State} (h : Keeps s0 s) (a1 a2) : Keeps s0 (State.laneRec s a1 a2) := by
  unfold State.laneRec
  try dsimp only
  repeat' first
    | with_reducible assumption
    | intro _
    | exact SameTide.mk rfl rfl rfl
    | with_reducible apply State.steer_keeps
    | with_reducible apply State.storeNew_keeps
    | with_reducible apply State.laneKept_keeps
    | with_reducible apply Keeps.ite
    | split

theorem State.initLanes_keeps {s0 s : State} (h : Keeps s0 s) (a1 a2) : Keeps s0 (State.initLanes s a1 a2) := by
  unfold State.initLanes
  try dsimp only
  repeat' first
    | with_reducible assumption
    | intro _
    | exact SameTide.mk rfl rfl rfl
    | with_reducible apply State.unqueue_keeps
    | with_reducible apply State.exhaust_keeps
    | with_reducible apply State.hurdleTell_keeps
    | with_reducible apply State.hurdleAppend_keeps
    | with_reducible apply State.storeNew_keeps
    | with_reducible apply State.modBoot_keeps
    | with_reducible apply State.steer_keeps
    | with_reducible apply State.laneFound_keeps
    | with_reducible apply State.laneRec_keeps
    | with_reducible apply Keeps.foldl
    | with_reducible apply Keeps.ite
    | split

theorem State.arrayInit_keeps {s0 s : State} (h : Keeps s0 s) (a1 a2 a3) : Keeps s0 (State.arrayInit s a1 a2 a3) := by
  unfold State.arrayInit
  try dsimp only
  repeat' first
    | with_reducible assumption
    | intro _
    | exact SameTide.mk rfl rfl rfl
    | with_reducible apply State.initFails_keeps
    | with_reducible apply State.initLanes_keeps
    | with_reducible apply State.initFold_keeps
    | with_reducible apply State.bootGo_keeps
    | with_reducible apply Keeps.ite
    | split

theorem State.askPoint_keeps {s0 s : State} (h : Keeps s0 s) (a1 a2) : Keeps s0 (State.askPoint s a1 a2) := by
  unfold State.askPoint
  try dsimp only
  repeat' first
    | with_reducible assumption
    | intro _
    | exact SameTide.mk rfl rfl rfl
    | with_reducible apply State.modEbb_keeps
    | with_reducible apply Keeps.foldl

theorem State.atFold_keeps {s0 s : State} (h : Keeps s0 s) (a1 a2 a3) : Keeps s0 (State.atFold s a1 a2 a3) := by
  unfold State.atFold
  try dsimp only
  repeat' first
    | with_reducible assumption
    | intro _
    | exact SameTide.mk rfl rfl rfl
    | with_reducible apply State.runFold_keeps
    | with_reducible apply State.ungate_keeps
    | with_reducible apply Keeps.ite
    | split

theorem State.sendRsp_keeps {s0 s : State} (h : Keeps s0 s) (a1 a2 a3) : Keeps s0 (State.sendRsp s a1 a2 a3) := by
  unfold State.sendRsp
  try dsimp only
  repeat' first
    | with_reducible assumption
    | with_reducible apply State.inject_keeps

theorem State.autoAck_keeps {s0 s : State} (h : Keeps s0 s) (a1 a2) : Keeps s0 (State.autoAck s a1 a2) := by
  unfold State.autoAck
  try dsimp only
  repeat' first
    | with_reducible assumption
    | intro _
    | exact SameTide.mk rfl rfl rfl
    | with_reducible apply State.sendRsp_keeps
    | with_reducible apply Keeps.ite
    | split

theorem State.autoServe_keeps {s0 s : State} (h : Keeps s0 s) (a1) : Keeps s0 (State.autoServe s a1) := by
  unfold State.autoServe
  try dsimp only
  repeat' first
    | with_reducible assumption
    | intro _
    | exact SameTide.mk rfl rfl rfl
    | with_reducible apply State.modEbb_keeps
    | with_reducible apply State.access_keeps
    | with_reducible apply State.portEnds_keeps
    | with_reducible apply Keeps.ite
    | split

theorem State.autoTimeout_keeps {s0 s : State} (h : Keeps s0 s) (a1) : Keeps s0 (State.autoTimeout s a1) := by
  unfold State.autoTimeout
  try dsimp only
  repeat' first
    | with_reducible assumption
    | intro _
    | exact SameTide.mk rfl rfl rfl
    | with_reducible apply State.modEbb_keeps
    | with_reducible apply State.slumber_keeps
    | with_reducible apply State.portEnds_keeps
    | with_reducible apply Keeps.ite
    | split

theorem State.nfBack_keeps {s0 s : State} (h : Keeps s0 s) (a1) : Keeps s0 (State.nfBack s a1) := by
  unfold State.nfBack
  try dsimp only
  repeat' first
    | with_reducible assumption
    | with_reducible apply State.domOnReq_keeps
    | with_reducible apply State.modEbb_keeps

theorem State.verifyPatch_keeps {s0 s : State} (h : Keeps s0 s) (a1) : Keeps s0 (State.verifyPatch s a1) := by
  unfold State.verifyPatch
  try dsimp only
  repeat' first
    | with_reducible assumption
    | intro _
    | exact SameTide.mk rfl rfl rfl
    | with_reducible apply State.modShep_keeps
    | with_reducible apply State.queueRep_keeps
    | with_reducible apply Keeps.ite

theorem State.nfExit_keeps {s0 s : State} (h : Keeps s0 s) (a1) : Keeps s0 (State.nfExit s a1) := by
  unfold State.nfExit
  try dsimp only
  repeat' first
    | with_reducible assumption
    | intro _
    | exact SameTide.mk rfl rfl rfl
    | with_reducible apply State.domOnReq_keeps
    | with_reducible apply State.modEbb_keeps
    | with_reducible apply State.verifyPatch_keeps
    | with_reducible apply State.nfBack_keeps
    | with_reducible apply Keeps.ite
    | split

theorem State.publishEnv_keeps {s0 s : State} (h : Keeps s0 s) (a1) : Keeps s0 (State.publishEnv s a1) := by
  unfold State.publishEnv
  try dsimp only
  repeat' first
    | with_reducible assumption
    | with_reducible apply State.modRepl_keeps
    | with_reducible apply State.modShep_keeps
    | with_reducible apply Keeps.ite
    | split

theorem State.envChanged_keeps {s0 s : State} (h : Keeps s0 s) (a1) : Keeps s0 (State.envChanged s a1) := by
  unfold State.envChanged
  try dsimp only
  repeat' first
    | with_reducible assumption
    | intro _
    | exact SameTide.mk rfl rfl rfl
    | with_reducible apply State.publishEnv_keeps
    | with_reducible apply Keeps.ite

theorem State.oppSettle_keeps {s0 s : State} (h : Keeps s0 s) (a1) : Keeps s0 (State.oppSettle s a1) := by
  unfold State.oppSettle
  try dsimp only
  repeat' first
    | with_reducible assumption
    | intro _
    | exact SameTide.mk rfl rfl rfl
    | with_reducible apply State.modEbb_keeps
    | with_reducible apply Keeps.foldl

theorem State.oppEnd_keeps {s0 s : State} (h : Keeps s0 s) (a1 a2) : Keeps s0 (State.oppEnd s a1 a2) := by
  unfold State.oppEnd
  try dsimp only
  repeat' first
    | with_reducible assumption
    | intro _
    | exact SameTide.mk rfl rfl rfl
    | with_reducible apply State.envChanged_keeps
    | with_reducible apply State.oppSettle_keeps
    | with_reducible apply State.finish_keeps

theorem State.oppPhase_keeps {s0 s : State} (h : Keeps s0 s) (a1 a2) : Keeps s0 (State.oppPhase s a1 a2) := by
  unfold State.oppPhase
  try dsimp only
  repeat' first
    | with_reducible assumption
    | with_reducible apply State.modDef_keeps

theorem State.writePaces_keeps {s0 s : State} (h : Keeps s0 s) (a1 a2) : Keeps s0 (State.writePaces s a1 a2) := by
  unfold State.writePaces
  try dsimp only
  repeat' first
    | with_reducible assumption
    | intro _
    | exact SameTide.mk rfl rfl rfl
    | with_reducible apply Keeps.modPad
    | with_reducible apply Keeps.foldl

theorem State.writeSupply_keeps {s0 s : State} (h : Keeps s0 s) (a1 a2) : Keeps s0 (State.writeSupply s a1 a2) := by
  unfold State.writeSupply
  try dsimp only
  repeat' first
    | with_reducible assumption
    | with_reducible apply State.modEbb_keeps

theorem State.writeSupplies_keeps {s0 s : State} (h : Keeps s0 s) (a1 a2) : Keeps s0 (State.writeSupplies s a1 a2) := by
  unfold State.writeSupplies
  try dsimp only
  repeat' first
    | with_reducible assumption
    | intro _
    | exact SameTide.mk rfl rfl rfl
    | with_reducible apply State.writeSupply_keeps
    | with_reducible apply Keeps.foldl

theorem State.oppAdvance_keeps {s0 s : State} (h : Keeps s0 s) (a1) : Keeps s0 (State.oppAdvance s a1) := by
  unfold State.oppAdvance
  try dsimp only
  repeat' first
    | with_reducible assumption
    | intro _
    | exact SameTide.mk rfl rfl rfl
    | with_reducible apply State.oppPhase_keeps
    | with_reducible apply State.oppEnd_keeps
    | with_reducible apply State.writePaces_keeps
    | with_reducible apply State.writeSupplies_keeps
    | with_reducible apply Keeps.ite
    | split

theorem State.oppGoes_keeps {s0 s : State} (h : Keeps s0 s) (a1) : Keeps s0 (State.oppGoes s a1) := by
  unfold State.oppGoes
  try dsimp only
  repeat' first
    | with_reducible assumption
    | intro _
    | exact SameTide.mk rfl rfl rfl
    | with_reducible apply State.oppAdvance_keeps
    | with_reducible apply Keeps.ite
    | split

theorem State.sampleCheck_keeps {s0 s : State} (h : Keeps s0 s) (a1 a2) : Keeps s0 (State.sampleCheck s a1 a2) := by
  unfold State.sampleCheck
  try dsimp only
  repeat' first
    | with_reducible assumption
    | intro _
    | exact SameTide.mk rfl rfl rfl
    | with_reducible apply State.nfWake_keeps
    | with_reducible apply State.domOffReq_keeps
    | with_reducible apply State.modFold_keeps
    | with_reducible apply State.writeSupply_keeps
    | with_reducible apply Keeps.modPad
    | with_reducible apply Keeps.ite
    | split

theorem State.sampleGoes_keeps {s0 s : State} (h : Keeps s0 s) (a1) : Keeps s0 (State.sampleGoes s a1) := by
  unfold State.sampleGoes
  try dsimp only
  repeat' first
    | with_reducible assumption
    | intro _
    | exact SameTide.mk rfl rfl rfl
    | with_reducible apply State.sampleCheck_keeps
    | with_reducible apply State.domOnReq_keeps
    | with_reducible apply State.modEbb_keeps
    | with_reducible apply Keeps.ite
    | split

theorem State.avsAck_keeps {s0 s : State} (h : Keeps s0 s) (a1 a2) : Keeps s0 (State.avsAck s a1 a2) := by
  unfold State.avsAck
  try dsimp only
  repeat' first
    | with_reducible assumption
    | intro _
    | exact SameTide.mk rfl rfl rfl
    | with_reducible apply State.modEbb_keeps
    | with_reducible apply State.oppGoes_keeps
    | with_reducible apply State.nfExit_keeps
    | with_reducible apply State.sampleGoes_keeps
    | with_reducible apply Keeps.ite
    | split

theorem State.stick_keeps {s0 s : State} (h : Keeps s0 s) (a1 a2) : Keeps s0 (State.stick s a1 a2) := by
  unfold State.stick
  try dsimp only
  repeat' first
    | with_reducible assumption
    | intro _
    | exact SameTide.mk rfl rfl rfl
    | with_reducible apply State.nfWake_keeps
    | with_reducible apply Keeps.modPad
    | with_reducible apply Keeps.ite

theorem State.modEbbs_keeps {s0 s : State} (h : Keeps s0 s) (a1 a2) : Keeps s0 (State.modEbbs s a1 a2) := by
  unfold State.modEbbs
  try dsimp only
  repeat' first
    | with_reducible assumption
    | intro _
    | exact SameTide.mk rfl rfl rfl
    | with_reducible apply State.modEbb_keeps
    | with_reducible apply Keeps.foldl

theorem State.nfCount_keeps {s0 s : State} (h : Keeps s0 s) (a1 a2) : Keeps s0 (State.nfCount s a1 a2) := by
  unfold State.nfCount
  try dsimp only
  repeat' first
    | with_reducible assumption
    | intro _
    | exact SameTide.mk rfl rfl rfl
    | with_reducible apply Keeps.modPad
    | with_reducible apply Keeps.foldl

theorem State.setNf_keeps {s0 s : State} (h : Keeps s0 s) (a1 a2) : Keeps s0 (State.setNf s a1 a2) := by
  unfold State.setNf
  try dsimp only
  repeat' first
    | with_reducible assumption
    | with_reducible apply State.modEbbs_keeps

theorem State.nfSupplyUp_keeps {s0 s : State} (h : Keeps s0 s) (a1) : Keeps s0 (State.nfSupplyUp s a1) := by
  unfold State.nfSupplyUp
  try dsimp only
  repeat' first
    | with_reducible assumption
    | intro _
    | exact SameTide.mk rfl rfl rfl
    | with_reducible apply State.writeSupply_keeps
    | with_reducible apply State.setNf_keeps
    | with_reducible apply Keeps.foldl

theorem State.nfFail_keeps {s0 s : State} (h : Keeps s0 s) (a1) : Keeps s0 (State.nfFail s a1) := by
  unfold State.nfFail
  try dsimp only
  repeat' first
    | with_reducible assumption
    | intro _
    | exact SameTide.mk rfl rfl rfl
    | with_reducible apply State.modEbbs_keeps
    | with_reducible apply State.nfSupplyUp_keeps
    | with_reducible apply State.nfCount_keeps
    | with_reducible apply Keeps.ite
    | split

theorem State.oppFail_keeps {s0 s : State} (h : Keeps s0 s) (a1) : Keeps s0 (State.oppFail s a1) := by
  unfold State.oppFail
  try dsimp only
  repeat' first
    | with_reducible assumption
    | intro _
    | exact SameTide.mk rfl rfl rfl
    | with_reducible apply State.oppPhase_keeps
    | with_reducible apply State.oppSettle_keeps
    | with_reducible apply State.finish_keeps
    | with_reducible apply State.writePaces_keeps
    | with_reducible apply State.writeSupplies_keeps
    | with_reducible apply Keeps.ite
    | split

theorem State.supplyFails_keeps {s0 s : State} (h : Keeps s0 s) (a1) : Keeps s0 (State.supplyFails s a1) := by
  unfold State.supplyFails
  try dsimp only
  repeat' first
    | with_reducible assumption
    | intro _
    | exact SameTide.mk rfl rfl rfl
    | with_reducible apply State.nfFail_keeps
    | with_reducible apply State.oppFail_keeps
    | with_reducible apply Keeps.ite
    | split

theorem State.avsRetry_keeps {s0 s : State} (h : Keeps s0 s) (a1 a2) : Keeps s0 (State.avsRetry s a1 a2) := by
  unfold State.avsRetry
  try dsimp only
  repeat' first
    | with_reducible assumption
    | intro _
    | exact SameTide.mk rfl rfl rfl
    | with_reducible apply State.modEbb_keeps
    | with_reducible apply State.stick_keeps
    | with_reducible apply State.pcount_keeps
    | with_reducible apply State.supplyFails_keeps
    | with_reducible apply Keeps.ite
    | split

theorem State.badTlp_keeps {s0 s : State} (h : Keeps s0 s) : Keeps s0 (State.badTlp s) := by
  unfold State.badTlp
  try dsimp only
  repeat' first
    | with_reducible assumption
    | intro _
    | exact SameTide.mk rfl rfl rfl
    | with_reducible apply State.aer_keeps
    | with_reducible apply Keeps.ite
    | split

theorem State.nfBanks_keeps {s0 s : State} (h : Keeps s0 s) (a1) : Keeps s0 (State.nfBanks s a1) := by
  unfold State.nfBanks
  try dsimp only
  repeat' first
    | with_reducible assumption
    | intro _
    | exact SameTide.mk rfl rfl rfl
    | with_reducible apply State.domOffReq_keeps
    | with_reducible apply State.modFold_keeps
    | with_reducible apply State.modPower_keeps
    | with_reducible apply Keeps.foldl
    | with_reducible apply Keeps.ite
    | split

theorem State.banksAt_keeps {s0 s : State} (h : Keeps s0 s) (a1) : Keeps s0 (State.banksAt s a1) := by
  unfold State.banksAt
  try dsimp only
  repeat' first
    | with_reducible assumption
    | intro _
    | exact SameTide.mk rfl rfl rfl
    | with_reducible apply State.nfBanks_keeps
    | with_reducible apply Keeps.ite
    | split

theorem State.barEnd_keeps {s0 s : State} (h : Keeps s0 s) (a1 a2) : Keeps s0 (State.barEnd s a1 a2) := by
  unfold State.barEnd
  try dsimp only
  repeat' first
    | with_reducible assumption
    | intro _
    | exact SameTide.mk rfl rfl rfl
    | with_reducible apply State.modTether_keeps
    | with_reducible apply State.aer_keeps
    | with_reducible apply State.toHost_keeps
    | with_reducible apply State.abortTlp_keeps
    | with_reducible apply Keeps.ite
    | split

theorem State.barRun_keeps {s0 s : State} (h : Keeps s0 s) (d : Die) (n : Nat) : Keeps s0 (s.barRun d n) := by
  induction n generalizing s with
  | zero => exact h
  | succ k ih =>
    unfold State.barRun
    dsimp only
    repeat' first
      | with_reducible assumption
      | with_reducible apply ih
      | with_reducible apply State.barEnd_keeps
      | with_reducible apply State.modTether_keeps
      | with_reducible apply State.access_keeps
      | with_reducible apply Keeps.ite
      | split

theorem State.barGo_keeps {s0 s : State} (h : Keeps s0 s) (a1) : Keeps s0 (State.barGo s a1) := by
  unfold State.barGo
  try dsimp only
  repeat' first
    | with_reducible assumption
    | intro _
    | exact SameTide.mk rfl rfl rfl
    | with_reducible apply State.barRun_keeps
    | with_reducible apply Keeps.ite
    | split

theorem State.barTlp_keeps {s0 s : State} (h : Keeps s0 s) (a1 a2) : Keeps s0 (State.barTlp s a1 a2) := by
  unfold State.barTlp
  try dsimp only
  repeat' first
    | with_reducible assumption
    | intro _
    | exact SameTide.mk rfl rfl rfl
    | with_reducible apply State.modTether_keeps
    | with_reducible apply State.barRun_keeps
    | with_reducible apply State.aer_keeps
    | with_reducible apply State.answerUr_keeps
    | with_reducible apply State.toHost_keeps
    | with_reducible apply State.pcount_keeps
    | with_reducible apply State.abortTlp_keeps
    | with_reducible apply State.barGo_keeps
    | with_reducible apply Keeps.ite
    | split

theorem State.bellReport_keeps {s0 s : State} (h : Keeps s0 s) (a1) : Keeps s0 (State.bellReport s a1) := by
  unfold State.bellReport
  try dsimp only
  repeat' first
    | with_reducible assumption
    | intro _
    | exact SameTide.mk rfl rfl rfl
    | with_reducible apply State.event_keeps
    | with_reducible apply State.nfWake_keeps
    | with_reducible apply Keeps.modPad
    | with_reducible apply State.pcount_keeps
    | with_reducible apply Keeps.ite
    | split

theorem State.raceTo_keeps {s0 s : State} (h : Keeps s0 s) (a1 a2 a3) : Keeps s0 (State.raceTo s a1 a2 a3) := by
  unfold State.raceTo
  try dsimp only
  repeat' first
    | with_reducible assumption
    | intro _
    | exact SameTide.mk rfl rfl rfl
    | with_reducible apply State.modFold_keeps
    | with_reducible apply State.modFoldmap_keeps
    | with_reducible apply Keeps.ite
    | split

theorem State.failByRecord_keeps {s0 s : State} (h : Keeps s0 s) (a1 a2) : Keeps s0 (State.failByRecord s a1 a2) := by
  unfold State.failByRecord
  try dsimp only
  repeat' first
    | with_reducible assumption
    | intro _
    | exact SameTide.mk rfl rfl rfl
    | with_reducible apply State.foldRep_keeps
    | with_reducible apply State.modFoldmap_keeps
    | with_reducible apply State.failFold_keeps
    | with_reducible apply State.raceTo_keeps
    | with_reducible apply Keeps.ite
    | split

theorem State.bootRec_keeps {s0 s : State} (h : Keeps s0 s) (a1 a2) : Keeps s0 (State.bootRec s a1 a2) := by
  unfold State.bootRec
  try dsimp only
  repeat' first
    | with_reducible assumption
    | intro _
    | exact SameTide.mk rfl rfl rfl
    | with_reducible apply State.failByRecord_keeps
    | with_reducible apply State.takeSpare_keeps
    | with_reducible apply State.runFold_keeps
    | with_reducible apply State.foldRep_keeps
    | with_reducible apply State.exhaust_keeps
    | with_reducible apply Keeps.modPad
    | with_reducible apply State.steer_keeps
    | with_reducible apply State.modFold_keeps
    | with_reducible apply Keeps.ite
    | split

theorem State.bootRetry_keeps {s0 s : State} (h : Keeps s0 s) (a1 a2) : Keeps s0 (State.bootRetry s a1 a2) := by
  unfold State.bootRetry
  try dsimp only
  repeat' first
    | with_reducible assumption
    | intro _
    | exact SameTide.mk rfl rfl rfl
    | with_reducible apply State.fuseStart_keeps
    | with_reducible apply State.bootGo_keeps
    | with_reducible apply State.modBoot_keeps
    | with_reducible apply State.askClock_keeps
    | with_reducible apply Keeps.ite
    | split

theorem State.captureCycle_keeps {s0 s : State} (h : Keeps s0 s) (a1) : Keeps s0 (State.captureCycle s a1) := by
  unfold State.captureCycle
  try dsimp only
  repeat' first
    | with_reducible assumption
    | intro _
    | exact SameTide.mk rfl rfl rfl
    | with_reducible apply State.modFold_keeps
    | with_reducible apply Keeps.foldl
    | with_reducible apply Keeps.ite
    | split

theorem State.shepRequest_keeps {s0 s : State} (h : Keeps s0 s) (a1 a2 a3 a4 a5 a6) : Keeps s0 (State.shepRequest s a1 a2 a3 a4 a5 a6).1 := by
  unfold State.shepRequest
  try dsimp only
  repeat' first
    | with_reducible assumption
    | intro _
    | exact SameTide.mk rfl rfl rfl
    | with_reducible apply State.modShep_keeps
    | with_reducible apply Keeps.ite
    | split

theorem State.dumpWrite_keeps {s0 s : State} (h : Keeps s0 s) (a1 a2 a3 a4) : Keeps s0 (State.dumpWrite s a1 a2 a3 a4) := by
  unfold State.dumpWrite
  try dsimp only
  repeat' first
    | with_reducible assumption
    | intro _
    | exact SameTide.mk rfl rfl rfl
    | with_reducible apply State.dumpErr_keeps
    | with_reducible apply State.shepRequest_keeps
    | with_reducible apply State.modBank_keeps
    | with_reducible apply Keeps.foldl
    | with_reducible apply Keeps.ite
    | split

theorem State.dumpBank_keeps {s0 s : State} (h : Keeps s0 s) (a1 a2 a3 a4) : Keeps s0 (State.dumpBank s a1 a2 a3 a4).1 := by
  unfold State.dumpBank
  try dsimp only
  repeat' first
    | with_reducible assumption
    | intro _
    | exact SameTide.mk rfl rfl rfl
    | with_reducible apply State.dumpRep_keeps
    | with_reducible apply State.dumpWrite_keeps
    | with_reducible apply State.modBank_keeps
    | with_reducible apply Keeps.ite
    | split

theorem State.censusBoundary_keeps {s0 s : State} (h : Keeps s0 s) (d : Die) : Keeps s0 (s.censusBoundary d) := by
  unfold State.censusBoundary
  dsimp only
  repeat' first
    | with_reducible assumption
    | with_reducible apply State.dumpDone_keeps
    | with_reducible apply State.captureCycle_keeps
    | with_reducible apply Keeps.modPad
    | with_reducible apply State.dumpBank_keeps
    | with_reducible apply Keeps.ite
    | with_reducible apply Keeps.iteFst
    | with_reducible apply Keeps.foldlFst
    | apply Paddock.censusClear_tide
    | exact SameTide.mk rfl rfl rfl
    | intro _
    | split

theorem State.censusBoundaries_keeps {s0 s : State} (h : Keeps s0 s) : Keeps s0 (State.censusBoundaries s) := by
  unfold State.censusBoundaries
  try dsimp only
  repeat' first
    | with_reducible assumption
    | intro _
    | exact SameTide.mk rfl rfl rfl
    | with_reducible apply State.censusBoundary_keeps
    | with_reducible apply Keeps.foldl

theorem State.ringRewind_keeps {s0 s : State} (h : Keeps s0 s) (a1 a2) : Keeps s0 (State.ringRewind s a1 a2) := by
  unfold State.ringRewind
  try dsimp only
  repeat' first
    | with_reducible assumption
    | intro _
    | exact SameTide.mk rfl rfl rfl
    | with_reducible apply State.modTether_keeps
    | with_reducible apply State.modCq_keeps
    | with_reducible apply State.pcount_keeps
    | with_reducible apply State.cqCheck_keeps
    | with_reducible apply Keeps.ite
    | with_reducible apply Keeps.ite
    | split

theorem State.setBme_keeps {s0 s : State} (h : Keeps s0 s) (a1 a2) : Keeps s0 (State.setBme s a1 a2) := by
  unfold State.setBme
  try dsimp only
  repeat' first
    | with_reducible assumption
    | intro _
    | exact SameTide.mk rfl rfl rfl
    | with_reducible apply State.modTether_keeps
    | with_reducible apply State.ringRewind_keeps
    | with_reducible apply Keeps.foldl
    | with_reducible apply Keeps.ite
    | split

theorem State.flushRings_keeps {s0 s : State} (h : Keeps s0 s) (a1) : Keeps s0 (State.flushRings s a1) := by
  unfold State.flushRings
  try dsimp only
  repeat' first
    | with_reducible assumption
    | intro _
    | exact SameTide.mk rfl rfl rfl
    | with_reducible apply State.cqFlush_keeps
    | with_reducible apply State.cqEmpty_keeps
    | with_reducible apply Keeps.foldl
    | with_reducible apply Keeps.ite
    | split

theorem State.tetherReset_keeps {s0 s : State} (h : Keeps s0 s) (a1 a2) : Keeps s0 (State.tetherReset s a1 a2) := by
  unfold State.tetherReset
  try dsimp only
  repeat' first
    | with_reducible assumption
    | with_reducible apply State.flushRings_keeps
    | with_reducible apply State.modTether_keeps

theorem State.cfgWrite_keeps {s0 s : State} (h : Keeps s0 s) (a1 a2 a3 a4) : Keeps s0 (State.cfgWrite s a1 a2 a3 a4) := by
  unfold State.cfgWrite
  try dsimp only
  repeat' first
    | with_reducible assumption
    | intro _
    | exact SameTide.mk rfl rfl rfl
    | with_reducible apply State.modTether_keeps
    | with_reducible apply State.tetherReset_keeps
    | with_reducible apply State.setBme_keeps
    | with_reducible apply Keeps.ite

theorem State.cfgRequest_keeps {s0 s : State} (h : Keeps s0 s) (a1 a2 a3) : Keeps s0 (State.cfgRequest s a1 a2 a3) := by
  unfold State.cfgRequest
  try dsimp only
  repeat' first
    | with_reducible assumption
    | intro _
    | exact SameTide.mk rfl rfl rfl
    | with_reducible apply State.toHost_keeps
    | with_reducible apply State.cfgWrite_keeps
    | with_reducible apply Keeps.ite
    | split

theorem State.charterTlp_keeps {s0 s : State} (h : Keeps s0 s) (a1 a2 a3) : Keeps s0 (State.charterTlp s a1 a2 a3) := by
  unfold State.charterTlp
  try dsimp only
  repeat' first
    | with_reducible assumption
    | intro _
    | exact SameTide.mk rfl rfl rfl
    | with_reducible apply State.toHost_keeps
    | with_reducible apply State.pcount_keeps
    | with_reducible apply State.aer_keeps
    | with_reducible apply State.answerUr_keeps
    | with_reducible apply Keeps.ite
    | split

theorem State.clockAck_keeps {s0 s : State} (h : Keeps s0 s) (a1 a2 a3) : Keeps s0 (State.clockAck s a1 a2 a3) := by
  unfold State.clockAck
  try dsimp only
  repeat' first
    | with_reducible assumption
    | intro _
    | exact SameTide.mk rfl rfl rfl
    | with_reducible apply State.trainStart_keeps
    | with_reducible apply State.modEbb_keeps
    | with_reducible apply State.modBoot_keeps
    | with_reducible apply State.nfExit_keeps
    | with_reducible apply State.censusBoundary_keeps
    | with_reducible apply Keeps.ite

theorem State.loneSwitch_keeps {s0 s : State} (h : Keeps s0 s) (a1) : Keeps s0 (State.loneSwitch s a1) := by
  unfold State.loneSwitch
  try dsimp only
  repeat' first
    | with_reducible assumption
    | intro _
    | exact SameTide.mk rfl rfl rfl
    | with_reducible apply State.writePaces_keeps
    | with_reducible apply Keeps.ite
    | split

theorem State.clockAt_keeps {s0 s : State} (h : Keeps s0 s) (a1 a2) : Keeps s0 (State.clockAt s a1 a2) := by
  unfold State.clockAt
  try dsimp only
  repeat' first
    | with_reducible assumption
    | intro _
    | exact SameTide.mk rfl rfl rfl
    | with_reducible apply State.modEbb_keeps
    | with_reducible apply State.oppGoes_keeps
    | with_reducible apply State.pcount_keeps
    | with_reducible apply State.loneSwitch_keeps
    | with_reducible apply Keeps.ite
    | with_reducible apply Keeps.ite
    | split

theorem State.linkFail_keeps {s0 s : State} (h : Keeps s0 s) (a1 a2 a3 a4) : Keeps s0 (State.linkFail s a1 a2 a3 a4) := by
  unfold State.linkFail
  try dsimp only
  repeat' first
    | with_reducible assumption
    | intro _
    | exact SameTide.mk rfl rfl rfl
    | with_reducible apply Keeps.modPad
    | with_reducible apply State.hurdleAppend_keeps
    | with_reducible apply Keeps.ite

theorem State.dropFlit_keeps {s0 s : State} (h : Keeps s0 s) (a1 a2 a3) : Keeps s0 (State.dropFlit s a1 a2 a3) := by
  unfold State.dropFlit
  try dsimp only
  repeat' first
    | with_reducible assumption
    | intro _
    | exact SameTide.mk rfl rfl rfl
    | with_reducible apply State.modStream_keeps
    | with_reducible apply State.file_keeps
    | with_reducible apply State.linkFail_keeps
    | with_reducible apply Keeps.ite

theorem State.dropStray_keeps {s0 s : State} (h : Keeps s0 s) (a1 a2 a3 a4) : Keeps s0 (State.dropStray s a1 a2 a3 a4) := by
  unfold State.dropStray
  try dsimp only
  repeat' first
    | with_reducible assumption
    | with_reducible apply State.modStream_keeps
    | with_reducible apply State.file_keeps

theorem State.compAckAt_keeps {s0 s : State} (h : Keeps s0 s) (a1 a2 a3) : Keeps s0 (State.compAckAt s a1 a2 a3) := by
  unfold State.compAckAt
  try dsimp only
  repeat' first
    | with_reducible assumption
    | intro _
    | exact SameTide.mk rfl rfl rfl
    | with_reducible apply State.modStream_keeps
    | with_reducible apply State.dropStray_keeps
    | with_reducible apply State.atFold_keeps
    | with_reducible apply State.dropFlit_keeps
    | with_reducible apply Keeps.ite
    | split

theorem State.confRep_keeps {s0 s : State} (h : Keeps s0 s) (a1 a2 a3) : Keeps s0 (State.confRep s a1 a2 a3) := by
  unfold State.confRep
  try dsimp only
  repeat' first
    | with_reducible assumption
    | with_reducible apply State.file_keeps

theorem State.crossBad_keeps {s0 s : State} (h : Keeps s0 s) (a1 a2 a3) : Keeps s0 (State.crossBad s a1 a2 a3) := by
  unfold State.crossBad
  try dsimp only
  repeat' first
    | with_reducible assumption
    | with_reducible apply State.file_keeps
    | with_reducible apply State.linkFail_keeps

theorem State.modEdgeOf_keeps {s0 s : State} (h : Keeps s0 s) (a1 a2 a3) : Keeps s0 (State.modEdgeOf s a1 a2 a3) := by
  unfold State.modEdgeOf
  try dsimp only
  repeat' first
    | with_reducible assumption
    | with_reducible apply State.modConf_keeps

theorem State.confRecv_keeps {s0 s : State} (h : Keeps s0 s) (a1 a2 a3 a4) : Keeps s0 (State.confRecv s a1 a2 a3 a4) := by
  unfold State.confRecv
  try dsimp only
  repeat' first
    | with_reducible assumption
    | intro _
    | exact SameTide.mk rfl rfl rfl
    | with_reducible apply State.modMod_keeps
    | with_reducible apply State.confRep_keeps
    | with_reducible apply State.modEdgeOf_keeps
    | with_reducible apply State.pcount_keeps
    | with_reducible apply State.crossBad_keeps
    | with_reducible apply Keeps.foldl
    | with_reducible apply Keeps.ite
    | split

theorem State.confSend_keeps {s0 s : State} (h : Keeps s0 s) (a1 a2) : Keeps s0 (State.confSend s a1 a2) := by
  unfold State.confSend
  try dsimp only
  repeat' first
    | with_reducible assumption
    | intro _
    | exact SameTide.mk rfl rfl rfl
    | with_reducible apply State.modMod_keeps
    | with_reducible apply State.pcount_keeps
    | with_reducible apply State.modEdgeOf_keeps
    | with_reducible apply Keeps.ite
    | split

theorem State.cqFetched_keeps {s0 s : State} (h : Keeps s0 s) (a1 a2 a3) : Keeps s0 (State.cqFetched s a1 a2 a3) := by
  unfold State.cqFetched
  try dsimp only
  repeat' first
    | with_reducible assumption
    | with_reducible apply State.cqPut_keeps
    | with_reducible apply State.cqCheck_keeps

theorem State.culvertAt_keeps {s0 s : State} (h : Keeps s0 s) (a1 a2 a3 a4) : Keeps s0 (State.culvertAt s a1 a2 a3 a4) := by
  unfold State.culvertAt
  try dsimp only
  repeat' first
    | with_reducible assumption
    | intro _
    | exact SameTide.mk rfl rfl rfl
    | with_reducible apply State.dropStray_keeps
    | with_reducible apply State.nfWake_keeps
    | with_reducible apply State.wakeFold_keeps
    | with_reducible apply State.modStream_keeps
    | with_reducible apply State.stick_keeps
    | with_reducible apply State.pcount_keeps
    | with_reducible apply Keeps.ite
    | split

theorem State.pcountIf_keeps {s0 s : State} (h : Keeps s0 s) (a1 a2 a3 a4) : Keeps s0 (State.pcountIf s a1 a2 a3 a4) := by
  unfold State.pcountIf
  try dsimp only
  repeat' first
    | with_reducible assumption
    | intro _
    | exact SameTide.mk rfl rfl rfl
    | with_reducible apply State.pcount_keeps
    | with_reducible apply Keeps.ite

theorem State.pcountN_keeps {s0 s : State} (h : Keeps s0 s) (a1 a2 a3 a4) : Keeps s0 (State.pcountN s a1 a2 a3 a4) := by
  unfold State.pcountN
  try dsimp only
  repeat' first
    | with_reducible assumption
    | intro _
    | exact SameTide.mk rfl rfl rfl
    | with_reducible apply State.pcount_keeps
    | with_reducible apply Keeps.foldl

theorem State.cycleEvents_keeps {s0 s : State} (h : Keeps s0 s) (a1) : Keeps s0 (State.cycleEvents s a1) := by
  unfold State.cycleEvents
  try dsimp only
  repeat' first
    | with_reducible assumption
    | intro _
    | exact SameTide.mk rfl rfl rfl
    | with_reducible apply State.pcountIf_keeps
    | with_reducible apply State.pcountN_keeps
    | with_reducible apply Keeps.foldl

theorem State.sendDat_keeps {s0 s : State} (h : Keeps s0 s) (a1 a2 a3) : Keeps s0 (State.sendDat s a1 a2 a3) := by
  unfold State.sendDat
  try dsimp only
  repeat' first
    | with_reducible assumption
    | with_reducible apply State.inject_keeps

theorem State.summarise_keeps {s0 s : State} (h : Keeps s0 s) (a1 a2) : Keeps s0 (State.summarise s a1 a2) := by
  unfold State.summarise
  try dsimp only
  repeat' first
    | with_reducible assumption
    | intro _
    | exact SameTide.mk rfl rfl rfl
    | with_reducible apply State.sendDat_keeps
    | with_reducible apply State.sendRsp_keeps
    | with_reducible apply Keeps.modPad
    | with_reducible apply Keeps.ite
    | split

theorem State.gatherData_keeps {s0 s : State} (h : Keeps s0 s) (a1 a2) : Keeps s0 (State.gatherData s a1 a2) := by
  unfold State.gatherData
  try dsimp only
  repeat' first
    | with_reducible assumption
    | intro _
    | exact SameTide.mk rfl rfl rfl
    | with_reducible apply Keeps.modPad
    | with_reducible apply State.summarise_keeps

theorem State.datAt_keeps {s0 s : State} (h : Keeps s0 s) (a1 a2 a3 a4) : Keeps s0 (State.datAt s a1 a2 a3 a4) := by
  unfold State.datAt
  try dsimp only
  repeat' first
    | with_reducible assumption
    | intro _
    | exact SameTide.mk rfl rfl rfl
    | with_reducible apply State.dropStray_keeps
    | with_reducible apply State.dropFlit_keeps
    | with_reducible apply State.gatherData_keeps
    | with_reducible apply State.modStream_keeps
    | with_reducible apply Keeps.modPad
    | with_reducible apply State.atFold_keeps
    | with_reducible apply Keeps.ite
    | split

theorem State.modShepPort_keeps {s0 s : State} (h : Keeps s0 s) (a1 a2) : Keeps s0 (State.modShepPort s a1 a2) := by
  unfold State.modShepPort
  try dsimp only
  repeat' first
    | with_reducible assumption
    | with_reducible apply State.modShep_keeps

theorem State.shepDat_keeps {s0 s : State} (h : Keeps s0 s) (a1 a2) : Keeps s0 (State.shepDat s a1 a2) := by
  unfold State.shepDat
  try dsimp only
  repeat' first
    | with_reducible assumption
    | with_reducible apply State.modShepPort_keeps
    | with_reducible apply State.autoAck_keeps
    | with_reducible apply State.shepEnd_keeps

theorem State.tetherEnd_keeps {s0 s : State} (h : Keeps s0 s) (a1 a2) : Keeps s0 (State.tetherEnd s a1 a2) := by
  unfold State.tetherEnd
  try dsimp only
  repeat' first
    | with_reducible assumption
    | intro _
    | exact SameTide.mk rfl rfl rfl
    | with_reducible apply State.modTether_keeps
    | with_reducible apply State.pieceErr_keeps
    | with_reducible apply State.pcount_keeps
    | with_reducible apply Keeps.ite
    | split

theorem State.openPiece_keeps {s0 s : State} (h : Keeps s0 s) (a1 a2 a3 a4) : Keeps s0 (State.openPiece s a1 a2 a3 a4) := by
  unfold State.openPiece
  try dsimp only
  repeat' first
    | with_reducible assumption
    | intro _
    | exact SameTide.mk rfl rfl rfl
    | with_reducible apply State.modTether_keeps
    | with_reducible apply State.pieceErr_keeps
    | with_reducible apply State.pcount_keeps
    | with_reducible apply Keeps.ite

theorem State.openWaiting_keeps {s0 s : State} (h : Keeps s0 s) (a1 a2) : Keeps s0 (State.openWaiting s a1 a2) := by
  induction a2 generalizing s with
  | zero => exact h
  | succ n ih =>
    unfold State.openWaiting
    try dsimp only
    repeat' first
      | with_reducible assumption
      | intro _
      | exact SameTide.mk rfl rfl rfl
      | with_reducible apply ih
      | with_reducible apply State.modTether_keeps
      | with_reducible apply State.openPiece_keeps
      | with_reducible apply Keeps.ite
      | split

theorem State.openPieces_keeps {s0 s : State} (h : Keeps s0 s) (a1) : Keeps s0 (State.openPieces s a1) := by
  unfold State.openPieces
  try dsimp only
  repeat' first
    | with_reducible assumption
    | intro _
    | exact SameTide.mk rfl rfl rfl
    | with_reducible apply State.openWaiting_keeps
    | with_reducible apply Keeps.ite
    | split

theorem State.tetherDat_keeps {s0 s : State} (h : Keeps s0 s) (a1 a2) : Keeps s0 (State.tetherDat s a1 a2) := by
  unfold State.tetherDat
  try dsimp only
  repeat' first
    | with_reducible assumption
    | with_reducible apply State.modTether_keeps
    | with_reducible apply State.autoAck_keeps
    | with_reducible apply State.tetherEnd_keeps
    | with_reducible apply State.openPieces_keeps
    | with_reducible apply Keeps.ite
    | split

theorem State.datTo_keeps {s0 s : State} (h : Keeps s0 s) (a1 a2) : Keeps s0 (State.datTo s a1 a2) := by
  unfold State.datTo
  try dsimp only
  repeat' first
    | with_reducible assumption
    | intro _
    | exact SameTide.mk rfl rfl rfl
    | with_reducible apply State.tetherDat_keeps
    | with_reducible apply State.runAgent_keeps
    | with_reducible apply State.missedAt_keeps
    | with_reducible apply State.shepDat_keeps
    | with_reducible apply Keeps.ite

theorem State.dataToReqAt_keeps {s0 s : State} (h : Keeps s0 s) (a1 a2 a3) : Keeps s0 (State.dataToReqAt s a1 a2 a3) := by
  unfold State.dataToReqAt
  try dsimp only
  repeat' first
    | with_reducible assumption
    | intro _
    | exact SameTide.mk rfl rfl rfl
    | with_reducible apply State.modStream_keeps
    | with_reducible apply State.dropStray_keeps
    | with_reducible apply State.datTo_keeps
    | with_reducible apply State.dropFlit_keeps
    | with_reducible apply Keeps.ite
    | split

theorem State.deadlineAt_keeps {s0 s : State} (h : Keeps s0 s) : Keeps s0 (State.deadlineAt s) := by
  unfold State.deadlineAt
  try dsimp only
  repeat' first
    | with_reducible assumption
    | intro _
    | exact SameTide.mk rfl rfl rfl
    | with_reducible apply Keeps.modPads
    | with_reducible apply Keeps.ite
    | split

theorem State.sweepOne_keeps {s0 s : State} (h : Keeps s0 s) (a1 a2 a3 a4) : Keeps s0 (State.sweepOne s a1 a2 a3 a4) := by
  unfold State.sweepOne
  try dsimp only
  repeat' first
    | with_reducible assumption
    | intro _
    | exact SameTide.mk rfl rfl rfl
    | with_reducible apply State.wakeFold_keeps
    | with_reducible apply State.putFc_keeps
    | with_reducible apply State.ungate_keeps
    | with_reducible apply Keeps.ite
    | split

theorem State.fenceWork_keeps {s0 s : State} (h : Keeps s0 s) (a1 a2 a3) : Keeps s0 (State.fenceWork s a1 a2 a3) := by
  unfold State.fenceWork
  try dsimp only
  repeat' first
    | with_reducible assumption
    | intro _
    | exact SameTide.mk rfl rfl rfl
    | with_reducible apply State.addJob_keeps
    | with_reducible apply State.sweepOne_keeps
    | with_reducible apply Keeps.foldl
    | with_reducible apply Keeps.ite
    | split

theorem State.hurdleStep_keeps {s0 s : State} (h : Keeps s0 s) (a1 a2 a3 a4) : Keeps s0 (State.hurdleStep s a1 a2 a3 a4) := by
  unfold State.hurdleStep
  try dsimp only
  repeat' first
    | with_reducible assumption
    | intro _
    | exact SameTide.mk rfl rfl rfl
    | with_reducible apply State.applyRec_keeps
    | with_reducible apply State.modDef_keeps
    | with_reducible apply State.finish_keeps
    | with_reducible apply Keeps.ite
    | split

theorem State.maintFinish_keeps {s0 s : State} (h : Keeps s0 s) (lead : Die) (id : Nat) (m : MaintRange) : Keeps s0 (s.maintFinish lead id m) := by
  unfold State.maintFinish
  dsimp only
  refine Keeps.ite (Keeps.put ?_ _ _) h
  exact State.finish_keeps h _ _ _ _

theorem State.maintLine_keeps {s0 s : State} (h : Keeps s0 s) (a1 a2 a3 a4) : Keeps s0 (State.maintLine s a1 a2 a3 a4).1 := by
  unfold State.maintLine
  try dsimp only
  repeat' first
    | with_reducible assumption
    | intro _
    | exact SameTide.mk rfl rfl rfl
    | with_reducible apply State.shepRequest_keeps
    | with_reducible apply State.modMaint_keeps
    | with_reducible apply Keeps.ite
    | split

theorem State.maintScan_keeps {s0 s : State} (h : Keeps s0 s) (lead d : Die) (j : Nat) (n : Nat) : Keeps s0 (s.maintScan lead d j n) := by
  induction n generalizing s with
  | zero => exact h
  | succ k ih =>
    unfold State.maintScan
    split
    · exact h
    · split
      · exact h
      · exact Keeps.ite (State.maintLine_keeps h _ _ _ _) (ih (State.maintLine_keeps h _ _ _ _))

theorem State.maintWork_keeps {s0 s : State} (h : Keeps s0 s) (a1 a2) : Keeps s0 (State.maintWork s a1 a2) := by
  unfold State.maintWork
  try dsimp only
  repeat' first
    | with_reducible assumption
    | intro _
    | exact SameTide.mk rfl rfl rfl
    | with_reducible apply State.maintFinish_keeps
    | with_reducible apply State.maintScan_keeps
    | with_reducible apply Keeps.foldl
    | with_reducible apply Keeps.ite
    | split

theorem State.millCopySet_keeps {s0 s : State} (h : Keeps s0 s) (a1 a2) : Keeps s0 (State.millCopySet s a1 a2) := by
  unfold State.millCopySet
  try dsimp only
  repeat' first
    | with_reducible assumption
    | intro _
    | exact SameTide.mk rfl rfl rfl
    | with_reducible apply State.putFc_keeps
    | with_reducible apply State.modFold_keeps
    | with_reducible apply Keeps.foldl
    | with_reducible apply Keeps.ite
    | split

theorem State.modMove_keeps {s0 s : State} (h : Keeps s0 s) (a1 a2 a3) : Keeps s0 (State.modMove s a1 a2 a3) := by
  unfold State.modMove
  try dsimp only
  repeat' first
    | with_reducible assumption
    | with_reducible apply State.modDef_keeps

theorem State.millWork_keeps {s0 s : State} (h : Keeps s0 s) (a1 a2 a3) : Keeps s0 (State.millWork s a1 a2 a3) := by
  unfold State.millWork
  try dsimp only
  repeat' first
    | with_reducible assumption
    | intro _
    | exact SameTide.mk rfl rfl rfl
    | with_reducible apply State.millCopySet_keeps
    | with_reducible apply State.modFold_keeps
    | with_reducible apply State.ungate_keeps
    | with_reducible apply State.modMove_keeps
    | with_reducible apply Keeps.ite
    | split

theorem State.rejob_keeps {s0 s : State} (h : Keeps s0 s) (a1 a2 a3) : Keeps s0 (State.rejob s a1 a2 a3) := by
  unfold State.rejob
  try dsimp only
  repeat' first
    | with_reducible assumption
    | intro _
    | exact SameTide.mk rfl rfl rfl
    | with_reducible apply State.addJob_keeps
    | with_reducible apply Keeps.ite

theorem State.moveWork_keeps {s0 s : State} (h : Keeps s0 s) (a1 a2 a3) : Keeps s0 (State.moveWork s a1 a2 a3) := by
  unfold State.moveWork
  try dsimp only
  repeat' first
    | with_reducible assumption
    | intro _
    | exact SameTide.mk rfl rfl rfl
    | with_reducible apply State.rejob_keeps
    | with_reducible apply State.millWork_keeps
    | with_reducible apply State.sweepOne_keeps
    | with_reducible apply Keeps.ite

theorem State.nfSweepWork_keeps {s0 s : State} (h : Keeps s0 s) (a1 a2) : Keeps s0 (State.nfSweepWork s a1 a2) := by
  unfold State.nfSweepWork
  try dsimp only
  repeat' first
    | with_reducible assumption
    | intro _
    | exact SameTide.mk rfl rfl rfl
    | with_reducible apply State.addJob_keeps
    | with_reducible apply State.sweepOne_keeps
    | with_reducible apply Keeps.foldl
    | with_reducible apply Keeps.ite
    | split

theorem State.scrubWork_keeps {s0 s : State} (h : Keeps s0 s) (lead : Die) (id : Nat) (array : Bool) (skipped tide next limit : Nat) :
    Keeps s0 (s.scrubWork lead id array skipped tide next limit) := by
  unfold State.scrubWork
  dsimp only
  refine Keeps.ite (State.modDef_keeps h _ _ _) (Keeps.ite (Keeps.put (State.finish_keeps (h.modPads _ ?_) _ _ _ _) _ _) h)
  exact fun _ _ => SameTide.mk rfl rfl rfl

theorem State.setwayStep_keeps {s0 s : State} (h : Keeps s0 s) (a1 a2 a3) : Keeps s0 (State.setwayStep s a1 a2 a3) := by
  unfold State.setwayStep
  try dsimp only
  repeat' first
    | with_reducible assumption
    | intro _
    | exact SameTide.mk rfl rfl rfl
    | with_reducible apply State.finish_keeps
    | with_reducible apply State.wakeFold_keeps
    | with_reducible apply State.putFc_keeps
    | with_reducible apply State.modDef_keeps
    | with_reducible apply State.ungate_keeps
    | with_reducible apply Keeps.ite
    | split

theorem State.defWork_keeps {s0 s : State} (h : Keeps s0 s) (a1 a2) : Keeps s0 (State.defWork s a1 a2) := by
  unfold State.defWork
  try dsimp only
  repeat' first
    | with_reducible assumption
    | intro _
    | exact SameTide.mk rfl rfl rfl
    | with_reducible apply State.moveWork_keeps
    | with_reducible apply State.hurdleStep_keeps
    | with_reducible apply State.scrubWork_keeps
    | with_reducible apply State.nfSweepWork_keeps
    | with_reducible apply State.fenceWork_keeps
    | with_reducible apply State.setwayStep_keeps
    | with_reducible apply State.maintWork_keeps
    | with_reducible apply Keeps.ite
    | split

theorem State.defer_keeps {s0 s : State} (h : Keeps s0 s) (a1 a2 a3) : Keeps s0 (State.defer s a1 a2 a3) := by
  unfold State.defer
  try dsimp only
  repeat' first
    | with_reducible assumption
    | with_reducible apply State.modShep_keeps
    | with_reducible apply State.answer_keeps

theorem State.dieReadyAt_keeps {s0 s : State} (h : Keeps s0 s) (a1 a2) : Keeps s0 (State.dieReadyAt s a1 a2) := by
  unfold State.dieReadyAt
  try dsimp only
  repeat' first
    | with_reducible assumption
    | intro _
    | exact SameTide.mk rfl rfl rfl
    | with_reducible apply State.file_keeps
    | with_reducible apply State.modRepl_keeps
    | with_reducible apply State.eventFrom_keeps
    | with_reducible apply Keeps.ite

theorem State.foldDomUp_keeps {s0 s : State} (h : Keeps s0 s) (a1 a2) : Keeps s0 (State.foldDomUp s a1 a2) := by
  unfold State.foldDomUp
  try dsimp only
  repeat' first
    | with_reducible assumption
    | intro _
    | exact SameTide.mk rfl rfl rfl
    | with_reducible apply State.domOnReq_keeps
    | with_reducible apply State.domOffReq_keeps
    | with_reducible apply State.modFold_keeps
    | with_reducible apply Keeps.ite

theorem State.tetherFresh_keeps {s0 s : State} (h : Keeps s0 s) (a1) : Keeps s0 (State.tetherFresh s a1) := by
  unfold State.tetherFresh
  try dsimp only
  repeat' first
    | with_reducible assumption
    | intro _
    | exact SameTide.mk rfl rfl rfl
    | with_reducible apply State.modTether_keeps
    | with_reducible apply Keeps.ite

theorem State.unfencePos_keeps {s0 s : State} (h : Keeps s0 s) (a1 a2) : Keeps s0 (State.unfencePos s a1 a2) := by
  unfold State.unfencePos
  try dsimp only
  repeat' first
    | with_reducible assumption
    | intro _
    | exact SameTide.mk rfl rfl rfl
    | with_reducible apply State.modEbb_keeps
    | apply Paddock.takeHeld_tide
    | with_reducible apply Keeps.modPad
    | with_reducible apply Keeps.ite
    | split

theorem State.domUp_keeps {s0 s : State} (h : Keeps s0 s) (a1 a2) : Keeps s0 (State.domUp s a1 a2) := by
  unfold State.domUp
  try dsimp only
  repeat' first
    | with_reducible assumption
    | intro _
    | exact SameTide.mk rfl rfl rfl
    | with_reducible apply Keeps.modPad
    | with_reducible apply State.tetherFresh_keeps
    | with_reducible apply State.nfExit_keeps
    | with_reducible apply State.unfencePos_keeps
    | with_reducible apply State.sampleGoes_keeps
    | with_reducible apply State.bootGo_keeps
    | with_reducible apply State.foldDomUp_keeps
    | with_reducible apply Keeps.foldl
    | with_reducible apply Keeps.ite
    | split

theorem State.downEvent_keeps {s0 s : State} (h : Keeps s0 s) (a1) : Keeps s0 (State.downEvent s a1) := by
  unfold State.downEvent
  try dsimp only
  repeat' first
    | with_reducible assumption
    | intro _
    | exact SameTide.mk rfl rfl rfl
    | with_reducible apply State.tetherRep_keeps
    | with_reducible apply State.tetherReset_keeps
    | with_reducible apply Keeps.ite

theorem State.drainWork_keeps {s0 s : State} (h : Keeps s0 s) (a1 a2) : Keeps s0 (State.drainWork s a1 a2) := by
  unfold State.drainWork
  try dsimp only
  repeat' first
    | with_reducible assumption
    | intro _
    | exact SameTide.mk rfl rfl rfl
    | with_reducible apply State.rejob_keeps
    | with_reducible apply State.sweepOne_keeps
    | with_reducible apply Keeps.ite

theorem State.drained_keeps {s0 s : State} (h : Keeps s0 s) (a1 a2) : Keeps s0 (State.drained s a1 a2) := by
  unfold State.drained
  try dsimp only
  repeat' first
    | with_reducible assumption
    | intro _
    | exact SameTide.mk rfl rfl rfl
    | with_reducible apply State.modFold_keeps
    | with_reducible apply State.fenceFold_keeps
    | with_reducible apply Keeps.ite

theorem State.droverAt_keeps {s0 s : State} (h : Keeps s0 s) (a1 a2 a3) : Keeps s0 (State.droverAt s a1 a2 a3) := by
  unfold State.droverAt
  try dsimp only
  repeat' first
    | with_reducible assumption
    | with_reducible apply State.modFold_keeps

theorem State.edgeAccept_keeps {s0 s : State} (h : Keeps s0 s) (a1 a2 a3 a4) : Keeps s0 (State.edgeAccept s a1 a2 a3 a4) := by
  unfold State.edgeAccept
  try dsimp only
  repeat' first
    | with_reducible assumption
    | intro _
    | exact SameTide.mk rfl rfl rfl
    | with_reducible apply Keeps.modPad
    | with_reducible apply Keeps.ite
    | split

theorem State.loseCutOff_keeps {s0 s : State} (h : Keeps s0 s) (a1) : Keeps s0 (State.loseCutOff s a1) := by
  unfold State.loseCutOff
  try dsimp only
  repeat' first
    | with_reducible assumption
    | intro _
    | exact SameTide.mk rfl rfl rfl
    | with_reducible apply State.modStream_keeps
    | with_reducible apply Keeps.ite

theorem State.findUnreach_keeps {s0 s : State} (h : Keeps s0 s) (a1) : Keeps s0 (State.findUnreach s a1) := by
  unfold State.findUnreach
  try dsimp only
  repeat' first
    | with_reducible assumption
    | intro _
    | exact SameTide.mk rfl rfl rfl
    | with_reducible apply State.loseCutOff_keeps
    | with_reducible apply State.modConf_keeps
    | with_reducible apply State.file_keeps
    | with_reducible apply Keeps.foldl

theorem State.wantSwitch_keeps {s0 s : State} (h : Keeps s0 s) (a1) : Keeps s0 (State.wantSwitch s a1) := by
  unfold State.wantSwitch
  try dsimp only
  repeat' first
    | with_reducible assumption
    | intro _
    | exact SameTide.mk rfl rfl rfl
    | with_reducible apply State.modShep_keeps
    | with_reducible apply Keeps.ite
    | split

theorem State.edgeLost_keeps {s0 s : State} (h : Keeps s0 s) (a1 a2) : Keeps s0 (State.edgeLost s a1 a2) := by
  unfold State.edgeLost
  try dsimp only
  repeat' first
    | with_reducible assumption
    | intro _
    | exact SameTide.mk rfl rfl rfl
    | with_reducible apply State.modStream_keeps
    | with_reducible apply State.wantSwitch_keeps
    | with_reducible apply State.modEdgeOf_keeps
    | with_reducible apply State.confRep_keeps
    | with_reducible apply State.findUnreach_keeps
    | with_reducible apply Keeps.foldl

theorem State.emptyRead_keeps {s0 s : State} (h : Keeps s0 s) (d : Die) (tag : Option (BitVec 10)) : Keeps s0 (s.emptyRead d tag) := by
  unfold State.emptyRead
  split
  · exact Keeps.put (State.toHost_keeps h _ _) _ _
  · exact h

theorem State.enterL1_keeps {s0 s : State} (h : Keeps s0 s) (a1) : Keeps s0 (State.enterL1 s a1) := by
  unfold State.enterL1
  try dsimp only
  repeat' first
    | with_reducible assumption
    | intro _
    | exact SameTide.mk rfl rfl rfl
    | with_reducible apply State.modTether_keeps
    | with_reducible apply State.sendLtr_keeps
    | with_reducible apply Keeps.ite
    | split

theorem State.enterOne_keeps {s0 s : State} (h : Keeps s0 s) (a1 a2) : Keeps s0 (State.enterOne s a1 a2) := by
  unfold State.enterOne
  try dsimp only
  repeat' first
    | with_reducible assumption
    | intro _
    | exact SameTide.mk rfl rfl rfl
    | with_reducible apply Keeps.modPad
    | with_reducible apply Keeps.ite
    | split

theorem State.enterRings_keeps {s0 s : State} (h : Keeps s0 s) (d : Die) (e : Edge) (n : Nat) : Keeps s0 (s.enterRings d e n) := by
  induction n generalizing s with
  | zero => exact h
  | succ k ih => exact ih (State.enterOne_keeps h d e)

theorem State.paceChanged_keeps {s0 s : State} (h : Keeps s0 s) (a1) : Keeps s0 (State.paceChanged s a1) := by
  unfold State.paceChanged
  try dsimp only
  repeat' first
    | with_reducible assumption
    | intro _
    | exact SameTide.mk rfl rfl rfl
    | with_reducible apply State.recheckDue_keeps
    | with_reducible apply State.writePaces_keeps
    | with_reducible apply Keeps.ite

theorem State.modDown_keeps {s0 s : State} (h : Keeps s0 s) (a1 a2) : Keeps s0 (State.modDown s a1 a2) := by
  unfold State.modDown
  try dsimp only
  repeat' first
    | with_reducible assumption
    | intro _
    | exact SameTide.mk rfl rfl rfl
    | with_reducible apply State.modMod_keeps
    | with_reducible apply State.edgeLost_keeps
    | with_reducible apply State.paceChanged_keeps
    | with_reducible apply Keeps.ite
    | split

theorem State.faceDown_keeps {s0 s : State} (h : Keeps s0 s) (a1) : Keeps s0 (State.faceDown s a1) := by
  unfold State.faceDown
  try dsimp only
  repeat' first
    | with_reducible assumption
    | intro _
    | exact SameTide.mk rfl rfl rfl
    | with_reducible apply State.modDown_keeps
    | with_reducible apply Keeps.foldl
    | with_reducible apply Keeps.ite
    | split

theorem State.failAtTest_keeps {s0 s : State} (h : Keeps s0 s) (a1 a2) : Keeps s0 (State.failAtTest s a1 a2) := by
  unfold State.failAtTest
  try dsimp only
  repeat' first
    | with_reducible assumption
    | intro _
    | exact SameTide.mk rfl rfl rfl
    | with_reducible apply State.foldRep_keeps
    | with_reducible apply State.modFoldmap_keeps
    | with_reducible apply State.markFailed_keeps
    | with_reducible apply State.raceTo_keeps
    | with_reducible apply Keeps.ite
    | split

theorem State.failAtWake_keeps {s0 s : State} (h : Keeps s0 s) (a1 a2 a3) : Keeps s0 (State.failAtWake s a1 a2 a3) := by
  unfold State.failAtWake
  try dsimp only
  repeat' first
    | with_reducible assumption
    | intro _
    | exact SameTide.mk rfl rfl rfl
    | with_reducible apply State.foldOff_keeps
    | with_reducible apply State.failAtTest_keeps
    | with_reducible apply State.startWake_keeps
    | with_reducible apply State.foldRep_keeps
    | with_reducible apply State.moveFail_keeps
    | with_reducible apply State.recheckDue_keeps
    | with_reducible apply State.modPower_keeps
    | with_reducible apply State.finishAll_keeps
    | with_reducible apply State.markFailed_keeps
    | with_reducible apply Keeps.ite
    | split

theorem State.nfStop_keeps {s0 s : State} (h : Keeps s0 s) (a1) : Keeps s0 (State.nfStop s a1) := by
  unfold State.nfStop
  try dsimp only
  repeat' first
    | with_reducible assumption
    | intro _
    | exact SameTide.mk rfl rfl rfl
    | with_reducible apply State.modEbb_keeps
    | with_reducible apply Keeps.foldl
    | with_reducible apply Keeps.ite
    | split

theorem State.joinStop_keeps {s0 s : State} (h : Keeps s0 s) (a1) : Keeps s0 (State.joinStop s a1) := by
  unfold State.joinStop
  try dsimp only
  repeat' first
    | with_reducible assumption
    | with_reducible apply State.modShep_keeps
    | with_reducible apply State.modRepl_keeps

theorem State.oppDrop_keeps {s0 s : State} (h : Keeps s0 s) (a1) : Keeps s0 (State.oppDrop s a1) := by
  unfold State.oppDrop
  try dsimp only
  repeat' first
    | with_reducible assumption
    | intro _
    | exact SameTide.mk rfl rfl rfl
    | with_reducible apply State.oppSettle_keeps
    | with_reducible apply State.writePaces_keeps
    | with_reducible apply State.modDef_keeps
    | with_reducible apply Keeps.ite
    | split

theorem State.stopDef_keeps {s0 s : State} (h : Keeps s0 s) (a1 a2) : Keeps s0 (State.stopDef s a1 a2) := by
  unfold State.stopDef
  try dsimp only
  repeat' first
    | with_reducible assumption
    | intro _
    | exact SameTide.mk rfl rfl rfl
    | with_reducible apply State.oppDrop_keeps
    | with_reducible apply State.modShep_keeps
    | with_reducible apply State.joinStop_keeps
    | with_reducible apply Keeps.foldl
    | with_reducible apply Keeps.ite
    | split

theorem State.failTaken_keeps {s0 s : State} (h : Keeps s0 s) (a1) : Keeps s0 (State.failTaken s a1) := by
  unfold State.failTaken
  try dsimp only
  repeat' first
    | with_reducible assumption
    | intro _
    | exact SameTide.mk rfl rfl rfl
    | with_reducible apply State.reply_keeps
    | with_reducible apply State.modShep_keeps
    | with_reducible apply State.stopDef_keeps
    | with_reducible apply State.nfStop_keeps
    | with_reducible apply State.answer_keeps
    | with_reducible apply Keeps.foldl
    | with_reducible apply Keeps.ite
    | split

theorem State.fenceDone_keeps {s0 s : State} (h : Keeps s0 s) (a1 a2) : Keeps s0 (State.fenceDone s a1 a2) := by
  unfold State.fenceDone
  try dsimp only
  repeat' first
    | with_reducible assumption
    | intro _
    | exact SameTide.mk rfl rfl rfl
    | with_reducible apply State.modEbb_keeps
    | with_reducible apply State.domOffReq_keeps
    | with_reducible apply Keeps.ite
    | split

theorem State.fenceSweep_keeps {s0 s : State} (h : Keeps s0 s) (a1 a2 a3) : Keeps s0 (State.fenceSweep s a1 a2 a3) := by
  unfold State.fenceSweep
  try dsimp only
  repeat' first
    | with_reducible assumption
    | intro _
    | exact SameTide.mk rfl rfl rfl
    | with_reducible apply State.addJob_keeps
    | with_reducible apply State.modDef_keeps
    | with_reducible apply Keeps.foldl

theorem State.startSwitch_keeps {s0 s : State} (h : Keeps s0 s) (a1 a2 a3) : Keeps s0 (State.startSwitch s a1 a2 a3) := by
  unfold State.startSwitch
  try dsimp only
  repeat' first
    | with_reducible assumption
    | intro _
    | exact SameTide.mk rfl rfl rfl
    | with_reducible apply State.modShep_keeps
    | with_reducible apply State.modStream_keeps
    | with_reducible apply Keeps.foldl

theorem State.fenceStepOf_keeps {s0 s : State} (h : Keeps s0 s) (a1) : Keeps s0 (State.fenceStepOf s a1) := by
  unfold State.fenceStepOf
  try dsimp only
  repeat' first
    | with_reducible assumption
    | intro _
    | exact SameTide.mk rfl rfl rfl
    | with_reducible apply State.fenceSweep_keeps
    | with_reducible apply State.startSwitch_keeps
    | with_reducible apply State.modDef_keeps
    | with_reducible apply Keeps.ite
    | split

theorem State.fenceStep_keeps {s0 s : State} (h : Keeps s0 s) : Keeps s0 (State.fenceStep s) := by
  unfold State.fenceStep
  try dsimp only
  repeat' first
    | with_reducible assumption
    | intro _
    | exact SameTide.mk rfl rfl rfl
    | with_reducible apply State.fenceStepOf_keeps
    | with_reducible apply Keeps.foldl

theorem State.fileMismatch_keeps {s0 s : State} (h : Keeps s0 s) (a1) : Keeps s0 (State.fileMismatch s a1) := by
  unfold State.fileMismatch
  try dsimp only
  repeat' first
    | with_reducible assumption
    | intro _
    | exact SameTide.mk rfl rfl rfl
    | with_reducible apply State.file_keeps
    | with_reducible apply Keeps.ite
    | split

theorem State.foldCycle_keeps {s0 s : State} (h : Keeps s0 s) (a1 a2) : Keeps s0 (State.foldCycle s a1 a2) := by
  unfold State.foldCycle
  try dsimp only
  repeat' first
    | with_reducible assumption
    | intro _
    | exact SameTide.mk rfl rfl rfl
    | with_reducible apply State.runFold_keeps
    | with_reducible apply State.modPower_keeps
    | with_reducible apply Keeps.ite

theorem State.moveEnd_keeps {s0 s : State} (h : Keeps s0 s) (a1 a2) : Keeps s0 (State.moveEnd s a1 a2) := by
  unfold State.moveEnd
  try dsimp only
  repeat' first
    | with_reducible assumption
    | intro _
    | exact SameTide.mk rfl rfl rfl
    | with_reducible apply State.endMove_keeps
    | with_reducible apply State.hurdleAppend_keeps
    | with_reducible apply State.markFailed_keeps
    | with_reducible apply State.failFold_keeps
    | with_reducible apply Keeps.ite
    | split

theorem State.foldDomDown_keeps {s0 s : State} (h : Keeps s0 s) (a1 a2) : Keeps s0 (State.foldDomDown s a1 a2) := by
  unfold State.foldDomDown
  try dsimp only
  repeat' first
    | with_reducible assumption
    | intro _
    | exact SameTide.mk rfl rfl rfl
    | with_reducible apply State.parked_keeps
    | with_reducible apply State.moveEnd_keeps
    | with_reducible apply State.domOffReq_keeps
    | with_reducible apply State.modFold_keeps
    | with_reducible apply Keeps.ite

theorem State.setTurns_keeps {s0 s : State} (h : Keeps s0 s) (a1) : Keeps s0 (State.setTurns s a1) := by
  unfold State.setTurns
  try dsimp only
  repeat' first
    | with_reducible assumption
    | intro _
    | exact SameTide.mk rfl rfl rfl
    | with_reducible apply State.modStream_keeps
    | with_reducible apply Keeps.foldl

theorem State.writeEdges_keeps {s0 s : State} (h : Keeps s0 s) (a1 a2 a3) : Keeps s0 (State.writeEdges s a1 a2 a3) := by
  unfold State.writeEdges
  try dsimp only
  repeat' first
    | with_reducible assumption
    | intro _
    | exact SameTide.mk rfl rfl rfl
    | with_reducible apply State.modStream_keeps
    | with_reducible apply State.modEdgeOf_keeps
    | with_reducible apply Keeps.foldl

theorem State.formEdges_keeps {s0 s : State} (h : Keeps s0 s) (a1 a2) : Keeps s0 (State.formEdges s a1 a2) := by
  unfold State.formEdges
  try dsimp only
  repeat' first
    | with_reducible assumption
    | intro _
    | exact SameTide.mk rfl rfl rfl
    | with_reducible apply State.writeEdges_keeps
    | with_reducible apply State.setTurns_keeps
    | with_reducible apply State.edgeLost_keeps
    | with_reducible apply State.writePaces_keeps
    | with_reducible apply State.wantSwitch_keeps
    | with_reducible apply Keeps.foldl
    | with_reducible apply Keeps.ite
    | split

theorem State.form_keeps {s0 s : State} (h : Keeps s0 s) (a1 a2) : Keeps s0 (State.form s a1 a2) := by
  unfold State.form
  try dsimp only
  repeat' first
    | with_reducible assumption
    | intro _
    | exact SameTide.mk rfl rfl rfl
    | with_reducible apply State.publishEnv_keeps
    | with_reducible apply State.formEdges_keeps
    | with_reducible apply State.file_keeps
    | with_reducible apply Keeps.modPad
    | with_reducible apply State.eventFrom_keeps
    | with_reducible apply State.lockAperture_keeps
    | with_reducible apply Keeps.foldl

theorem State.formAll_keeps {s0 s : State} (h : Keeps s0 s) : Keeps s0 (State.formAll s) := by
  unfold State.formAll
  try dsimp only
  repeat' first
    | with_reducible assumption
    | intro _
    | exact SameTide.mk rfl rfl rfl
    | with_reducible apply State.form_keeps
    | with_reducible apply Keeps.modPads
    | with_reducible apply Keeps.foldl
    | with_reducible apply Keeps.ite
    | split

theorem State.fuseApply_keeps {s0 s : State} (h : Keeps s0 s) (a1) : Keeps s0 (State.fuseApply s a1) := by
  unfold State.fuseApply
  try dsimp only
  repeat' first
    | with_reducible assumption
    | intro _
    | exact SameTide.mk rfl rfl rfl
    | with_reducible apply State.stepTo_keeps
    | with_reducible apply State.bootRec_keeps
    | with_reducible apply State.hurdleRep_keeps
    | with_reducible apply State.bootGo_keeps
    | with_reducible apply Keeps.modPad
    | with_reducible apply Keeps.foldl
    | with_reducible apply Keeps.ite
    | split

theorem State.fuseRise_keeps {s0 s : State} (h : Keeps s0 s) (a1 a2) : Keeps s0 (State.fuseRise s a1 a2) := by
  unfold State.fuseRise
  try dsimp only
  repeat' first
    | with_reducible assumption
    | intro _
    | exact SameTide.mk rfl rfl rfl
    | with_reducible apply Keeps.modPad
    | with_reducible apply Keeps.ite
    | split

theorem State.fuseFall_keeps {s0 s : State} (h : Keeps s0 s) (a1) : Keeps s0 (State.fuseFall s a1) := by
  unfold State.fuseFall
  try dsimp only
  repeat' first
    | with_reducible assumption
    | intro _
    | exact SameTide.mk rfl rfl rfl
    | with_reducible apply State.modBoot_keeps
    | with_reducible apply State.fuseRead_keeps
    | with_reducible apply State.fuseApply_keeps
    | with_reducible apply Keeps.ite
    | split

theorem State.fuseWord_keeps {s0 s : State} (h : Keeps s0 s) (a1 a2) : Keeps s0 (State.fuseWord s a1 a2) := by
  unfold State.fuseWord
  try dsimp only
  repeat' first
    | with_reducible assumption
    | intro _
    | exact SameTide.mk rfl rfl rfl
    | with_reducible apply State.fuseRead_keeps
    | with_reducible apply State.fuseApply_keeps
    | with_reducible apply State.modBoot_keeps
    | with_reducible apply State.fuseRise_keeps
    | with_reducible apply State.fuseFall_keeps
    | with_reducible apply Keeps.ite
    | split

theorem State.sendSnp_keeps {s0 s : State} (h : Keeps s0 s) (a1 a2 a3) : Keeps s0 (State.sendSnp s a1 a2 a3) := by
  unfold State.sendSnp
  try dsimp only
  repeat' first
    | with_reducible assumption
    | with_reducible apply State.inject_keeps

theorem State.gather_keeps {s0 s : State} (h : Keeps s0 s) (a1 a2 a3) : Keeps s0 (State.gather s a1 a2 a3) := by
  unfold State.gather
  try dsimp only
  repeat' first
    | with_reducible assumption
    | intro _
    | exact SameTide.mk rfl rfl rfl
    | with_reducible apply State.sendRsp_keeps
    | with_reducible apply Keeps.modPad
    | with_reducible apply State.sendSnp_keeps
    | with_reducible apply State.pcount_keeps
    | with_reducible apply Keeps.foldl
    | with_reducible apply Keeps.ite
    | split

theorem State.gatherAck_keeps {s0 s : State} (h : Keeps s0 s) (a1 a2) : Keeps s0 (State.gatherAck s a1 a2) := by
  unfold State.gatherAck
  try dsimp only
  repeat' first
    | with_reducible assumption
    | intro _
    | exact SameTide.mk rfl rfl rfl
    | with_reducible apply Keeps.modPad
    | with_reducible apply State.summarise_keeps

theorem State.heldBits_keeps {s0 s : State} (h : Keeps s0 s) (a1) : Keeps s0 (State.heldBits s a1) := by
  unfold State.heldBits
  try dsimp only
  repeat' first
    | with_reducible assumption
    | intro _
    | exact SameTide.mk rfl rfl rfl
    | with_reducible apply State.stick_keeps
    | with_reducible apply Keeps.foldl
    | with_reducible apply Keeps.ite
    | split

theorem State.hotReset_keeps {s0 s : State} (h : Keeps s0 s) : Keeps s0 (State.hotReset s) := by
  unfold State.hotReset
  try dsimp only
  repeat' first
    | with_reducible assumption
    | intro _
    | exact SameTide.mk rfl rfl rfl
    | with_reducible apply State.tetherReset_keeps
    | with_reducible apply Keeps.ite
    | split

theorem State.moveRings_keeps {s0 s : State} (h : Keeps s0 s) (a1) : Keeps s0 (State.moveRings s a1) := by
  unfold State.moveRings
  try dsimp only
  repeat' first
    | with_reducible assumption
    | intro _
    | exact SameTide.mk rfl rfl rfl
    | with_reducible apply State.modStream_keeps
    | with_reducible apply Keeps.ite

theorem State.setSluice28_keeps {s0 s : State} (h : Keeps s0 s) (a1 a2) : Keeps s0 (State.setSluice28 s a1 a2) := by
  unfold State.setSluice28
  try dsimp only
  repeat' first
    | with_reducible assumption
    | intro _
    | exact SameTide.mk rfl rfl rfl
    | with_reducible apply State.modStream_keeps
    | with_reducible exact Keeps.put ‹_› _ _
    | with_reducible apply Keeps.ite
    | split

theorem State.joinWrite_keeps {s0 s : State} (h : Keeps s0 s) (a1 a2) : Keeps s0 (State.joinWrite s a1 a2) := by
  unfold State.joinWrite
  try dsimp only
  repeat' first
    | with_reducible assumption
    | intro _
    | exact SameTide.mk rfl rfl rfl
    | with_reducible apply State.setSluice28_keeps
    | with_reducible apply Keeps.modPad
    | with_reducible apply Keeps.ite
    | split

theorem State.joinWork_keeps {s0 s : State} (h : Keeps s0 s) (a1) : Keeps s0 (State.joinWork s a1) := by
  unfold State.joinWork
  try dsimp only
  repeat' first
    | with_reducible assumption
    | intro _
    | exact SameTide.mk rfl rfl rfl
    | with_reducible apply State.startSwitch_keeps
    | with_reducible apply State.joinWrite_keeps
    | with_reducible apply State.modDef_keeps
    | with_reducible apply Keeps.ite
    | split

theorem State.nfReply_keeps {s0 s : State} (h : Keeps s0 s) (a1) : Keeps s0 (State.nfReply s a1) := by
  unfold State.nfReply
  try dsimp only
  repeat' first
    | with_reducible assumption
    | intro _
    | exact SameTide.mk rfl rfl rfl
    | with_reducible apply State.finish_keeps
    | with_reducible apply Keeps.ite
    | split

theorem State.nfIdle_keeps {s0 s : State} (h : Keeps s0 s) (a1) : Keeps s0 (State.nfIdle s a1) := by
  unfold State.nfIdle
  try dsimp only
  repeat' first
    | with_reducible assumption
    | with_reducible apply State.nfReply_keeps
    | with_reducible apply State.setNf_keeps

theorem State.nfEnd_keeps {s0 s : State} (h : Keeps s0 s) (a1) : Keeps s0 (State.nfEnd s a1) := by
  unfold State.nfEnd
  try dsimp only
  repeat' first
    | with_reducible assumption
    | intro _
    | exact SameTide.mk rfl rfl rfl
    | with_reducible apply State.nfIdle_keeps
    | with_reducible apply State.fileMismatch_keeps
    | with_reducible apply Keeps.modPad
    | with_reducible apply Keeps.foldl
    | with_reducible apply Keeps.ite
    | split

theorem State.nfDrain_keeps {s0 s : State} (h : Keeps s0 s) (a1) : Keeps s0 (State.nfDrain s a1) := by
  unfold State.nfDrain
  try dsimp only
  repeat' first
    | with_reducible assumption
    | intro _
    | exact SameTide.mk rfl rfl rfl
    | with_reducible apply State.modPower_keeps
    | with_reducible apply State.startDrain_keeps
    | with_reducible apply Keeps.foldl
    | with_reducible apply Keeps.ite
    | split

theorem State.nfStep3_keeps {s0 s : State} (h : Keeps s0 s) (a1) : Keeps s0 (State.nfStep3 s a1) := by
  unfold State.nfStep3
  try dsimp only
  repeat' first
    | with_reducible assumption
    | intro _
    | exact SameTide.mk rfl rfl rfl
    | with_reducible apply State.nfDrain_keeps
    | with_reducible apply State.modTether_keeps
    | with_reducible apply State.fencePos_keeps
    | with_reducible apply Keeps.foldl
    | with_reducible apply Keeps.ite
    | split

theorem State.nfWakeFolds_keeps {s0 s : State} (h : Keeps s0 s) (a1) : Keeps s0 (State.nfWakeFolds s a1) := by
  unfold State.nfWakeFolds
  try dsimp only
  repeat' first
    | with_reducible assumption
    | intro _
    | exact SameTide.mk rfl rfl rfl
    | with_reducible apply State.setTarget_keeps
    | with_reducible apply State.edgeLost_keeps
    | with_reducible apply State.setNf_keeps
    | with_reducible apply Keeps.foldl
    | with_reducible apply Keeps.ite
    | split

theorem State.nfWork_keeps {s0 s : State} (h : Keeps s0 s) (a1) : Keeps s0 (State.nfWork s a1) := by
  unfold State.nfWork
  try dsimp only
  repeat' first
    | with_reducible assumption
    | intro _
    | exact SameTide.mk rfl rfl rfl
    | with_reducible apply State.nfStep3_keeps
    | with_reducible apply State.nfEnd_keeps
    | with_reducible apply State.nfWakeFolds_keeps
    | with_reducible apply State.nfExit_keeps
    | with_reducible apply Keeps.foldl

theorem State.regionWork_keeps {s0 s : State} (h : Keeps s0 s) (a1) : Keeps s0 (State.regionWork s a1) := by
  unfold State.regionWork
  try dsimp only
  repeat' first
    | with_reducible assumption
    | intro _
    | exact SameTide.mk rfl rfl rfl
    | with_reducible apply State.sweepOne_keeps
    | with_reducible apply Keeps.foldl
    | with_reducible apply Keeps.ite
    | split

theorem State.switchTables_keeps {s0 s : State} (h : Keeps s0 s) (a1 a2) : Keeps s0 (State.switchTables s a1 a2) := by
  unfold State.switchTables
  try dsimp only
  repeat' first
    | with_reducible assumption
    | intro _
    | exact SameTide.mk rfl rfl rfl
    | with_reducible apply State.modShep_keeps
    | with_reducible apply State.writePaces_keeps
    | with_reducible apply State.writeEdges_keeps
    | with_reducible apply Keeps.ite

theorem State.switchWork_keeps {s0 s : State} (h : Keeps s0 s) (a1) : Keeps s0 (State.switchWork s a1) := by
  unfold State.switchWork
  try dsimp only
  repeat' first
    | with_reducible assumption
    | intro _
    | exact SameTide.mk rfl rfl rfl
    | with_reducible apply State.startSwitch_keeps
    | with_reducible apply State.switchTables_keeps
    | with_reducible apply Keeps.ite
    | split

theorem State.dozeWork_keeps {s0 s : State} (h : Keeps s0 s) (a1) : Keeps s0 (State.dozeWork s a1) := by
  unfold State.dozeWork
  try dsimp only
  repeat' first
    | with_reducible assumption
    | intro _
    | exact SameTide.mk rfl rfl rfl
    | with_reducible apply State.envChanged_keeps
    | with_reducible apply Keeps.ite
    | split

theorem State.leadWork_keeps {s0 s : State} (h : Keeps s0 s) (a1) : Keeps s0 (State.leadWork s a1) := by
  unfold State.leadWork
  try dsimp only
  repeat' first
    | with_reducible assumption
    | intro _
    | exact SameTide.mk rfl rfl rfl
    | with_reducible apply State.defWork_keeps
    | with_reducible apply State.switchWork_keeps
    | with_reducible apply State.joinWork_keeps
    | with_reducible apply State.nfWork_keeps
    | with_reducible apply State.regionWork_keeps
    | with_reducible apply State.dozeWork_keeps
    | with_reducible apply Keeps.foldl
    | with_reducible apply Keeps.ite
    | split

theorem State.jobStep_keeps {s0 s : State} (h : Keeps s0 s) (a1) : Keeps s0 (State.jobStep s a1) := by
  unfold State.jobStep
  try dsimp only
  repeat' first
    | with_reducible assumption
    | intro _
    | exact SameTide.mk rfl rfl rfl
    | with_reducible apply State.modShep_keeps
    | with_reducible apply State.shepRequest_keeps
    | with_reducible apply Keeps.foldl
    | with_reducible apply Keeps.ite
    | split

theorem State.patchStep_keeps {s0 s : State} (h : Keeps s0 s) (a1) : Keeps s0 (State.patchStep s a1) := by
  unfold State.patchStep
  try dsimp only
  repeat' first
    | with_reducible assumption
    | intro _
    | exact SameTide.mk rfl rfl rfl
    | with_reducible apply State.shepRequest_keeps
    | with_reducible apply State.putPatch_keeps
    | with_reducible apply State.patchErr_keeps
    | with_reducible apply Keeps.ite
    | split

theorem State.padWork_keeps {s0 s : State} (h : Keeps s0 s) (a1) : Keeps s0 (State.padWork s a1) := by
  unfold State.padWork
  try dsimp only
  repeat' first
    | with_reducible assumption
    | intro _
    | exact SameTide.mk rfl rfl rfl
    | with_reducible apply State.jobStep_keeps
    | with_reducible apply State.drainWork_keeps
    | with_reducible apply State.autoServe_keeps
    | with_reducible apply State.patchStep_keeps
    | with_reducible apply Keeps.foldl

theorem State.unstallShadows_keeps {s0 s : State} (h : Keeps s0 s) : Keeps s0 (State.unstallShadows s) := by
  unfold State.unstallShadows
  try dsimp only
  repeat' first
    | with_reducible assumption
    | intro _
    | exact SameTide.mk rfl rfl rfl
    | with_reducible apply State.modTether_keeps
    | with_reducible apply State.portDone_keeps
    | with_reducible apply Keeps.foldl
    | with_reducible apply Keeps.ite
    | split

theorem State.msixFalls_keeps {s0 s : State} (h : Keeps s0 s) : Keeps s0 (State.msixFalls s) := by
  unfold State.msixFalls
  try dsimp only
  repeat' first
    | with_reducible assumption
    | intro _
    | exact SameTide.mk rfl rfl rfl
    | with_reducible apply State.modTether_keeps
    | with_reducible apply Keeps.foldl
    | with_reducible apply Keeps.ite
    | split

theorem State.tetherWork_keeps {s0 s : State} (h : Keeps s0 s) : Keeps s0 (State.tetherWork s) := by
  unfold State.tetherWork
  try dsimp only
  repeat' first
    | with_reducible assumption
    | intro _
    | exact SameTide.mk rfl rfl rfl
    | with_reducible apply State.unstallShadows_keeps
    | with_reducible apply State.barRun_keeps
    | with_reducible apply State.msixFalls_keeps
    | with_reducible apply State.barGo_keeps
    | with_reducible apply Keeps.ite
    | split

theorem State.work_keeps {s0 s : State} (h : Keeps s0 s) : Keeps s0 (State.work s) := by
  unfold State.work
  try dsimp only
  repeat' first
    | with_reducible assumption
    | intro _
    | exact SameTide.mk rfl rfl rfl
    | with_reducible apply State.leadWork_keeps
    | with_reducible apply State.padWork_keeps
    | with_reducible apply State.tetherWork_keeps
    | with_reducible apply Keeps.foldl
    | with_reducible apply Keeps.ite
    | split

theorem State.initiateFlr_keeps {s0 s : State} (h : Keeps s0 s) : Keeps s0 (State.initiateFlr s) := by
  unfold State.initiateFlr
  try dsimp only
  repeat' first
    | with_reducible assumption
    | intro _
    | exact SameTide.mk rfl rfl rfl
    | with_reducible apply State.tetherReset_keeps
    | with_reducible apply Keeps.ite
    | split

theorem State.uninject_keeps {s0 s : State} (h : Keeps s0 s) (a1 a2) : Keeps s0 (State.uninject s a1 a2) := by
  unfold State.uninject
  try dsimp only
  repeat' first
    | with_reducible assumption
    | with_reducible apply Keeps.modPad
    | intro _
    | exact SameTide.mk rfl rfl rfl
    | with_reducible apply State.modPortOf_keeps
    | with_reducible apply State.modStream_keeps
    | with_reducible apply State.pcount_keeps
    | with_reducible apply Keeps.ite
    | split

theorem State.injectAt_keeps {s0 s : State} (h : Keeps s0 s) (a1 a2 a3) : Keeps s0 (State.injectAt s a1 a2 a3) := by
  unfold State.injectAt
  try dsimp only
  repeat' first
    | with_reducible assumption
    | intro _
    | exact SameTide.mk rfl rfl rfl
    | with_reducible apply State.modStream_keeps
    | with_reducible apply State.uninject_keeps
    | with_reducible apply State.pcount_keeps
    | with_reducible apply Keeps.ite
    | split

theorem State.injectReport_keeps {s0 s : State} (h : Keeps s0 s) (a1 a2 a3 a4) : Keeps s0 (State.injectReport s a1 a2 a3 a4) := by
  unfold State.injectReport
  try dsimp only
  repeat' first
    | with_reducible assumption
    | intro _
    | exact SameTide.mk rfl rfl rfl
    | with_reducible apply State.stick_keeps
    | with_reducible apply State.file_keeps
    | with_reducible apply Keeps.ite
    | split

theorem State.laneRepairs_keeps {s0 s : State} (h : Keeps s0 s) (a1 a2 a3) : Keeps s0 (State.laneRepairs s a1 a2 a3) := by
  unfold State.laneRepairs
  try dsimp only
  repeat' first
    | with_reducible assumption
    | intro _
    | exact SameTide.mk rfl rfl rfl
    | with_reducible apply State.hurdleAppend_keeps
    | with_reducible apply Keeps.foldl
    | with_reducible apply Keeps.ite
    | split

theorem State.lclkLost_keeps {s0 s : State} (h : Keeps s0 s) (a1) : Keeps s0 (State.lclkLost s a1) := by
  unfold State.lclkLost
  try dsimp only
  repeat' first
    | with_reducible assumption
    | intro _
    | exact SameTide.mk rfl rfl rfl
    | with_reducible apply State.stick_keeps
    | with_reducible apply Keeps.ite

theorem State.linkLost_keeps {s0 s : State} (h : Keeps s0 s) : Keeps s0 (State.linkLost s) := by
  unfold State.linkLost
  try dsimp only
  repeat' first
    | with_reducible assumption
    | intro _
    | exact SameTide.mk rfl rfl rfl
    | with_reducible apply State.downEvent_keeps
    | with_reducible apply Keeps.ite
    | split

theorem State.linkTrained_keeps {s0 s : State} (h : Keeps s0 s) (a1 a2 a3) : Keeps s0 (State.linkTrained s a1 a2 a3) := by
  unfold State.linkTrained
  try dsimp only
  repeat' first
    | with_reducible assumption
    | intro _
    | exact SameTide.mk rfl rfl rfl
    | with_reducible apply State.modTether_keeps
    | with_reducible apply Keeps.ite
    | split

theorem State.millStep_keeps {s0 s : State} (h : Keeps s0 s) (a1) : Keeps s0 (State.millStep s a1) := by
  unfold State.millStep
  try dsimp only
  repeat' first
    | with_reducible assumption
    | intro _
    | exact SameTide.mk rfl rfl rfl
    | with_reducible apply State.finish_keeps
    | with_reducible apply State.modFold_keeps
    | with_reducible apply State.runFold_keeps
    | with_reducible apply State.ungate_keeps
    | with_reducible apply Keeps.foldl
    | with_reducible apply Keeps.ite
    | split

theorem State.modFresh_keeps {s0 s : State} (h : Keeps s0 s) (a1 a2) : Keeps s0 (State.modFresh s a1 a2) := by
  unfold State.modFresh
  try dsimp only
  repeat' first
    | with_reducible assumption
    | intro _
    | exact SameTide.mk rfl rfl rfl
    | with_reducible apply State.modMod_keeps
    | with_reducible apply Keeps.modPad
    | with_reducible apply Keeps.ite
    | split

theorem State.ucieSpent_keeps {s0 s : State} (h : Keeps s0 s) (a1) : Keeps s0 (State.ucieSpent s a1) := by
  unfold State.ucieSpent
  try dsimp only
  repeat' first
    | with_reducible assumption
    | intro _
    | exact SameTide.mk rfl rfl rfl
    | with_reducible apply State.hurdleTell_keeps
    | with_reducible apply State.recheckDue_keeps
    | with_reducible apply Keeps.ite
    | split

theorem State.modUp_keeps {s0 s : State} (h : Keeps s0 s) (a1 a2 a3 a4 a5) : Keeps s0 (State.modUp s a1 a2 a3 a4 a5) := by
  unfold State.modUp
  try dsimp only
  repeat' first
    | with_reducible assumption
    | intro _
    | exact SameTide.mk rfl rfl rfl
    | with_reducible apply State.modMod_keeps
    | with_reducible apply State.wantSwitch_keeps
    | with_reducible apply State.confRep_keeps
    | with_reducible apply State.laneRepairs_keeps
    | with_reducible apply State.ucieSpent_keeps
    | with_reducible apply Keeps.modPad
    | with_reducible apply State.modFresh_keeps
    | with_reducible apply State.pcount_keeps
    | with_reducible apply State.paceChanged_keeps
    | with_reducible apply Keeps.ite
    | split

theorem State.moveSweep_keeps {s0 s : State} (h : Keeps s0 s) (a1 a2 a3) : Keeps s0 (State.moveSweep s a1 a2 a3) := by
  unfold State.moveSweep
  try dsimp only
  repeat' first
    | with_reducible assumption
    | intro _
    | exact SameTide.mk rfl rfl rfl
    | with_reducible apply State.modFold_keeps
    | with_reducible apply State.addJob_keeps
    | with_reducible apply State.modMove_keeps
    | with_reducible apply Keeps.modPad

theorem State.msixCheck_keeps {s0 s : State} (h : Keeps s0 s) (a1) : Keeps s0 (State.msixCheck s a1) := by
  unfold State.msixCheck
  try dsimp only
  repeat' first
    | with_reducible assumption
    | intro _
    | exact SameTide.mk rfl rfl rfl
    | with_reducible apply State.modTether_keeps
    | with_reducible apply State.msixDue_keeps
    | with_reducible apply Keeps.ite
    | split

theorem State.msixPending_keeps {s0 s : State} (h : Keeps s0 s) (a1) : Keeps s0 (State.msixPending s a1) := by
  unfold State.msixPending
  try dsimp only
  repeat' first
    | with_reducible assumption
    | intro _
    | exact SameTide.mk rfl rfl rfl
    | with_reducible apply State.modTether_keeps
    | with_reducible apply State.msixWrite_keeps
    | with_reducible apply Keeps.ite
    | split

theorem State.nfTargets_keeps {s0 s : State} (h : Keeps s0 s) (a1) : Keeps s0 (State.nfTargets s a1) := by
  unfold State.nfTargets
  try dsimp only
  repeat' first
    | with_reducible assumption
    | intro _
    | exact SameTide.mk rfl rfl rfl
    | with_reducible apply State.setTarget_keeps
    | with_reducible apply Keeps.foldl
    | with_reducible apply Keeps.ite
    | split

theorem State.nfAbandon_keeps {s0 s : State} (h : Keeps s0 s) (a1 a2) : Keeps s0 (State.nfAbandon s a1 a2) := by
  unfold State.nfAbandon
  try dsimp only
  repeat' first
    | with_reducible assumption
    | with_reducible apply State.nfCount_keeps
    | with_reducible apply State.nfIdle_keeps
    | with_reducible apply State.nfTargets_keeps
    | with_reducible apply Keeps.ite
    | split

theorem State.queuesLost_keeps {s0 s : State} (h : Keeps s0 s) (a1) : Keeps s0 (State.queuesLost s a1) := by
  unfold State.queuesLost
  try dsimp only
  repeat' first
    | with_reducible assumption
    | intro _
    | exact SameTide.mk rfl rfl rfl
    | with_reducible apply State.modShep_keeps
    | with_reducible apply State.cqFlush_keeps
    | with_reducible apply Keeps.foldl

theorem State.nfDomDown_keeps {s0 s : State} (h : Keeps s0 s) (a1 a2) : Keeps s0 (State.nfDomDown s a1 a2) := by
  unfold State.nfDomDown
  try dsimp only
  repeat' first
    | with_reducible assumption
    | intro _
    | exact SameTide.mk rfl rfl rfl
    | with_reducible apply State.modEbb_keeps
    | with_reducible apply State.queuesLost_keeps
    | with_reducible apply State.fencePos_keeps
    | with_reducible apply Keeps.ite

theorem State.nfDownSd_keeps {s0 s : State} (h : Keeps s0 s) (a1) : Keeps s0 (State.nfDownSd s a1) := by
  unfold State.nfDownSd
  try dsimp only
  repeat' first
    | with_reducible assumption
    | with_reducible apply State.modConf_keeps
    | with_reducible apply State.domOffReq_keeps

theorem State.nfDownSh_keeps {s0 s : State} (h : Keeps s0 s) (a1) : Keeps s0 (State.nfDownSh s a1) := by
  unfold State.nfDownSh
  try dsimp only
  repeat' first
    | with_reducible assumption
    | intro _
    | exact SameTide.mk rfl rfl rfl
    | with_reducible apply Keeps.modPad
    | with_reducible apply State.domOffReq_keeps
    | with_reducible apply State.heldBits_keeps

theorem State.nfFenced_keeps {s0 s : State} (h : Keeps s0 s) (a1 a2) : Keeps s0 (State.nfFenced s a1 a2) := by
  unfold State.nfFenced
  try dsimp only
  repeat' first
    | with_reducible assumption
    | intro _
    | exact SameTide.mk rfl rfl rfl
    | with_reducible apply State.nfDownSh_keeps
    | with_reducible apply State.nfDownSd_keeps
    | with_reducible apply Keeps.ite

theorem State.nfN1Of_keeps {s0 s : State} (h : Keeps s0 s) (a1) : Keeps s0 (State.nfN1Of s a1) := by
  unfold State.nfN1Of
  try dsimp only
  repeat' first
    | with_reducible assumption
    | intro _
    | exact SameTide.mk rfl rfl rfl
    | with_reducible apply State.nfAbandon_keeps
    | with_reducible apply State.addJob_keeps
    | with_reducible apply State.setNf_keeps
    | with_reducible apply Keeps.foldl
    | with_reducible apply Keeps.ite
    | split

theorem State.nfN1_keeps {s0 s : State} (h : Keeps s0 s) : Keeps s0 (State.nfN1 s) := by
  unfold State.nfN1
  try dsimp only
  repeat' first
    | with_reducible assumption
    | intro _
    | exact SameTide.mk rfl rfl rfl
    | with_reducible apply State.nfN1Of_keeps
    | with_reducible apply Keeps.foldl
    | with_reducible apply Keeps.ite
    | split

theorem State.nfSign_keeps {s0 s : State} (h : Keeps s0 s) (a1) : Keeps s0 (State.nfSign s a1) := by
  unfold State.nfSign
  try dsimp only
  repeat' first
    | with_reducible assumption
    | intro _
    | exact SameTide.mk rfl rfl rfl
    | with_reducible apply Keeps.modPad
    | with_reducible apply Keeps.ite
    | split

theorem State.nfN2Of_keeps {s0 s : State} (h : Keeps s0 s) (a1) : Keeps s0 (State.nfN2Of s a1) := by
  unfold State.nfN2Of
  try dsimp only
  repeat' first
    | with_reducible assumption
    | intro _
    | exact SameTide.mk rfl rfl rfl
    | with_reducible apply State.nfDrain_keeps
    | with_reducible apply State.modTether_keeps
    | with_reducible apply State.setNf_keeps
    | with_reducible apply State.nfSign_keeps
    | with_reducible apply State.nfAbandon_keeps
    | with_reducible apply Keeps.modPad
    | with_reducible apply Keeps.foldl
    | with_reducible apply Keeps.ite
    | split

theorem State.nfN2_keeps {s0 s : State} (h : Keeps s0 s) : Keeps s0 (State.nfN2 s) := by
  unfold State.nfN2
  try dsimp only
  repeat' first
    | with_reducible assumption
    | intro _
    | exact SameTide.mk rfl rfl rfl
    | with_reducible apply State.nfN2Of_keeps
    | with_reducible apply Keeps.foldl
    | with_reducible apply Keeps.ite
    | split

theorem State.nfN3Of_keeps {s0 s : State} (h : Keeps s0 s) (a1) : Keeps s0 (State.nfN3Of s a1) := by
  unfold State.nfN3Of
  try dsimp only
  repeat' first
    | with_reducible assumption
    | intro _
    | exact SameTide.mk rfl rfl rfl
    | with_reducible apply State.nfBack_keeps
    | with_reducible apply State.nfCount_keeps
    | with_reducible apply State.writeSupplies_keeps
    | with_reducible apply State.setNf_keeps
    | with_reducible apply Keeps.foldl
    | with_reducible apply Keeps.ite
    | split

theorem State.nfN3_keeps {s0 s : State} (h : Keeps s0 s) : Keeps s0 (State.nfN3 s) := by
  unfold State.nfN3
  try dsimp only
  repeat' first
    | with_reducible assumption
    | intro _
    | exact SameTide.mk rfl rfl rfl
    | with_reducible apply State.nfN3Of_keeps
    | with_reducible apply Keeps.foldl
    | with_reducible apply Keeps.ite
    | split

theorem State.nfN4Of_keeps {s0 s : State} (h : Keeps s0 s) (a1) : Keeps s0 (State.nfN4Of s a1) := by
  unfold State.nfN4Of
  try dsimp only
  repeat' first
    | with_reducible assumption
    | intro _
    | exact SameTide.mk rfl rfl rfl
    | with_reducible apply State.modEbb_keeps
    | with_reducible apply State.nfSupplyUp_keeps
    | with_reducible apply State.nfCount_keeps
    | with_reducible apply Keeps.foldl
    | with_reducible apply Keeps.ite
    | split

theorem State.nfN4_keeps {s0 s : State} (h : Keeps s0 s) : Keeps s0 (State.nfN4 s) := by
  unfold State.nfN4
  try dsimp only
  repeat' first
    | with_reducible assumption
    | intro _
    | exact SameTide.mk rfl rfl rfl
    | with_reducible apply State.nfN4Of_keeps
    | with_reducible apply Keeps.foldl
    | with_reducible apply Keeps.ite
    | split

theorem State.oppSwitchOf_keeps {s0 s : State} (h : Keeps s0 s) (a1) : Keeps s0 (State.oppSwitchOf s a1) := by
  unfold State.oppSwitchOf
  try dsimp only
  repeat' first
    | with_reducible assumption
    | intro _
    | exact SameTide.mk rfl rfl rfl
    | with_reducible apply State.oppPhase_keeps
    | with_reducible apply State.askPoint_keeps
    | with_reducible apply State.oppAdvance_keeps
    | with_reducible apply Keeps.ite
    | split

theorem State.oppSwitch_keeps {s0 s : State} (h : Keeps s0 s) : Keeps s0 (State.oppSwitch s) := by
  unfold State.oppSwitch
  try dsimp only
  repeat' first
    | with_reducible assumption
    | intro _
    | exact SameTide.mk rfl rfl rfl
    | with_reducible apply State.oppSwitchOf_keeps
    | with_reducible apply Keeps.foldl

theorem State.padAssert_keeps {s0 s : State} (h : Keeps s0 s) (a1) : Keeps s0 (State.padAssert s a1) := by
  unfold State.padAssert
  try dsimp only
  repeat' first
    | with_reducible assumption
    | intro _
    | exact SameTide.mk rfl rfl rfl
    | with_reducible apply State.modTether_keeps
    | with_reducible apply State.portEnds_keeps
    | with_reducible apply Keeps.modPads
    | with_reducible apply State.faceDown_keeps
    | with_reducible apply Keeps.modPad
    | with_reducible apply Keeps.foldl
    | with_reducible apply Keeps.ite
    | split

theorem State.releaseReset_keeps {s0 s : State} (h : Keeps s0 s) (a1 a2 a3 a4) : Keeps s0 (State.releaseReset s a1 a2 a3 a4) := by
  unfold State.releaseReset
  try dsimp only
  repeat' first
    | with_reducible assumption
    | intro _
    | exact SameTide.mk rfl rfl rfl
    | with_reducible apply State.modBoot_keeps
    | with_reducible apply State.domOnReq_keeps
    | with_reducible apply Keeps.foldl

theorem State.padRelease_keeps {s0 s : State} (h : Keeps s0 s) (a1 a2 a3 a4) : Keeps s0 (State.padRelease s a1 a2 a3 a4) := by
  unfold State.padRelease
  try dsimp only
  repeat' first
    | with_reducible assumption
    | intro _
    | exact SameTide.mk rfl rfl rfl
    | with_reducible apply State.releaseReset_keeps
    | with_reducible apply Keeps.modPad
    | with_reducible apply Keeps.ite

theorem State.peerTlp_keeps {s0 s : State} (h : Keeps s0 s) (a1 a2 a3 a4 a5) : Keeps s0 (State.peerTlp s a1 a2 a3 a4 a5) := by
  unfold State.peerTlp
  try dsimp only
  repeat' first
    | with_reducible assumption
    | intro _
    | exact SameTide.mk rfl rfl rfl
    | with_reducible apply State.modTether_keeps
    | with_reducible apply State.aer_keeps
    | with_reducible apply State.openPiece_keeps
    | with_reducible apply State.answerUr_keeps
    | with_reducible apply State.aerLog_keeps
    | with_reducible apply State.tetherRep_keeps
    | with_reducible apply State.pcount_keeps
    | with_reducible apply State.emptyRead_keeps
    | with_reducible apply State.openPieces_keeps
    | with_reducible apply Keeps.foldl
    | with_reducible apply Keeps.ite
    | split

theorem State.pendingRow_keeps {s0 s : State} (h : Keeps s0 s) (a1 a2) : Keeps s0 (State.pendingRow s a1 a2) := by
  unfold State.pendingRow
  try dsimp only
  repeat' first
    | with_reducible assumption
    | intro _
    | exact SameTide.mk rfl rfl rfl
    | with_reducible apply Keeps.modPad
    | with_reducible apply State.hurdleAppend_keeps
    | with_reducible apply Keeps.ite

theorem State.perstAssert_keeps {s0 s : State} (h : Keeps s0 s) : Keeps s0 (State.perstAssert s) := by
  unfold State.perstAssert
  try dsimp only
  repeat' first
    | with_reducible assumption
    | intro _
    | exact SameTide.mk rfl rfl rfl
    | with_reducible apply State.modTether_keeps
    | with_reducible apply State.downEvent_keeps
    | with_reducible apply Keeps.ite
    | split

theorem State.porRelease_keeps {s0 s : State} (h : Keeps s0 s) (a1 a2 a3) : Keeps s0 (State.porRelease s a1 a2 a3) := by
  unfold State.porRelease
  try dsimp only
  repeat' first
    | with_reducible assumption
    | intro _
    | exact SameTide.mk rfl rfl rfl
    | with_reducible apply State.releaseReset_keeps
    | with_reducible apply Keeps.foldl
    | with_reducible apply Keeps.ite
    | split

theorem State.portAccess_keeps {s0 s : State} (h : Keeps s0 s) (a1 a2 a3) : Keeps s0 (State.portAccess s a1 a2 a3) := by
  unfold State.portAccess
  try dsimp only
  repeat' first
    | with_reducible assumption
    | intro _
    | exact SameTide.mk rfl rfl rfl
    | with_reducible apply Keeps.modPad
    | with_reducible apply State.access_keeps
    | with_reducible apply Keeps.ite

theorem State.postHeld_keeps {s0 s : State} (h : Keeps s0 s) (a1 a2) : Keeps s0 (State.postHeld s a1 a2) := by
  unfold State.postHeld
  try dsimp only
  repeat' first
    | with_reducible assumption
    | intro _
    | exact SameTide.mk rfl rfl rfl
    | with_reducible apply State.rqCheck_keeps
    | with_reducible apply State.modRq_keeps
    | with_reducible apply Keeps.ite

theorem State.dropHeld_keeps {s0 s : State} (h : Keeps s0 s) (a1 a2) : Keeps s0 (State.dropHeld s a1 a2) := by
  unfold State.dropHeld
  try dsimp only
  repeat' first
    | with_reducible assumption
    | intro _
    | exact SameTide.mk rfl rfl rfl
    | with_reducible apply State.modStream_keeps
    | with_reducible apply Keeps.ite
    | split

theorem State.pswAck_keeps {s0 s : State} (h : Keeps s0 s) (a1 a2 a3) : Keeps s0 (State.pswAck s a1 a2 a3) := by
  unfold State.pswAck
  try dsimp only
  repeat' first
    | with_reducible assumption
    | intro _
    | exact SameTide.mk rfl rfl rfl
    | with_reducible apply State.foldDomDown_keeps
    | with_reducible apply State.domUp_keeps
    | with_reducible apply State.modEbb_keeps
    | with_reducible apply State.nfDomDown_keeps
    | with_reducible apply State.pcount_keeps
    | with_reducible apply State.sampleGoes_keeps
    | with_reducible apply State.dropHeld_keeps
    | with_reducible apply Keeps.ite
    | with_reducible apply Keeps.ite
    | split

theorem State.pswLate_keeps {s0 s : State} (h : Keeps s0 s) (a1 a2) : Keeps s0 (State.pswLate s a1 a2) := by
  unfold State.pswLate
  try dsimp only
  repeat' first
    | with_reducible assumption
    | intro _
    | exact SameTide.mk rfl rfl rfl
    | with_reducible apply State.modEbb_keeps
    | with_reducible apply State.stick_keeps
    | with_reducible apply Keeps.ite

theorem State.pullOf_keeps {s0 s : State} (h : Keeps s0 s) (a1 a2 a3) : Keeps s0 (State.pullOf s a1 a2 a3) := by
  unfold State.pullOf
  try dsimp only
  repeat' first
    | with_reducible assumption
    | intro _
    | exact SameTide.mk rfl rfl rfl
    | with_reducible apply State.putFc_keeps
    | with_reducible apply Keeps.ite
    | split

theorem State.raceSwitchAt_keeps {s0 s : State} (h : Keeps s0 s) (a1 a2) : Keeps s0 (State.raceSwitchAt s a1 a2) := by
  unfold State.raceSwitchAt
  try dsimp only
  repeat' first
    | with_reducible assumption
    | intro _
    | exact SameTide.mk rfl rfl rfl
    | with_reducible apply State.modFold_keeps
    | with_reducible apply State.modMove_keeps
    | with_reducible apply State.modPower_keeps
    | with_reducible apply State.modFoldmap_keeps
    | with_reducible apply State.fenceFold_keeps
    | with_reducible apply State.raceTo_keeps
    | with_reducible apply Keeps.modPad
    | with_reducible apply Keeps.ite
    | split

theorem State.recheck_keeps {s0 s : State} (h : Keeps s0 s) (a1) : Keeps s0 (State.recheck s a1) := by
  unfold State.recheck
  try dsimp only
  repeat' first
    | with_reducible assumption
    | intro _
    | exact SameTide.mk rfl rfl rfl
    | with_reducible apply State.modShep_keeps
    | with_reducible apply State.file_keeps
    | with_reducible apply State.publishEnv_keeps
    | with_reducible apply Keeps.foldl
    | with_reducible apply Keeps.ite
    | split

theorem State.refuseFlit_keeps {s0 s : State} (h : Keeps s0 s) (a1 a2 a3 a4 a5) : Keeps s0 (State.refuseFlit s a1 a2 a3 a4 a5) := by
  unfold State.refuseFlit
  try dsimp only
  repeat' first
    | with_reducible assumption
    | intro _
    | exact SameTide.mk rfl rfl rfl
    | with_reducible apply State.modStream_keeps
    | with_reducible apply State.pcount_keeps
    | with_reducible apply Keeps.ite

theorem State.regionSweep_keeps {s0 s : State} (h : Keeps s0 s) (a1 a2 a3 a4) : Keeps s0 (State.regionSweep s a1 a2 a3 a4) := by
  unfold State.regionSweep
  try dsimp only
  repeat' first
    | with_reducible assumption
    | intro _
    | exact SameTide.mk rfl rfl rfl
    | with_reducible apply State.addJob_keeps
    | with_reducible apply Keeps.foldl

theorem State.regionSwitchOf_keeps {s0 s : State} (h : Keeps s0 s) (a1) : Keeps s0 (State.regionSwitchOf s a1) := by
  unfold State.regionSwitchOf
  try dsimp only
  repeat' first
    | with_reducible assumption
    | intro _
    | exact SameTide.mk rfl rfl rfl
    | with_reducible apply State.finish_keeps
    | with_reducible apply State.regionSweep_keeps
    | with_reducible apply State.modDef_keeps
    | with_reducible apply State.modShep_keeps
    | with_reducible apply State.envChanged_keeps
    | with_reducible apply State.modRepl_keeps
    | with_reducible apply Keeps.foldl
    | with_reducible apply Keeps.ite
    | split

theorem State.regionSwitch_keeps {s0 s : State} (h : Keeps s0 s) : Keeps s0 (State.regionSwitch s) := by
  unfold State.regionSwitch
  try dsimp only
  repeat' first
    | with_reducible assumption
    | intro _
    | exact SameTide.mk rfl rfl rfl
    | with_reducible apply State.regionSwitchOf_keeps
    | with_reducible apply Keeps.foldl

theorem State.escalate_keeps {s0 s : State} (h : Keeps s0 s) (a1 a2 a3) : Keeps s0 (State.escalate s a1 a2 a3) := by
  unfold State.escalate
  try dsimp only
  repeat' first
    | with_reducible assumption
    | intro _
    | exact SameTide.mk rfl rfl rfl
    | with_reducible apply State.pcount_keeps
    | with_reducible apply Keeps.ite
    | split

theorem State.reqAtFold_keeps {s0 s : State} (h : Keeps s0 s) (a1 a2 a3 a4) : Keeps s0 (State.reqAtFold s a1 a2 a3 a4) := by
  unfold State.reqAtFold
  try dsimp only
  repeat' first
    | with_reducible assumption
    | intro _
    | exact SameTide.mk rfl rfl rfl
    | with_reducible apply State.runFold_keeps
    | with_reducible apply State.refuseFlit_keeps
    | with_reducible apply State.modStream_keeps
    | with_reducible apply State.modFold_keeps
    | with_reducible apply State.ungate_keeps
    | with_reducible apply State.escalate_keeps
    | with_reducible apply Keeps.ite
    | split

theorem State.selfRep_keeps {s0 s : State} (h : Keeps s0 s) (a1 a2 a3 a4 a5) : Keeps s0 (State.selfRep s a1 a2 a3 a4 a5) := by
  unfold State.selfRep
  try dsimp only
  repeat' first
    | with_reducible assumption
    | with_reducible apply State.file_keeps

theorem State.reqAtStile_keeps {s0 s : State} (h : Keeps s0 s) (a1 a2 a3 a4) : Keeps s0 (State.reqAtStile s a1 a2 a3 a4) := by
  unfold State.reqAtStile
  try dsimp only
  repeat' first
    | with_reducible assumption
    | intro _
    | exact SameTide.mk rfl rfl rfl
    | with_reducible apply State.sendRsp_keeps
    | with_reducible apply State.refuseFlit_keeps
    | with_reducible apply State.modStream_keeps
    | with_reducible apply Keeps.modPad
    | with_reducible apply State.selfRep_keeps
    | with_reducible apply Keeps.ite
    | split

theorem State.reqArrival_keeps {s0 s : State} (h : Keeps s0 s) (a1 a2 a3) : Keeps s0 (State.reqArrival s a1 a2 a3) := by
  unfold State.reqArrival
  try dsimp only
  repeat' first
    | with_reducible assumption
    | intro _
    | exact SameTide.mk rfl rfl rfl
    | with_reducible apply State.modStream_keeps
    | with_reducible apply State.dropStray_keeps
    | with_reducible apply State.dropFlit_keeps
    | with_reducible apply State.reqAtFold_keeps
    | with_reducible apply State.reqAtStile_keeps
    | with_reducible apply State.escalate_keeps
    | with_reducible apply Keeps.ite
    | split

theorem State.reserveAt_keeps {s0 s : State} (h : Keeps s0 s) (a1 a2 a3) : Keeps s0 (State.reserveAt s a1 a2 a3) := by
  unfold State.reserveAt
  try dsimp only
  repeat' first
    | with_reducible assumption
    | intro _
    | exact SameTide.mk rfl rfl rfl
    | with_reducible apply State.modStream_keeps
    | with_reducible apply State.pcount_keeps
    | with_reducible apply Keeps.ite
    | split

theorem State.ringDeliver_keeps {s0 s : State} (h : Keeps s0 s) (d : Die) (q : QN) (n : Nat) : Keeps s0 (s.ringDeliver d q n) := by
  induction n generalizing s with
  | zero => exact h
  | succ k ih =>
    unfold State.ringDeliver
    split
    · exact h
    · split
      · exact h
      · exact ih (State.pcount_keeps (State.cqFetched_keeps (State.modTether_keeps h _) _ _ _) _ _ _)

theorem State.ringFault_keeps {s0 s : State} (h : Keeps s0 s) (a1 a2 a3 a4) : Keeps s0 (State.ringFault s a1 a2 a3 a4) := by
  unfold State.ringFault
  try dsimp only
  repeat' first
    | with_reducible assumption
    | with_reducible apply State.modTether_keeps
    | with_reducible apply State.ringRewind_keeps
    | with_reducible apply State.aer_keeps
    | with_reducible apply State.pciStatus_keeps
    | with_reducible apply Keeps.ite
    | split

theorem State.ringCompletion_keeps {s0 s : State} (h : Keeps s0 s) (a1 a2 a3) : Keeps s0 (State.ringCompletion s a1 a2 a3) := by
  unfold State.ringCompletion
  try dsimp only
  repeat' first
    | with_reducible assumption
    | intro _
    | exact SameTide.mk rfl rfl rfl
    | with_reducible apply State.modTether_keeps
    | with_reducible apply State.aer_keeps
    | with_reducible apply State.ringFault_keeps
    | with_reducible apply State.ringDeliver_keeps
    | with_reducible apply Keeps.ite
    | split

theorem State.ringFetch_keeps {s0 s : State} (h : Keeps s0 s) (a1) : Keeps s0 (State.ringFetch s a1) := by
  unfold State.ringFetch
  try dsimp only
  repeat' first
    | with_reducible assumption
    | intro _
    | exact SameTide.mk rfl rfl rfl
    | with_reducible apply State.modTether_keeps
    | with_reducible apply State.toHost_keeps
    | with_reducible apply Keeps.ite
    | split

theorem State.ringTimeout_keeps {s0 s : State} (h : Keeps s0 s) (a1 a2) : Keeps s0 (State.ringTimeout s a1 a2) := by
  unfold State.ringTimeout
  try dsimp only
  repeat' first
    | with_reducible assumption
    | intro _
    | exact SameTide.mk rfl rfl rfl
    | with_reducible apply State.modTether_keeps
    | with_reducible apply State.ringFault_keeps
    | with_reducible apply State.aer_keeps
    | with_reducible apply Keeps.ite
    | split

theorem State.shepRsp_keeps {s0 s : State} (h : Keeps s0 s) (a1 a2) : Keeps s0 (State.shepRsp s a1 a2) := by
  unfold State.shepRsp
  try dsimp only
  repeat' first
    | with_reducible assumption
    | intro _
    | exact SameTide.mk rfl rfl rfl
    | with_reducible apply State.pcount_keeps
    | with_reducible apply State.modShepPort_keeps
    | with_reducible apply State.autoAck_keeps
    | with_reducible apply State.shepEnd_keeps
    | with_reducible apply Keeps.ite
    | split

theorem State.tetherRsp_keeps {s0 s : State} (h : Keeps s0 s) (a1 a2) : Keeps s0 (State.tetherRsp s a1 a2) := by
  unfold State.tetherRsp
  try dsimp only
  repeat' first
    | with_reducible assumption
    | with_reducible apply State.modTether_keeps
    | with_reducible apply State.autoAck_keeps
    | with_reducible apply State.tetherEnd_keeps
    | with_reducible apply State.openPieces_keeps
    | with_reducible apply Keeps.ite
    | split

theorem State.rspTo_keeps {s0 s : State} (h : Keeps s0 s) (a1 a2) : Keeps s0 (State.rspTo s a1 a2) := by
  unfold State.rspTo
  try dsimp only
  repeat' first
    | with_reducible assumption
    | intro _
    | exact SameTide.mk rfl rfl rfl
    | with_reducible apply State.shepRsp_keeps
    | with_reducible apply State.runAgent_keeps
    | with_reducible apply State.tetherRsp_keeps
    | with_reducible apply State.missedAt_keeps
    | with_reducible apply Keeps.ite

theorem State.rspAt_keeps {s0 s : State} (h : Keeps s0 s) (a1 a2 a3 a4) : Keeps s0 (State.rspAt s a1 a2 a3 a4) := by
  unfold State.rspAt
  try dsimp only
  repeat' first
    | with_reducible assumption
    | intro _
    | exact SameTide.mk rfl rfl rfl
    | with_reducible apply State.modStream_keeps
    | with_reducible apply State.dropStray_keeps
    | with_reducible apply State.rspTo_keeps
    | with_reducible apply State.dropFlit_keeps
    | with_reducible apply Keeps.ite
    | split

theorem State.runCensusConfig_keeps {s0 s : State} (h : Keeps s0 s) (a1 a2) : Keeps s0 (State.runCensusConfig a1 a2 s) := by
  unfold State.runCensusConfig
  try dsimp only
  repeat' first
    | with_reducible assumption
    | intro _
    | exact SameTide.mk rfl rfl rfl
    | with_reducible apply State.reply_keeps
    | with_reducible apply Keeps.modPad
    | with_reducible apply Keeps.foldl
    | with_reducible apply Keeps.ite
    | split

theorem State.runDeadlineSet_keeps {s0 s : State} (h : Keeps s0 s) (a1 a2) : Keeps s0 (State.runDeadlineSet a1 a2 s) := by
  unfold State.runDeadlineSet
  try dsimp only
  repeat' first
    | with_reducible assumption
    | intro _
    | exact SameTide.mk rfl rfl rfl
    | with_reducible apply State.reply_keeps
    | with_reducible apply State.envChanged_keeps
    | with_reducible apply State.modRepl_keeps
    | with_reducible apply Keeps.ite

theorem State.runDieFence_keeps {s0 s : State} (h : Keeps s0 s) (a1 a2) : Keeps s0 (State.runDieFence a1 a2 s) := by
  unfold State.runDieFence
  try dsimp only
  repeat' first
    | with_reducible assumption
    | intro _
    | exact SameTide.mk rfl rfl rfl
    | with_reducible apply State.defer_keeps
    | with_reducible apply State.reply_keeps
    | with_reducible apply State.modRepl_keeps
    | with_reducible apply Keeps.ite

theorem State.runDieJoin_keeps {s0 s : State} (h : Keeps s0 s) (a1 a2) : Keeps s0 (State.runDieJoin a1 a2 s) := by
  unfold State.runDieJoin
  try dsimp only
  repeat' first
    | with_reducible assumption
    | intro _
    | exact SameTide.mk rfl rfl rfl
    | with_reducible apply State.defer_keeps
    | with_reducible apply State.reply_keeps
    | with_reducible apply State.modRepl_keeps
    | with_reducible apply State.joinWork_keeps
    | with_reducible apply Keeps.ite

theorem State.runFactoryUnlock_keeps {s0 s : State} (h : Keeps s0 s) (a1 a2) : Keeps s0 (State.runFactoryUnlock a1 a2 s) := by
  unfold State.runFactoryUnlock
  try dsimp only
  repeat' first
    | with_reducible assumption
    | intro _
    | exact SameTide.mk rfl rfl rfl
    | with_reducible apply State.reply_keeps
    | with_reducible apply Keeps.modPad
    | with_reducible apply Keeps.ite

theorem State.runFoldPower_keeps {s0 s : State} (h : Keeps s0 s) (a1 a2) : Keeps s0 (State.runFoldPower a1 a2 s) := by
  unfold State.runFoldPower
  try dsimp only
  repeat' first
    | with_reducible assumption
    | intro _
    | exact SameTide.mk rfl rfl rfl
    | with_reducible apply State.defer_keeps
    | with_reducible apply State.setTarget_keeps
    | with_reducible apply State.reply_keeps
    | with_reducible apply State.envChanged_keeps
    | with_reducible apply Keeps.ite
    | split

theorem State.startMove_keeps {s0 s : State} (h : Keeps s0 s) (a1 a2 a3) : Keeps s0 (State.startMove s a1 a2 a3) := by
  unfold State.startMove
  try dsimp only
  repeat' first
    | with_reducible assumption
    | with_reducible apply State.defer_keeps
    | with_reducible apply State.bringUp_keeps

theorem State.runFoldRetire_keeps {s0 s : State} (h : Keeps s0 s) (a1 a2) : Keeps s0 (State.runFoldRetire a1 a2 s) := by
  unfold State.runFoldRetire
  try dsimp only
  repeat' first
    | with_reducible assumption
    | intro _
    | exact SameTide.mk rfl rfl rfl
    | with_reducible apply State.startMove_keeps
    | with_reducible apply State.reply_keeps
    | with_reducible apply State.foldRep_keeps
    | with_reducible apply State.markFailed_keeps
    | with_reducible apply Keeps.ite
    | split

theorem State.runFoldSpareIn_keeps {s0 s : State} (h : Keeps s0 s) (a1 a2) : Keeps s0 (State.runFoldSpareIn a1 a2 s) := by
  unfold State.runFoldSpareIn
  try dsimp only
  repeat' first
    | with_reducible assumption
    | intro _
    | exact SameTide.mk rfl rfl rfl
    | with_reducible apply State.startMove_keeps
    | with_reducible apply State.reply_keeps
    | with_reducible apply Keeps.ite
    | split

theorem State.runHurdleLogLoad_keeps {s0 s : State} (h : Keeps s0 s) (a1 a2) : Keeps s0 (State.runHurdleLogLoad a1 a2 s) := by
  unfold State.runHurdleLogLoad
  try dsimp only
  repeat' first
    | with_reducible assumption
    | intro _
    | exact SameTide.mk rfl rfl rfl
    | with_reducible apply State.defer_keeps
    | with_reducible apply State.hurdleRep_keeps
    | with_reducible apply State.reply_keeps
    | with_reducible apply Keeps.foldl
    | with_reducible apply Keeps.ite
    | split

theorem State.runHurdleLogRead_keeps {s0 s : State} (h : Keeps s0 s) (d : Die) (k : Taken) : Keeps s0 (State.runHurdleLogRead d k s) := by
  unfold State.runHurdleLogRead
  dsimp only
  refine Keeps.ite (State.reply_keeps h _ _ _) ?_
  split
  · exact State.reply_keeps h _ _ _
  · refine Keeps.put (State.answer_keeps (h.modPad _ _ ?_) _ _ _ _ _) _ _
    exact fun _ => SameTide.mk rfl rfl rfl

theorem State.runInjectFault_keeps {s0 s : State} (h : Keeps s0 s) (a1 a2) : Keeps s0 (State.runInjectFault a1 a2 s) := by
  unfold State.runInjectFault
  try dsimp only
  repeat' first
    | with_reducible assumption
    | intro _
    | exact SameTide.mk rfl rfl rfl
    | with_reducible apply State.reply_keeps
    | with_reducible apply State.modFold_keeps
    | with_reducible apply State.injectReport_keeps
    | with_reducible apply Keeps.ite
    | split

theorem State.runMaintRange_keeps {s0 s : State} (h : Keeps s0 s) (a1 a2) : Keeps s0 (State.runMaintRange a1 a2 s) := by
  unfold State.runMaintRange
  try dsimp only
  repeat' first
    | with_reducible assumption
    | intro _
    | exact SameTide.mk rfl rfl rfl
    | with_reducible apply State.defer_keeps
    | with_reducible apply State.reply_keeps
    | with_reducible apply Keeps.ite
    | split

theorem State.runMaintSetway_keeps {s0 s : State} (h : Keeps s0 s) (a1 a2) : Keeps s0 (State.runMaintSetway a1 a2 s) := by
  unfold State.runMaintSetway
  try dsimp only
  repeat' first
    | with_reducible assumption
    | intro _
    | exact SameTide.mk rfl rfl rfl
    | with_reducible apply State.defer_keeps
    | with_reducible apply State.modFold_keeps
    | with_reducible apply State.reply_keeps
    | with_reducible apply Keeps.ite
    | split

theorem State.wakeRetained_keeps {s0 s : State} (h : Keeps s0 s) (a1) : Keeps s0 (State.wakeRetained s a1) := by
  unfold State.wakeRetained
  try dsimp only
  repeat' first
    | with_reducible assumption
    | intro _
    | exact SameTide.mk rfl rfl rfl
    | with_reducible apply State.wakeFold_keeps
    | with_reducible apply Keeps.foldl
    | with_reducible apply Keeps.ite
    | split

theorem State.runMillpondConfig_keeps {s0 s : State} (h : Keeps s0 s) (a1 a2) : Keeps s0 (State.runMillpondConfig a1 a2 s) := by
  unfold State.runMillpondConfig
  try dsimp only
  repeat' first
    | with_reducible assumption
    | intro _
    | exact SameTide.mk rfl rfl rfl
    | with_reducible apply State.wakeRetained_keeps
    | with_reducible apply State.defer_keeps
    | with_reducible apply State.reply_keeps
    | with_reducible apply State.modFold_keeps
    | with_reducible apply Keeps.foldl
    | with_reducible apply Keeps.ite
    | split

theorem State.runNightfoldEnter_keeps {s0 s : State} (h : Keeps s0 s) (a1 a2) : Keeps s0 (State.runNightfoldEnter a1 a2 s) := by
  unfold State.runNightfoldEnter
  try dsimp only
  repeat' first
    | with_reducible assumption
    | intro _
    | exact SameTide.mk rfl rfl rfl
    | with_reducible apply State.defer_keeps
    | with_reducible apply State.reply_keeps
    | with_reducible apply Keeps.modPad
    | with_reducible apply Keeps.foldl
    | with_reducible apply Keeps.ite
    | split

theorem State.runNightfoldProgram_keeps {s0 s : State} (h : Keeps s0 s) (a1 a2) : Keeps s0 (State.runNightfoldProgram a1 a2 s) := by
  unfold State.runNightfoldProgram
  try dsimp only
  repeat' first
    | with_reducible assumption
    | intro _
    | exact SameTide.mk rfl rfl rfl
    | with_reducible apply State.reply_keeps
    | with_reducible apply Keeps.modPad
    | with_reducible apply Keeps.foldl
    | with_reducible apply Keeps.ite
    | split

theorem State.runOppointSet_keeps {s0 s : State} (h : Keeps s0 s) (a1 a2) : Keeps s0 (State.runOppointSet a1 a2 s) := by
  unfold State.runOppointSet
  try dsimp only
  repeat' first
    | with_reducible assumption
    | intro _
    | exact SameTide.mk rfl rfl rfl
    | with_reducible apply State.defer_keeps
    | with_reducible apply State.reply_keeps
    | with_reducible apply State.modEbb_keeps
    | with_reducible apply State.writeSupplies_keeps
    | with_reducible apply Keeps.foldl
    | with_reducible apply Keeps.ite
    | split

theorem State.runPatchLoad_keeps {s0 s : State} (h : Keeps s0 s) (a1 a2) : Keeps s0 (State.runPatchLoad a1 a2 s) := by
  unfold State.runPatchLoad
  try dsimp only
  repeat' first
    | with_reducible assumption
    | intro _
    | exact SameTide.mk rfl rfl rfl
    | with_reducible apply State.reply_keeps
    | with_reducible apply State.modShep_keeps
    | with_reducible apply Keeps.ite

theorem State.runPing_keeps {s0 s : State} (h : Keeps s0 s) (a1 a2) : Keeps s0 (State.runPing a1 a2 s) := by
  unfold State.runPing
  try dsimp only
  repeat' first
    | with_reducible assumption
    | with_reducible apply State.answer_keeps

theorem State.runQueryCharter_keeps {s0 s : State} (h : Keeps s0 s) (a1 a2) : Keeps s0 (State.runQueryCharter a1 a2 s) := by
  unfold State.runQueryCharter
  try dsimp only
  repeat' first
    | with_reducible assumption
    | intro _
    | exact SameTide.mk rfl rfl rfl
    | with_reducible apply State.answer_keeps
    | with_reducible apply State.reply_keeps
    | with_reducible apply Keeps.ite

theorem State.runRegionSet_keeps {s0 s : State} (h : Keeps s0 s) (a1 a2) : Keeps s0 (State.runRegionSet a1 a2 s) := by
  unfold State.runRegionSet
  try dsimp only
  repeat' first
    | with_reducible assumption
    | intro _
    | exact SameTide.mk rfl rfl rfl
    | with_reducible apply State.defer_keeps
    | with_reducible apply State.reply_keeps
    | with_reducible apply State.modShep_keeps
    | with_reducible apply State.envChanged_keeps
    | with_reducible apply State.modRepl_keeps
    | with_reducible apply Keeps.foldl
    | with_reducible apply Keeps.ite
    | split

theorem State.scrubStart_keeps {s0 s : State} (h : Keeps s0 s) (a1 a2 a3 a4 a5 a6) : Keeps s0 (State.scrubStart s a1 a2 a3 a4 a5 a6) := by
  unfold State.scrubStart
  try dsimp only
  repeat' first
    | with_reducible assumption
    | with_reducible apply State.modFold_keeps

theorem State.runScrubRange_keeps {s0 s : State} (h : Keeps s0 s) (a1 a2) : Keeps s0 (State.runScrubRange a1 a2 s) := by
  unfold State.runScrubRange
  try dsimp only
  repeat' first
    | with_reducible assumption
    | intro _
    | exact SameTide.mk rfl rfl rfl
    | with_reducible apply State.defer_keeps
    | with_reducible apply State.reply_keeps
    | with_reducible apply State.scrubStart_keeps
    | with_reducible apply Keeps.foldl
    | with_reducible apply Keeps.ite
    | split

theorem State.runTaken_keeps {s0 s : State} (h : Keeps s0 s) (d : Die) (opc : Nat) (f : Taken → State → State)
    (hf : ∀ k t, Keeps s0 t → Keeps s0 (f k t)) : Keeps s0 (s.runTaken d opc f) := by
  unfold State.runTaken
  split
  · exact h
  · split
    · exact h
    · exact hf _ _ (State.modShep_keeps h _ _)

theorem State.runTtDump_keeps {s0 s : State} (h : Keeps s0 s) (d : Die) (k : Taken) : Keeps s0 (State.runTtDump d k s) := by
  unfold State.runTtDump
  dsimp only
  refine Keeps.ite (State.reply_keeps h _ _ _) (Keeps.ite (State.reply_keeps h _ _ _) (Keeps.ite (Keeps.put ?_ _ _) ?_)) <;>
    exact State.answer_keeps h _ _ _ _ _

theorem State.sample_keeps {s0 s : State} (h : Keeps s0 s) (a1 a2) : Keeps s0 (State.sample s a1 a2) := by
  unfold State.sample
  try dsimp only
  repeat' first
    | with_reducible assumption
    | intro _
    | exact SameTide.mk rfl rfl rfl
    | with_reducible apply State.nfWake_keeps
    | with_reducible apply State.modEbb_keeps
    | with_reducible apply State.stick_keeps
    | with_reducible apply State.writeSupply_keeps
    | with_reducible apply Keeps.modPad
    | with_reducible apply Keeps.ite
    | split

theorem State.scrubReadAt_keeps {s0 s : State} (h : Keeps s0 s) (a1 a2) : Keeps s0 (State.scrubReadAt s a1 a2) := by
  unfold State.scrubReadAt
  try dsimp only
  repeat' first
    | with_reducible assumption
    | intro _
    | exact SameTide.mk rfl rfl rfl
    | with_reducible apply State.pendingRow_keeps
    | with_reducible apply State.wakeFold_keeps
    | with_reducible apply State.putFc_keeps
    | with_reducible apply State.ungate_keeps
    | with_reducible apply Keeps.foldl
    | with_reducible apply Keeps.ite
    | split

theorem State.selfTest_keeps {s0 s : State} (h : Keeps s0 s) (a1 a2 a3) : Keeps s0 (State.selfTest s a1 a2 a3) := by
  unfold State.selfTest
  try dsimp only
  repeat' first
    | with_reducible assumption
    | intro _
    | exact SameTide.mk rfl rfl rfl
    | with_reducible apply State.droverAt_keeps
    | with_reducible apply State.failAtTest_keeps
    | with_reducible apply State.file_keeps
    | with_reducible apply State.bootGo_keeps
    | with_reducible apply State.stepFail_keeps
    | with_reducible apply State.modBoot_keeps
    | with_reducible apply State.failAtWake_keeps
    | with_reducible apply Keeps.ite
    | split

theorem State.tickSluice_keeps {s0 s : State} (h : Keeps s0 s) (a1 a2) : Keeps s0 (State.tickSluice s a1 a2) := by
  unfold State.tickSluice
  try dsimp only
  repeat' first
    | with_reducible assumption
    | with_reducible apply State.modPortOf_keeps

theorem State.sluiceAdmit_keeps {s0 s : State} (h : Keeps s0 s) (a1 a2) : Keeps s0 (State.sluiceAdmit s a1 a2) := by
  unfold State.sluiceAdmit
  try dsimp only
  repeat' first
    | with_reducible assumption
    | intro _
    | exact SameTide.mk rfl rfl rfl
    | with_reducible apply State.tickSluice_keeps
    | with_reducible apply State.admitTxn_keeps
    | with_reducible apply Keeps.ite
    | split

theorem State.snpAnswerAt_keeps {s0 s : State} (h : Keeps s0 s) (a1 a2 a3 a4) : Keeps s0 (State.snpAnswerAt s a1 a2 a3 a4) := by
  unfold State.snpAnswerAt
  try dsimp only
  repeat' first
    | with_reducible assumption
    | intro _
    | exact SameTide.mk rfl rfl rfl
    | with_reducible apply State.dropStray_keeps
    | with_reducible apply State.modStream_keeps
    | with_reducible apply State.dropFlit_keeps
    | with_reducible apply State.gatherAck_keeps
    | with_reducible apply State.atFold_keeps
    | with_reducible apply Keeps.ite
    | split

theorem State.snpArrival_keeps {s0 s : State} (h : Keeps s0 s) (a1 a2 a3) : Keeps s0 (State.snpArrival s a1 a2 a3) := by
  unfold State.snpArrival
  try dsimp only
  repeat' first
    | with_reducible assumption
    | intro _
    | exact SameTide.mk rfl rfl rfl
    | with_reducible apply State.dropStray_keeps
    | with_reducible apply State.dropFlit_keeps
    | with_reducible apply State.gather_keeps
    | with_reducible apply State.refuseFlit_keeps
    | with_reducible apply State.modAgent_keeps
    | with_reducible apply State.modStream_keeps
    | with_reducible apply State.escalate_keeps
    | with_reducible apply Keeps.ite
    | split

theorem State.switchEnd_keeps {s0 s : State} (h : Keeps s0 s) (a1 a2) : Keeps s0 (State.switchEnd s a1 a2) := by
  unfold State.switchEnd
  try dsimp only
  repeat' first
    | with_reducible assumption
    | intro _
    | exact SameTide.mk rfl rfl rfl
    | with_reducible apply State.modFold_keeps
    | with_reducible apply State.admitNow_keeps
    | with_reducible apply State.modRepl_keeps
    | with_reducible apply State.finish_keeps
    | with_reducible apply Keeps.modPad
    | with_reducible apply State.modConf_keeps
    | with_reducible apply Keeps.foldl
    | with_reducible apply Keeps.ite
    | split

theorem State.switchCycleOf_keeps {s0 s : State} (h : Keeps s0 s) (a1) : Keeps s0 (State.switchCycleOf s a1) := by
  unfold State.switchCycleOf
  try dsimp only
  repeat' first
    | with_reducible assumption
    | intro _
    | exact SameTide.mk rfl rfl rfl
    | with_reducible apply State.switchEnd_keeps
    | with_reducible apply State.setTurns_keeps
    | with_reducible apply State.modShep_keeps
    | with_reducible apply State.recheckDue_keeps
    | with_reducible apply Keeps.modPad
    | with_reducible apply State.eventFrom_keeps
    | with_reducible apply State.switchTables_keeps
    | with_reducible apply Keeps.foldl
    | with_reducible apply Keeps.ite
    | split

theorem State.switchCycle_keeps {s0 s : State} (h : Keeps s0 s) : Keeps s0 (State.switchCycle s) := by
  unfold State.switchCycle
  try dsimp only
  repeat' first
    | with_reducible assumption
    | intro _
    | exact SameTide.mk rfl rfl rfl
    | with_reducible apply State.switchCycleOf_keeps
    | with_reducible apply Keeps.foldl
    | with_reducible apply Keeps.ite
    | split

theorem State.takePacket_keeps {s0 s : State} (h : Keeps s0 s) (a1) : Keeps s0 (State.takePacket s a1) := by
  unfold State.takePacket
  try dsimp only
  repeat' first
    | with_reducible assumption
    | intro _
    | exact SameTide.mk rfl rfl rfl
    | with_reducible apply State.reply_keeps
    | with_reducible apply State.modShep_keeps
    | with_reducible apply State.cqCheck_keeps
    | with_reducible apply State.pcount_keeps
    | with_reducible apply State.cqUnstall_keeps
    | with_reducible apply Keeps.ite
    | split

theorem State.trainAgain_keeps {s0 s : State} (h : Keeps s0 s) (a1 a2) : Keeps s0 (State.trainAgain s a1 a2) := by
  unfold State.trainAgain
  try dsimp only
  repeat' first
    | with_reducible assumption
    | intro _
    | exact SameTide.mk rfl rfl rfl
    | with_reducible apply State.modMod_keeps
    | with_reducible apply Keeps.ite

theorem State.trainFailed_keeps {s0 s : State} (h : Keeps s0 s) (a1 a2) : Keeps s0 (State.trainFailed s a1 a2) := by
  unfold State.trainFailed
  try dsimp only
  repeat' first
    | with_reducible assumption
    | intro _
    | exact SameTide.mk rfl rfl rfl
    | with_reducible apply State.modMod_keeps
    | with_reducible apply Keeps.modPad
    | with_reducible apply Keeps.ite

theorem State.turnAt_keeps {s0 s : State} (h : Keeps s0 s) (a1 a2 a3) : Keeps s0 (State.turnAt s a1 a2 a3) := by
  unfold State.turnAt
  try dsimp only
  repeat' first
    | with_reducible assumption
    | intro _
    | exact SameTide.mk rfl rfl rfl
    | with_reducible apply State.abandonFlit_keeps
    | with_reducible apply State.modStream_keeps
    | with_reducible apply State.pcount_keeps
    | with_reducible apply Keeps.ite
    | split

theorem State.unfenceFold_keeps {s0 s : State} (h : Keeps s0 s) (a1 a2) : Keeps s0 (State.unfenceFold s a1 a2) := by
  unfold State.unfenceFold
  try dsimp only
  repeat' first
    | with_reducible assumption
    | with_reducible apply State.unfencePos_keeps

theorem State.moveIn_keeps {s0 s : State} (h : Keeps s0 s) (a1 a2 a3) : Keeps s0 (State.moveIn s a1 a2 a3) := by
  unfold State.moveIn
  try dsimp only
  repeat' first
    | with_reducible assumption
    | intro _
    | exact SameTide.mk rfl rfl rfl
    | with_reducible apply State.hurdleAppend_keeps
    | with_reducible apply State.raceTo_keeps
    | with_reducible apply State.endMove_keeps
    | with_reducible apply Keeps.ite
    | split

theorem State.wakeDone_keeps {s0 s : State} (h : Keeps s0 s) (a1 a2) : Keeps s0 (State.wakeDone s a1 a2) := by
  unfold State.wakeDone
  try dsimp only
  repeat' first
    | with_reducible assumption
    | intro _
    | exact SameTide.mk rfl rfl rfl
    | with_reducible apply State.modFold_keeps
    | with_reducible apply State.finishAll_keeps
    | with_reducible apply State.moveSweep_keeps
    | with_reducible apply State.unfenceFold_keeps
    | with_reducible apply State.modPower_keeps
    | with_reducible apply State.moveFail_keeps
    | with_reducible apply State.startDrain_keeps
    | with_reducible apply State.moveIn_keeps
    | with_reducible apply Keeps.ite
    | split

theorem State.watchdogAt_keeps {s0 s : State} (h : Keeps s0 s) (a1) : Keeps s0 (State.watchdogAt s a1) := by
  unfold State.watchdogAt
  try dsimp only
  repeat' first
    | with_reducible assumption
    | intro _
    | exact SameTide.mk rfl rfl rfl
    | with_reducible apply State.modShep_keeps
    | with_reducible apply State.failTaken_keeps
    | with_reducible apply State.stick_keeps
    | with_reducible apply Keeps.ite

theorem State.waySweepAt_keeps {s0 s : State} (h : Keeps s0 s) (a1 a2) : Keeps s0 (State.waySweepAt s a1 a2) := by
  unfold State.waySweepAt
  try dsimp only
  repeat' first
    | with_reducible assumption
    | intro _
    | exact SameTide.mk rfl rfl rfl
    | with_reducible apply State.runFold_keeps
    | with_reducible apply Keeps.ite
    | split

theorem State.wire_keeps {s0 s : State} (h : Keeps s0 s) (a1 a2 a3 a4) : Keeps s0 (State.wire s a1 a2 a3 a4).1 := by
  unfold State.wire
  try dsimp only
  repeat' first
    | with_reducible assumption
    | intro _
    | exact SameTide.mk rfl rfl rfl
    | with_reducible apply Keeps.modPad
    | with_reducible apply Keeps.ite
    | split

end Sys2Proof.Machine
end

