-- ==== Sys2Proof/Laws/SMap.lean ====
section
/-!
SUPPORT. The laws of the addressed arrays: reading an entry after writing one, and that every write keeps the canonical
form (keys strictly rising, no entry equal to what an unlisted entry reads as), which the arrays have at reset.
-/

namespace Sys2Proof.Machine

variable {α : Type}

/-- A key below every listed key is not listed. -/
theorem smFind_below (m : SMap α) (k : Nat) (h : m.all (fun e => decide (k < e.1)) = true) : smFind m k = none := by
  induction m with
  | nil => rfl
  | cons e t ih =>
    obtain ⟨k', v'⟩ := e
    simp only [List.all_cons, Bool.and_eq_true, decide_eq_true_eq] at h
    simp only [smFind]
    rw [if_neg (by omega), ih h.2]

variable [DecidableEq α]

/-- A write leaves every other entry alone. -/
theorem smFind_smSet_other (m : SMap α) (d : α) (k j : Nat) (v : α) (h : j ≠ k) : smFind (smSet m d k v) j = smFind m j := by
  induction m with
  | nil => by_cases hv : v = d <;> simp [smSet, smFind, hv, h]
  | cons e t ih =>
    obtain ⟨k', v'⟩ := e
    simp only [smSet]
    split
    · split <;> simp [smFind, h]
    · split
      · next e => subst e; split <;> simp [smFind, h]
      · simp only [smFind, ih]

/-- Reading another entry after a write gives what it gave before. -/
theorem smGet_smSet_other (m : SMap α) (d : α) (k j : Nat) (v : α) (h : j ≠ k) : smGet (smSet m d k v) d j = smGet m d j := by
  unfold smGet; rw [smFind_smSet_other m d k j v h]

/-- Reading an entry after writing it gives the value written. -/
theorem smGet_smSet_same (m : SMap α) (d : α) (k : Nat) (v : α) (h : smWf d m = true) : smGet (smSet m d k v) d k = v := by
  induction m with
  | nil => by_cases hv : v = d <;> simp [smSet, smGet, smFind, hv]
  | cons e t ih =>
    obtain ⟨k', v'⟩ := e
    simp only [smWf, Bool.and_eq_true] at h
    simp only [smSet]
    split
    · next lt =>
      split
      · next hv =>
        have : smFind ((k', v') :: t) k = none := by
          refine smFind_below _ _ ?_
          simp only [List.all_cons, Bool.and_eq_true, decide_eq_true_eq]
          refine ⟨lt, ?_⟩
          have := h.1.2
          simp only [List.all_eq_true, decide_eq_true_eq] at this ⊢
          exact fun x hx => by have := this x hx; omega
        unfold smGet; rw [this]; exact hv.symm
      · simp [smGet, smFind]
    · split
      · next e =>
        subst e
        split
        · next hv => unfold smGet; rw [smFind_below t k h.1.2]; exact hv.symm
        · simp [smGet, smFind]
      · next hne =>
        have := ih h.2
        unfold smGet at this ⊢
        simp only [smFind, if_neg hne]
        exact this

/-- The keys of an array after a write are those before and the one written. -/
theorem smSet_all (m : SMap α) (d : α) (k : Nat) (v : α) (p : Nat → Bool) (hm : m.all (fun e => p e.1) = true)
    (hk : p k = true) : (smSet m d k v).all (fun e => p e.1) = true := by
  induction m with
  | nil => by_cases hv : v = d <;> simp [smSet, hv, hk]
  | cons e t ih =>
    obtain ⟨k', v'⟩ := e
    simp only [List.all_cons, Bool.and_eq_true] at hm
    simp only [smSet]
    split
    · split <;> simp [hm.1, hk, hm.2]
    · split
      · split <;> simp [hk, hm.2]
      · simp [hm.1, ih hm.2]

/-- A write keeps the canonical form. -/
theorem smWf_smSet (m : SMap α) (d : α) (k : Nat) (v : α) (h : smWf d m = true) : smWf d (smSet m d k v) = true := by
  induction m with
  | nil => by_cases hv : v = d <;> simp [smSet, smWf, hv]
  | cons e t ih =>
    obtain ⟨k', v'⟩ := e
    have hw := h
    simp only [smWf, Bool.and_eq_true] at h
    simp only [smSet]
    split
    · next lt =>
      split
      · exact hw
      · next hv =>
        have h2 : t.all (fun e => decide (k < e.1)) = true := by
          have := h.1.2
          simp only [List.all_eq_true, decide_eq_true_eq] at this ⊢
          exact fun x hx => by have := this x hx; omega
        simp only [smWf, List.all_cons, Bool.and_eq_true, decide_eq_true_eq]
        exact ⟨⟨hv, lt, h2⟩, ⟨of_decide_eq_true h.1.1, h.1.2⟩, h.2⟩
    · split
      · next e =>
        subst e
        split
        · exact h.2
        · next hv =>
          simp only [smWf, Bool.and_eq_true, decide_eq_true_eq]
          exact ⟨⟨hv, h.1.2⟩, h.2⟩
      · next nlt ne =>
        simp only [smWf, Bool.and_eq_true]
        refine ⟨⟨h.1.1, ?_⟩, ih h.2⟩
        exact smSet_all t d k v (fun j => decide (k' < j)) h.1.2 (by simp; omega)

/-! ### The arrays of a fold -/

/-- Writing a Tally entry keeps the form of every array. -/
theorem Fold.tallyWrite_wf (f : Fold) (g : GateN) (row w : Nat) (tag : BitVec 35) (st : BitVec 2) (h : f.wf = true) :
    (f.tallyWrite g row w tag st).wf = true := by
  simp only [Fold.wf, Bool.and_eq_true, Fold.tallyWrite] at h ⊢
  exact ⟨⟨⟨⟨⟨smWf_smSet _ _ _ _ h.1.1.1.1.1, h.1.1.1.1.2⟩, h.1.1.1.2⟩, h.1.1.2⟩, h.1.2⟩, h.2⟩

/-- Writing an Earmark entry keeps the form of every array. -/
theorem Fold.emPut_wf (f : Fold) (set w : Nat) (r : EmRec) (h : f.wf = true) : (f.emPut set w r).wf = true := by
  unfold Fold.emPut
  split
  · simp only [Fold.wf, Bool.and_eq_true] at h ⊢
    exact ⟨⟨⟨⟨⟨h.1.1.1.1.1, smWf_smSet _ _ _ _ h.1.1.1.1.2⟩, h.1.1.1.2⟩, h.1.1.2⟩, h.1.2⟩, h.2⟩
  · exact h

/-- Writing a set state word keeps the form of every array. -/
theorem Fold.psetPut_wf (f : Fold) (set : Nat) (plru : BitVec 15) (dv : BitVec 17) (h : f.wf = true) :
    (f.psetPut set plru dv).wf = true := by
  simp only [Fold.wf, Bool.and_eq_true, Fold.psetPut] at h ⊢
  exact ⟨⟨⟨⟨⟨h.1.1.1.1.1, h.1.1.1.1.2⟩, h.1.1.1.2⟩, h.1.1.2⟩, smWf_smSet _ _ _ _ h.1.2⟩, h.2⟩

/-- Writing a Pool tag keeps the form of every array. -/
theorem Fold.ptagPut_wf (f : Fold) (set ph : Nat) (r : PoolTagRec) (h : f.wf = true) : (f.ptagPut set ph r).wf = true := by
  have k : ({ f with poolTag := smSet f.poolTag poolTagDflt (set * 17 + ph) r.seal } : Fold).wf = true := by
    simp only [Fold.wf, Bool.and_eq_true] at h ⊢
    exact ⟨⟨⟨⟨⟨h.1.1.1.1.1, h.1.1.1.1.2⟩, smWf_smSet _ _ _ _ h.1.1.1.2⟩, h.1.1.2⟩, h.1.2⟩, h.2⟩
  unfold Fold.ptagPut
  dsimp only
  split
  · exact k
  · exact Fold.psetPut_wf _ _ _ _ k

/-- Writing a Pool line, and invalidating a way, keep the form of every array. -/
theorem Fold.pline_wf (f : Fold) (set ph : Nat) (tag : BitVec 32) (d : LineData) (dirty poison : Bool) (h : f.wf = true) :
    (f.pline set ph tag d dirty poison).wf = true := by
  unfold Fold.pline
  refine Fold.ptagPut_wf _ _ _ _ ?_
  simp only [Fold.wf, Bool.and_eq_true] at h ⊢
  exact ⟨⟨⟨⟨⟨h.1.1.1.1.1, h.1.1.1.1.2⟩, h.1.1.1.2⟩, smWf_smSet _ _ _ _ h.1.1.2⟩, h.1.2⟩, h.2⟩

theorem Fold.pinval_wf (f : Fold) (set ph : Nat) (h : f.wf = true) : (f.pinval set ph).wf = true :=
  Fold.ptagPut_wf _ _ _ _ h

/-- The addressed arrays are in canonical form at reset. -/
theorem reset_memory_wf : Memory.wf State.reset = true := by
  unfold Memory.wf
  simp only [Vector.all_eq_true]
  decide

end Sys2Proof.Machine
end

