-- ==== Sys2Proof/Tests/Slice0.lean ====
section
/-!
SUPPORT. Small checks of the model: the worked examples of the spec; the operand checks of `Instr.wf`; and, for every statement
with hypotheses, a state and operands that meet them (one theorem `hyp_<Statement>`, a clause a line).
-/

open Sys2Proof Sys2Proof.Machine

namespace Sys2Proof.Tests

set_option maxRecDepth 8000
set_option Elab.async false

/-! ### A small state -/

/-- A Range of one die, position 0, past start-up, every domain on, HCLK running. -/
def demo : State := State.reset.modPad 0 fun q => { q with
  boot := { q.boot with poreset := false, step := 10, ready := true }
  ebb := { q.ebb with hclkReq := true, hclkAck := true, pswReq := 0xFFF, pswAck := 0xFFF, iso := 0 }
  repl := { q.repl with present := 1, leader := 0, formed := true } }

/-- Paddock 0 of a state. -/
def pd (s : State) : Paddock := s.pad 0

/-- Physical fold 0 of paddock 0. -/
def fd (s : State) : Fold := (s.pad 0).folds[(0 : PFold)]

/-- The next state, or the state itself. -/
def after (c : Instr) (s : State) : State := match exec c s with
  | .next t => t
  | _ => s

/-- The demo with paddock 0 changed. -/
def padS (f : Paddock → Paddock) : State := demo.modPad 0 f

/-- The demo with physical fold 0 changed. -/
def foldS (f : Fold → Fold) : State := demo.modFold 0 0 f

/-! ### Worked examples of the spec -/

/-- The Range planned for positions 0, 1, 4 and 5, with the default die table (01, the example after R24). -/
def exRepl : Repl := { (State.reset.pad 0).repl with dietab := Vector.ofFn fun i => ([0, 1, 4, 5] : List Die).getD (i.val % 4) 0 }

def exAddr : Addr := 0x84C3A91C0

theorem test_home_of_example : dieOf (exRepl.home exAddr) = 4 ∧ lfoldOf (exRepl.home exAddr) = 0 ∧
    (pkgFold (exRepl.home exAddr)).val = 16 := by decide +kernel

/-- 01, the example of agent numbers: Stile 5 and logical fold 2 on position 6. -/
theorem test_agent_numbers : portAgent 6 (stileAgent 5) = 781 ∧ foldAgent 6 2 = 834 := by decide +kernel

/-- 04, the example after R114: Tally row 657 and tag 0x4261D; Earmark set 6,384 and tag 0x4261. -/
theorem test_tally_of_example : ({ State.reset.krovol with sets := 1 } : Krovol).rowOfLine (lineOf exAddr) = 657 ∧
    tallyTag (lineOf exAddr) = 0x4261D := by decide +kernel

theorem test_earmark_of_example : emSet (lineOf exAddr) = 6384 ∧ emTag (lineOf exAddr) = 0x4261 := by decide +kernel

/-- 06, the example after R142: Pool set 3,666 and tag 0x84C3, and back. -/
theorem test_pool_of_example : poolSet (lineOf exAddr) = 3666 ∧ poolTag (lineOf exAddr) = 0x84C3 ∧
    lineOfPool 0 3666 0x84C3 = lineOf exAddr := by decide +kernel

/-- 06, the example after R147. -/
theorem test_plru_of_example : plruVictim 4 0 (fun _ => true) 1 0 = 0 ∧ plruTouch 4 0 1 0 = 0x008B ∧
    plruVictim 4 0x008B (fun _ => true) 1 0 = 8 ∧ plruTouch 4 8 1 0x008B = 0x08AE ∧
    plruVictim 4 0x08AE (fun _ => true) 1 0 = 4 ∧ plruVictim 4 0x0005 (fun w => decide (w < 12)) 1 0 = 8 := by decide +kernel

/-- 12, the example after R330: the record of a Pool data row, its low 56 bits. -/
theorem test_hurdle_record_of_example : (hurdleRec 1 2 1 5 28 1311 1 43800).extractLsb' 0 56 = 0x00015631A3E394A1 := by
  decide +kernel

/-- 15, the example after R426: the reply to FOLD_POWER with TAG 0x1F and SEQ 0x123. -/
theorem test_reply_of_example : replyWords 0x10 0x1F 0 0x123 .done [] = [0x0407C110, 0x00012300] := by decide +kernel

/-- 18, the example after R470: PKG_FOLDMAP of a die whose logical fold 2 moved to physical fold 4. -/
theorem test_foldmap_of_example :
    foldmapWord { exRepl with present := 0x33, foldmap := vmod exRepl.foldmap 4 fun m => { m with pfold := #v[0, 1, 4, 3] } } 4
      = 0x00023410 := by decide +kernel

/-- 18, the example after R487: PAD_ACCESS_CAP of a GUEST write at 0x0C8_3000. -/
theorem test_capture_of_example : capWord { via := 0, dom := 3, strb := 15, bar0 := false } 0x0C83000 true = 0x9CC83000 := by
  decide +kernel

/-- 16, the example after R441: offset 0x1000_1FE0 of window 1 is Range address 0x8_4000_1FE0. -/
theorem test_window_of_example :
    ({ State.reset.tether with aperLog2 := 32, win := vset State.reset.tether.win 1 { enable := true, sizeLog2 := 28, aperOff := 0x100, target := 0x40000000, targetHi := 8 } }
      : Tether).window 0x10001FE0 32 = some 0x840001FE0 := by decide +kernel

/-- 07, the example after R182: a 16-byte CAS at line offset 0x10 has its swap at 16 and its cmp at 48. -/
theorem test_cas_operands_of_example : (16 : Nat) ^^^ 32 = 48 ∧
    operandAt (((5 : LineData) <<< 128) ||| ((9 : LineData) <<< 384)) 16 16 = 5 ∧
    operandAt (((5 : LineData) <<< 128) ||| ((9 : LineData) <<< 384)) (16 ^^^ 32) 16 = 9 := by decide +kernel

/-- 02, the worked fill: DL is D[19:4] = 0x296 for D = 10,600, and a fold takes it up to 15 ns early (11 R289). -/
theorem test_deadline_of_example : (10600 / 16 : Nat) % 65536 = 0x296 ∧ deadlineFrom 0x296 10000 = 10592 := by decide +kernel

/-- 02, the worked fill: the REQ flit of the example, field by field at its bits, and the Comp with GRANT E. -/
theorem test_flits_of_example :
    let w := (Flit.req { op := .getOwned, src := portAgent 4 (gateAgent 2), tgt := foldAgent 4 0, txid := 0x05A, cls := 0, dl := 0x296
                         addr := 0x84C3A91C0, vway := 5, vvalid := true, vdirty := true, len := 64, asize := 3 }).word
    w % 2 ^ 128 = 0x02 + 0x202 * 2 ^ 6 + 0x240 * 2 ^ 16 + 0x05A * 2 ^ 26 + 0x296 * 2 ^ 40 + 0x84C3A91C0 * 2 ^ 56 +
      5 * 2 ^ 113 + 2 ^ 117 + 2 ^ 118 ∧ sealOk 128 w = true ∧ sealOk 128 (w ^^^ 2 ^ 60) = false ∧
    (Flit.rsp { op := .comp, src := foldAgent 4 0, tgt := portAgent 4 (gateAgent 2), txid := 0x05A, aux := 0x017, state := .e
                data := true, ackreq := true }).word % 2 ^ 64 =
      3 + 0x240 * 2 ^ 4 + 0x202 * 2 ^ 14 + 0x05A * 2 ^ 24 + 0x017 * 2 ^ 36 + 2 * 2 ^ 48 + 2 ^ 50 + 2 ^ 51 := by decide +kernel

/-! ### Operand checks -/

theorem smoke_memoryReadTlp : (Instr.memoryReadTlp 0xFFC 8 0).wf = false ∧ (Instr.memoryReadTlp 0xFFC 4 0).wf = true := by
  decide +kernel

theorem smoke_memoryWriteTlp : (Instr.memoryWriteTlp 0xFFF [none, none] false).wf = false ∧
    (Instr.memoryWriteTlp 0 (List.replicate 513 none) false).wf = false ∧
    (Instr.memoryWriteTlp 0xFFF [none] false).wf = true := by decide +kernel

/-- A Length of 0 is 1,024 DWs, which only a read from the start of a 4 KiB block can ask for (16 R442). -/
theorem smoke_bar0Access : (Instr.bar0Access 4 0 none 0 0).wf = false ∧ (Instr.bar0Access 0xFFC 2 none 0 0).wf = false ∧
    (Instr.bar0Access 0 129 (some 0) 0 0).wf = false ∧ (Instr.bar0Access 0 0 none 0 0).wf = true := by decide +kernel

theorem smoke_charterRead : (Instr.charterRead 4 0 0).wf = false ∧ (Instr.charterRead 0xFFC 2 0).wf = false ∧
    (Instr.charterRead 0 0 0).wf = true := by decide +kernel

theorem smoke_linkUp : (Instr.linkUp 6 16 true).wf = false ∧ (Instr.linkUp 3 3 true).wf = false ∧
    (Instr.linkUp 5 16 true).wf = true := by decide +kernel

theorem smoke_l1Entry : (Instr.l1Entry 0).wf = false ∧ (Instr.l1Entry 2).wf = true := by decide +kernel

/-- A link report that names no substate changes nothing. -/
theorem smoke_l1Entry_runs : exec (.l1Entry 0) State.reset = .next State.reset := by rfl
/-! ### Hypotheses met: the queue, time, start-up -/

theorem hyp_IdleStepIsOneCycle : demo.pending = [] ∧ (demo.pad 0).running = true ∧ (demo.pad 1).running = false := by
  decide +kernel

theorem hyp_StepKeepsTideInInterval : demo.TideOk ∧ ∃ t, step demo = .next t := ⟨by decide +kernel, _, rfl⟩

theorem hyp_TideNeverGoesBack : demo.pending.head? ≠ some .poresetAssert ∧
    ({ demo with pending := [.lclkTick] } : State).pending.head? ≠ some .poresetAssert := by decide +kernel

theorem hyp_CommandsKeepParametersQueueAndTime : Instr.ping 0 ≠ .lclkTick ∧ Instr.ping 0 ≠ .poresetAssert := by
  decide +kernel

theorem hyp_HomeOfAnAddress :
    let r : Repl := { exRepl with regions := vset exRepl.regions 0 { base := 0, limit := 0x1000, attr := { enable := true, local' := true, homeDie := 5 } } }
    (r.attrOf 0xFFF).local' = true ∧ (r.attrOf 0x1000).local' = false := by decide +kernel

/-- Paddock 1 released and dark beside the demo. -/
def two : State := demo.modPad 1 fun q => { q with boot := { q.boot with poreset := false } }

theorem hyp_ResetsAndReleases_1 : (two.pad 1).Released ∧ two.krovol.tether ≠ some 1 ∧ (two.pad 1).ebb.autoAcc = [] ∧
    ∀ q : QN, ((two.pad 1).shep.cq[q]).stalled = [] := by decide +kernel

theorem hyp_ResetsAndReleases_2 : two.Unlinked 1 := fun _ x _ m _ =>
  (by decide +kernel : ∀ (x : Die) (m : ModN), ((two.pad x).conf.mod[m]).state ≠ .up) x m

theorem hyp_ResetsAndReleases_3 :
    (State.reset.pad 0).boot.poreset = true ∧ State.reset.planned 0 = true ∧ (State.reset.pad 0).ebb.Dark ∧
    State.reset.planned 7 = false ∧ (demo.pad 0).boot.poreset = false ∧
    (let s := two.modPad 1 fun q => { q with boot := { q.boot with padreset := true } }
     (s.pad 1).boot.padreset = true ∧ (s.pad 1).boot.poreset = false ∧ (s.pad 1).ebb.Dark) := by decide +kernel

/-- Paddock 0 in a step of start-up, which has failed once. -/
def bootS (n : BitVec 4) (f : Boot → Boot) : State := padS fun q => { q with
  boot := f { q.boot with step := n }, aon := { q.aon with ticks := 1000, stepFails := Vector.replicate 16 1 } }

/-- Word 0 of the answers of checker 0 wrong: it accepts no vector. -/
def badAnswers : List (BitVec 4 × BitVec 64) := [(0, 0)]

theorem hyp_StartupFailsAndRetries :
    (∀ req : Bool,
      let s := bootS 4 fun b => { b with fuseReq := req, fuseAck := !req }
      ((s.pad 0).boot.fuseReq = true ∨ (s.pad 0).boot.fuseAck = true) ∧ (s.pad 0).boot.step = 4 ∧ (s.pad 0).boot.backoff = false ∧
      (s.pad 0).boot.fuseTick + 1000 ≤ (s.pad 0).aon.ticks) ∧
    (let s := (bootS 7 id).modPad 0 fun q => { q with ebb := { q.ebb with hclkAck := false } }
     (s.pad 0).boot.step = 7 ∧ (s.pad 0).boot.backoff = false ∧ (s.pad 0).ebb.hclkReq = true ∧ (s.pad 0).ebb.hclkAck = false) ∧
    (firstBadChecker badAnswers).isSome = true ∧
    (∀ again : Bool,
      let s := bootS 5 fun b => { b with a02Filed := again }
      (s.pad 0).boot.step = 5 ∧ (s.pad 0).boot.backoff = false ∧ (s.pad 0).Released ∧ (s.pad 0).domOn domSD = true ∧
      bitAt (s.pad 0).boot.selfTested 5 = false ∧ (s.pad 0).boot.a02Filed = again) ∧
    (let s := bootS 4 fun b => { b with backoff := true, failTick := 1 }
     (s.pad 0).Released ∧ (s.pad 0).boot.backoff = true ∧
     (s.pad 0).aon.ticks < (s.pad 0).boot.failTick + 1000 * min (2 ^ ((s.pad 0).stepFails - 1)) 1000) ∧
    ∀ n ∈ [(4 : BitVec 4), 7],
      let s := bootS n fun b => { b with backoff := true }
      (s.pad 0).Released ∧ (s.pad 0).boot.backoff = true ∧ (s.pad 0).boot.step = n ∧
      (s.pad 0).boot.failTick + 1000 * min (2 ^ ((s.pad 0).stepFails - 1)) 1000 ≤ (s.pad 0).aon.ticks := by decide +kernel

theorem hyp_StartupPasses :
    (∀ rise : Bool,
      let s := bootS 4 fun b => { b with fuseReq := rise, fuseAck := !rise, fuseWords := [0, 0, 0, 0, 0, 0] }
      (s.pad 0).Released ∧ (s.pad 0).boot.backoff = false ∧ (s.pad 0).boot.step = 4 ∧ (s.pad 0).boot.fuseReq = rise ∧
      (s.pad 0).boot.fuseAck = !rise ∧ (s.pad 0).boot.fuseWords.length < 8) ∧
    (let s := bootS 5 id
     (s.pad 0).Released ∧ (s.pad 0).domOn (domFL 4) = true ∧ (s.pad 0).domOn (domFA 4) = true ∧ (s.pad 0).boot.step = 5 ∧
     bitAt (s.pad 0).boot.selfTested 4 = false ∧ firstBadChecker [] = none) ∧
    (let s := bootS 6 fun b => { b with selfTested := 63 }
     (s.pad 0).domOn (domFL 4) = true ∧ (s.pad 0).domOn (domFA 4) = true ∧ (s.pad 0).boot.step = 6 ∧
     bitAt (s.pad 0).boot.selfTested 4 = true ∧ bitAt (s.pad 0).boot.arrayInit 4 = false ∧ (s.pad 0).hurdle.queued = [] ∧
     bitAt (s.pad 0).boot.arrayInit 5 = false) ∧
    ∀ hold : Bool,
      let s := (bootS 7 fun b => { b with bootMode := hold, bootHold := hold }).modPad 0 fun q => { q with
        ebb := { q.ebb with hclkAck := false }, repl := { q.repl with formed := false } }
      (s.pad 0).Released ∧ (s.pad 0).boot.step = 7 ∧ (s.pad 0).boot.backoff = false ∧ (s.pad 0).ebb.hclkReq = true ∧
      (s.pad 0).ebb.hclkAck = false ∧ s.inRange 0 = false ∧ (s.pad 0).boot.bootMode = hold := by decide +kernel

/-- What `Granted` asks, as a check. -/
def grantedB (s : State) (w : Who) (a : RegAddr) (t : Target) (write : Bool) : Bool :=
  decide ((s.pad w.via).boot.poreset = false ∧ (s.pad w.via).rp.busy = false ∧ s.target w.via a = t ∧
    (write = true → w.strb = 15) ∧ a.toNat % 4 = 0 ∧ s.krovol.laid t.block t.off = true ∧
    (s.pad t.srv).repl.permits (t.block.priv t.off) write w.dom = true ∧ t.absent = false ∧
    s.asleep { w with bar0 := false } t = none)

theorem granted_of {s : State} {w : Who} {a : RegAddr} {t : Target} {write : Bool} (h : grantedB s w a t write = true) :
    s.Granted w a t write := by
  obtain ⟨h1, h2, h3, h4, h5, h6, h7, h8, h9⟩ := of_decide_eq_true h
  exact ⟨h1, h2, h3, h4, h5, h6, h7, h8, h9⟩

/-- The access of a GUARD master at register port 0. -/
def W : Who := { via := 0, dom := 0, strb := 15, bar0 := false }

theorem hyp_StartupPasses_release :
    let s := bootS 7 fun b => { b with bootHold := true }
    s.Granted W 0x5008 ⟨.boot, 0x5008, 0, false⟩ true ∧ bitAt (1 : Word) 0 = true ∧ (s.pad 0).boot.bootHold = true :=
  ⟨granted_of (by decide +kernel), by decide +kernel, by decide +kernel⟩

/-! ### Hypotheses met: assembly, links, the Range -/

theorem hyp_AssemblyFormsTheRange_1 :
    (let s := padS fun q => { q with boot := { q.boot with step := 8 }, aon := { q.aon with ticks := 50000 } }
     (s.pad 0).Released ∧ (s.pad 0).boot.frozen = none ∧ s.krovol.asmDeadline * 1000 ≤ (s.pad 0).aon.ticks ∧
     (s.pad 0).boot.step = 8) ∧
    (let s := padS fun q => { q with boot := { q.boot with step := 7 }, aon := { q.aon with ticks := 50000 } }
     (s.pad 0).boot.frozen = none ∧ (s.pad 0).boot.step ≠ 8) ∧
    (demo.pad 0).aon.ticks < demo.krovol.asmDeadline * 1000 := by decide +kernel

/-- Paddock 0 with its view frozen, at a tick. -/
def assembled (tick : Nat) : State := padS fun q => { q with
  boot := { q.boot with step := 9, frozen := some (50000, 0) }, repl := { q.repl with formed := false, present := 0 }
  aon := { q.aon with ticks := tick } }

theorem hyp_AssemblyFormsTheRange_2 :
    (assembled 50000).ranges = [(0, 1)] ∧ ((assembled 50000).pad 0).aon.ticks ≤ (assembled 50000).krovol.asmDeadline * 1000 ∧
    (assembled 50001).ranges = [(0, 1)] ∧ (assembled 50001).krovol.asmDeadline * 1000 < ((assembled 50001).pad 0).aon.ticks := by
  decide +kernel

/-- Two paddocks that run, the module between them in a state. -/
def pair (st : ModState) (f : EdgeStat → EdgeStat) (g : ModStat → ModStat) : State :=
  let conf (q : Paddock) (i : Fin 3) : Paddock := { q with conf := { q.conf with
    mod := q.conf.mod.map fun x => g { x with state := st }, edge := vmod q.conf.edge i f } }
  let on (q : Paddock) : Paddock := { q with
    boot := { q.boot with poreset := false, step := 10 }
    ebb := { q.ebb with hclkReq := true, hclkAck := true, pswReq := 0xFFF, pswAck := 0xFFF, iso := 0 } }
  (demo.modPad 0 fun q => conf q 1).modPad 1 fun q => conf (on q) 0

theorem hyp_ModulesTrainFailAndGoDown :
    (let s := padS fun q => { q with conf := { q.conf with mod := q.conf.mod.map fun x => { x with state := .training } }
                                     repl := { q.repl with formed := false } }
     s.ModuleOn 0 0 .east ∧ ((s.pad 0).conf.mod[(0 : ModN)]).state = .training ∧
     (2 : Rate).val ≤ ((s.krovol.maxRate[(0 : Die)])[(0 : ModN)]).val ∧
     ((s.pad 0).conf.edge[edgeNo .east]).inUse = false ∧ s.inRange 0 = false ∧ (s.pad 0).aon.hlog.length < 128) ∧
    (∀ used : Bool, ∀ st ∈ [ModState.training, .up],
      let s := pair st (fun e => { e with inUse := used }) id
      s.ModuleOn 0 0 .east ∧ s.leadOf 0 = some 0 ∧ ((s.pad 0).conf.mod[(0 : ModN)]).state = st ∧
      (2 : Rate).val ≤ ((s.krovol.maxRate[(0 : Die)])[(0 : ModN)]).val ∧ ((s.pad 0).conf.edge[edgeNo .east]).inUse = used) ∧
    (let s := pair .waiting id id
     s.ModuleOn 0 0 .east ∧ ((s.pad 0).conf.mod[(0 : ModN)]).state = .waiting) ∧
    ∀ used : Bool,
      let s := pair .up (fun e => { e with inUse := used }) id
      s.ModuleOn 0 0 .east ∧ ((s.pad 0).conf.mod[(0 : ModN)]).state = .up ∧
      ((s.pad 0).conf.edge[edgeNo .east]).inUse = used ∧
      ∀ n ∈ s.krovol.modsOn 0 .east, n ≠ 0 → ((s.pad 0).conf.mod[n]).state ≠ .up := by decide +kernel

def someRsp : RspFlit := { op := .compAck, src := agent 0 1, tgt := foldAgent 1 0, txid := 3 }
def someCross : CrossItem := { ring := .xcw, ret := false, flit := some (.rsp someRsp), resv := none }

/-- A Confluence flit with a RSP flit in its slot 6. -/
def oneRsp (seq : BitVec 12) : ConfFlit := { seq := seq, slots := [(.rsp, someCross)] }

/-- The demo pair, Confluence flit `f` on the wire to module 0. -/
def wired (f : ConfFlit) : State := pair .up id fun x => { x with wire := [f] }

/-- A flit whose check fails; one whose SEQ is out of turn; one that is sound; one with a hurt ring flit. -/
theorem hyp_ConfluenceFlitChecked :
    ((wired (oneRsp 1)).ModuleOn 0 0 .east ∧ (((wired (oneRsp 1)).pad 0).conf.mod[(0 : ModN)]).wire = oneRsp 1 :: [] ∧
     sealOk 2032 (sealed 2032 ((oneRsp 1).body (hurtOf [])) ^^^ 1 % 2 ^ 2048) = false) ∧
    (((oneRsp 5).heard 0 (hurtOf [])).map fun x => x.1) = some 5 ∧
      (5 : BitVec 12) ≠ (((wired (oneRsp 5)).pad 0).conf.mod[(0 : ModN)]).seqRx + 1 ∧
    (((oneRsp 1).heard 0 (hurtOf [])).map fun x => (x.1, x.2.all fun i => i.flit.isSome)) = some (1, true) ∧
      (1 : BitVec 12) = (((wired (oneRsp 1)).pad 0).conf.mod[(0 : ModN)]).seqRx + 1 ∧
    (((oneRsp 1).heard 0 (hurtOf [(6, 1)])).map fun x => (x.1, x.2.any fun i => i.flit == none)) = some (1, true) := by
  decide +kernel

theorem hyp_EdgesBufferAndSend :
    (let s := pair .up (fun e => { e with inUse := true, acc := 1024, buf := vset e.buf 2 [someCross] }) id
     s.ModuleOn 0 0 .east ∧ s.krovol.facingMod 0 0 = some (1, 0) ∧ ((s.pad 0).conf.edge[edgeNo .east]).inUse = true ∧
     ((s.pad 0).conf.mod[(0 : ModN)]).state = .up ∧ ((s.pad 1).conf.mod[(0 : ModN)]).state = .up ∧
     ((s.pad 0).conf.edge[edgeNo .east]).maySend = true ∧ ((s.pad 0).conf.edge[edgeNo .east]).nextSlots ≠ []) ∧
    (let x : RingSlot := { net := .rsp, ring := .xcw, stage := 16, flit := some (.rsp someRsp) }
     let s := (pair .up (fun e => { e with inUse := true }) id).modPad 0 fun q => { q with stream := { q.stream with
       slots := [x], turnE := false } }
     (s.pad 0).running = true ∧ (s.pad 0).stream.openEdge 0 .xcw false = some .east ∧ (s.pad 0).stream.slot .rsp .xcw 16 = some x) := by decide +kernel

theorem hyp_LeaderSwitchesRechecksAndAnnounces :
    (let w : EpochSwitch := { start := 0, present := 3, forOp := none }
     let s := (padS fun q => { q with aon := { q.aon with tideFx := 12000 * 2 ^ 24 } }).modShep 0 fun x => { x with sw := some w }
     s.leaders = [0] ∧ (s.pad 0).shep.sw = some w ∧ w.forOp = none ∧ w.start + 12000 ≤ (s.pad 0).now) ∧
    (let w : EpochSwitch := { start := 1, present := 3, forOp := none }
     let s := (padS fun q => { q with aon := { q.aon with tideFx := 12000 * 2 ^ 24 } }).modShep 0 fun x => { x with sw := some w }
     s.leaders = [0] ∧ (s.pad 0).shep.sw = some w ∧ (s.pad 0).now < w.start + 12000) ∧
    (let s := demo.modShep 0 fun x => { x with recheck := some 7 }
     s.leaders = [0] ∧ (s.pad 0).shep.recheck = some 7) ∧
    ∀ said : Bool,
      let s := ((pair .up id id).modPad 1 fun q => { q with boot := { q.boot with step := 9 } }).modPad 0 fun q => { q with
        repl := { q.repl with readyDies := if said then 2 else 0 } }
      s.inRange 0 = true ∧ s.member 0 1 = false ∧ s.planned 1 = true ∧ neighbour 0 .east = some 1 ∧ s.edgeUp 0 .east = true ∧
      s.edgeUp 1 (facing .east) = true ∧ 9 ≤ (s.pad 1).boot.step.toNat ∧ bitAt (s.pad 0).conf.fenced 1 = false ∧
      bitAt (s.pad 0).repl.readyDies 1 = said := by decide +kernel

/-- The switch of a DIE_JOIN of die 1, and of a DIE_FENCE of it. -/
theorem hyp_LeaderSwitchesRechecksAndAnnounces_ends :
    ∀ c ∈ [(DefKind.join 1 true, (1 : BitVec 8), (3 : BitVec 8), false), (.fence 1 3, 3, 1, true)],
      let o : Deferred := { id := 0, pkt := { q := 0, opc := 0x50, tag := 1, pri := 0, quiet := false, seq := 0, params := [] }, kind := c.1 }
      let w : EpochSwitch := { start := 0, present := c.2.2.1, forOp := some 0 }
      let s := (padS fun q => { q with
        aon := { q.aon with tideFx := 12000 * 2 ^ 24 }, repl := { q.repl with present := c.2.1 } }).modShep 0 fun x => { x with
          sw := some w, deferred := [o] }
      s.leaders = [0] ∧ (s.pad 0).shep.sw = some w ∧ w.forOp = some o.id ∧ (s.pad 0).shep.deferred = [o] ∧
      w.start + 12000 ≤ (s.pad 0).now ∧ ((s.pad 0).shep.rq[o.pkt.q]).Empty ∧ o.pkt.quiet = false ∧ s.member 0 1 = c.2.2.2 ∧
      w.present = putBit (s.pad 0).repl.present 1 (!c.2.2.2) := by decide +kernel

/-! ### Hypotheses met: the Stream -/

/-- A flit at a ford position of paddock 0 on X clockwise. -/
def flitAt (s : State) (net : Net) (f : Flit) (pos : Fin 16) : State := s.modPad 0 fun q => { q with stream := { q.stream with
  slots := [{ net := net, ring := .xcw, stage := stageOf .xcw pos.val, flit := some f }] } }

/-- The spot of the ford of physical fold 0. -/
def A : Spot := .ring .xcw 2

def req (op : ReqOp) (src : AgentId) : ReqFlit :=
  { op := op, src := src, tgt := foldAgent 0 0, txid := 5, cls := 1, dl := 0, addr := 0x4000, len := 8, asize := 3 }

/-- A Gate with every place of its snoop inbox taken. -/
def fullInbox (f : SnpFlit) : List SnpIn := (List.range 16).map fun i => { stag := BitVec.ofNat 4 i, flit := f }

def snoop : SnpFlit := { op := .share, src := foldAgent 0 0, tgt := agent 0 1, txid := 9, laddr := 5 }

def pens (n : Nat) : List PenItem := (List.range n).map fun i =>
  { pen := penOf 0 (req .getOnce (agent 0 1)), flit := { req .getOnce (agent 0 1) with txid := BitVec.ofNat 12 i }, port := 0
    arrive := 0, df := 0, af := 100000 }

theorem hyp_RequestsAndSnoopsArrive_1 : ∀ full : Bool,
    let f := req .getOnce (agent 0 1)
    let s := flitAt (foldS fun x => { x with pens := if full then pens 200 else [] }) .req (.req f) 2
    s.Stands 0 .req A (.req f) ∧ isFold f.tgt = true ∧ posFold (spotPos A) = some 0 ∧
    ((s.pad 0).ebb.fold[(0 : PFold)]).gated = false ∧ s.fenced 0 (spotPos A) = false ∧
    (s.pad 0).now < abandonFrom (s.pad 0).repl f (s.pad 0).now ∧
    ((fd s).penRoom (penOf 0 f) (f.rev == 31)).isNone = full ∧ (full = false → (fd s).portTakes (spotPort A) f = true) ∧
    (fd s).refuseReq = false := by decide +kernel

theorem hyp_RequestsAndSnoopsArrive_2 : ∀ full : Bool,
    let s := flitAt (padS fun q => { q with gates := vmod q.gates 1 fun g => { g with
      snpIn := if full then fullInbox snoop else [] } }) .snp (.snp snoop) 4
    let a : Spot := .ring .xcw 4
    let l := ((s.pad 0).gates[(1 : GateN)]).snpIn
    s.Stands 0 .snp a (.snp snoop) ∧ snoop.muster = false ∧ snoop.tgt = agent 0 1 ∧ s.fenced 0 (spotPos a) = false ∧
    (inboxRoom 16 ((l.filter fun x => !x.kept).length) ((l.filter fun x => x.kept).length) (snoop.rev == 31)).isNone = full := by
  decide +kernel

/-- The demo with Stiles 0 and 1 on position 0. -/
def stiled : State := { demo with krovol := { demo.krovol with stiles := vset demo.krovol.stiles 0 2 } }

/-- The demo with a culvert at the ford of physical fold 0, and a flit there. -/
def culverted (net : Net) (f : Flit) : State :=
  (flitAt demo net f 2).modEbb 0 fun e => { e with culvertEn := putBit e.culvertEn 2 true }

theorem hyp_BadFlits :
    (let f : Flit := .req (req .getOnce (agent 0 1))
     let s := flitAt demo .req f 2
     (s.pad 0).stream.at' .req A = some f ∧ f.heard 1 = none ∧ s.arrived 0 .req A false = .badCrc) ∧
    let f := { snoop with tgt := agent 0 10 }
    (flitAt stiled .snp (.snp f) 3).arrived 0 .snp (.ring .xcw 3) true = .noAgent (.snp f) ∧ dieOf f.src = 0 := by decide +kernel

/-- A flit for an agent of the ford, for another die, and for a fold that is not configured; with none, nothing stands there. -/
theorem hyp_Culverts :
    (demo.pad 0).stream.at' .rsp A = none ∧ demo.culvert 0 (spotPos A) = false ∧
    (∀ tgt ∈ [foldAgent 0 0, foldAgent 1 0, agent 0 72],
      let f : Flit := .rsp { someRsp with tgt := tgt }
      let s := culverted .rsp f
      (s.pad 0).running = true ∧ (s.pad 0).stream.at' .rsp A = some f ∧ s.culvert 0 (spotPos A) = true) ∧
    (Flit.rsp someRsp).heard 1 = none ∧
    (let f : Flit := .rsp { someRsp with tgt := foldAgent 0 0 }
     dieOf f.tgt = 0 ∧ (culverted .rsp f).destPos 0 f = spotPos A ∧ demo.krovol.configured f.tgt = true) ∧
    dieOf (Flit.rsp someRsp).tgt ≠ 0 ∧
    (let f : Flit := .snp { snoop with tgt := foldAgent 0 0 }
     dieOf f.tgt = 0 ∧ (culverted .snp f).destPos 0 f = spotPos A ∧ demo.krovol.configured f.tgt = true) := by decide +kernel

/-- A flit for a Stile that is not configured meets the culvert of its position. -/
theorem hyp_Culverts_stray :
    let f : Flit := .rsp { someRsp with tgt := agent 0 10 }
    let s := flitAt demo .rsp f 3
    (s.pad 0).running = true ∧ (s.pad 0).stream.at' .rsp (.ring .xcw 3) = some f ∧ s.culvert 0 3 = true ∧ dieOf f.tgt = 0 ∧
    s.destPos 0 f = 3 ∧ s.krovol.configured f.tgt = false ∧ localOf f.tgt ≠ 124 := by decide +kernel

theorem hyp_CulvertWakesTheFold : ∀ st ∈ [FoldState.retain, .off],
    let f : SnpFlit := { snoop with tgt := foldAgent 0 0 }
    let s := (culverted .snp (.snp f)).modEbb 0 fun e => { e with
      fold := vmod e.fold 0 fun x => { x with state := st, waking := none } }
    (s.pad 0).running = true ∧ (s.pad 0).stream.at' .snp A = some (.snp f) ∧ s.culvert 0 (spotPos A) = true ∧
    dieOf (Flit.snp f).tgt = 0 ∧ s.destPos 0 (.snp f) = spotPos A ∧ s.krovol.configured f.tgt = true ∧
    posFold (spotPos A) = some 0 ∧ ((s.pad 0).repl.carries 0 0).isSome = true ∧ (s.power 0 0).waking = none ∧
    (s.power 0 0).state = st := by decide +kernel

/-- A flit for a die of the other row. -/
def upFlit : Flit := .rsp { someRsp with tgt := agent 4 0 }

theorem hyp_FlitsTurnInjectAndReserve_1 : ∀ n ∈ [3, 4],
    let t : TurnItem := { net := .rsp, pos := 0, toY := true, flit := upFlit, since := 0 }
    let s := (flitAt demo .rsp upFlit 0).modPad 0 fun q => { q with stream := { q.stream with turns := List.replicate n t } }
    (s.pad 0).running = true ∧ (s.pad 0).stream.at' .rsp (.ring .xcw 0) = some upFlit ∧ stageOf .xcw 0 = 0 ∧
    s.mustTurn 0 .xcw upFlit = true ∧
    ((s.pad 0).stream.turns.filter fun t => t.net == .rsp && t.pos == 0 && t.toY == ringX .xcw).length = n := by decide +kernel

def anItem (f : Flit) : InjItem := { net := .rsp, pos := 2, agent := foldAgent 0 0, cls := 1, flit := f, since := 0 }

theorem hyp_FlitsTurnInjectAndReserve_2 :
    (let i := anItem (.rsp { someRsp with tgt := agent 0 1 })
     let s := padS fun q => { q with stream := { q.stream with inj := [i] } }
     (s.pad 0).running = true ∧ s.nextInject 0 .rsp 2 (some .xcw) = some (.item i) ∧ s.dammed 0 .rsp .xcw = false ∧
     (s.pad 0).stream.slot .rsp .xcw (stageOf .xcw 2) = none) ∧
    (let i : InjItem := { anItem (.rsp { someRsp with tgt := agent 0 9 }) with pos := 3, agent := agent 0 8 }
     let s := stiled.modPad 0 fun q => { q with stream := { q.stream with inj := [i] } }
     (s.pad 0).running = true ∧ s.nextInject 0 .rsp 3 none = some (.item i)) ∧
    (let i := anItem (.rsp { someRsp with tgt := agent 0 1 })
     let x : RingSlot := { net := .rsp, ring := .xcw, stage := stageOf .xcw 2, flit := some (.rsp someRsp), resv := none }
     let s := padS fun q => { q with stream := { q.stream with inj := [i], slots := [x] }, aon := { q.aon with hcycle := 64 } }
     (s.pad 0).running = true ∧ (s.pad 0).stream.slot .rsp .xcw (stageOf .xcw 2) = some x ∧ x.flit.isSome = true ∧ x.resv = none ∧
     s.dammed 0 .rsp .xcw = false ∧ i ∈ s.candidates 0 .rsp 2 (some .xcw) ∧
     i.since + max 1 (s.pad 0).stream.starve.toNat ≤ (s.pad 0).aon.hcycle ∧
     ∀ y, (s.pad y).holdsMark .rsp .xcw (0, 2) = false) := by decide +kernel

theorem hyp_SluiceAdmitsAndFenceAcks :
    (let s := padS fun q => { q with stream := { q.stream with hold := true } }
     (s.pad 0).running = true ∧ (s.pad 0).stream.hold = true) ∧
    (let t : Txn := { seq := 0, flit := { req .getOnce (agent 0 127) with txid := 5 }, stamp := 0, deadline := 100, abandon := 200
                      purpose := .job 7, mtype := .normalNC }
     let s := demo.modShep 0 fun x => { x with port := { x.port with txns := [t] } }
     let p := (s.pad 0).shep.port.tick (s.pad 0).now
     (s.pad 0).running = true ∧ (s.pad 0).domOn domSH = true ∧ (s.pad 0).stream.hold = false ∧ p.pick p.hasCredit = some t) ∧
    ∀ pos ∈ [(2 : Fin 16), 3],
      let s := padS fun q => { q with
        ebb := { q.ebb with fenceReq := putBit 0 pos.val true }
        stream := { q.stream with inj := [{ net := .rsp, pos := pos.val, agent := foldAgent 0 0, cls := 1
                                            flit := .rsp someRsp, since := 0, held := true }] } }
      bitAt (s.pad 0).ebb.fenceReq pos.val = true ∧ bitAt (s.pad 0).ebb.fenceAck pos.val = false ∧
      (s.pad 0).ebb.nf ≠ .step3 ∧ (posFold pos.val = some 0 ↔ pos = 2) ∧ (posFold pos.val = none ↔ pos = 3) ∧
      (∀ i ∈ (s.pad 0).stream.inj, i.pos = pos.val → i.held = true) ∧ ∀ h ∈ (s.pad 0).stream.hand, h.pos ≠ pos := by
  decide +kernel

/-! ### Hypotheses met: folds -/

def item (f : ReqFlit) : PenItem := { pen := penOf 0 f, flit := f, port := 0, arrive := 0, df := 10, af := 100000 }

/-- Fold 0 with one request in its pens, its data there where it carries any. -/
def asked (f : ReqFlit) : State := foldS fun x => { x with
  pens := [item f]
  inbox := if f.op.carriesData then [{ op := .pushData, src := f.src, tgt := foldAgent 0 0, txid := 5, payload := 0x1234 }] else [] }

/-- What `Serves` asks, as a check. -/
def servesB (s : State) (d : Die) (p : PFold) (it : PenItem) : Bool :=
  let f := (s.pad d).folds[p]
  decide ((s.pad d).foldRuns p = true ∧ ((s.pad d).repl.carries d p).isSome = true ∧
    (f.pens = [it] ∧ (f.drain = false ∧ f.ftHalt = false ∧ f.ttStop = false ∧ f.ttHead.same = true ∧ f.ttTail.same = true) ∧
      (f.tt = [] ∧ f.mrs = [] ∧ f.eddy = [] ∧ f.memQ = [] ∧ f.mpOpen = [] ∧ f.emReserved = [] ∧ f.fixes = [] ∧ f.unblocked = []) ∧
      (f.tally = [] ∧ f.unsure = [] ∧ f.shadow = [] ∧ f.em = [] ∧ f.emSuspect = [] ∧ f.emDropped = 0 ∧ f.pred = []) ∧
      (f.poolTag = [] ∧ f.poolData = [] ∧ f.poolSet = [] ∧ f.poolLost = []) ∧ it.shadowHold = false) ∧
    it.flit.bad = false ∧
    (it.notBefore ≤ (s.pad d).aon.hcycle ∧ f.shadowFrom ≤ (s.pad d).aon.hcycle ∧ f.pullFrom ≤ (s.pad d).aon.hcycle) ∧
    (s.pad d).outHeld p = false ∧ (s.pad d).repl.mpSlot it.flit.addr = none ∧
    ((s.fc d p).namesWay it.flit = true → it.flit.vway.toNat < s.krovol.ways) ∧
    (it.flit.op.carriesData = true → (f.datOf it.flit).isSome = true))

theorem serves_of {s : State} {d : Die} {p : PFold} {it : PenItem} (h : servesB s d p it = true) : s.Serves d p it := by
  obtain ⟨h1, h2, ⟨b1, b2, b3, b4, b5, b6⟩, h4, h5, h6, h7, h8, h9⟩ := of_decide_eq_true h
  exact ⟨h1, h2, ⟨b1, b2, b3, b4, b5, b6⟩, h4, h5, h6, h7, h8, h9⟩

theorem hyp_Serves : ∀ op ∈ [ReqOp.getShared, .getOwned, .getOnce, .upgrade, .pushIO, .atomicOp, .claim, .pushFull, .putDirty,
    .putCopy, .putClean, .sweep, .purge, .sweepPurge],
    let f := req op (agent 0 1)
    (asked f).Serves 0 0 (item f) ∧ (item f).flit.op = op := by
  intro op h
  have : servesB (asked (req op (agent 0 1))) 0 0 (item (req op (agent 0 1))) = true ∧ (item (req op (agent 0 1))).flit.op = op := by
    revert op; decide +kernel
  exact ⟨serves_of this.1, this.2⟩

theorem hyp_PullTakesTheLowestRank : ((asked (req .getOnce (agent 0 1))).fc 0 0).pull = some (item (req .getOnce (agent 0 1))) := by
  decide +kernel

theorem hyp_WritesCommitAndAtomicsOperate :
    (fd (asked (req .pushFull (agent 0 1)))).datOf (req .pushFull (agent 0 1)) =
      some { op := .pushData, src := agent 0 1, tgt := foldAgent 0 0, txid := 5, payload := 0x1234 } ∧
    (let f := { req .atomicOp (agent 0 1) with atop := 0 }
     f.op = .atomicOp ∧ f.bad = false ∧ asizeBytes f.asize = some 8) := by decide +kernel

theorem hyp_MaintenanceActsByOpcode :
    let r : PoolTagRec := ⟨0, true, true, false, false, dataCrc 0x77, 0⟩
    let c := (foldS fun f => { f with poolTag := [(5 * 17 + 3, r)], poolData := [(5 * 17 + 3, 0x77)] }).fc 0 0
    c.f.ptag 5 3 = r ∧ r.valid = true ∧ r.dirty = true ∧ r.poison = false ∧ r.dcrc = dataCrc (c.f.pdata 5 3) := by decide +kernel

theorem hyp_DeviceAndMalformedRequests :
    (∀ op ∈ [ReqOp.devRead, .devWrite],
      let f := req op (agent 0 1)
      let s := asked f
      (s.pad 0).foldRuns 0 = true ∧ ((s.pad 0).repl.carries 0 0).isSome = true ∧ (s.fc 0 0).pull = some (item f) ∧ f.bad = false ∧
      (s.pad 0).repl.mpSlot f.addr = none ∧ (s.fc 0 0).ttRoom f = true ∧ freeIdx (fd s) = some 0 ∧ (fd s).ttHead.same = true ∧
      (fd s).ttTail.same = true ∧
      (op = .devWrite → ((fd s).datOf f).isSome = true)) ∧
    ∀ x ∈ [(ReqOp.reserved 30, (8 : BitVec 7), (3 : BitVec 3)), (.getOnce, 0, 3), (.pushIO, 65, 3), (.atomicOp, 8, 5)],
      let f := { req x.1 (agent 0 1) with len := x.2.1, asize := x.2.2 }
      let s := asked f
      (s.fc 0 0).pull = some (item f) ∧ f.bad = true ∧ (fd s).tt = [] ∧ (freeIdx (fd s)).isSome = true ∧ (fd s).ttHead.same = true ∧
      (fd s).ttTail.same = true := by decide +kernel

/-- An entry that waits for two snoop answers. -/
def entry : TTEntry :=
  { idx := 3, flit := req .getOwned (agent 0 1), line := lineOf 0x4000, phase := .snoop, ms := .waiting
    waits := [.agent (agent 1 0), .agent (agent 0 2)], sent := [.agent (agent 1 0), .agent (agent 0 2)], couldDirty := true
    snpOp := .claim, af := 99999 }

def withE (e : TTEntry) : State := foldS fun f => { f with tt := [e] }

def answer (op : RspOp) (data : Bool) : RspFlit := { op := op, src := agent 0 2, tgt := foldAgent 0 0, txid := 3, data := data }

theorem entry_waits (o : ReqOp) : TTEntry.AwaitsAnswers { entry with flit := req o (agent 0 1) } :=
  ⟨rfl, ⟨rfl, rfl, rfl⟩, rfl, rfl⟩

theorem hyp_FoldsTakeAnswersAndData :
    (∀ r ∈ [answer .snpAck true, answer .snpAckWB false],
      let s := flitAt (withE entry) .rsp (.rsp r) 2
      s.FoldAt 0 A 0 ∧ (fd s).tt = [entry] ∧ s.Stands 0 .rsp A (.rsp r) ∧ isFold r.tgt = true ∧ r.txid.toNat = entry.idx.val ∧
      SnpTarget.agent r.src ∈ entry.waits ∧ (∃ x ∈ entry.waits, x ≠ .agent r.src) ∧ localOf r.src ≠ 124) ∧
    (let e := { entry with phase := .ackwait }
     let r := { answer .compAck false with src := agent 0 1 }
     let s := flitAt (withE e) .rsp (.rsp r) 2
     s.FoldAt 0 A 0 ∧ (fd s).tt = [e] ∧ s.Stands 0 .rsp A (.rsp r) ∧ isFold r.tgt = true ∧ r.txid.toNat = e.idx.val ∧
     e.flit.src = r.src ∧ (fd s).ttHead.same = true ∧ (fd s).ttTail.same = true) ∧
    (∀ o ∈ [ReqOp.getOwned, .pushIO],
      let e := { entry with flit := req o (agent 0 1) }
      let x : DatFlit := { op := .snpData, src := agent 0 2, tgt := foldAgent 0 0, txid := 3, payload := 7 }
      let s := flitAt (withE e) .dat (.dat x) 2
      s.FoldAt 0 A 0 ∧ (fd s).tt = [e] ∧ s.Stands 0 .dat A (.dat x) ∧ isFold x.tgt = true ∧ x.txid.toNat = e.idx.val ∧
      e.waits ≠ [] ∧ e.sent ≠ [] ∧ e.row.ownCommit = decide (o = .pushIO)) ∧
    ∀ op ∈ [DatOp.putData, .pushData], ∀ dead : Bool,
      let x : DatFlit := { op := op, src := agent 0 2, tgt := foldAgent 0 0, txid := 3, payload := 7 }
      let s := flitAt (foldS fun f => { f with deadDat := if dead then [(agent 0 2, 3)] else [] }) .dat (.dat x) 2
      s.FoldAt 0 A 0 ∧ s.Stands 0 .dat A (.dat x) ∧ isFold x.tgt = true ∧ (fd s).deadDat.contains (x.src, x.txid) = dead := by
  decide +kernel

/-- A line write that is issued; its read answered from the write before it; the responses. -/
theorem hyp_MemoryPortServesTheFold :
    (let m : MemReq := { op := .lineWrite, cls := 1, line := 9, data := 5, purpose := .eddy }
     let s := foldS fun f => { f with memQ := [m], eddy := [{ line := 9, data := 5, dcrc := dataCrc 5, poison := false }] }
     let u := s.modFold 0 0 fun f => { f with memFrom := 1 }
     (s.pad 0).foldRuns 0 = true ∧ ((s.pad 0).repl.carries 0 0).isSome = true ∧ (fd s).nextMem = some (.issue m) ∧
     (fd s).freeTag = some 0 ∧ (s.fc 0 0).writeData m = (s.fc 0 0, 5, false) ∧ (fd s).memFrom ≤ (s.pad 0).aon.hcycle ∧
     (u.pad 0).foldRuns 0 = true ∧ (fd u).nextMem = some (.issue m) ∧ (fd u).freeTag = some 0 ∧
     (u.fc 0 0).writeData m = (u.fc 0 0, 5, false) ∧ (u.pad 0).aon.hcycle < (fd u).memFrom) ∧
    (let r : MissReg := { idx := 7, line := entry.line, cls := 1, wpolicy := 0, atts := [3] }
     let w : MemReq := { op := .lineWrite, cls := 2, line := entry.line, data := 5, purpose := .commit }
     let m : MemReq := { op := .lineRead, cls := 1, line := entry.line, purpose := .mr 7 }
     let s := (withE { entry with mr := some 7 }).modFold 0 0 fun f => { f with memQ := [w, m], mrs := [r] }
     (fd s).nextMem = some (.answer m w) ∧ (s.fc 0 0).writeData w = (s.fc 0 0, 5, false) ∧
     FC.setLost { s.fc 0 0 with f := { fd s with memQ := (fd s).memQ.erase m }, atype := entry.atype } r = false) ∧
    (demo.pad 0).repl.pfoldOf 0 0 = some 0 ∧ (demo.pad 0).portRuns 0 = true ∧
    (let m : MemReq := { op := .lineWrite, cls := 1, line := 9, data := 5, purpose := .eddy }
     let x : EddyRec := { line := 9, data := 5, dcrc := dataCrc 5, poison := false }
     let s := foldS fun f => { f with mpOpen := [(4, m)], eddy := [x] }
     (fd s).mpOpen = [(4, m)] ∧ (fd s).eddy = [x] ∧ x.line = m.line ∧ (fd s).tt = []) ∧
    (let e := { entry with flit := req .devRead (agent 0 1), phase := .data, devOut := true, ms := .unneeded }
     let m : MemReq := { op := .devRead, cls := 1, line := entry.line, purpose := .dev 3 }
     let s := (withE e).modFold 0 0 fun f => { f with mpOpen := [(4, m)] }
     (fd s).mpOpen = [(4, m)] ∧ m.purpose = .dev e.idx ∧ (fd s).tt = [e] ∧ (fd s).ttHead.same = true ∧
     (fd s).ttTail.same = true) ∧
    (let m : MemReq := { op := .lineRead, cls := 1, line := entry.line, purpose := .mr 7 }
     let r : MissReg := { idx := 7, line := entry.line, cls := 1, wpolicy := 0, atts := [3] }
     let s := (withE { entry with mr := some 7 }).modFold 0 0 fun f => { f with mpOpen := [(4, m)], mrs := [r] }
     (fd s).mpOpen = [(4, m)] ∧ m.purpose = .mr r.idx ∧ (fd s).mrs = [r] ∧ r.stale = false ∧ r.scrub = false ∧ r.rider = none ∧
     r.atts = [entry.idx] ∧ entry.waits ≠ [] ∧ entry.couldDirty = true ∧
     FC.setLost { s.fc 0 0 with f := { fd s with mpOpen := [] }, atype := entry.atype } r = false) := by
  decide +kernel

theorem hyp_FoldTimesRunOut :
    (let s := padS fun q => { q with ebb := { q.ebb with fold := vmod q.ebb.fold 0 fun y => { y with target := .doze } } }
     let x := (s.pad 0).ebb.fold[(0 : PFold)]
     (s.pad 0).running = true ∧ x.target = .doze ∧ x.state = .run ∧ x.gated = false ∧ s.foldBusy 0 0 = false) ∧
    (∀ late : Bool,
      let s := (withE { entry with shareBy := 9 }).modPad 0 fun q => { q with aon := { q.aon with tideFx := (if late then 9 else 8) * 2 ^ 24 } }
      (s.pad 0).foldRuns 0 = true ∧ (fd s).tt = [{ entry with shareBy := 9 }] ∧ decide (9 ≤ (s.pad 0).now) = late) ∧
    ∀ late : Bool,
      let it := item (req .getOnce (agent 0 1))
      let s := (asked it.flit).modPad 0 fun q => { q with aon := { q.aon with tideFx := (if late then 100000 else 99999) * 2 ^ 24 } }
      (s.pad 0).foldRuns 0 = true ∧ (fd s).pens = [it] ∧ decide (it.af ≤ (s.pad 0).now) = late := by decide +kernel

/-! ### Hypotheses met: registers and queues -/

theorem hyp_RegisterPortAnswersInOrder :
    ((demo.pad 1).boot.poreset = true ∧ (demo.pad 0).boot.poreset = false ∧ (demo.pad 0).rp.busy = false) ∧
    (demo.target 0 2).absent = false ∧ (2 : RegAddr).toNat % 4 ≠ 0 ∧
    (demo.target 0 (padAddr 3 0x140018)).absent = true ∧
    (let s := padS fun q => { q with ebb := { q.ebb with pswAck := putBit q.ebb.pswAck 0 false
                                                         fold := vmod q.ebb.fold 0 fun x => { x with state := .retain, target := .retain } } }
     s.asleep W (s.target 0 (foldAddr 0 0 0x4000)) = some (0, 0) ∧ (s.pad 0).autoWakes 0 0 = false) ∧
    (let t := demo.target 0 0x3000010
     t.absent = false ∧ demo.asleep W t = none ∧ demo.krovol.laid t.block t.off = false ∧ (demo.pad t.srv).bell.unlocked = false) := by
  decide +kernel

theorem hyp_ReadsReturnAndCapture :
    let s := foldS fun f => { f with peekIdx := 6 }
    let r (a : RegAddr) (t : Target) : Prop := s.Granted W a t false
    r 0 ⟨.repl, 0, 0, false⟩ ∧ r 0x94 ⟨.repl, 0x94, 0, false⟩ ∧ r 0x3024 ⟨.repl, 0x3024, 0, false⟩ ∧
    r 0x3000 ⟨.repl, 0x3000, 0, false⟩ ∧ r 0x3004 ⟨.repl, 0x3004, 0, false⟩ ∧
    r (padAddr 0 0x300064) ⟨.ebb 0, 0x64, 0, false⟩ ∧ r (queueAddr 0x10000 63 8) ⟨.queue, 0x20 * 63 + 8, 0, false⟩ ∧
    r 0x20000 ⟨.tether, 0, 0, false⟩ ∧ r (sluiceAddr 0 3 3 0) ⟨.stream 0, 0x1000 + 15 * 8, 0, false⟩ ∧
    r (padAddr 0 0x340000 + 0x40 + 8 * 7) ⟨.foldCensus 0 0, 0x40 + 8 * 7, 0, false⟩ ∧
    r (foldAddr 0 0 0x4024) ⟨.fold 0 0, 0x4024, 0, false⟩ ∧
    (smGet ((s.ungate 0 0).pad 0).folds[(0 : PFold)].pred predDflt 6).ok = true :=
  ⟨granted_of (by decide +kernel), granted_of (by decide +kernel), granted_of (by decide +kernel), granted_of (by decide +kernel),
   granted_of (by decide +kernel), granted_of (by decide +kernel), granted_of (by decide +kernel), granted_of (by decide +kernel),
   granted_of (by decide +kernel), granted_of (by decide +kernel), granted_of (by decide +kernel), by decide +kernel⟩

theorem hyp_WritesReachTheirFields :
    let w (a : RegAddr) (t : Target) : Prop := demo.Granted W a t true
    w (sluiceAddr 0 3 3 0) ⟨.stream 0, 0x1000 + 15 * 8, 0, false⟩ ∧ w (sluiceAddr 0 0 0 4) ⟨.stream 0, 0x1004, 0, false⟩ ∧
    w (foldAddr 0 4 0x4000) ⟨.fold 0 4, 0x4000, 0, false⟩ ∧ w (padAddr 0 0x3400A4) ⟨.foldCensus 0 0, 0xA4, 0, false⟩ ∧
    w (padAddr 0 0x3C001C) ⟨.bell 0, 0x1C, 0, false⟩ ∧ w (padAddr 0 0x300058) ⟨.ebb 0, 0x58, 0, false⟩ ∧
    w 0 ⟨.repl, 0, 0, false⟩ ∧ w (padAddr 0 0x140018) ⟨.common 0, 0x18, 0, false⟩ ∧
    w (padAddr 0 0x28C000) ⟨.gate 0 3, 0, 0, false⟩ :=
  ⟨granted_of (by decide +kernel), granted_of (by decide +kernel), granted_of (by decide +kernel), granted_of (by decide +kernel),
   granted_of (by decide +kernel), granted_of (by decide +kernel), granted_of (by decide +kernel), granted_of (by decide +kernel),
   granted_of (by decide +kernel)⟩

theorem hyp_ReplicatedWritesReachEveryMember :
    demo.inRange W.via = true ∧ demo.Granted W 0x08 ⟨.repl, 0x08, 0, false⟩ true ∧ demo.Granted W 0x84 ⟨.repl, 0x84, 0, false⟩ true ∧
    demo.Granted W 0xBC ⟨.repl, 0xBC, 0, false⟩ true :=
  ⟨by decide +kernel, granted_of (by decide +kernel), granted_of (by decide +kernel), granted_of (by decide +kernel)⟩

/-- Queue pair 63 of the leader. -/
theorem hyp_PushesBuildAndCommitPackets_1 : ((demo.pad 0).shep.cq[(63 : QN)]).same = true ∧
    demo.Granted W (queueAddr 0x10000 63 0) ⟨.queue, 0x20 * 63, 0, false⟩ true ∧
    demo.Granted W (queueAddr 0x10000 63 4) ⟨.queue, 0x20 * 63 + 4, 0, false⟩ true :=
  ⟨by decide +kernel, granted_of (by decide +kernel), granted_of (by decide +kernel)⟩

def goodPacket : List Word := [0x00000101#32, (packetCrc [0x00000101, 0x12340000]).setWidth 32 ||| 0x12340000]

theorem hyp_PushesBuildAndCommitPackets_2 :
    (let x := ((demo.modCq 0 63 fun y => { y with ringMode := true }).pad 0).shep.cq[(63 : QN)]
     x.ringMode = true) ∧
    (let x := ((demo.modCq 0 63 fun y => { y with packets := List.replicate 8 (List.replicate 64 0) }).pad 0).shep.cq[(63 : QN)]
     x.ringMode = false ∧ x.free = 0) ∧
    (let x := ((demo.modCq 0 63 fun y => { y with flushed := some (demo.pad 0).aon.hcycle }).pad 0).shep.cq[(63 : QN)]
     x.same = true ∧ x.ringMode = false ∧ x.words = [] ∧ x.flushed = some (demo.pad 0).aon.hcycle) ∧
    (∀ n ∈ [0, 1, 63, 64],
      let x := ((demo.modCq 0 63 fun y => { y with words := List.replicate n 0 }).pad 0).shep.cq[(63 : QN)]
      x.same = true ∧ x.ringMode = false ∧ x.flushed = none ∧ x.free ≠ 0 ∧ x.stalled = [] ∧ x.words.length = n) ∧
    packetOk ([0x00000101] ++ [goodPacket.getLastD 0]) = true ∧ packetOk ([] ++ [0]) = false := by decide +kernel

theorem hyp_QueuesFlushAndPop :
    demo.Granted W (queueAddr 0x10000 63 0x0C) ⟨.queue, 0x20 * 63 + 0x0C, 0, false⟩ true ∧
    demo.Granted W (queueAddr 0x11000 63 0x0C) ⟨.queue, 0x1000 + 0x20 * 63 + 0x0C, 0, false⟩ true ∧
    demo.Granted W (queueAddr 0x12000 31 0x08) ⟨.queue, 0x2000 + 0x20 * 31 + 0x08, 0, false⟩ true ∧
    demo.Granted W (queueAddr 0x11000 63 0) ⟨.queue, 0x1000 + 0x20 * 63, 0, false⟩ false ∧
    demo.Granted W (queueAddr 0x12000 31 0) ⟨.queue, 0x2000 + 0x20 * 31, 0, false⟩ false ∧
    ((demo.pad 0).shep.cq[(63 : QN)]).same = true ∧ ((demo.pad 0).shep.cq[(63 : QN)]).stalled = [] ∧
    ((demo.pad 0).shep.rq[(63 : QN)]).same = true ∧ ((demo.pad 0).shep.eq[(31 : EQN)]).same = true :=
  ⟨granted_of (by decide +kernel), granted_of (by decide +kernel), granted_of (by decide +kernel), granted_of (by decide +kernel),
   granted_of (by decide +kernel), by decide +kernel, by decide +kernel, by decide +kernel, by decide +kernel⟩

/-- The oldest reply of lowest PRI is popped, whichever stands before it. -/
theorem test_pop_takes_lowest_pri :
    let s := demo.modRq 0 9 fun y => { y with replies := [⟨2, [1, 2]⟩, ⟨1, [3, 4]⟩, ⟨1, [5, 6]⟩] }
    let t := after (.rqPop W 9) s
    (t.pad 0).rp.rdata = 3 ∧ ((t.pad 0).shep.rq[(9 : QN)]).current = [4] := by decide +kernel

/-! ### Hypotheses met: Gates and Stiles -/

/-- The demo with every line homed on its own die, and Stile 2 configured. -/
def lone : State :=
  { demo with krovol := { demo.krovol with stiles := vset demo.krovol.stiles 0 3 } }.modPad 0 fun q => { q with
    repl := { q.repl with dietab := Vector.replicate 64 0 }, aon := { q.aon with hcycle := 1000, tideFx := 5000 * 2 ^ 24 } }

/-- Gate 1 as an agent. -/
def G : AgentN := gateAgent 1

def gateS (f : AgentPort → AgentPort) : State := lone.modPad 0 fun q => { q with gates := vmod q.gates 1 f }

def txn (op : ReqOp) : Txn :=
  { seq := 0, flit := req op (agent 0 1), stamp := 0, deadline := 100, abandon := 200, purpose := .agent 7 (some 1), mtype := .normalNC }

def access (k : ItemKind) (a : Addr) (len : BitVec 7) : ReqItem :=
  { kind := k, addr := a, len := len, mtype := .normalNC, core := some 1, ctag := 7, victimWay := 0, victimValid := false
    victimDirty := false, atop := 0, asize := 0 }

/-- Gate 1's port. -/
def port (s : State) : AgentPort := (s.pad 0).agent G

theorem hyp_GateOpensStampedTransactions :
    let r := (lone.pad 0).repl
    let there (x : Addr) : Prop := bitAt r.present (dieOf (r.home x)).val = true ∧
      bitAt (lone.pad 0).conf.unreach (dieOf (r.home x)).val = false ∧
      (r.pfoldOf (dieOf (r.home x)) (lfoldOf (r.home x))).isSome = true
    (lone.AgentIs 0 G (port lone) ∧ (port lone).Quiet ∧ r.formed = true ∧ lone.member 0 0 = true ∧ r.leaving = 0) ∧
    (lone.krovol.devwinOf 0x4030 = none ∧ there 0x4030 ∧ there (lineAddr (lineOf 0x4030 + 1)) ∧
      (port lone).port.freeTxid = some 0 ∧ (port lone).port.txns = []) ∧
    offOf (0x4030 : Addr) + (16 : BitVec 7).toNat ≤ 64 ∧ 64 < offOf (0x4030 : Addr) + (17 : BitVec 7).toNat ∧
    (let w : DevWin := { base := 0, limit := 0x100000, agent := agent 0 9, enable := true }
     let s := { lone with krovol := { lone.krovol with devwin := vset lone.krovol.devwin 0 w } }
     (s.krovol.devwinOf 0x4030).isSome = true ∧ s.AgentIs 0 G (port s)) := by decide +kernel

theorem hyp_AgentsAnswerThroughTheirPorts :
    (let i : SnpIn := { stag := 3, flit := snoop }
     let s := gateS fun g => { g with snpIn := [i] }
     s.AgentIs 0 G (port s) ∧ (port s).Quiet ∧ (port s).snpIn = [i] ∧ i.acked = none) ∧
    (let r : RspFlit := { op := .comp, src := foldAgent 0 0, tgt := agent 0 1, txid := 5, aux := 3, state := .e, ackreq := true }
     let t := { txn .getOwned with comp := some r }
     let s := gateS fun g => { g with port := { g.port with txns := [t] } }
     s.AgentIs 0 G (port s) ∧ (port s).Quiet ∧ (port s).port.txns = [t] ∧ t.purpose = .agent 7 (some 1) ∧ t.comp = some r ∧
     t.answered = true) ∧
    ∀ ph ∈ [TxnPhase.waiting, .injected],
      let t := { txn .pushIO with phase := ph }
      let s := gateS fun g => { g with port := { g.port with txns := [t] } }
      s.AgentIs 0 G (port s) ∧ (port s).Quiet ∧ (port s).port.txns = [t] ∧ t.flit.op.carriesData = true ∧ t.haveData = false := by
  decide +kernel

theorem hyp_GateBuffersBarriersAndCancels :
    (∀ n ∈ [488, 489],
      let e : CbEntry := { line := 0x100, data := 77, be := BitVec.allOnes 64, cores := 3, alloc := n }
      let s := gateS fun g => { g with cb := [e] }
      let a := port s
      let tgt := (s.pad 0).repl.home (lineAddr e.line)
      s.AgentIs 0 G a ∧ a.cb = [e] ∧ a.rob = [] ∧ a.bars = [] ∧ a.stores = [] ∧ a.dataIn = [] ∧ e.draining = false ∧
      decide (e.alloc + 512 ≤ (s.pad 0).aon.hcycle) = decide (n = 488) ∧ a.port.freeTxid = some 0 ∧
      (s.pad 0).repl.absent (s.pad 0).conf.unreach 0 tgt false = false ∧ 0 < a.port.credits[pkgFold tgt]) ∧
    (port lone).port.txns = [] ∧
    (let s := gateS fun g => { g with port := { g.port with txns := [txn .pushIO], nextSeq := 1 } }
     let x := txn .pushIO
     s.AgentIs 0 G (port s) ∧ (port s).Quiet ∧ x ∈ (port s).port.txns.filter (fun t => t.purpose.core == some 1) ∧
     x.seq < (port s).port.nextSeq ∧ x.flit.op = .pushIO ∧ x.comp = none ∧ x.ordered = false) ∧
    (let lo := { txn .getOnce with purpose := .half 7 (some 1) false }
     let up := { txn .getOnce with purpose := .half 7 (some 1) true, flit := { req .getOnce (agent 0 1) with txid := 6 } }
     let s := gateS fun g => { g with port := { g.port with txns := [lo, up] } }
     s.AgentIs 0 G (port s) ∧ (port s).Quiet ∧ (port s).port.txns = [lo, up] ∧ lo.flit.txid ≠ up.flit.txid ∧
     up.phase = .waiting) := by decide +kernel

theorem hyp_StileServesItsDevice :
    let n : StileN := 2
    let i : DevAcc := { flit := { req .devRead (agent 0 1) with tgt := agent 0 10 }, data := none, limit := 5000 }
    let st (f : AgentPort → AgentPort) : State := lone.modPad 0 fun q => { q with stiles := vmod q.stiles 2 f }
    let a (s : State) : AgentPort := (s.pad 0).agent (stileAgent n)
    (let s := st fun x => { x with devQ := [i] }
     s.AgentIs 0 (stileAgent n) (a s) ∧ (a s).devQ = i :: [] ∧ (a s).freeDevTag = some 0 ∧ (a s).devOpen.length < 32) ∧
    (let s := st fun x => { x with devOpen := [(4, i)] }
     s.AgentIs 0 (stileAgent n) (a s) ∧ (a s).devOpen = [(4, i)] ∧ (a s).devDead = [] ∧ (a s).devQ = [] ∧ i.limit ≤ (s.pad 0).now) ∧
    (let s := st fun x => { x with devDead := [(4, i)] }
     s.AgentIs 0 (stileAgent n) (a s) ∧ (a s).devDead = [(4, i)]) := by decide +kernel

theorem hyp_PortsTakeAnswersAndKeepTimes :
    (∀ late : Bool, ∀ op ∈ [RspOp.comp, .ordered, .err],
      let t := { txn .getOnce with deadline := if late then 5000 else 5001 }
      let r : RspFlit := { op := op, src := foldAgent 0 0, tgt := agent 0 1, txid := 5, ecode := 3 }
      let s := flitAt (gateS fun g => { g with port := { g.port with txns := [t] } }) .rsp (.rsp r) 4
      s.AgentIs 0 G (port s) ∧ (port s).Quiet ∧ (port s).port.txns = [t] ∧ t.purpose = .agent 7 (some 1) ∧ t.rob = false ∧
      t.credit = false ∧ dieOf t.flit.tgt = 0 ∧ t.dat = none ∧ t.flit.op.isStore = false ∧ t.missed = false ∧ t.answered = false ∧
      decide (t.deadline ≤ (s.pad 0).now) = late ∧ s.Stands 0 .rsp (.ring .xcw 4) (.rsp r) ∧
      r.tgt = portAgent 0 G ∧ r.txid = t.flit.txid) ∧
    (∀ late : Bool,
      let t := { txn .getOnce with deadline := if late then 5000 else 5001 }
      let x : DatFlit := { op := .dataToReq, src := foldAgent 0 0, tgt := agent 0 1, txid := 5, payload := 9 }
      let s := flitAt (gateS fun g => { g with port := { g.port with txns := [t] } }) .dat (.dat x) 4
      s.AgentIs 0 G (port s) ∧ (port s).Quiet ∧ (port s).port.txns = [t] ∧ t.rob = false ∧ t.credit = false ∧
      dieOf t.flit.tgt = 0 ∧ decide (t.deadline ≤ (s.pad 0).now) = late ∧
      s.Stands 0 .dat (.ring .xcw 4) (.dat x) ∧ x.tgt = portAgent 0 G ∧ x.txid = t.flit.txid ∧ x.poison = false ∧ t.comp = none) ∧
    (∀ late missed : Bool,
      let t := { txn .getOnce with purpose := .job (2 * 3 + 1), flit := req .getOnce (agent 0 127), deadline := if late then 5000 else 5001
                                   abandon := if late then 5000 else 5001, missed := missed }
      let s := lone.modShep 0 fun x => { x with port := { x.port with txns := [t] } }
      (s.pad 0).running = true ∧ (s.pad 0).domOn domSH = true ∧ (s.pad 0).shep.Asks t ∧ dieOf t.flit.tgt = 0 ∧
      t.missed = missed ∧ t.answered = false ∧ t.phase ≠ .injected ∧ decide (t.deadline ≤ (s.pad 0).now) = late ∧
      decide (t.abandon ≤ (s.pad 0).now) = late) := by decide +kernel

/-! ### Hypotheses met: sweeps, copies, Bell, power, Nightfold, time -/

def sweep (k : PoolSweepKind) (ptr : Nat) : PoolSweep := { way := 3, old := 3, new := 16, ptr := ptr, kind := k }

/-- A fold whose sweep is at a set that holds a way. -/
def swept (k : PoolSweepKind) (r : Option PoolTagRec) : State := foldS fun f => { f with
  poolSweep := [sweep k 4094]
  poolTag := match r with
    | some r => [(4094 * 17 + 3, r)]
    | none => []
  poolData := match r with
    | some _ => [(4094 * 17 + 3, 77)]
    | none => [] }

def wayRec (dirty : Bool) : PoolTagRec := (⟨9, true, dirty, false, false, dataCrc 77, 0⟩ : PoolTagRec).seal

theorem hyp_SweepsGoSetBySet : ∀ k ∈ [PoolSweepKind.disable, .retire, .convert], ∀ r ∈ [none, some (wayRec false), some (wayRec true)],
    let s := swept k r
    let x := sweep k 4094
    let t := (fd s).ptag 4094 3
    (s.pad 0).foldRuns 0 = true ∧ (fd s).poolSweep = [x] ∧ x.ptr < 4095 ∧ x.kind = k ∧ t.ok = true ∧
    ((fd s).pset 4094).ok = true ∧ (fd s).pullFrom ≤ (s.pad 0).aon.hcycle ∧ (s.fc 0 0).pull = none ∧
    (∀ j : PFold, j ≠ 0 → ((s.pad 0).folds[j]).poolSweep = []) ∧ t.valid = r.isSome ∧
    (t.valid = true → (s.fc 0 0).blocked (lineOfPool (s.fc 0 0).n 4094 t.tag) = false ∧ (fd s).eddyFull = false ∧
      t.dcrc = dataCrc ((fd s).pdata 4094 3)) := by decide +kernel

/-- A sweep meets a slot that a pull has taken, or a pen item that is eligible. -/
theorem hyp_SweepsGoSetBySet_busy :
    (let s := (swept .disable none).modFold 0 0 fun f => { f with pullFrom := 1 }
     (s.pad 0).foldRuns 0 = true ∧ ((fd s).pset 4094).ok = true ∧ (s.pad 0).aon.hcycle < (fd s).pullFrom) ∧
    (let s := (asked (req .getOnce (agent 0 1))).modFold 0 0 fun f => { f with poolSweep := [sweep .disable 4094] }
     (s.pad 0).foldRuns 0 = true ∧ (fd s).poolSweep = [sweep .disable 4094] ∧ ((fd s).pset 4094).ok = true ∧
     (s.fc 0 0).pull.isSome = true) := by decide +kernel

/-- A tag entry whose check fails at the set of a sweep. -/
theorem hyp_SweepsGoSetBySet_badTag :
    let s := swept .disable (some { wayRec true with tcrc := (wayRec true).tcrc + 1 })
    ((fd s).ptag 4094 3).ok = false ∧ (s.pad 0).aon.wayFails = [] ∧ ((fd s).pset 4094).ok = true ∧
    (fd s).pullFrom ≤ (s.pad 0).aon.hcycle ∧ (s.fc 0 0).pull = none ∧
    ∀ w, w < 16 → (fd s).poolPhysAt 4094 w = some 3 → (fd s).isCacheWay 4094 w = true := by decide +kernel

def copy (ptr : Nat) : WayCopy := { way := 2, old := 2, new := 16, ptr := ptr }
def scrub0 : Scrub := { array := some .tally, next := 3, limit := 9, pace := 2, lastCycle := 0 }

/-- A Tally entry whose check fails. -/
def badTally : TallyRec := ⟨5, 2, 0⟩

theorem hyp_CopiesGoByEntry :
    (∀ n ∈ [8190, 8191],
      let s := foldS fun f => { f with tallyCopy := [copy n] }
      s.Clocked 0 0 ∧ (fd s).tallyCopy = copy n :: [] ∧ smFind (fd s).tally (n * 17 + 2) = none ∧ (s.pad 0).aon.hlog = [] ∧
      (fd s).tallyPend = [] ∧ (fd s).pullFrom ≤ (s.pad 0).aon.hcycle ∧ (s.fc 0 0).pull = none) ∧
    (let r := tallyRec 5 2
     let s := foldS fun f => { f with tallyCopy := [copy 7], tally := [(7 * 17 + 2, r)] }
     let e : TTEntry := { idx := 3, flit := req .getOwned (agent 0 1), line := s.krovol.lineOfTally 0 7 5, af := 99999 }
     let u := s.modFold 0 0 fun f => { f with tt := [e] }
     s.Clocked 0 0 ∧ smFind (fd s).tally (7 * 17 + 2) = some r ∧ r.ok = true ∧ r.st ≠ 0 ∧ (s.fc 0 0).n = 0 ∧
     (s.fc 0 0).blocked (s.krovol.lineOfTally 0 7 r.tag) = false ∧ (u.fc 0 0).blocked (s.krovol.lineOfTally 0 7 r.tag) = true ∧
     u.Clocked 0 0 ∧ (fd u).pullFrom ≤ (u.pad 0).aon.hcycle ∧ (u.fc 0 0).pull = none) ∧
    (let s := foldS fun f => { f with tallyCopy := [copy 7], tally := [(7 * 17 + 2, badTally)] }
     s.Clocked 0 0 ∧ smFind (fd s).tally (7 * 17 + 2) = some badTally ∧ badTally.ok = false ∧ s.krovol.hasGate 0 0 = true ∧
     (fd s).tallyKey 0 7 2 = 7 * 17 + 2 ∧ (fd s).fixes = [] ∧ (fd s).found = [] ∧ (fd s).tt = [] ∧ freeIdx (fd s) = some 0 ∧
     (s.pad 0).aon.wayFails = []) ∧
    (let s := foldS fun f => { f with emCopy := [copy 8190] }
     s.Clocked 0 0 ∧ (fd s).emCopy = copy 8190 :: [] ∧ smFind (fd s).em (8190 * 17 + 2) = none ∧
     (copy 8190).old ≠ (copy 8190).new) ∧
    demo.Clocked 0 0 ∧ (fd demo).scrub = none ∧ ((asked (req .getOnce (agent 0 1))).fc 0 0).pull ≠ none := by decide +kernel

/-- A scrub whose next entry is not listed, is sound, or fails its check where no way plays it. -/
theorem hyp_ScrubsGoByEntry :
    (∀ r ∈ [none, some (tallyRec 5 2)],
      let s := foldS fun f => { f with scrub := some scrub0, tally := match r with
        | some r => [(3, r)]
        | none => [] }
      s.Clocked 0 0 ∧ (fd s).scrub = some scrub0 ∧ scrub0.done = false ∧ scrub0.lastCycle = 0 ∧ (s.fc 0 0).pull = none ∧
      (fd s).found = [] ∧ (fd s).fixes = [] ∧ smFind (fd s).tally scrub0.next = r ∧ ∀ x, r = some x → x.ok = true) ∧
    (let x := { scrub0 with next := 16, limit := 20 }
     let s := foldS fun f => { f with scrub := some x, tally := [(16, badTally)] }
     (s.fc 0 0).pull = none ∧ (fd s).found = [] ∧ x.record = false ∧ smFind (fd s).tally x.next = some badTally ∧
     badTally.ok = false ∧ (∀ w, w < s.krovol.ways → (fd s).tallyKey 0 0 w ≠ x.next) ∧ (s.pad 0).aon.wayFails = []) ∧
    ((asked (req .getOnce (agent 0 1))).fc 0 0).pull ≠ none := by decide +kernel

theorem test_bad_tally_check : badTally.ok = false ∧ (tallyRec 5 2).ok = true := by decide +kernel

/-- A command in progress at the leader. -/
def going (s : State) (k : DefKind) : State := s.modShep 0 fun x => { x with
  deferred := [{ id := 0, pkt := { q := 0, opc := 0x12, tag := 1, pri := 0, quiet := false, seq := 0, params := [] }, kind := k }]
  nextId := 1 }

def move0 : FoldMove := { d := 0, n := 0, src := 0, dst := 4, retire := false, step := 2 }

theorem hyp_RaceSwitchMovesTheFold : ∀ ready : Bool,
    let s := if ready then going demo (.move move0) else going (asked (req .getOnce (agent 0 1))) (.move move0)
    let f := (s.pad 0).folds[move0.src]
    s.moveOf (fun m => m.d == 0 && m.n == 0 && m.step == 2) = some (0, 0, move0) ∧ move0.src ≠ move0.dst ∧
    decide (f.quiet = true ∧ s.jobOpen (jobOf 0) = false ∧ (s.fc 0 move0.src).recorded = [] ∧ f.dirtyLines = [] ∧
      move0.millDone f = true) = ready := by
  decide +kernel

def report0 : Report := { code := 0x201, reporter := 64, subject := 64, t := 0 }
def filed (r : AgentId) : BellRec := { slot := 3, seq := 2, rep := { report0 with reporter := r } }
def withBell (recs : List BellRec) (st : List Storm) : State := padS fun q => { q with bell := { q.bell with
  inbox := [report0], recs := recs, storms := st, nextSlot := 7 } }

theorem hyp_BellFilesReports :
    (let s := withBell [filed 64] []
     (s.pad 0).bell.inbox = [report0] ∧ (s.pad 0).Released ∧ (s.pad 0).domOn domSH = true ∧ (s.pad 0).running = true ∧
     (s.pad 0).bell.recs = [filed 64] ∧ (filed 64).rep.reporter = report0.reporter ∧ (filed 64).rep.code = report0.code) ∧
    (let y : Storm := { subject := 64, code := 0x201, first := 0, slot := 3 }
     let s := withBell [filed 65] [y]
     (s.pad 0).bell.recs = [filed 65] ∧ (filed 65).rep.reporter ≠ report0.reporter ∧
     ((s.pad 0).bell.storms.filter fun y => decide ((s.pad 0).now < y.first + 8000)) = [y] ∧ report0.t < y.first + 4000 ∧
     (filed 65).slot = y.slot) ∧
    ∀ n ∈ [255, 256],
      let s := withBell (List.replicate n (filed 65)) []
      (∀ x ∈ (s.pad 0).bell.recs, x.rep.reporter ≠ report0.reporter) ∧ (s.pad 0).bell.recs.length = n ∧
      (s.pad 0).bell.storms = [] := by decide +kernel

def switching (on : Bool) (f : FoldPower → FoldPower) : State := padS fun q => { q with ebb := { q.ebb with
  pswReq := putBit q.ebb.pswReq 0 on, pswAck := putBit q.ebb.pswAck 0 !on
  switching := [{ dom := 0, on := on, tick := 0, late := false }], fold := vmod q.ebb.fold 0 f } }

/-- A fold's FL, SD and SH come on. -/
theorem hyp_DomainsFollowTheirSwitches_on : ∀ i ∈ [domFL 0, domSD, domSH],
    let x : DomSwitch := { dom := i, on := true, tick := 0, late := false }
    let s := padS fun q => { q with ebb := { q.ebb with pswAck := putBit q.ebb.pswAck i.val false, switching := [x] } }
    (s.pad 0).Settled ∧ (s.pad 0).ebb.sample = none ∧ (s.pad 0).ebb.switching = [x] ∧
    bitAt (s.pad 0).ebb.pswReq i.val = true ∧ bitAt (s.pad 0).ebb.pswAck i.val = false ∧
    (∀ p : PFold, domFA p = i → (s.power 0 p).waking = none) ∧
    ∀ p : PFold, domFL p = i → (s.power 0 p).state = .retain → (s.power 0 p).waking ≠ none := by decide +kernel

theorem hyp_DomainsFollowTheirSwitches_off :
    (bitAt (demo.pad 0).ebb.pswAck 0 = true ∧ bitAt (demo.pad 0).ebb.pswReq 0 ≠ false) ∧
    ∀ tg ∈ [FoldState.retain, .off],
      let s := switching false fun x => { x with state := .drain, target := tg }
      (s.pad 0).Settled ∧ (s.pad 0).ebb.sample = none ∧ bitAt (s.pad 0).ebb.pswReq 0 = false ∧
      bitAt (s.pad 0).ebb.pswAck 0 = true ∧ domFL 0 = 0 ∧ (s.power 0 0).state = .drain ∧ (s.power 0 0).heldWake = false ∧
      (s.power 0 0).target = tg ∧ bitAt ((s.pad 0).repl.foldmap[(0 : Die)]).failed 0 = false ∧
      ∀ l ∈ s.leaders, (s.pad l).shep.deferred = [] := by decide +kernel

/-- A switch that has not been acknowledged for 100 ticks. -/
theorem hyp_DomainsFollowTheirSwitches_late :
    let s := switching true id
    (s.pad 0).ebb.switching = [{ dom := 0, on := true, tick := 0, late := false }] ∧ bitAt (s.pad 0).ebb.pswReq 0 = true := by
  decide +kernel

theorem hyp_FoldsDrainAndWake_1 :
    (∀ busy : Bool,
      let s := (if busy then asked (req .getOnce (agent 0 1)) else demo).modEbb 0 fun e => { e with
        fold := vmod e.fold 0 fun x => { x with state := .drain, target := .off } }
      (s.power 0 0).state = .drain ∧ (fd s).drain = false ∧
      decide ((fd s).quiet = true ∧ s.emptied 0 0 (drainJob 0 0) = true) = !busy) ∧
    ∀ tg ∈ [FoldState.run, .doze],
      let s := padS fun q => { q with
        ebb := { q.ebb with fold := vmod q.ebb.fold 0 fun x => { x with state := .retain, target := tg, waking := some 0 } }
        boot := { q.boot with selfTested := 63, arrayInit := 63 } }
      (s.power 0 0).waking.isSome = true ∧ (s.pad 0).running = true ∧ (s.pad 0).domOn (domFA 0) = true ∧
      (s.pad 0).domOn (domFL 0) = true ∧ bitAt (s.pad 0).boot.selfTested 0 = true ∧ bitAt (s.pad 0).boot.arrayInit 0 = true ∧
      ((s.pad 0).repl.carries 0 0).isSome = true ∧ (∀ l ∈ s.leaders, (s.pad l).shep.deferred = []) ∧
      (s.power 0 0).target = tg := by decide +kernel

theorem hyp_FoldsDrainAndWake_2 :
    let a := foldAddr 0 0 0x4000
    (let s := padS fun q => { q with ebb := { q.ebb with
       pswAck := putBit q.ebb.pswAck 0 false, autowake := 1
       fold := vmod q.ebb.fold 0 fun x => { x with state := .retain, target := .retain } } }
     let t := s.target 0 a
     (s.pad 0).boot.poreset = false ∧ (s.pad 0).rp.busy = false ∧ a.toNat % 4 = 0 ∧
     (s.pad t.srv).repl.permits (s.krovol.privOf t) false W.dom = true ∧ t.absent = false ∧ s.asleep W t = some (0, 0) ∧
     (s.pad 0).autoWakes 0 0 = true ∧ (s.pad 0).ebb.nf = .idle) ∧
    ∀ late : Bool,
      let s := padS fun q => { q with
        ebb := { q.ebb with autoAcc := [{ who := W, addr := a, write := none, dom := 0, tide := 0 }] }
        aon := { q.aon with tideFx := (if late then 40000 else 39999) * 2 ^ 24 }, rp := { q.rp with busy := true } }
      (s.pad 0).ebb.autoAcc = [{ who := W, addr := a, write := none, dom := 0, tide := 0 }] ∧ (s.pad 0).rp.busy = true ∧
      decide (0 + 40000 ≤ (s.pad 0).now) = late := by decide +kernel

/-- A supply write of rail 0 that has waited 500 ticks, issued again k times. -/
def supplyS (k : Nat) : State := padS fun q => { q with
  ebb := { q.ebb with avs := #v[some { mv := 700, tick := 0, retries := k }, none] }, aon := { q.aon with ticks := 500 } }

theorem hyp_SuppliesFollow : ∀ k ∈ [2, 3, 4],
    let s := supplyS k
    (s.pad 0).ebb.avs[(1 : RailN)] = none ∧ (s.pad 0).ebb.avs[(0 : RailN)] = some { mv := 700, tick := 0, retries := k } ∧
    (∀ l, s.leadOf 0 = some l → s.oppOp l = none ∧ s.nfOp l = none) ∧ (s.pad 0).ebb.nf = .idle ∧
    (s.pad 0).ebb.sample = none ∧ 0 + 500 ≤ (s.pad 0).aon.ticks := by
  intro k hk
  have h : ∀ l, (supplyS k).leadOf 0 = some l → l = 0 ∧ (supplyS k).oppOp l = none ∧ (supplyS k).nfOp l = none := by
    revert k; decide +kernel
  exact ⟨rfl, rfl, fun l e => (h l e).2, rfl, rfl, Nat.le_refl 500⟩

theorem hyp_ClockPointFollows :
    let s := padS fun q => { q with ebb := { q.ebb with hclkOp := 2 } }
    (s.pad 0).ebb.hclkAck = true ∧ (s.pad 0).ebb.hclkOp = 2 ∧ (s.pad 0).ebb.hclkOpack ≠ 2 ∧
    s.leadOf 0 = some 0 ∧ s.oppOp 0 = none ∧ (∀ x ∈ s.members 0, x ≠ 0 → (s.pad x).ebb.hclkOp = (s.pad x).ebb.hclkOpack) ∧
    (let u := s.modPad 0 fun q => { q with repl := { q.repl with present := 3 } }
     let v := u.modEbb 1 fun e => { e with hclkOp := 2 }
     v.leadOf 0 = some 0 ∧ v.oppOp 0 = none ∧ (v.pad 0).ebb.hclkAck = true ∧
     ∃ x ∈ v.members 0, x ≠ 0 ∧ (v.pad x).ebb.hclkOp ≠ (v.pad x).ebb.hclkOpack) ∧
    (let u := s.modPad 0 fun q => { q with repl := { q.repl with formed := false } }
     u.leadOf 0 = none ∧ (u.pad 0).ebb.hclkAck = true ∧ (u.pad 0).ebb.hclkOpack ≠ 2) := by decide +kernel

theorem hyp_OppointSwitches : ∀ late : Bool,
    let s := going (padS fun q => { q with aon := { q.aon with tideFx := (if late then 4000 else 3999) * 2 ^ 24 } }) (.oppoint 2 0 .armed 0)
    0 ∈ s.leaders ∧ (∀ l ∈ s.leaders, l ≠ 0 → s.oppOp l = none) ∧ (s.oppOp 0).isSome = true ∧
    ((s.oppOp 0).all fun o => decide (o.ph = .armed ∧
      decide (∀ x ∈ s.members o.lead, o.since + 4000 ≤ (s.pad x).now ∧ (s.pad x).ebb.hclkOp = (s.pad x).ebb.hclkOpack) = late ∧
      ∃ x ∈ s.members o.lead, (s.pad x).ebb.hclkOpack ≠ o.pt)) = true := by decide +kernel

/-- The demo in a phase of Nightfold entry. -/
def night (ph : NfPhase) (wakes : Bool) : State := going (padS fun q => { q with ebb := { q.ebb with nf := ph, nfAbort := wakes } }) .nightfold

def nightOp : Deferred :=
  { id := 0, pkt := { q := 0, opc := 0x12, tag := 1, pri := 0, quiet := false, seq := 0, params := [] }, kind := .nightfold }

theorem hyp_NightfoldGoesByItsPoints_1 : ∀ wakes : Bool,
    let s := night .step1 wakes
    s.NightAt 0 nightOp .step1 ∧ (s.pad 0).ebb.nfAbort = wakes ∧
    ∀ x ∈ s.members 0, ∀ p : PFold, ((s.pad x).folds[p]).pens = [] ∧ ((s.pad x).folds[p]).tt = [] := by decide +kernel

theorem hyp_NightfoldGoesByItsPoints_2 : ∀ wakes : Bool,
    let s := night .step2 wakes
    s.NightAt 0 nightOp .step2 ∧ s.jobOpen (jobOf nightOp.id) = false ∧ (∀ x ∈ s.members 0, s.sweptOut x = true) ∧
    ∀ y ∈ (s.pad 0).shep.deferred, y.kind = .nightfold := by
  decide +kernel

theorem hyp_NightfoldGoesByItsPoints_3 : ∀ wakes : Bool,
    let s := (night .step3 wakes).modEbb 0 fun e => { e with hclkReq := false, hclkAck := false }
    s.NightAt 0 nightOp .step3 ∧ (s.pad 0).ebb.nfAbort = wakes ∧ ∀ x ∈ s.members 0, (s.pad x).ebb.hclkReq = false ∧ (s.pad x).ebb.hclkAck = false := by
  decide +kernel

theorem hyp_NightfoldGoesByItsPoints_4 : ∀ wakes : Bool,
    let s := night .step4 wakes
    s.NightAt 0 nightOp .step4 ∧ (s.pad 0).ebb.nfAbort = wakes ∧ ∀ x ∈ s.members 0, ∀ r : RailN, (s.pad x).ebb.avs[r] = none := by decide +kernel

def program : NfProgram := { interval := 1, sentinels := 2, retain := 1, wakeEn := 4 }

/-- Paddock 0 inside Nightfold, at LCLK tick 3,500. -/
def asleepS (e : Ebb → Ebb) (alarm : BitVec 64) : State := padS fun q => { q with
  ebb := e { q.ebb with nf := .inside 0 }
  folds := q.folds.map fun f => { f with poolMpWays := 1 }
  aon := { q.aon with ticks := 3500, nfProg := some program, islandOk := true, alarm := alarm,
                       nfSig := #v[some 0, none, none, none] } }

theorem hyp_WakesInNightfold : ∀ n ∈ [999, 1000, 1999, 2000],
    let s := padS fun q => { q with ebb := { q.ebb with nf := .inside 0 }, aon := { q.aon with
      tideFx := n * 2 ^ 24, nfProg := some program, alarm := 1000 } }
    (s.pad 0).wakeEn 2 = true ∧ decide ((s.pad 0).aon.alarm.toNat ≤ (s.pad 0).now) = decide (1000 ≤ n) ∧
    decide ((s.pad 0).now < (s.pad 0).aon.alarm.toNat + 1000) = decide (n < 2000) := by decide +kernel

/-- A sample begins, goes by where one runs, or lets a wake go. -/
theorem hyp_SamplesInNightfold_begin : ∀ run alarm : Bool,
    let s := asleepS (fun e => { e with sample := if run then some { n := 0, p := 0 } else none }) (if alarm then 0 else 1000)
    (s.pad 0).ebb.nf = .inside 0 ∧ (s.pad 0).aon.nfProg = some program ∧ (s.pad 0).aon.retained = [0] ∧
    (s.pad 0).repl.pfoldOf 0 0 = some 0 ∧ 0 < program.sentinels ∧
    (s.pad 0).ebb.nfNext ≤ ((s.pad 0).aon.ticks - 0) / (1000 * max 1 program.interval) ∧
    (s.pad 0).aon.islandOk = true ∧ decide ((s.pad 0).ebb.sample = none) = !run ∧
    ((s.pad 0).aon.alarm.toNat ≤ (s.pad 0).now ∧ (s.pad 0).now < (s.pad 0).aon.alarm.toNat + 1000 ∧ (s.pad 0).wakeEn 2 = true ↔
      alarm = true) ∧ (alarm = false → ∀ x, (s.pad x).alarmDue = false) := by decide +kernel

/-- With two retained folds, sample 4 is of the second. -/
theorem hyp_SamplesInNightfold_turn :
    let s := (asleepS id 1000).modPad 0 fun q => { q with aon := { q.aon with
      ticks := 4500, nfProg := some { program with retain := 3 }, nfSig := #v[some 0, some 0, none, none] } }
    let r := (s.pad 0).aon.retained
    r = [0, 1] ∧ ((s.pad 0).aon.ticks - 0) / (1000 * max 1 program.interval) = 4 ∧ r[(4 - 1) % r.length]? = some 1 ∧
    (s.pad 0).repl.pfoldOf 0 1 = some 1 := by decide +kernel

/-- The rails of a sample are acknowledged; its fold's logic comes on, with a signature that agrees or not. -/
theorem hyp_SamplesInNightfold_go : ∀ off : Bool,
    (let w : AvsWrite := { mv := 550, tick := 1 }
     let s := asleepS (fun e => { e with sample := some { n := 0, p := 0 }, pswReq := 0, pswAck := if off then 0 else 4
                                         avs := vset (Vector.replicate 2 none) 0 (some w) }) 1000
     (s.pad 0).ebb.sample = some { n := 0, p := 0, phase := .rails } ∧
     (s.pad 0).ebb.avs = vset (Vector.replicate 2 none) 0 (some w) ∧ (s.pad 0).domOn (domFL 0) = false ∧
     (s.pad 0).ebb.switching = [] ∧ (∀ l ∈ dies, s.leadOf 0 = some l → s.oppOp l = none)) ∧
    (let y : DomSwitch := { dom := 0, on := true, tick := 0, late := false }
     let s := asleepS (fun e => { e with sample := some { n := 0, p := 0, phase := .power }, switching := [y]
                                         pswReq := 1, pswAck := 0 }) 1000
     let ks := program.ways 0 (s.mpWays 0)
     let n := min 2 (4096 * ks.length)
     let g := (fd s).flReset.signature ks n
     let u := s.modPad 0 fun q => { q with aon := { q.aon with nfSig := #v[some (if off then g else g + 1), none, none, none] } }
     y.dom = domFL 0 ∧ bitAt (u.pad 0).ebb.pswReq (domFL 0).val = true ∧ bitAt (u.pad 0).ebb.pswAck (domFL 0).val = false ∧
     (u.pad 0).boot.step = 10 ∧
     (fd u).flReset.sentinelBad ks n (((u.pad 0).aon.nfSig[(0 : LFold)]).getD 0) = if off then none else some 0) := by decide +kernel

/-- The demo with a Census configuration that runs since reset, and one that waits. -/
def census0 (late pend : Bool) : State := padS fun q => { q with
  aon := { q.aon with tideFx := (if late then 50000 else 49999) * 2 ^ 24 }
  census := { q.census with cfgSet := true, cfg := { period := 50000 }, pendCfg := if pend then some { clear := true } else none
                            ovf := 3, cycle := 5 } }

theorem hyp_TicksAndPeriods_1 :
    (∀ x a, (demo.pad x).ebb.nf ≠ .inside a) ∧ (demo.pad 0).boot.poreset = false ∧ (demo.pad 1).boot.poreset = true ∧
    (demo.pad 0).running = true ∧ (∀ x, (demo.pad x).census.cfgSet = false ∧ (demo.pad x).census.pendCfg = none) ∧
    (let s := census0 false false
     max (s.pad 0).now (1000 * ((s.pad 0).aon.ticks + 1)) < ((s.pad 0).census.nextK + 1) * (s.pad 0).census.periodNow) ∧
    (let s := demo.modEbb 0 fun e => { e with hclkAck := false }
     (s.pad 0).running = false ∧ (s.pad 0).boot.poreset = false) := by
  refine ⟨?_, by decide +kernel⟩
  intro x a
  have : (demo.pad x).ebb.nf = .idle := by revert x; decide +kernel
  rw [this]; exact NfPhase.noConfusion

theorem hyp_TicksAndPeriods_2 : ∀ late pend : Bool,
    let s := census0 late pend
    let x := (s.pad 0).census
    x.cfgSet = true ∧ (s.pad 0).running = true ∧ (s.pad 0).domOn domSD = true ∧
    (∀ p : PFold, ((s.pad 0).ebb.fold[p]).gated = false) ∧ x.cfg.en = false ∧
    decide ((x.nextK + 1) * x.cfg.period ≤ (s.pad 0).now) = late ∧
    x.pendCfg = if pend then some { clear := true } else none := by decide +kernel

/-! ### Hypotheses met: the Tether -/

/-- The demo with its link up, memory and bus mastering enabled, and the Tether changed. -/
def linked (f : Tether → Tether) : State := demo.modTether fun t => f { t with linkUp := true, perst := false, mse := true, bme := true }

/-- A Tether whose vector 0 has the reply queue 0 for its source, and a reply waits. -/
def vectorDue (f : Tether → Tether) : State := (linked fun t => f { t with
    src := vset t.src 0 0x80, msixEn := true, msix := vset t.msix 0 { addrLo := 4, addrHi := 5, data := 6, masked := false } }).modRq 0 0
  fun x => { x with irqEn := true, replies := [{ pri := 0, words := [1] }] }

theorem hyp_TetherRegistersTakeWrites_1 :
    demo.krovol.tether = some 0 ∧ demo.Granted W (queueAddr 0x21000 63 0x0C) ⟨.tether, 0x1000 + 0x20 * 63 + 0x0C, 0, false⟩ true ∧
    demo.Granted W 0x20480 ⟨.tether, 0x480, 0, false⟩ true ∧ demo.Granted W 0x20484 ⟨.tether, 0x484, 0, false⟩ true ∧
    demo.Granted W 0x20010 ⟨.tether, 0x10, 0, false⟩ true :=
  ⟨by decide +kernel, granted_of (by decide +kernel), granted_of (by decide +kernel), granted_of (by decide +kernel),
   granted_of (by decide +kernel)⟩

theorem hyp_TetherRegistersTakeWrites_2 :
    demo.msixCond 0 0 = false ∧
    ((vectorDue id).msixCond 0 0 = true ∧ (vectorDue id).TetherUp 0 ∧ (vectorDue id).tether.VectorOpen 0) ∧
    (∀ masked : Bool,
      let s := vectorDue fun t => { t with bme := masked, msix := vset t.msix 0 { masked := masked } }
      s.msixCond 0 0 = true ∧ ((s.tether.msix[(0 : QN)]).masked = masked) ∧ s.tether.bme = masked) ∧
    demo.tether.ltrEn = false ∧
    (let s := linked fun t => { t with ltrEn := true }
     s.tether.ltrEn = true ∧ s.TetherUp 0 ∧ s.tether.flr = none ∧ (3 : Word) ≠ s.tether.ltr) ∧
    (linked id).tetherDie = some 0 ∧ (linked id).tether.stalled = [] := by decide +kernel

theorem hyp_WellFormedCommandsRun :
    (Instr.memoryWriteTlp 0xFFF [none, none] false).wf = false ∧ (linked id).TetherUp 0 ∧ (linked id).tether.Takes ∧
    (Instr.linkUp 6 16 true).wf = false ∧ (Instr.l1Entry 0).wf = false ∧ demo.tether.linkUp = false := by decide +kernel

/-- A TLP beyond BAR2; one outside every window; in a window, one that becomes requests and one that waits. -/
theorem hyp_MemoryTlpsBecomeRequests :
    tlpSpan 0xFC0 64 = true ∧ ¬(linked fun t => { t with flr := some 0 }).tether.Takes ∧
    ((linked fun t => { t with aperLog2 := 10 }).TetherUp 0 ∧ (linked fun t => { t with aperLog2 := 10 }).tether.Decodes ∧
      2 ^ (linked fun t => { t with aperLog2 := 10 }).tether.aperLog2.toNat ≤ 0xFC0) ∧
    ((linked id).TetherUp 0 ∧ (linked id).tether.Decodes ∧ 0xFC0 < 2 ^ (linked id).tether.aperLog2.toNat ∧
      (linked id).tether.window 0xFC0 64 = none) ∧
    ∀ n ∈ [0, 1024],
      let busy := List.replicate n (txn .getOnce)
      let s := lone.modTether fun t => { t with linkUp := true, perst := false, mse := true, bme := true
                                                win := vset t.win 0 { enable := true }, port := { t.port with txns := busy } }
      let a : Addr := 0xFC0
      s.TetherUp 0 ∧ s.tether.Decodes ∧ 0xFC0 < 2 ^ s.tether.aperLog2.toNat ∧ s.tether.window 0xFC0 64 = some a ∧
      a.toNat % 64 + 64 ≤ 64 ∧ a.toNat + 64 ≤ 2 ^ 52 ∧ s.tether.waiting = [] ∧ s.tether.port.txns.length = n ∧
      (n = 0 → s.tether.port.freeTxid = some 0) ∧
      (s.pad 0).repl.absent (s.pad 0).conf.unreach 0 ((s.pad 0).repl.home a) false = false ∧
      (List.replicate 64 (7 : Byte)).length = 64 ∧ a.toNat % 64 = 0 ∧ s.tether.window 0xFC0 0 = some a ∧
      (0 : BitVec 13).toNat = 0 ∧ s.tether.maxPayload < (List.replicate 513 (some (7 : Byte))).length := by decide +kernel

theorem hyp_RegisterTlpsAreAnswered :
    (let s := linked id
     let host : Who := { via := 0, dom := 2, strb := 15, bar0 := true }
     s.TetherUp 0 ∧ s.tether.Decodes ∧ s.tether.bar0 = none ∧ s.tether.barWait = [] ∧ s.target 0 0 = ⟨.repl, 0, 0, false⟩ ∧
     s.asleep host ⟨.repl, 0, 0, false⟩ = none ∧ (s.pad 0).repl.permits (Block.repl.priv 0) false 2 = true ∧
     s.h4Target 0 0xF000 = none ∧ s.h4Target 0 0x8000 = some 0 ∧
     tlpSpan 0x8000 (dwCount ({} : BarPayload).dws * 4) = true ∧ tlpSpan 0 (dwCount ({} : BarPayload).dws * 4) = true ∧
     ({} : BarPayload).dws = 1 ∧ ({} : BarPayload).write = none ∧ s.tether.romEn = false) ∧
    (let s := (linked id).modPad 0 fun q => { q with repl := { q.repl with privQp := Vector.replicate 8 0 } }
     let host : Who := { via := 0, dom := 2, strb := 15, bar0 := true }
     let g := s.target 0 0x10008
     tlpSpan 0x10008 4 = true ∧ g.absent = false ∧ s.asleep host g = none ∧ s.krovol.laid g.block g.off = true ∧
     (s.pad g.srv).repl.permits (g.block.priv g.off) false 2 = false ∧ g.srv = 0) ∧
    (tlpSpan 4 8 = true ∧ dwCount 2 = 2 ∧ 4 / 4 * 4 % 8 = 4 ∧ tlpSpan 0 (dwCount 0 * 4) = true ∧ 2 < dwCount 0) ∧
    (linked fun t => { t with romEn := true }).tether.romEn = true ∧ (linked id).tether.Takes ∧
    (linked id).tether.bar[0] = 0 := by decide +kernel

theorem hyp_ResetsAndLinkEvents :
    (let s := demo.modTether fun t => { t with perst := false }
     s.tetherDie = some 0 ∧ s.tether.linkUp = false ∧ s.tether.perst = false ∧ s.tether.noTlp = false ∧
     linkShape 5 16 = true ∧ linkShape 0 1 = true ∧ s.krovol.flitMode = true ∧ (16 : BitVec 5).toNat ≤ s.krovol.linkWidth ∧
     ({ s.krovol with linkWidth := 8 } : Krovol).linkWidth < (16 : BitVec 5).toNat) ∧
    (let s := linked fun t => { t with dropTags := [{ tag := 7, left := 1 }] }
     s.tether.linkUp = true ∧ s.tether.perst = false ∧ s.tether.flr = none ∧ (∀ q : QN, (s.tether.ring[q]).open' = []) ∧
     s.tether.bme = true ∧ s.tether.dropTags ≠ []) ∧
    (let s := linked id
     (∀ q : QN, ((s.pad (s.queueDie 0)).shep.cq[q]).ringMode = false) ∧ s.tether.linkUp = true ∧ s.tether.perst = false ∧
     s.tether.noTlp = false ∧ s.tether.flr = none ∧ ∀ q : QN, (s.tether.ring[q]).open' = []) ∧
    (let r : RingRead := { tag := 7, want := 2 }
     let s := linked fun t => { t with ring := vmod t.ring 63 fun x => { x with open' := [r] } }
     (s.tether.ring[(63 : QN)]).open' = [r] ∧ (∀ k : QN, k ≠ 63 → (s.tether.ring[k]).open' = []) ∧
     ((s.pad (s.queueDie 0)).shep.cq[(63 : QN)]).words = [] ∧ ((s.pad (s.queueDie 0)).shep.cq[(63 : QN)]).same = true ∧
     r.got.length < r.want ∧ s.tether.bme = true ∧ s.tether.dropTags = []) := by
  decide +kernel

/-- A host ring with three words waiting. -/
def ringS : State := (linked fun t => { t with ring := vmod t.ring 3 fun r => { r with tail := 5, head := 2, base := 0x1000 } }).modCq 0 3
  fun c => { c with ringMode := true }

theorem hyp_RingsVectorsAndL1_fetch : ringS.RingReady 0 3 0 :=
  ⟨by decide +kernel, by decide +kernel, by decide +kernel, by decide +kernel, by decide +kernel, by decide +kernel⟩

theorem hyp_RingsVectorsAndL1_words :
    let r := ringS.tether.ring[(3 : QN)]
    let addr := r.base.toNat + 4 * (r.head.toNat % r.size)
    r.open' = [] ∧ 3 = min (min (min r.waiting (r.size - r.head.toNat % r.size)) (min ringS.tether.maxReadWords ((4096 - addr % 4096) / 4)))
      ((ringS.pad (ringS.queueDie 0)).shep.cq[(3 : QN)]).free := by decide +kernel

theorem hyp_RingsVectorsAndL1 :
    (let r : RingRead := { tag := 7, want := 1 }
     let s := linked fun t => { t with ring := vmod t.ring 3 fun x => { x with open' := [r] } }
     s.TetherUp 0 ∧ (s.tether.ring[(3 : QN)]).open' = [r] ∧ (s.tether.ring[(3 : QN)]).head.toNat + 1 < (s.tether.ring[(3 : QN)]).size ∧
     ((s.pad (s.queueDie 0)).shep.cq[(3 : QN)]).words = [] ∧ ((s.pad (s.queueDie 0)).shep.cq[(3 : QN)]).same = true ∧
     1 ≤ bits (0x100 : Word) 8 6 ∧ bitAt (smGet s.tether.cfg 0 0x78) 4 = false ∧
     bitAt (smGet ({ s.tether with cfg := [(0x78, 0x10)] } : Tether).cfg 0 0x78) 4 = true) ∧
    (let s := vectorDue fun t => { t with bme := false }
     s.TetherUp 0 ∧ s.msixCond 0 0 = true ∧ bitAt s.tether.cond 0 = false ∧ s.tether.bme = false) ∧
    bitAt (vectorDue id).tether.pba 0 = false ∧
    ((vectorDue id).TetherUp 0 ∧ (vectorDue id).msixCond 0 0 = true ∧ bitAt (vectorDue id).tether.cond 0 = false ∧
      (vectorDue id).tether.VectorOpen 0) ∧
    bitAt (vectorDue fun t => { t with pba := 1 }).tether.pba 0 = true ∧
    (let s := linked fun t => { t with l1En := true }
     s.TetherUp 0 ∧ s.tether.l1En = true ∧ s.tether.lpm = 0 ∧ s.tether.idle = true ∧ s.tether.ltrEn = false) := by decide +kernel

/-! ### Hypotheses met: the Shepherd -/

/-- A packet that the leader's Shepherd has taken. -/
def pkt (opc : BitVec 8) (params : List Word) : Taken :=
  { q := 2, opc := opc, tag := 3, pri := 1, quiet := false, seq := 4, params := params }

def running (s : State) (opc : BitVec 8) (params : List Word) : State := s.modShep 0 fun x => { x with taken := [pkt opc params] }

def ranB (s : State) (opc : BitVec 8) (k : Taken) : Bool :=
  decide ((s.pad 0).shepRuns = true ∧ (s.pad 0).shep.taken = [k] ∧ k.opc = opc ∧ k.quiet = false ∧
    ((s.pad 0).shep.rq[k.q]).replies = [] ∧ ((s.pad 0).shep.rq[k.q]).current = [] ∧ ((s.pad 0).shep.rq[k.q]).held = [] ∧
    ((s.pad 0).shep.rq[k.q]).same = true)

theorem ran_of {s : State} {opc : BitVec 8} {k : Taken} (h : ranB s opc k = true) : s.Ran 0 opc k := by
  obtain ⟨h1, h2, h3, h4, h5, h6, h7, h8⟩ := of_decide_eq_true h
  exact ⟨h1, h2, h3, h4, ⟨h5, h6, h7⟩, h8⟩

theorem hyp_PacketsAreTakenInTurn :
    (let s := demo.modCq 0 63 fun c => { c with packets := [goodPacket] }
     let x := (s.pad 0).shep
     s.shepTakes 0 = true ∧ x.nextQueue = some 63 ∧ (x.cq[(63 : QN)]).packets = goodPacket :: [] ∧ (x.cq[(63 : QN)]).same = true ∧
     (x.cq[(63 : QN)]).stalled = [] ∧ s.formCheck 0 (takenOf 63 goodPacket) (goodPacket.headD 0) = none) ∧
    (let bad : List Word := [0x00000199#32, 0]
     let s := demo.modCq 0 63 fun c => { c with packets := [bad] }
     (s.pad 0).shep.nextQueue = some 63 ∧ s.formCheck 0 (takenOf 63 bad) (bad.headD 0) = some .badOpcode ∧
     ((s.pad 0).shep.rq[(63 : QN)]).replies = [] ∧ ((s.pad 0).shep.rq[(63 : QN)]).current = [] ∧
     ((s.pad 0).shep.rq[(63 : QN)]).held = [] ∧ ((s.pad 0).shep.rq[(63 : QN)]).same = true) ∧
    (demo.pad 0).shep.nextQueue = none ∧
    (let s := demo.modRq 0 63 fun c => { c with held := [⟨0, [1, 2]⟩] }
     (s.pad 0).shepRuns = true ∧ ((s.pad 0).shep.rq[(63 : QN)]).held = ⟨0, [1, 2]⟩ :: [] ∧
     ((s.pad 0).shep.rq[(63 : QN)]).same = true) ∧
    ((demo.modEbb 0 fun e => { e with pswAck := putBit e.pswAck domSH.val false }).pad 0).shepRuns = false ∧
    ∀ n ∈ [9999, 10000],
      let s := padS fun q => { q with aon := { q.aon with ticks := n } }
      (s.pad 0).Released ∧ (s.pad 0).domOn domSH = true ∧
      decide ((s.pad 0).shep.wdogTick + 10000 ≤ (s.pad 0).aon.ticks) = decide (n = 10000) ∧ (s.pad 0).shep.deferred = [] ∧
      (s.pad 0).shep.taken = [] := by decide +kernel

/-- The watchdog meets a taken packet, a command that is never abandoned, and one that is not resumed. -/
theorem hyp_WatchdogFires :
    (let s := running (padS fun q => { q with aon := { q.aon with ticks := 10000 } }) 0x01 []
     let k := pkt 0x01 []
     (s.pad 0).shep.deferred = [] ∧ (s.pad 0).shep.taken = [k] ∧ k.quiet = false ∧ ((s.pad 0).shep.rq[k.q]).replies = [] ∧
     ((s.pad 0).shep.rq[k.q]).current = [] ∧ ((s.pad 0).shep.rq[k.q]).held = [] ∧ ((s.pad 0).shep.rq[k.q]).same = true) ∧
    (∀ k ∈ [DefKind.fence 1 1, .hurdleLoad [5] 0],
      let s := going demo k
      (s.pad 0).shep.taken = [] ∧ ((s.pad 0).shep.deferred.map fun o => o.kind) = [k] ∧
      ((s.pad 0).shep.rq[(0 : QN)]).replies = [] ∧ ((s.pad 0).shep.rq[(0 : QN)]).same = true) ∧
    (DefKind.fence 1 1).keeps = true ∧ DefKind.fence 1 1 ≠ .nightfold ∧ (DefKind.hurdleLoad [5] 0).keeps = false := by
  decide +kernel

/-- The packets of the queries, settings and commands, each taken alone at an idle leader. -/
theorem hyp_Ran : ∀ x ∈ [((0x01 : BitVec 8), ([] : List Word)), (0x02, [0x8003]), (0x06, [0x10000]), (0x71, [0x808]), (0xA0, [1, 1000, 500]),
      (0x90, [1, 0, 50000]), (0x60, [0x20001, 0, 0, 4]), (0xF0, [0]), (0xF1, [0x201, 0, 0, 0]), (0x30, [1, 0, 0x80, 0]), (0x31, [0x80, 3]),
      (0x20, [0x25, 0, 7, 9, 0]), (0x32, [0]), (0x10, [0x60]), (0x12, [0x80]), (0x11, [0]), (0x50, [1]), (0x51, [1]), (0x80, [3]), (0x61, []),
      (0x03, [0x40, 0, 5]), (0x70, [1, 0, 0]), (0x40, [0, 0, 0, 0x1000, 0, 1])],
    (running demo x.1 x.2).Ran 0 x.1 (pkt x.1 x.2) ∧ (running demo x.1 x.2).Idle 0 := by
  intro x h
  have : ranB (running demo x.1 x.2) x.1 (pkt x.1 x.2) = true ∧ ((running demo x.1 x.2).pad 0).shep.deferred = [] := by
    revert x; decide +kernel
  exact ⟨ran_of this.1, this.2⟩

theorem hyp_QueriesAnswer :
    (let w : Word := 62 * 2 ^ 14 + 16322
     1 ≤ bits w 14 6 ∧ bits w 14 6 ≤ 62 ∧ bits w 0 14 + bits w 14 6 = 16384) ∧
    (let w : Word := 511 * 2 ^ 6 + 1 * 2 ^ 15
     bits w 3 3 ≤ 4 ∧ 1 ≤ bits w 15 4 ∧ bits w 6 9 + bits w 15 4 ≤ 512 ∧ demo.planned (dieAt w 0) = true ∧
     demo.present 0 (dieAt w 0) = true ∧ (demo.pad (dieAt w 0)).domOn (domFL 0) = true) ∧
    (demo.planned (dieAt (0x10001 : Word) 0) = true ∧ demo.present 0 (dieAt (0x10001 : Word) 0) = false) ∧
    (let w : Word := 1 * 2 ^ 3 + 2 * 2 ^ 10
     let s := padS fun q => { q with aon := { q.aon with hlog := [5, 6, 7] } }
     1 ≤ bits w 10 5 ∧ bits w 10 5 ≤ 30 ∧ bits w 3 7 + bits w 10 5 ≤ 128 ∧ s.dieCheck 0 (dieAt w 0) = none ∧
     bits w 3 7 + bits w 10 5 ≤ (s.pad (dieAt w 0)).aon.hlog.length) := by decide +kernel

theorem hyp_SettingsTakeEffect :
    (let s := demo.modShep 0 fun x => { x with recheck := some 0 }
     let set (r : Repl) : Repl := { r with deadline := vset r.deadline 1 100000, share := vset r.share 1 100000 }
     let v := s.envNow 0
     envRefuses v { v with r := set v.r } = false ∧ (s.pad 0).shep.recheck.isSome = true) ∧
    (let g : Region := { base := 0, limit := 0x400000, attr := { enable := true } }
     let s := padS fun q => { q with repl := { q.repl with regions := vset q.repl.regions 0 g } }
     s.ringOk 0 0 (0 + 2 ^ 8 * 16384) = true) ∧
    (demo.anyDef 0 (fun y => y == .nightfold) = false ∧ demo.retainOk 0 = true) ∧
    (demo.pad 0).aon.unlockTries ≠ 3 ∧ (demo.pad 0).boot.testmode = false ∧ (demo.pad 0).bell.unlocked = false ∧
    ((stickyCodes.map fun e => e.1).contains 0x201 = false ∧ codeKnown 0x201 = true ∧ demo.present 0 0 = true ∧
      dieOf 64 = 0 ∧ dieOf 65 = 0) := by decide +kernel

theorem hyp_FoldCommandsGoOn :
    demo.dieCheck 0 0 = none ∧ (demo.pad 0).repl.pfoldOf 0 0 = some 0 ∧ (0 : Nat) ≤ demo.mpWays 0 ∧ (demo.pad 0).repl.mpMiB 0 ≤ 0 ∧
    (demo.power 0 0).state = .run ∧ (demo.power 0 0).gated = false ∧ demo.homesC0 0 0 = false ∧ (demo.pad 0).repl.carries 0 4 = none ∧
    bitAt ((demo.pad 0).repl.foldmap[(0 : Die)]).failed 4 = false ∧ demo.millBlocked 0 0 4 = false ∧
    ((demo.pad 0).repl.foldmap[(0 : Die)]).standby = some 4 ∧ ((demo.pad 0).repl.carries 0 0).isSome = true ∧
    demo.dieCheck 0 1 ≠ none ∧
    (let s := padS fun q => { q with repl := { q.repl with foldmap := vmod q.repl.foldmap 0 fun m => { m with
       failed := putBit 0 4 true } } }
     s.dieCheck 0 0 = none ∧ (s.pad 0).repl.carries 0 4 = none ∧ bitAt ((s.pad 0).repl.foldmap[(0 : Die)]).failed 4 = true ∧
     bitAt ((s.pad 0).repl.foldmap[(0 : Die)]).failed 0 = false ∧ ((s.pad 0).repl.carries 0 0).isSome = true ∧
     ((s.pad 0).repl.foldmap[(0 : Die)]).standby = none) ∧
    (let s := padS fun q => { q with repl := { q.repl with foldmap := vmod q.repl.foldmap 0 fun m => { m with
       vacant := putBit 0 0 true } } }
     s.dieCheck 0 0 = none ∧ (s.pad 0).repl.carries 0 4 = none ∧ bitAt ((s.pad 0).repl.foldmap[(0 : Die)]).failed 4 = false ∧
     s.millBlocked 0 0 4 = false ∧ bitAt ((s.pad 0).repl.foldmap[(0 : Die)]).vacant 0 = true) := by decide +kernel

theorem hyp_RangeCommandsBegin :
    (demo.planned 3 = false ∧ demo.planned 1 = true ∧ demo.member 0 1 = false ∧ demo.member 0 0 = true) ∧
    (let s := padS fun q => { q with repl := { q.repl with readyDies := 2 } }
     bitAt (s.pad 0).repl.readyDies 1 = true ∧ (s.pad 0).shep.sw = none ∧ 0 ∈ s.members 0 ∧ 1 ∉ s.live 0 ∧
     s.krovol.tether ≠ some 1 ∧ ({ s with krovol := { s.krovol with tether := some 1 } } : State).krovol.tether = some 1) ∧
    (let s := padS fun q => { q with repl := { q.repl with present := 3 } }
     s.member 0 1 = true ∧ connected (putBit (s.pad 0).repl.present 1 false) 0 = putBit (s.pad 0).repl.present 1 false ∧
     (s.pad 0).repl.mpMiB 1 = 0) ∧
    envRefuses (demo.envNow 0) (demo.envAt 0 3) = false ∧
    (let s := padS fun q => { q with aon := { q.aon with nfProg := some program } }
     (s.pad 0).aon.nfProg.isSome = true ∧ ∀ y ∈ s.members 0, (s.pad y).bell.ftHalt = false) ∧
    (let r := hurdleRec 3 0 0 0 0 2 0 0
     recValid r = true ∧ demo.planned (recDie r) = true ∧ demo.member 0 (recDie r) = true) := by decide +kernel

theorem hyp_RegionsSwitchAndFencesDrain_1 :
    (let k := pkt 0x40 [0, 0, 0, 0x1000, 0, 1]
     let r := (demo.pad 0).repl
     let g := regionOfWords k 0 (r.regionAt 0)
     let v := demo.envNow 0
     demo.regionBad r 0 g (k.p 6) = false ∧ envRefuses v { v with r := v.r.setRegion 0 g } = false ∧
     regionFull 0 (r.regionAt 0) g = true) ∧
    (let k := pkt 0x40 [64, 0, 0, 0, 0, 0x200]
     let r := (demo.pad 0).repl
     let g := regionOfWords k 64 (r.regionAt 64)
     demo.regionBad r 64 g (k.p 6) = false ∧ regionFull 64 (r.regionAt 64) g = false ∧ regionSweeps 64 (r.regionAt 64) g = false) ∧
    (let k := pkt 0x40 [65, 0, 0, 0, 0, 0]
     demo.regionBad (demo.pad 0).repl 65 (regionOfWords k 65 ((demo.pad 0).repl.regionAt 65)) (k.p 6) = true) := by decide +kernel

theorem hyp_RegionsSwitchAndFencesDrain_2 :
    let g : Region := { base := 0, limit := 0x1000, attr := { enable := true } }
    let r : RegionOp := { n := 0, new := g, full := true, step := 3 }
    let s := (going demo (.region r)).modShep 0 fun x => { x with recheck := some 0 }
    let f := s.regionLines 0 r
    0 ∈ s.leaders ∧ (∀ l ∈ s.leaders, l ≠ 0 → s.regionOp l = none) ∧ s.regionOp 0 = some (0, r) ∧ r.full = true ∧
    r.step ≠ 1 ∧ s.jobOpen (jobOf 0) = false ∧ s.linesIdle 0 f = true ∧
    (∀ x, ∀ p : PFold, ((s.pad x).repl.carries x p).isSome = true → s.heldLines x p f = []) ∧
    (s.pad 0).shep.recheck.isSome = true := by decide +kernel

theorem hyp_RegionsSwitchAndFencesDrain_3 : ∀ n ∈ [(1 : Nat), 3],
    let s := going (padS fun q => { q with repl := { q.repl with present := 3 } }) (.fence 1 n)
    0 ∈ s.leaders ∧ (∀ l ∈ s.leaders, l ≠ 0 → s.defAt l DefKind.anyFence = none) ∧
    (s.defAt 0 DefKind.anyFence).map (fun o => o.kind) = some (.fence 1 n) ∧ s.jobOpen (jobOf 0) = false ∧ (s.pad 0).shep.sw = none ∧
    ∀ p : PFold, ((s.pad 1).repl.carries 1 p).isSome = true → ((s.pad 1).folds[p]).tt = [] ∧ ((s.pad 1).folds[p]).pens = [] ∧
      (s.fc 1 p).recorded = [] ∧ ((s.pad 1).folds[p]).dirtyLines = [] ∧ ((s.pad 1).folds[p]).quiet = true := by decide +kernel


/-! ### Single steps -/

/-- Reset values of the register tables: PKG_ID (18 R483), PKG_FOLDMAP of a member and of another position (18 R485), TIDE_ALLOW
(11 R307), STREAM_CTL (09 R253), BELL_CFG (13 R360), POOL_CTL (06 R175). -/
theorem test_reset_values :
    let r (a : RegAddr) : Word := ((after (.registerRead W a) demo).pad 0).rp.rdata
    r 0 = 0x01080B00 ∧ r 0x60 = 0x00043210 ∧ r 0x64 = 0x00078888 ∧ r 0x3030 = 0x0820 ∧ r (padAddr 0 0x200000) = 64 ∧
    r (padAddr 0 0x3C0000) = 0xE ∧ r (foldAddr 0 0 0x3000) = 1 := by decide +kernel

/-- 09 R253: STARVE_LIMIT takes its eight bits, the reserved ones read 0. -/
theorem test_starve_limit :
    let a := padAddr 0 0x200000
    let s := after (.registerWrite W a 0xFFFFFFFF) demo
    ((after (.registerRead W a) s).pad 0).rp.rdata = 0xFF := by decide +kernel

/-- 11 R284: a Tide that lags steps up to 1,000k ns at tick k; HCLK stopped, it goes on by 1,000. -/
theorem test_tick : ((after .lclkTick demo).pad 0).now = 1000 ∧
    ((after .lclkTick (padS fun q => { q with ebb := { q.ebb with hclkAck := false }, aon := { q.aon with tideFx := 7 * 2 ^ 24 } })).pad 0).now
      = 1007 := by decide +kernel

/-- 18 R478: a DENIED access wakes nothing, reads 0, and is counted. -/
theorem test_denied_is_counted :
    let t := after (.registerRead W 2) demo
    (t.pad 0).rp = { rdata := 0, resp := respDenied, ack := true } ∧ (t.pad 0).common.denied = 1 := by decide +kernel

/-- 07 R196: CLEAR returns the predictor to its reset state; 0 leaves it. -/
theorem test_clear :
    let s := foldS fun f => { f with pred := [(6, predRec 4 true false 1 9)] }
    (fd (after (.clear W 0 0 1) s)).pred = [] ∧ (fd (after (.clear W 0 0 0) s)).pred = (fd s).pred := by decide +kernel

/-- 07 R183: a far ADD answers the old value and leaves the sum. -/
theorem test_far_add :
    let f := { req .atomicOp (agent 0 1) with atop := 0, addr := 0x4008 }
    (atomicLine f (0xFFFFFFFFFFFFFFFF#512 <<< 64) (2#512 <<< 64)) = (1#512 <<< 64, 0xFFFFFFFFFFFFFFFF#512 <<< 64) := by decide +kernel

/-- 15, the example: the reply to PING carries TAG and SEQ of its packet, FINAL set. -/
theorem test_ping_reply :
    let t := after (.ping 0) (running demo 0x01 [])
    (((t.pad 0).shep.rq[(2 : QN)]).replies.map fun r => (r.pri, r.words.take 2)) =
      [(1, [0x01 + 3 * 2 ^ 8 + 3 * 2 ^ 14 + 1 * 2 ^ 24 + 1 * 2 ^ 26, 4 * 2 ^ 8])] := by decide +kernel


end Sys2Proof.Tests
end

section
/-!
The home of an address: the fields that the hashes read as bit vectors, an agent identifier of a fold taken apart again,
and the statement O7 (01 R17, R18, R22).
-/

namespace Sys2Proof.Machine

/-! ### Address fields -/

/-- `bits` is the field that `extractLsb'` cuts out. -/
theorem bits_eq_toNat_extractLsb' {n : Nat} (a : BitVec n) (lo len : Nat) :
    bits a lo len = (a.extractLsb' lo len).toNat :=
  (BitVec.extractLsb'_toNat lo len a).symm

/-- The home hash as an XOR of 6-bit fields, the last one zero-extended (01 R17). -/
theorem homeHash_eq_toNat_xor (a : Addr) :
    homeHash a = (a.extractLsb' 12 6 ^^^ a.extractLsb' 18 6 ^^^ a.extractLsb' 24 6 ^^^
      (a.extractLsb' 30 2).setWidth 6).toNat := by
  have hext : ((a.extractLsb' 30 2).setWidth 6).toNat = (a.extractLsb' 30 2).toNat :=
    BitVec.toNat_setWidth_of_le (by decide)
  simp only [homeHash, bits_eq_toNat_extractLsb', BitVec.toNat_xor, hext]

/-- The logical home fold as an XOR of 2-bit fields (01 R22): it names one of four folds without a reduction. -/
theorem homeFold_val (a : Addr) :
    (homeFold a).val = (a.extractLsb' 6 2 ^^^ a.extractLsb' 8 2 ^^^ a.extractLsb' 10 2 ^^^ a.extractLsb' 16 2).toNat := by
  simp only [homeFold, bits_eq_toNat_extractLsb', ← BitVec.toNat_xor, Fin.ofNat]
  exact Nat.mod_eq_of_lt (BitVec.isLt _)

/-! ### The agent identifier of a fold -/

theorem foldAgent_toNat (d : Die) (n : LFold) : (foldAgent d n).toNat = d.val * 128 + (64 + n.val) := by
  simp only [foldAgent, agent, BitVec.toNat_ofNat]
  omega

@[simp] theorem dieOf_foldAgent (d : Die) (n : LFold) : dieOf (foldAgent d n) = d := by
  apply Fin.ext
  simp only [dieOf, foldAgent_toNat, Fin.ofNat]
  omega

@[simp] theorem lfoldOf_foldAgent (d : Die) (n : LFold) : lfoldOf (foldAgent d n) = n := by
  apply Fin.ext
  simp only [lfoldOf, localOf, foldAgent_toNat, Fin.ofNat]
  omega

/-- The package-wide number of a fold (00 R7) fits its 32 values. -/
@[simp] theorem pkgFold_foldAgent_val (d : Die) (n : LFold) : (pkgFold (foldAgent d n)).val = d.val * 4 + n.val := by
  simp only [pkgFold, dieOf_foldAgent, lfoldOf_foldAgent, Fin.ofNat]
  omega

/-! ### The home die and the home -/

/-- In local mode HOME_DIE alone decides (01 R18). -/
theorem Repl.homeDie_of_local {r : Repl} {a : Addr} (h : (r.attrOf a).local' = true) :
    r.homeDie a = (r.attrOf a).homeDie := by
  simp only [Repl.homeDie, h, if_true]

/-- In interleave mode the die table decides, at the hash (01 R17). The index is a variable: a bound proof in the goal may
speak of the hash in another form, in which the hash cannot be rewritten. -/
theorem Repl.homeDie_of_interleave {r : Repl} {a : Addr} {i : Fin 64} (h : (r.attrOf a).local' = false)
    (hi : Fin.ofNat 64 (homeHash a) = i) : r.homeDie a = r.dietab[i] := by
  subst hi
  simp only [Repl.homeDie, h, Bool.false_eq_true, if_false]

@[simp] theorem Repl.dieOf_home (r : Repl) (a : Addr) : dieOf (r.home a) = r.homeDie a :=
  dieOf_foldAgent _ _

@[simp] theorem Repl.lfoldOf_home (r : Repl) (a : Addr) : lfoldOf (r.home a) = homeFold a :=
  lfoldOf_foldAgent _ _

@[simp] theorem Repl.pkgFold_home_val (r : Repl) (a : Addr) :
    (pkgFold (r.home a)).val = (r.homeDie a).val * 4 + (homeFold a).val :=
  pkgFold_foldAgent_val _ _

/-- Settles O7: the two modes choose the die, and the home is that die's fold identifier, which gives die and fold back. -/
theorem homeOfAnAddress : Obligations.HomeOfAnAddress := by
  unfold Obligations.HomeOfAnAddress
  intro r a h f
  have hhash : homeHash a = h.toNat := homeHash_eq_toNat_xor a
  have hfold : (homeFold a).val = f.toNat := homeFold_val a
  refine ⟨Repl.homeDie_of_local, fun hmode => ?_, r.dieOf_home a, ?_, ?_⟩
  · exact Repl.homeDie_of_interleave hmode (congrArg (Fin.ofNat 64) hhash)
  · rw [r.lfoldOf_home, hfold]
  · rw [r.pkgFold_home_val, hfold]

end Sys2Proof.Machine
end

section
/-!
A Confluence flit at its receiving end: what a report about the own segment leaves, what no operation takes out of a
Bell's inbox, the three courses of CONFLUENCE_FLIT, and the statement O13 (10 R260, R267, 09 R235, R251).
-/

namespace Sys2Proof.Machine

/-! ### A change of one paddock -/

theorem State.onlyPad_modPad (s : State) (d : Die) (f : Paddock → Paddock) : s.OnlyPad (s.modPad d f) d :=
  ⟨rfl, rfl, rfl, rfl, fun x hx => s.pad_modPad_other d x f hx⟩

theorem State.OnlyPad.modPad {s t : State} {d : Die} (h : s.OnlyPad t d) (f : Paddock → Paddock) :
    s.OnlyPad (t.modPad d f) d :=
  ⟨h.krovol, h.tether, h.fresh, h.pending, fun x hx => (t.pad_modPad_other d x f hx).trans (h.others x hx)⟩

/-! ### A report about the segment that files it -/

@[simp] theorem dieOf_streamAgent (d : Die) : dieOf (streamAgent d) = d := by
  apply Fin.ext
  simp only [dieOf, streamAgent, agent, BitVec.toNat_ofNat, Fin.ofNat]
  omega

/-- The paddock with one more report in its Bell's inbox. -/
def Paddock.receive (q : Paddock) (r : Report) : Paddock := { q with bell := { q.bell with inbox := q.bell.inbox ++ [r] } }

@[simp] theorem Paddock.receive_inbox (q : Paddock) (r : Report) : (q.receive r).bell.inbox = q.bell.inbox ++ [r] := rfl
@[simp] theorem Paddock.receive_conf (q : Paddock) (r : Report) : (q.receive r).conf = q.conf := rfl
@[simp] theorem Paddock.receive_stream (q : Paddock) (r : Report) : (q.receive r).stream = q.stream := rfl

/-- The home Bell of a report about an agent of the own die is the own one, and only a fold's report has the reaction of
class FT (13 R342, R345). -/
theorem State.file_own {s : State} {d : Die} {r : Report} (hsubj : dieOf r.subject = d) (hfold : r.fromFold = none) :
    s.file d r = s.modPad d fun q => q.receive r := by
  simp [State.file, State.ftReact, hsubj, hfold, Paddock.receive]

theorem State.confRep_eq (s : State) (d : Die) (code detail : Nat) :
    s.confRep d code detail =
      s.modPad d fun q => q.receive (s.segReport d (BitVec.ofNat 12 code) (streamAgent d) detail) :=
  State.file_own (dieOf_streamAgent d) rfl

@[simp] theorem State.segReport_modMod (s : State) (d : Die) (m : ModN) (f : ModStat → ModStat) (code : BitVec 12)
    (subject : AgentId) (detail : Nat) :
    (s.modMod d m f).segReport d code subject detail = s.segReport d code subject detail := by
  simp [State.segReport, Paddock.now]

theorem State.file_streamRep (s : State) (d : Die) (code detail : Nat) :
    s.file d (streamRep s d code detail) = s.modPad d fun q => q.receive (streamRep s d code detail) :=
  State.file_own (dieOf_streamAgent d) rfl

/-! ### What stays in an inbox -/

/-- Every report in an inbox of `s` is in that inbox of `t`. -/
def State.InboxesKept (s t : State) : Prop := ∀ x, (s.pad x).bell.inbox ⊆ (t.pad x).bell.inbox

theorem State.InboxesKept.refl (s : State) : s.InboxesKept s := fun _ => List.Subset.refl _

theorem State.InboxesKept.trans {s t u : State} (h : s.InboxesKept t) (g : t.InboxesKept u) : s.InboxesKept u :=
  fun x => List.Subset.trans (h x) (g x)

theorem State.InboxesKept.modPad {s t : State} (h : s.InboxesKept t) (d : Die) (f : Paddock → Paddock)
    (hf : ∀ q, q.bell.inbox ⊆ (f q).bell.inbox) : s.InboxesKept (t.modPad d f) := by
  refine h.trans fun x => ?_
  by_cases hx : x = d
  · subst hx; rw [State.pad_modPad_same]; exact hf _
  · rw [State.pad_modPad_other t d x f hx]; exact List.Subset.refl _

theorem State.InboxesKept.foldl {α : Type} {s t : State} (h : s.InboxesKept t) (f : State → α → State) (l : List α)
    (hf : ∀ (u : State) (a : α), u.InboxesKept (f u a)) : s.InboxesKept (l.foldl f t) := by
  induction l generalizing t with
  | nil => exact h
  | cons a l ih => exact ih (h.trans (hf t a))

theorem State.InboxesKept.ftReact {s t : State} (h : s.InboxesKept t) (r : Report) : s.InboxesKept (t.ftReact r) := by
  unfold State.ftReact
  split
  case h_1 x p _ =>
    split
    · refine State.InboxesKept.modPad ?_ x _ fun _ => List.Subset.refl _
      exact h.modPad x _ fun _ => List.Subset.refl _
    · exact h
  case h_2 => exact h

theorem State.InboxesKept.file {s t : State} (h : s.InboxesKept t) (d : Die) (r : Report) : s.InboxesKept (t.file d r) :=
  (h.modPad _ _ fun _ => List.subset_append_left _ _).ftReact r

theorem State.InboxesKept.eqCheck {s t : State} (h : s.InboxesKept t) (d : Die) (q : EQN) :
    s.InboxesKept (t.eqCheck d q) := by
  unfold State.eqCheck State.queueRep State.modShep
  dsimp only
  split
  · exact h
  · refine State.InboxesKept.file ?_ d _
    exact h.modPad d _ fun _ => List.Subset.refl _

theorem State.InboxesKept.eqChecks {s t : State} (h : s.InboxesKept t) (d : Die) (kind : Nat) :
    s.InboxesKept (t.eqChecks d kind) := by
  refine h.foldl _ _ fun u q => ?_
  split
  · exact (State.InboxesKept.refl u).eqCheck d q
  · exact .refl u

theorem State.InboxesKept.event {s t : State} (h : s.InboxesKept t) (kind : Nat) (d : Die) (arg : Nat) :
    s.InboxesKept (t.event kind d arg) := by
  unfold State.event State.eventFrom
  split
  · exact h
  · exact (h.eqChecks _ kind).modPad _ _ fun _ => List.Subset.refl _

theorem State.InboxesKept.hurdleStore {s t : State} (h : s.InboxesKept t) (d : Die) (r : BitVec 64) :
    s.InboxesKept (t.hurdleStore d r) := by
  unfold State.hurdleStore
  dsimp only
  split
  · refine State.InboxesKept.event ?_ 7 d _
    exact h.modPad d _ fun _ => List.Subset.refl _
  · exact h.file d _

theorem State.InboxesKept.hurdleAppend {s t : State} (h : s.InboxesKept t) (d : Die) (r : BitVec 64) :
    s.InboxesKept (t.hurdleAppend d r) := by
  unfold State.hurdleAppend
  dsimp only
  split
  · exact (h.hurdleStore d r).file d _
  · exact h.hurdleStore d r

theorem State.InboxesKept.linkFail {s t : State} (h : s.InboxesKept t) (d : Die) (net : Net) (ring stage : Nat) :
    s.InboxesKept (t.linkFail d net ring stage) := by
  unfold State.linkFail
  dsimp only
  split
  · refine State.InboxesKept.hurdleAppend ?_ d _
    exact h.modPad d _ fun _ => List.Subset.refl _
  · exact h.modPad d _ fun _ => List.Subset.refl _

theorem State.InboxesKept.crossBad {s t : State} (h : s.InboxesKept t) (d : Die) (net : Net) (c : CrossItem) :
    s.InboxesKept (t.crossBad d net c) :=
  (h.file d _).linkFail d net _ _

/-! ### A ring flit that fails its own check at the crossing (09 R251) -/

theorem State.crossBad_files (s : State) (d : Die) (net : Net) (c : CrossItem) :
    ∃ r ∈ ((s.crossBad d net c).pad d).bell.inbox, r.code = 0x701 := by
  have hfile : streamRep s d 0x701 (stageDetail net c.entry) ∈
      ((s.file d (streamRep s d 0x701 (stageDetail net c.entry))).pad d).bell.inbox := by
    simp [State.file_streamRep]
  exact ⟨_, (State.InboxesKept.refl _).linkFail d net _ _ d hfile, rfl⟩

/-- The ring flit of a received item is removed as a bad one. -/
def ConfFlit.removeItem (f : ConfFlit) (d : Die) (e : Edge) (got : List ConfItem) (s : State) (i : ConfItem) : State :=
  match f.arrival d e got i.slot with
  | some y => s.crossBad d y.1 y.2
  | none => s

theorem State.inboxesKept_removeItem (s : State) (f : ConfFlit) (d : Die) (e : Edge) (got : List ConfItem)
    (i : ConfItem) : s.InboxesKept (f.removeItem d e got s i) := by
  unfold ConfFlit.removeItem
  split
  · exact (State.InboxesKept.refl s).crossBad d _ _
  · exact .refl s

/-- The slot of a received item brings something to the edge. -/
theorem ConfFlit.arrival_of_mem (f : ConfFlit) (d : Die) (e : Edge) {got : List ConfItem} {i : ConfItem} (hi : i ∈ got) :
    ∃ y, f.arrival d e got i.slot = some y := by
  have hfind : (got.find? fun j => j.slot == i.slot).isSome = true := List.find?_isSome.mpr ⟨i, hi, by simp⟩
  obtain ⟨j, hj⟩ := Option.isSome_iff_exists.mp hfind
  simp [ConfFlit.arrival, hj]

theorem ConfFlit.removeItem_files (f : ConfFlit) (d : Die) (e : Edge) {got : List ConfItem} (s : State) {i : ConfItem}
    (hi : i ∈ got) : ∃ r ∈ ((f.removeItem d e got s i).pad d).bell.inbox, r.code = 0x701 := by
  obtain ⟨y, hy⟩ := f.arrival_of_mem d e hi
  simp only [ConfFlit.removeItem, hy]
  exact s.crossBad_files d y.1 y.2

/-- Removing a list of items files 0x701 where it has one: what one removal files, the later ones keep. -/
theorem ConfFlit.foldl_removeItem_files (f : ConfFlit) (d : Die) (e : Edge) {got l : List ConfItem} (hl : l ⊆ got)
    (hne : l ≠ []) (s : State) : ∃ r ∈ ((l.foldl (f.removeItem d e got) s).pad d).bell.inbox, r.code = 0x701 := by
  cases l with
  | nil => exact absurd rfl hne
  | cons i l =>
    obtain ⟨r, hr, hcode⟩ := f.removeItem_files d e s (hl List.mem_cons_self)
    exact ⟨r, (State.InboxesKept.refl _).foldl _ l (fun u j => u.inboxesKept_removeItem f d e got j) d hr, hcode⟩

/-- Where every ring flit passes its own check, each slot brings a ring flit or a mark. -/
theorem ConfFlit.arrival_carries {f : ConfFlit} {d : Die} {e : Edge} {got : List ConfItem} {n : Fin 8} {y : Net × CrossItem}
    (hsound : ∀ i ∈ got, i.flit.isSome = true) (hy : f.arrival d e got n = some y) :
    (y.2.flit.isSome || y.2.resv.isSome) = true := by
  cases hfind : got.find? fun i => i.slot == n with
  | some i =>
    simp only [ConfFlit.arrival, hfind, Option.some.injEq] at hy
    subst hy
    simp [hsound i (List.mem_of_find?_eq_some hfind)]
  | none =>
    simp only [ConfFlit.arrival, hfind, Option.bind_eq_some_iff] at hy
    obtain ⟨c, -, hc⟩ := hy
    split at hc
    next hresv =>
      cases hc
      simp [hresv]
    next => cases hc

/-! ### The three courses of CONFLUENCE_FLIT (10 R267) -/

section
variable {s : State} {d : Die} {m : ModN} {e : Edge} {f : ConfFlit} {rest : List ConfFlit}
  {noise : Nat} {hurt : List (Fin 8 × Nat)} {seq : BitVec 12} {got : List ConfItem}

theorem State.confRecv_of_crc_fails (hm : s.ModuleOn d m e) (hw : ((s.pad d).conf.mod[m]).wire = f :: rest)
    (hh : f.heard noise (hurtOf hurt) = none) :
    s.confRecv d m noise hurt = (s.modMod d m fun y => { y with wire := rest }).confRep d 0x806 m.val := by
  obtain ⟨hrun, hedge⟩ := hm
  simp only [State.confRecv, hw, hedge, hrun, hh, Bool.not_true, Bool.false_eq_true, if_false]

theorem State.confRecv_of_seq_ne (hm : s.ModuleOn d m e) (hw : ((s.pad d).conf.mod[m]).wire = f :: rest)
    (hh : f.heard noise (hurtOf hurt) = some (seq, got)) (hseq : seq ≠ ((s.pad d).conf.mod[m]).seqRx + 1) :
    s.confRecv d m noise hurt = (s.modMod d m fun y => { y with wire := rest, seqRx := seq }).confRep d 0x806 m.val := by
  obtain ⟨hrun, hedge⟩ := hm
  simp only [State.confRecv, hw, hedge, hrun, hh, Bool.not_true, Bool.false_eq_true, if_false, bne_iff_ne, ne_eq, hseq,
    not_false_eq_true, if_true]

/-- A flit with the next SEQ: its bad ring flits are removed, and whatever else it brings arrives at the edge. -/
theorem State.confRecv_of_seq_next (hm : s.ModuleOn d m e) (hw : ((s.pad d).conf.mod[m]).wire = f :: rest)
    (hh : f.heard noise (hurtOf hurt) = some (seq, got)) (hseq : seq = ((s.pad d).conf.mod[m]).seqRx + 1) :
    s.confRecv d m noise hurt =
      (((got.filter fun i => i.flit.isNone).foldl (f.removeItem d e got)
          (s.modMod d m fun y => { y with wire := rest, seqRx := seq })).modEdgeOf d e fun y =>
        y.arrive f.ord (((List.finRange 8).filterMap (f.arrival d e got)).filter fun y =>
          y.2.flit.isSome || y.2.resv.isSome)).pcount d 0x19 (edgeNo e).val := by
  obtain ⟨hrun, hedge⟩ := hm
  simp only [State.confRecv, hw, hedge, hrun, hh, hseq, bne_self_eq_false, Bool.not_true, Bool.false_eq_true, if_false]
  rfl

end

/-- A discarded Confluence flit changes its module and files 0x806; nothing of it reaches the edge or the Stream. -/
theorem State.confRep_modMod_discards (s : State) (d : Die) (m : ModN) (f : ModStat → ModStat) :
    let t := (s.modMod d m f).confRep d 0x806 m.val
    s.OnlyPad t d ∧ (t.pad d).conf.mod[m] = f (s.pad d).conf.mod[m] ∧ (t.pad d).conf.edge = (s.pad d).conf.edge ∧
      (t.pad d).stream = (s.pad d).stream ∧ (s.pad d).Filed (t.pad d) (s.segReport d 0x806 (streamAgent d) m.val) := by
  intro t
  have ht : t = (s.modMod d m f).modPad d fun q => q.receive (s.segReport d 0x806 (streamAgent d) m.val) := by
    simp only [t, State.confRep_eq, State.segReport_modMod]
    rfl
  rw [ht]
  refine ⟨(s.onlyPad_modPad d _).modPad _, ?_, ?_, ?_, ?_⟩ <;> simp [Paddock.Filed, -Fin.getElem_fin]

/-- A Confluence flit whose ring flits are all sound changes its module, its edge and a count. -/
theorem State.pcount_modEdgeOf_modMod_arrives (s : State) (d : Die) (m : ModN) (e : Edge) (f : ModStat → ModStat)
    (g : EdgeStat → EdgeStat) (sel unit : Nat) :
    let t := ((s.modMod d m f).modEdgeOf d e g).pcount d sel unit
    s.OnlyPad t d ∧ (t.pad d).conf.mod[m] = f (s.pad d).conf.mod[m] ∧
      (t.pad d).conf.edge[edgeNo e] = g (s.pad d).conf.edge[edgeNo e] ∧
      (t.pad d).bell = (s.pad d).bell ∧ (t.pad d).stream = (s.pad d).stream := by
  refine ⟨((s.onlyPad_modPad d _).modPad _).modPad _, ?_, ?_, ?_, ?_⟩ <;> simp [-Fin.getElem_fin]

theorem ConfFlit.heard_of_crc_fails {f : ConfFlit} {noise : Nat} {hurt : Fin 8 → Nat} (hn : noise ≠ 0)
    (hc : sealOk 2032 (sealed 2032 (f.body hurt) ^^^ noise % 2 ^ 2048) = false) : f.heard noise hurt = none := by
  simp only [ConfFlit.heard, readConf, hn, hc, if_false, Bool.false_eq_true]

/-- Settles O13: a failed CRC or SEQ ends in the discard, a sound flit in the arrival, and a bad ring flit in 0x701, which
nothing after it takes out of the inbox. -/
theorem confluenceFlitChecked : Obligations.ConfluenceFlitChecked := by
  unfold Obligations.ConfluenceFlitChecked
  intro s d m e f rest noise hurt hm hw
  have hexec : exec (.confluenceFlit d m ⟨noise, hurt⟩) s = .next (s.confRecv d m noise hurt) := rfl
  refine ⟨fun hn hc => ?_, fun seq got hh => ⟨fun hseq => ?_, fun hseq hsound => ?_, fun hseq i hi hbad => ?_⟩⟩
  · rw [hexec, State.confRecv_of_crc_fails hm hw (ConfFlit.heard_of_crc_fails hn hc)]
    exact ⟨_, rfl, s.confRep_modMod_discards d m _⟩
  · rw [hexec, State.confRecv_of_seq_ne hm hw hh hseq]
    obtain ⟨honly, hmod, hedge, hstream, hfiled⟩ :=
      s.confRep_modMod_discards d m fun y => { y with wire := rest, seqRx := seq }
    exact ⟨_, rfl, honly, congrArg ModStat.wire hmod, hedge, hstream, hfiled⟩
  · have hnone : (got.filter fun i => i.flit.isNone) = [] :=
      List.filter_eq_nil_iff.mpr fun i hi => by simp [← Option.not_isSome, hsound i hi]
    have hall : (((List.finRange 8).filterMap (f.arrival d e got)).filter fun y => y.2.flit.isSome || y.2.resv.isSome) =
        (List.finRange 8).filterMap (f.arrival d e got) :=
      List.filter_eq_self.mpr fun y hy => by
        obtain ⟨n, -, hn⟩ := List.mem_filterMap.mp hy
        exact ConfFlit.arrival_carries hsound hn
    rw [hexec, State.confRecv_of_seq_next hm hw hh hseq, hnone, hall]
    exact ⟨_, rfl, s.pcount_modEdgeOf_modMod_arrives d m e _ _ _ _⟩
  · have hne : (got.filter fun j => j.flit.isNone) ≠ [] :=
      List.ne_nil_of_mem (List.mem_filter.mpr ⟨hi, by simp [hbad]⟩)
    obtain ⟨r, hr, hcode⟩ := f.foldl_removeItem_files d e (List.filter_subset_self got) hne
      (s.modMod d m fun y => { y with wire := rest, seqRx := seq })
    rw [hexec, State.confRecv_of_seq_next hm hw hh hseq]
    exact ⟨_, rfl, r, by simpa using hr, hcode⟩

end Sys2Proof.Machine
end

section
/-!
Time: every command but LCLK_TICK and PORESET_N_ASSERT keeps it, a tick and an HCLK cycle move Tide on within the interval
of its tick (11 R283, R284), and the statements O1 to O6 and the first part of O49 that follow.
-/

namespace Sys2Proof.Machine

/-! ### Every command but two keeps the time of every paddock -/

/-- A command completes, and keeps the parameters, the queue and the time of every paddock. -/
def State.Completes (s : State) (o : Host.Outcome State Fault Refusal) : Prop := ∃ t, o = .next t ∧ Keeps s t

theorem State.Completes.next {s t : State} (h : Keeps s t) : s.Completes (.next t) := ⟨t, rfl, h⟩

theorem State.runTaken_completes (s : State) (d : Die) (opc : Nat) (f : Taken → State → State)
    (hf : ∀ k t, Keeps s t → Keeps s (f k t)) : s.Completes (.next (s.runTaken d opc f)) :=
  .next (State.runTaken_keeps (.refl s) d opc f hf)

theorem State.portAccess_completes (s : State) (w : Who) (a : RegAddr) (v : Option Word) :
    s.Completes (.next (s.portAccess w a v)) :=
  .next (State.portAccess_keeps (.refl s) w a v)

theorem State.runAgent_completes (s : State) (d : Die) (n : AgentN) (f : AC → AC) : s.Completes (.next (s.runAgent d n f)) :=
  .next (State.runAgent_keeps (.refl s) d n f)

theorem State.pullOf_completes (s : State) (d : Die) (p : PFold) (f : ReqOp → Bool) : s.Completes (.next (s.pullOf d p f)) :=
  .next (State.pullOf_keeps (.refl s) d p f)

/-- A flit comes off the wires and is taken. -/
theorem State.wire_keeps' (s : State) (d : Die) (net : Net) (a : Spot) (noise : Nat) : Keeps s (s.wire d net a noise).1 :=
  State.wire_keeps (.refl s) d net a noise

theorem exec_completes (c : Instr) (s : State) (htick : c ≠ .lclkTick) (hpor : c ≠ .poresetAssert) :
    s.Completes (exec c s) := by
  cases c with
  | poresetAssert => exact absurd rfl hpor
  | lclkTick => exact absurd rfl htick
  | poresetRelease => exact .next (State.porRelease_keeps (.refl s) _ _ _)
  | padresetRelease => exact .next (State.padRelease_keeps (.refl s) _ _ _ _)
  | padresetAssert => exact .next (State.padAssert_keeps (.refl s) _)
  | startupRetry => exact .next (State.bootRetry_keeps (.refl s) _ _)
  | fuseAck => exact .next (State.fuseWord_keeps (.refl s) _ _)
  | fuseTimeout | hclkAckTimeout => exact .next (.ite (State.stepFail_keeps (.refl s) _) (.refl s))
  | checkerSelfTest => exact .next (State.selfTest_keeps (.refl s) _ _ _)
  | arrayInitialisation => exact .next (State.arrayInit_keeps (.refl s) _ _ _)
  | hclkAck => exact .next (State.clockAck_keeps (.refl s) _ _ _)
  | assemblyDeadline => exact .next (State.deadlineAt_keeps (.refl s))
  | formed => exact .next (State.formAll_keeps (.refl s))
  | moduleTrained => exact .next (State.modUp_keeps (.refl s) _ _ _ _ _)
  | trainingFailed => exact .next (State.trainFailed_keeps (.refl s) _ _)
  | trainingRetry => exact .next (State.trainAgain_keeps (.refl s) _ _)
  | moduleDown => exact .next (State.modDown_keeps (.refl s) _ _)
  | dieReady => exact .next (State.dieReadyAt_keeps (.refl s) _ _)
  | confluenceFlit => exact .next (State.confRecv_keeps (.refl s) _ _ _ _)
  | edgeFlitAccept => exact .next (State.edgeAccept_keeps (.refl s) _ _ _ _)
  | confluenceFlitSend => exact .next (State.confSend_keeps (.refl s) _ _)
  | routeEpochSwitchCycle => exact .next (State.switchCycle_keeps (.refl s))
  | envelopeRecheck => exact .next (Keeps.foldl _ _ (.refl s) fun _ x h => State.recheck_keeps h x)
  | reqFlitArrival => exact .next (State.reqArrival_keeps (s.wire_keeps' _ _ _ _) _ _ _)
  | snpFlitArrival => exact .next (State.snpArrival_keeps (s.wire_keeps' _ _ _ _) _ _ _)
  | turn => exact .next (State.turnAt_keeps (.refl s) _ _ _)
  | flitInject => exact .next (State.injectAt_keeps (.refl s) _ _ _)
  | starveReservation => exact .next (State.reserveAt_keeps (.refl s) _ _ _)
  | culvertFlit => exact .next (State.culvertAt_keeps (s.wire_keeps' _ _ _ _) _ _ _ _)
  | sluiceAdmit => exact .next (State.sluiceAdmit_keeps (.refl s) _ _)
  | fenceAck => exact .next (State.nfFenced_keeps (State.fenceDone_keeps (.refl s) _ _) _ _)
  | getShared | getOwned | getOnce | upgrade | claim | putDirty | putCopy | putClean | pushIO | pushFull | atomicOp
  | sweep | purge | sweepPurge | devRead | devWrite | reservedOpcode => exact s.pullOf_completes _ _ _
  | snpAck | snpAckWB => exact .next (State.snpAnswerAt_keeps (s.wire_keeps' _ _ _ _) _ _ _ _)
  | snpData | putData | pushData => exact .next (State.datAt_keeps (s.wire_keeps' _ _ _ _) _ _ _ _)
  | compAck => exact .next (State.compAckAt_keeps (s.wire_keeps' _ _ _ _) _ _ _)
  | comp | ordered | err => exact .next (State.rspAt_keeps (s.wire_keeps' _ _ _ _) _ _ _ _)
  | dataToReq => exact .next (State.dataToReqAt_keeps (s.wire_keeps' _ _ _ _) _ _ _)
  | memoryRequestIssue | foldShareExceeded | transactionAbandoned =>
    exact .next (.ite (State.runFold_keeps (.refl s) _ _ _) (.refl s))
  | memoryReadData | memoryWriteResponse =>
    refine .next ?_
    split
    · exact .ite (State.runFold_keeps (.refl s) _ _ _) (.refl s)
    · exact .refl s
  | memoryCreditReturn =>
    refine .next ?_
    split
    · exact State.modFold_keeps (.refl s) _ _ _
    · exact .refl s
  | dozeGate => exact .next (.ite ((Keeps.refl s).modPad _ _ fun _ => ⟨rfl, rfl, rfl⟩) (.refl s))
  | unsureWindowEnd => exact .next (.ite (State.modFold_keeps (.refl s) _ _ _) (.refl s))
  | deadlineMissed => exact .next (State.missedAt_keeps (.refl s) _ _ _)
  | abandonBeforeInjection => exact .next (State.abandonAt_keeps (.refl s) _ _ _)
  | waySweep => exact .next (State.waySweepAt_keeps (.refl s) _ _)
  | millpondConversion => exact .next (State.millStep_keeps (.refl s) _)
  | wayCopy d p k =>
    refine .next (.ite (.refl s) ?_)
    cases k with
    | tally | emTagA | emTagB | emPayload => exact State.runFold_keeps (.refl s) _ _ _
    | poolTag | poolData | poolSet | pred => exact .refl s
  | raceSwitch => exact .next (State.raceSwitchAt_keeps (.refl s) _ _)
  | scrubRead => exact .next (State.scrubReadAt_keeps (.refl s) _ _)
  | c2gReq | combiningBufferAge | barrier | splitCancel | homeQuery | c2gRsp | c2gDat | stileDeviceAccess | dr
  | stileAbandon => exact s.runAgent_completes _ _ _
  | memoryReadTlp | memoryWriteTlp =>
    exact .next (.ite (State.peerTlp_keeps (.refl s) _ _ _ _ _) (State.badTlp_keeps (.refl s)))
  | bar0Access => exact .next (.ite (State.barTlp_keeps (.refl s) _ _) (State.badTlp_keeps (.refl s)))
  | h4AliasAccess off x tag =>
    refine .next (.ite ?_ (State.badTlp_keeps (.refl s)))
    split
    · exact .refl s
    · exact State.barTlp_keeps (.refl s) _ _
  | charterRead => exact .next (.ite (State.charterTlp_keeps (.refl s) _ _ _) (State.badTlp_keeps (.refl s)))
  | flr => exact .next (State.initiateFlr_keeps (.refl s))
  | flrComplete | tetherPerstRelease => exact .next (State.modTether_keeps (.refl s) _)
  | hotReset => exact .next (State.hotReset_keeps (.refl s))
  | linkDown => exact .next (State.linkLost_keeps (.refl s))
  | tetherPerst => exact .next (State.perstAssert_keeps (.refl s))
  | linkUp => exact .next (State.linkTrained_keeps (.refl s) _ _ _)
  | busMasterEnable =>
    refine .next ?_
    split
    · exact .ite (State.setBme_keeps (.refl s) _ _) (.refl s)
    · exact .refl s
  | hostRingFetch => exact .next (State.ringFetch_keeps (.refl s) _)
  | hostRingCompletion => exact .next (State.ringCompletion_keeps (.refl s) _ _ _)
  | completionTimeout => exact .next (State.ringTimeout_keeps (.refl s) _ _)
  | msixVectorDue => exact .next (State.msixCheck_keeps (.refl s) _)
  | msixSend => exact .next (State.msixPending_keeps (.refl s) _)
  | l1Entry => exact .next (State.enterL1_keeps (.refl s) _)
  | configurationRequest => exact .next (State.cfgRequest_keeps (.refl s) _ _ _)
  | windowSwap =>
    refine .next ?_
    split
    · exact .ite (State.unstallShadows_keeps (State.modTether_keeps (.refl s) _)) (.refl s)
    · exact .refl s
  | release | streamSluiceRate | streamSluiceBurst | clear | bwPeek | tail | tetherMsixEoi | tetherLtr | commit | cqPush
  | cqPushLast | cqFlush | mode | rqFlush | eqFlush | rqPop | eqPop | bellClear | ebbWake | censusClr | censusCtrLo
  | tideNowLo | replicatedRegisterWrite | registerWrite | registerRead => exact s.portAccess_completes _ _ _
  | packetTake => exact .next (State.takePacket_keeps (.refl s) _)
  | heldReplyPost => exact .next (State.postHeld_keeps (.refl s) _ _)
  | watchdog => exact .next (State.watchdogAt_keeps (.refl s) _)
  | ping => exact s.runTaken_completes _ _ _ fun _ _ h => State.runPing_keeps h _ _
  | queryCharter => exact s.runTaken_completes _ _ _ fun _ _ h => State.runQueryCharter_keeps h _ _
  | patchLoad => exact s.runTaken_completes _ _ _ fun _ _ h => State.runPatchLoad_keeps h _ _
  | ttDump => exact s.runTaken_completes _ _ _ fun _ _ h => State.runTtDump_keeps h _ _
  | foldPower => exact s.runTaken_completes _ _ _ fun _ _ h => State.runFoldPower_keeps h _ _
  | foldRetire => exact s.runTaken_completes _ _ _ fun _ _ h => State.runFoldRetire_keeps h _ _
  | foldSpareIn => exact s.runTaken_completes _ _ _ fun _ _ h => State.runFoldSpareIn_keeps h _ _
  | scrubRange => exact s.runTaken_completes _ _ _ fun _ _ h => State.runScrubRange_keeps h _ _
  | maintRange => exact s.runTaken_completes _ _ _ fun _ _ h => State.runMaintRange_keeps h _ _
  | maintSetway => exact s.runTaken_completes _ _ _ fun _ _ h => State.runMaintSetway_keeps h _ _
  | millpondConfig => exact s.runTaken_completes _ _ _ fun _ _ h => State.runMillpondConfig_keeps h _ _
  | regionSet => exact s.runTaken_completes _ _ _ fun _ _ h => State.runRegionSet_keeps h _ _
  | dieJoin => exact s.runTaken_completes _ _ _ fun _ _ h => State.runDieJoin_keeps h _ _
  | dieFence => exact s.runTaken_completes _ _ _ fun _ _ h => State.runDieFence_keeps h _ _
  | nightfoldProgram => exact s.runTaken_completes _ _ _ fun _ _ h => State.runNightfoldProgram_keeps h _ _
  | nightfoldEnter => exact s.runTaken_completes _ _ _ fun _ _ h => State.runNightfoldEnter_keeps h _ _
  | hurdleLogLoad => exact s.runTaken_completes _ _ _ fun _ _ h => State.runHurdleLogLoad_keeps h _ _
  | hurdleLogRead => exact s.runTaken_completes _ _ _ fun _ _ h => State.runHurdleLogRead_keeps h _ _
  | oppointSet => exact s.runTaken_completes _ _ _ fun _ _ h => State.runOppointSet_keeps h _ _
  | censusConfig => exact s.runTaken_completes _ _ _ fun _ _ h => State.runCensusConfig_keeps h _ _
  | deadlineSet => exact s.runTaken_completes _ _ _ fun _ _ h => State.runDeadlineSet_keeps h _ _
  | factoryUnlock => exact s.runTaken_completes _ _ _ fun _ _ h => State.runFactoryUnlock_keeps h _ _
  | injectFault => exact s.runTaken_completes _ _ _ fun _ _ h => State.runInjectFault_keeps h _ _
  | regionSwitch => exact .next (State.regionSwitch_keeps (.refl s))
  | fenceDrained => exact .next (State.fenceStep_keeps (.refl s))
  | bellReport => exact .next (State.bellReport_keeps (.refl s) _)
  | stormEntryRetire | testmodeFall => exact .next ((Keeps.refl s).modPad _ _ fun _ => ⟨rfl, rfl, rfl⟩)
  | pswAck => exact .next (State.pswAck_keeps (.refl s) _ _ _)
  | pswAckTimeout => exact .next (State.pswLate_keeps (.refl s) _ _)
  | foldDrainComplete => exact .next (State.drained_keeps (.refl s) _ _)
  | wakeComplete => exact .next (State.wakeDone_keeps (.refl s) _ _)
  | avsbusAck => exact .next (State.avsAck_keeps (.refl s) _ _)
  | avsbusRetry => exact .next (State.avsRetry_keeps (.refl s) _ _)
  | hclkOpack => exact .next (State.clockAt_keeps (.refl s) _ _)
  | oppointSwitch => exact .next (State.oppSwitch_keeps (.refl s))
  | n1 => exact .next (State.nfN1_keeps (.refl s))
  | n2 => exact .next (State.nfN2_keeps (.refl s))
  | n3 => exact .next (State.nfN3_keeps (.refl s))
  | n4 => exact .next (State.nfN4_keeps (.refl s))
  | ebbAlarm => exact .next (State.alarmAt_keeps (.refl s) _)
  | sentinelSample => exact .next (State.sample_keeps (.refl s) _ _)
  | autowakeTimeout => exact .next (State.autoTimeout_keeps (.refl s) _)
  | lclkAbsent => exact .next (State.lclkLost_keeps (.refl s) _)
  | censusPeriodBoundary => exact .next (State.censusBoundary_keeps (.refl s) _)

/-! ### An LCLK tick (11 R284) -/

theorem State.lclk_keeps_countTick (s : State) : Keeps s.countTick s.lclk :=
  Keeps.foldl _ _ (State.censusBoundaries_keeps (.refl _)) fun _ d h => State.banksAt_keeps h d

theorem State.pad_countTick (s : State) (d : Die) :
    (s.countTick.pad d) = if (s.pad d).boot.poreset then s.pad d else
      { s.pad d with aon := (s.pad d).aon.tick (s.pad d).running, boot := (s.pad d).boot.strapTick d (s.pad d).aon.ticks } := by
  unfold State.countTick
  rw [State.pad_modPads]

theorem AlwaysOn.tick_tide_le (a : AlwaysOn) (hclk : Bool) : a.tideFx ≤ (a.tick hclk).tideFx := by
  cases hclk with
  | false => simp only [AlwaysOn.tick, Bool.false_eq_true, if_false]; omega
  | true => simp only [AlwaysOn.tick, if_true]; omega

/-- A tick keeps Tide in the interval, whether it steps Tide up or advances it. -/
theorem AlwaysOn.tick_tideOk (a : AlwaysOn) (hclk : Bool)
    (h : 1000 * a.ticks * 2 ^ 24 ≤ a.tideFx ∧ a.tideFx ≤ a.tideBound) :
    1000 * (a.tick hclk).ticks * 2 ^ 24 ≤ (a.tick hclk).tideFx ∧ (a.tick hclk).tideFx ≤ (a.tick hclk).tideBound := by
  obtain ⟨hlow, hhigh⟩ := h
  have hbound : a.tideBound ≤ (a.tick hclk).tideBound :=
    Nat.mul_le_mul_right _ (Nat.add_le_add_right (Nat.mul_le_mul_left _ (Nat.le_succ _)) _)
  cases hclk with
  | false =>
    have hlow' := Nat.add_le_add_right hlow (1000 * 2 ^ 24)
    have hhigh' := Nat.add_le_add_right hhigh (1000 * 2 ^ 24)
    rw [← Nat.add_mul] at hlow'
    rw [AlwaysOn.tideBound, ← Nat.add_mul, Nat.add_right_comm] at hhigh'
    exact ⟨hlow', hhigh'⟩
  | true =>
    exact ⟨Nat.le_max_right _ _, Nat.max_le.mpr ⟨hhigh.trans hbound, Nat.mul_le_mul_right _ (Nat.le_add_right _ _)⟩⟩

theorem State.countTick_tide_le (s : State) (d : Die) :
    (s.pad d).aon.tideFx ≤ (s.countTick.pad d).aon.tideFx ∧ (s.pad d).aon.ticks ≤ (s.countTick.pad d).aon.ticks := by
  rw [s.pad_countTick]
  split
  · exact ⟨le_rfl, le_rfl⟩
  · exact ⟨AlwaysOn.tick_tide_le _ _, Nat.le_succ _⟩

theorem State.countTick_tideOk {s : State} (h : s.TideOk) : s.countTick.TideOk := by
  intro d
  rw [s.pad_countTick]
  split
  · exact h d
  · exact AlwaysOn.tick_tideOk _ _ (h d)

/-! ### An HCLK cycle (11 R284) -/

theorem AlwaysOn.cycle_tide_le (a : AlwaysOn) (period : Nat) : a.tideFx ≤ (a.cycle period).tideFx := Nat.le_max_left _ _

theorem AlwaysOn.cycle_tideOk (a : AlwaysOn) (period : Nat)
    (h : 1000 * a.ticks * 2 ^ 24 ≤ a.tideFx ∧ a.tideFx ≤ a.tideBound) :
    1000 * (a.cycle period).ticks * 2 ^ 24 ≤ (a.cycle period).tideFx ∧
      (a.cycle period).tideFx ≤ (a.cycle period).tideBound :=
  ⟨h.1.trans (a.cycle_tide_le period), Nat.max_le.mpr ⟨h.2, Nat.min_le_right _ _⟩⟩

/-- Paddock `q` has the time that an HCLK cycle makes of `p`, where its HCLK runs, and else that of `p`. -/
structure Paddock.Cycled (p q : Paddock) : Prop where
  runs : p.running = true → SameTide { p with aon := p.aon.cycle (Config.period p.ebb.point) } q
  stands : p.running = false → SameTide p q

theorem SameTide.trans {p q r : Paddock} (h : SameTide p q) (g : SameTide q r) : SameTide p r :=
  ⟨g.tide.trans h.tide, g.ticks.trans h.ticks, g.hcycle.trans h.hcycle⟩

theorem Paddock.Cycled.trans {p q r : Paddock} (h : p.Cycled q) (g : SameTide q r) : p.Cycled r :=
  ⟨fun hr => (h.runs hr).trans g, fun hr => (h.stands hr).trans g⟩

theorem Paddock.Cycled.tide_le {p q : Paddock} (h : p.Cycled q) :
    p.aon.tideFx ≤ q.aon.tideFx ∧ p.aon.ticks ≤ q.aon.ticks := by
  cases hr : p.running with
  | false => exact ⟨(h.stands hr).tide.ge, (h.stands hr).ticks.ge⟩
  | true => exact ⟨(AlwaysOn.cycle_tide_le _ _).trans (h.runs hr).tide.ge, (h.runs hr).ticks.ge⟩

theorem SameTide.tideOk {p q : Paddock} (h : SameTide p q) (hp : p.TideOk) : q.TideOk := by
  simp only [Paddock.TideOk, AlwaysOn.tideBound, h.tide, h.ticks] at hp ⊢
  exact hp

theorem Paddock.Cycled.tideOk {p q : Paddock} (h : p.Cycled q) (hp : p.TideOk) : q.TideOk := by
  cases hr : p.running with
  | false => exact (h.stands hr).tideOk hp
  | true => exact (h.runs hr).tideOk (AlwaysOn.cycle_tideOk _ _ hp)

theorem SameTide.cycle {p q : Paddock} (h : SameTide p q) (period : Nat) :
    SameTide { p with aon := p.aon.cycle period } { q with aon := q.aon.cycle period } := by
  constructor <;> simp only [AlwaysOn.cycle, AlwaysOn.tideBound, h.tide, h.ticks, h.hcycle]

/-- What a paddock does in an HCLK cycle before its Tide moves on. -/
def State.cycleWork (s : State) (d : Die) (now : Paddock) : State :=
  let sd := now.domOn domSD
  let s := if sd then (s.cycleEvents d).modPad d fun q => { q with
      census := q.census.cycled
      conf := { q.conf with edge := q.conf.edge.map EdgeStat.cycled } } else s
  let s := pfolds.foldl (fun t p => t.foldCycle d p) s
  if sd then edges.foldl (fun t e => t.enterRings d e 16) ((s.moveRings d).loseCutOff d) else s

theorem State.padCycle_of_running (s : State) (d : Die) {now : Paddock} (h : now.running = true) :
    s.padCycle d now =
      ((s.cycleWork d now).modPad d fun q =>
        { q with aon := q.aon.cycle (Config.period now.ebb.point) }).censusBoundary d := by
  have hpor : now.boot.poreset = false := by
    simp only [Paddock.running, Bool.and_eq_true, Bool.not_eq_true'] at h
    exact h.1.1
  simp only [State.padCycle, hpor, h, Bool.not_true, Bool.false_eq_true, if_false]
  rfl

theorem State.cycleWork_keeps {s0 s : State} (h : Keeps s0 s) (d : Die) (now : Paddock) :
    Keeps s0 (s.cycleWork d now) := by
  have hevents : Keeps s0 (if now.domOn domSD then (s.cycleEvents d).modPad d fun q => { q with
      census := q.census.cycled
      conf := { q.conf with edge := q.conf.edge.map EdgeStat.cycled } } else s) :=
    .ite ((State.cycleEvents_keeps h d).modPad d _ fun _ => ⟨rfl, rfl, rfl⟩) h
  have hfolds := hevents.trans (Keeps.foldl _ pfolds (.refl _) fun t p ht => State.foldCycle_keeps ht d p)
  exact .ite (hfolds.trans (Keeps.foldl _ edges (State.loseCutOff_keeps (State.moveRings_keeps (.refl _) d) d)
    fun t e ht => State.enterRings_keeps ht d e 16)) hfolds

/-- A paddock's cycle moves no other paddock's time. -/
theorem State.padCycle_cycles {s : State} {d : Die} {now : Paddock} (h : SameTide now (s.pad d)) :
    now.Cycled ((s.padCycle d now).pad d) ∧ (∀ x, x ≠ d → SameTide (s.pad x) ((s.padCycle d now).pad x)) ∧
      (s.padCycle d now).krovol = s.krovol ∧ (s.padCycle d now).pending = s.pending := by
  cases hr : now.running with
  | false =>
    have hk : Keeps s (s.padCycle d now) := by
      simp only [State.padCycle, hr, Bool.not_false, if_true]
      exact .ite (.refl s) ((Keeps.refl s).modPad d _ fun _ => ⟨rfl, rfl, rfl⟩)
    exact ⟨⟨fun ht => absurd ht (by simp [hr]), fun _ => h.trans (hk.pads d)⟩, fun x _ => hk.pads x, hk.krovol, hk.pending⟩
  | true =>
    have hw : Keeps s (s.cycleWork d now) := State.cycleWork_keeps (.refl s) d now
    rw [State.padCycle_of_running s d hr]
    have hb := State.censusBoundary_keeps (.refl ((s.cycleWork d now).modPad d fun q =>
      { q with aon := q.aon.cycle (Config.period now.ebb.point) })) d
    refine ⟨⟨fun _ => ?_, fun hf => absurd hf (by simp [hr])⟩, fun x hx => ?_, hb.krovol.trans hw.krovol,
      hb.pending.trans hw.pending⟩
    · have hd := hb.pads d
      rw [State.pad_modPad_same] at hd
      exact ((h.trans (hw.pads d)).cycle _).trans hd
    · have ho := hb.pads x
      rw [State.pad_modPad_other _ d x _ hx] at ho
      exact (hw.pads x).trans ho

theorem State.foldl_padCycle_cycles (s : State) (l : List Die) (hl : l.Nodup) (t : State)
    (h : ∀ x ∈ l, SameTide (s.pad x) (t.pad x)) :
    let u := l.foldl (fun t d => t.padCycle d (s.pad d)) t
    (∀ x ∈ l, (s.pad x).Cycled (u.pad x)) ∧ (∀ x, x ∉ l → SameTide (t.pad x) (u.pad x)) ∧ u.krovol = t.krovol ∧
      u.pending = t.pending := by
  induction l generalizing t with
  | nil => exact ⟨fun x hx => absurd hx List.not_mem_nil, fun x _ => .refl _, rfl, rfl⟩
  | cons d l ih =>
    obtain ⟨hd, hl⟩ := List.nodup_cons.mp hl
    obtain ⟨hcyc, hoth, hkro, hpen⟩ := State.padCycle_cycles (h d List.mem_cons_self)
    have hne : ∀ x ∈ l, x ≠ d := fun x hx hxd => hd (hxd ▸ hx)
    obtain ⟨hin, hout, hkro', hpen'⟩ := ih hl (t.padCycle d (s.pad d)) fun x hx =>
      (h x (List.mem_cons_of_mem d hx)).trans (hoth x (hne x hx))
    refine ⟨fun x hx => ?_, fun x hx => ?_, hkro'.trans hkro, hpen'.trans hpen⟩
    · rcases List.mem_cons.mp hx with rfl | hx
      · exact hcyc.trans (hout x hd)
      · exact hin x hx
    · obtain ⟨hxd, hxl⟩ := not_or.mp (mt List.mem_cons.mpr hx)
      exact (hoth x hxd).trans (hout x hxl)

theorem mem_dies (d : Die) : d ∈ dies := by revert d; decide

theorem State.idle_cycles (s : State) :
    (∀ d, (s.pad d).Cycled (s.idle.pad d)) ∧ s.idle.krovol = s.krovol ∧ s.idle.pending = s.pending := by
  obtain ⟨hcyc, -, hkro, hpen⟩ := s.foldl_padCycle_cycles dies (by decide) s fun x _ => .refl _
  have hrest : Keeps (dies.foldl (fun t d => t.padCycle d (s.pad d)) s) s.idle :=
    State.work_keeps ((Keeps.refl _).modPads _ fun _ _ => ⟨rfl, rfl, rfl⟩)
  exact ⟨fun d => (hcyc d (mem_dies d)).trans (hrest.pads d), hrest.krovol.trans hkro, hrest.pending.trans hpen⟩

/-! ### The statements about time -/

/-- Settles O1: by the definition of a step. -/
theorem stepRunsFront : Obligations.StepRunsFront := fun _ _ _ => rfl

theorem Paddock.reset_tideOk (k : Krovol) : (Paddock.reset k).TideOk := by
  simp [Paddock.TideOk, Paddock.reset]

/-- Settles O3: at reset Tide and the ticks of every paddock are 0. -/
theorem resetTideInInterval : Obligations.ResetTideInInterval := by
  unfold Obligations.ResetTideInInterval
  intro d
  have hpad : State.reset.pad d = Paddock.reset Krovol.reset := Vector.getElem_replicate _
  rw [hpad]
  exact Paddock.reset_tideOk _

/-- Settles O2: an idle step is the cycle of every paddock and work that keeps time. -/
theorem idleStepIsOneCycle : Obligations.IdleStepIsOneCycle := by
  unfold Obligations.IdleStepIsOneCycle
  intro s hs
  obtain ⟨hcyc, hkro, hpen⟩ := s.idle_cycles
  refine ⟨s.idle, by simp only [step, hs], hpen.trans hs, hkro, fun d => ⟨fun hr => ?_, fun hr => ?_⟩⟩
  · have h := (hcyc d).runs hr
    exact ⟨h.hcycle, h.ticks, h.tide⟩
  · have h := (hcyc d).stands hr
    exact ⟨h.tide, h.ticks, h.hcycle⟩

theorem State.lclk_krovol (s : State) : s.lclk.krovol = s.krovol := s.lclk_keeps_countTick.krovol
theorem State.lclk_pending (s : State) : s.lclk.pending = s.pending := s.lclk_keeps_countTick.pending

/-- Settles O6: every command but LCLK_TICK and PORESET_N_ASSERT keeps everything named, and these two parameters and
queue. -/
theorem commandsKeepParametersQueueAndTime : Obligations.CommandsKeepParametersQueueAndTime := by
  unfold Obligations.CommandsKeepParametersQueueAndTime
  intro c s
  by_cases htick : c = .lclkTick
  · subst htick
    exact ⟨s.lclk, rfl, s.lclk_krovol, s.lclk_pending, fun h => absurd rfl h⟩
  by_cases hpor : c = .poresetAssert
  · subst hpor
    exact ⟨s.porAssert, rfl, rfl, rfl, fun _ h => absurd rfl h⟩
  obtain ⟨t, ht, hk⟩ := exec_completes c s htick hpor
  exact ⟨t, ht, hk.krovol, hk.pending, fun _ _ d => ⟨(hk.pads d).tide, (hk.pads d).ticks, (hk.pads d).hcycle⟩⟩

/-- Every step is an idle one, a tick, PORESET_N, or keeps time. -/
theorem step_cases {s t : State} (h : step s = .next t) :
    (∀ d, (s.pad d).Cycled (t.pad d)) ∨ (∃ q, Keeps ({ s with pending := q } : State).countTick t) ∨
      (s.pending.head? = some .poresetAssert ∧ ∃ q, t = ({ s with pending := q } : State).porAssert) ∨
      ∃ q, Keeps { s with pending := q } t := by
  cases hs : s.pending with
  | nil =>
    simp only [step, hs, Host.Outcome.next.injEq] at h
    exact .inl (h ▸ s.idle_cycles.1)
  | cons c rest =>
    simp only [step, hs] at h
    by_cases htick : c = .lclkTick
    · subst htick
      have ht : ({ s with pending := rest } : State).lclk = t := Host.Outcome.next.inj h
      exact .inr (.inl ⟨rest, ht ▸ State.lclk_keeps_countTick _⟩)
    by_cases hpor : c = .poresetAssert
    · subst hpor
      exact .inr (.inr (.inl ⟨rfl, rest, (Host.Outcome.next.inj h).symm⟩))
    obtain ⟨u, hu, hk⟩ := exec_completes c { s with pending := rest } htick hpor
    have htu : t = u := Host.Outcome.next.inj (h.symm.trans hu)
    exact .inr (.inr (.inr ⟨rest, htu ▸ hk⟩))

theorem State.pad_porAssert (s : State) (d : Die) : s.porAssert.pad d = Paddock.reset s.krovol :=
  Vector.getElem_replicate _

/-- Settles O4: by the kinds of step. -/
theorem stepKeepsTideInInterval : Obligations.StepKeepsTideInInterval := by
  unfold Obligations.StepKeepsTideInInterval
  intro s t hs h d
  rcases step_cases h with hcyc | ⟨q, hk⟩ | ⟨-, q, rfl⟩ | ⟨q, hk⟩
  · exact (hcyc d).tideOk (hs d)
  · exact (hk.pads d).tideOk (State.countTick_tideOk (s := { s with pending := q }) hs d)
  · rw [State.pad_porAssert]
    exact Paddock.reset_tideOk _
  · exact (hk.pads d).tideOk (hs d)

/-- Settles O5: by the kinds of step, of which only PORESET_N takes Tide back. -/
theorem tideNeverGoesBack : Obligations.TideNeverGoesBack := by
  unfold Obligations.TideNeverGoesBack
  intro s t hne h d
  rcases step_cases h with hcyc | ⟨q, hk⟩ | ⟨hpor, -⟩ | ⟨q, hk⟩
  · exact (hcyc d).tide_le
  · rw [(hk.pads d).tide, (hk.pads d).ticks]
    exact State.countTick_tide_le { s with pending := q } d
  · exact absurd hpor hne
  · exact ⟨(hk.pads d).tide.ge, (hk.pads d).ticks.ge⟩

end Sys2Proof.Machine
end

section
/-!
The Tether's reports, malformed TLPs and the statement O49 (16 R430, R450).
-/

namespace Sys2Proof.Machine

/-! ### A report of the Tether about itself -/

@[simp] theorem dieOf_tetherAgent (d : Die) : dieOf (tetherAgent d) = d := by
  apply Fin.ext
  simp only [dieOf, tetherAgent, agent, BitVec.toNat_ofNat, Fin.ofNat]
  omega

theorem State.tetherRep_eq (s : State) (d : Die) (code detail : Nat) :
    s.tetherRep d code none detail =
      s.modPad d fun q => q.receive (s.tetherReport d (BitVec.ofNat 12 code) detail) :=
  State.file_own (dieOf_tetherAgent d) rfl

theorem State.aer_eq (s : State) (d : Die) (b : AerBit) :
    s.aer d b = (s.modTether fun t => { t with aerSticky := putBit t.aerSticky b.no true }).modPad d fun q =>
      q.receive (s.tetherReport d 0x903 b.no) :=
  State.tetherRep_eq _ d 0x903 b.no

/-! ### A malformed TLP -/

theorem State.badTlp_of_tether_off {s : State} (h : s.tetherDie = none) : s.badTlp = s := by
  simp only [State.badTlp, h]

theorem State.badTlp_of_closed {s : State} {d : Die} (hd : s.tetherDie = some d)
    (h : s.tether.linkUp = false ∨ s.tether.perst = true ∨ ¬ s.tether.Takes) : s.badTlp = s := by
  have hc : (!s.tether.linkUp || s.tether.perst || s.tether.noTlp || s.tether.flr.isSome) = true := by
    rcases h with h | h | h
    · simp [h]
    · simp [h]
    · simp only [Tether.Takes, not_and_or, Bool.not_eq_false, ← ne_eq, Option.ne_none_iff_isSome] at h
      rcases h with h | h <;> simp [h]
  simp only [State.badTlp, hd, hc, if_true]

theorem State.badTlp_of_open {s : State} {d : Die} (hup : s.TetherUp d) (ht : s.tether.Takes) :
    s.badTlp = s.aer d .malformed := by
  obtain ⟨hd, hlink, hperst⟩ := hup
  obtain ⟨hno, hflr⟩ := ht
  simp only [State.badTlp, hd, hlink, hperst, hno, hflr, Option.isSome_none, Bool.not_true, Bool.or_false,
    Bool.false_eq_true, if_false]

theorem Tether.maxPayload_le (t : Tether) : t.maxPayload ≤ 512 := by
  have hpow : 2 ^ min 2 (bits (smGet t.cfg 0x2810 0x58) 5 3) ≤ 2 ^ 2 :=
    Nat.pow_le_pow_right (by decide) (Nat.min_le_left _ _)
  simp only [Tether.maxPayload]
  omega

theorem exec_linkUp_of_not_wf {s : State} {rate : BitVec 3} {width : BitVec 5} (flit : Bool)
    (h : linkShape rate.toNat width.toNat = false) : exec (.linkUp rate width flit) s = .next s := by
  have hs : s.linkTrained rate width flit = s := by
    unfold State.linkTrained
    split
    · rfl
    · simp only [h, Bool.not_false, Bool.true_or, if_true]
  exact congrArg _ hs

theorem exec_l1Entry_of_not_wf {s : State} {sub : BitVec 2} (h : (sub != 0) = false) :
    exec (.l1Entry sub) s = .next s := by
  have hs : s.enterL1 sub = s := by
    unfold State.enterL1
    split
    · rfl
    · simp only [h, Bool.false_and, Bool.false_eq_true, if_false]
  exact congrArg _ hs

/-- A TLP that spans a boundary, or a write longer than any Max Payload Size, is longer than the one in force. -/
theorem tlp_fails_of_not_wf {t : Tether} {span read : Bool} {n : Nat}
    (h : (span && (read || decide (n ≤ 512))) = false) : ¬ (span && (read || decide (n ≤ t.maxPayload))) = true := by
  intro hc
  simp only [Bool.and_eq_true, Bool.or_eq_true, decide_eq_true_eq] at hc
  obtain ⟨hspan, hsize⟩ := hc
  have hsize' : (read || decide (n ≤ 512)) = true := by
    rcases hsize with hr | hn
    · simp [hr]
    · simp [hn.trans t.maxPayload_le]
  simp [hspan, hsize'] at h

/-- The command reports a link that trained, or an L1 substate that was entered. -/
abbrev Instr.LinkReport (i : Instr) : Prop := (∃ r w f, i = .linkUp r w f) ∨ ∃ b, i = .l1Entry b

theorem exec_of_linkReport {i : Instr} {s : State} (h : i.wf = false) (hrep : Instr.LinkReport i) : exec i s = .next s := by
  rcases hrep with ⟨r, w, f, rfl⟩ | ⟨b, rfl⟩
  · exact exec_linkUp_of_not_wf f h
  · exact exec_l1Entry_of_not_wf h

/-- Every other command whose operands fail its check is a malformed TLP. -/
theorem exec_of_not_linkReport {i : Instr} {s : State} (h : i.wf = false) (hrep : ¬ Instr.LinkReport i) :
    exec i s = .next s.badTlp := by
  cases i
  case linkUp rate width flit => exact absurd (.inl ⟨_, _, _, rfl⟩) hrep
  case l1Entry sub => exact absurd (.inr ⟨_, rfl⟩) hrep
  case memoryReadTlp off bytes tag => exact congrArg _ (if_neg (Bool.eq_false_iff.mp h))
  case charterRead off dws tag => exact congrArg _ (if_neg (Bool.eq_false_iff.mp h))
  case memoryWriteTlp off data relaxed => exact congrArg _ (if_neg (tlp_fails_of_not_wf (read := false) h))
  case bar0Access off dws write be tag => exact congrArg _ (if_neg (tlp_fails_of_not_wf h))
  case h4AliasAccess off x tag => exact congrArg _ (if_neg (tlp_fails_of_not_wf h))
  all_goals exact Bool.noConfusion (h : true = false)

/-- Settles O49: every command completes (O6), and one whose operands fail its check is a malformed TLP, or a report that
changes nothing. -/
theorem wellFormedCommandsRun : Obligations.WellFormedCommandsRun := by
  unfold Obligations.WellFormedCommandsRun
  intro s i
  obtain ⟨u, hu, hkro, hpen, -⟩ := commandsKeepParametersQueueAndTime i s
  refine ⟨⟨u, hu, hkro, hpen⟩, fun hwf => ?_⟩
  intro report
  refine ⟨fun hcase => ?_, fun d hrep hup htakes => ?_⟩
  · by_cases hrep : report
    · exact exec_of_linkReport hwf hrep
    rw [exec_of_not_linkReport hwf hrep]
    cases hd : s.tetherDie with
    | none => rw [State.badTlp_of_tether_off hd]
    | some d =>
      have hclosed := (hcase.resolve_left hrep).resolve_left fun hn => by simp [hd] at hn
      rw [State.badTlp_of_closed hd hclosed]
  · refine ⟨_, exec_of_not_linkReport hwf hrep, ?_⟩
    rw [State.badTlp_of_open hup htakes, State.aer_eq]
    refine ⟨rfl, ?_, ?_, ?_⟩ <;> simp [Paddock.Filed] <;> rfl

end Sys2Proof.Machine
end

section
/-!
Resets and their releases, the statement O8 (15 R423, 19 R494 to R498).
-/

namespace Sys2Proof.Machine

/-! ### Changes of one paddock in turn -/

/-- A list of changes of one paddock is one change. -/
theorem State.foldl_modPad_same {α : Type} (s : State) (d : Die) (f : α → Paddock → Paddock) (l : List α) :
    l.foldl (fun t a => t.modPad d (f a)) s = s.modPad d fun q => l.foldl (fun q a => f a q) q := by
  induction l generalizing s with
  | nil => exact (s.modPad_eq_self d _ rfl).symm
  | cons a l ih => rw [List.foldl_cons, ih, State.modPad_modPad]; rfl

/-- A list of changes none of which changes anything. -/
theorem List.foldl_eq_self_of_mem {α β : Type} {f : β → α → β} {b : β} {l : List α} (h : ∀ a ∈ l, f b a = b) :
    l.foldl f b = b := by
  induction l with
  | nil => rfl
  | cons a l ih =>
    rw [List.foldl_cons, h a List.mem_cons_self]
    exact ih fun x hx => h x (List.mem_cons_of_mem a hx)

/-! ### A release of reset (19 R495 to R498) -/

/-- A paddock queues a domain to be switched on (19 R498). -/
def Paddock.domOnReq (q : Paddock) (i : DomN) : Paddock :=
  if q.domOn i || q.ebb.switching.any fun x => x.dom == i && x.on then q
  else { q with ebb :=
    Ebb.raiseNext { q.ebb with switching := q.ebb.switching ++ [{ dom := i, on := true, tick := q.ticks }] } q.ticks }

theorem State.domOnReq_eq (s : State) (d : Die) (i : DomN) : s.domOnReq d i = s.modPad d fun q => q.domOnReq i := by
  unfold State.domOnReq
  dsimp only
  split
  next h => exact (s.modPad_eq_self d (fun q => q.domOnReq i) (if_pos h)).symm
  next h => exact State.modPad_congr (if_neg h).symm

/-- A paddock at a release of reset: the straps are sampled, and the domains begin to rise. -/
def Paddock.released (q : Paddock) (bootMode testMode romOk : Bool) : Paddock :=
  bootDomains.foldl Paddock.domOnReq { q with boot := q.boot.sampled bootMode testMode romOk }

theorem State.releaseReset_eq (s : State) (d : Die) (bootMode testMode romOk : Bool) :
    s.releaseReset d bootMode testMode romOk = s.modPad d fun q => q.released bootMode testMode romOk := by
  have hstep : (fun t i => State.domOnReq t d i) = fun t i => t.modPad d fun q => q.domOnReq i := by
    funext t i; exact t.domOnReq_eq d i
  simp only [State.releaseReset, hstep]
  rw [State.foldl_modPad_same]
  exact State.modPad_modPad _ _ _ _

/-- A domain that waits to be switched on, asked for at a tick. -/
def DomN.asked (tick : Nat) (i : DomN) : DomSwitch := { dom := i, on := true, tick := tick }

/-- Ebb with domains that wait to be switched on, PSW_REQ of SH alone raised. -/
def Ebb.waits (e : Ebb) (tick : Nat) (l : List DomN) : Ebb :=
  { e with pswReq := putBit 0 domSH.val true, switching := l.map (DomN.asked tick) }

@[simp] theorem bitAt_zero {n : Nat} (i : Nat) : bitAt (0#n) i = false := by simp [bitAt]

theorem Paddock.domOn_of_ack_zero {q : Paddock} (h : q.ebb.pswAck = 0) (i : DomN) : q.domOn i = false := by
  simp [Paddock.domOn, h]

theorem Ebb.raiseNext_first {e : Ebb} (h : e.Dark) (tick : Nat) :
    Ebb.raiseNext { e with switching := [DomN.asked tick domSH] } tick = e.waits tick [domSH] := by
  obtain ⟨hack, hreq, -⟩ := h
  simp [Ebb.raiseNext, DomN.asked, hack, hreq, bitAt, updateWhere, Ebb.waits]

/-- While SH rises, no other domain is raised (19 R498). -/
theorem Ebb.raiseNext_later {e : Ebb} (hack : e.pswAck = 0) (tick : Nat) (l : List DomN) :
    Ebb.raiseNext (e.waits tick (domSH :: l)) tick = e.waits tick (domSH :: l) := by
  have hsh : bitAt (putBit (0 : BitVec 12) domSH.val true) domSH.val = true := by decide
  unfold Ebb.raiseNext
  exact if_pos (by simpa [Ebb.waits, DomN.asked, hack] using .inl hsh)

theorem Paddock.domOnReq_first {q : Paddock} (h : q.ebb.Dark) :
    q.domOnReq domSH = { q with ebb := q.ebb.waits q.aon.ticks [domSH] } := by
  have hon := Paddock.domOn_of_ack_zero h.1 domSH
  have hraise := Ebb.raiseNext_first h q.aon.ticks
  obtain ⟨-, -, hsw⟩ := h
  simp only [Paddock.domOnReq, hon, hsw, List.any_nil, Bool.or_self, Bool.false_eq_true, if_false, List.nil_append]
  exact congrArg (fun e => { q with ebb := e }) hraise

theorem Paddock.domOnReq_later {q : Paddock} (hack : q.ebb.pswAck = 0) {l : List DomN} {i : DomN} (hi : i ∉ domSH :: l) :
    ({ q with ebb := q.ebb.waits q.aon.ticks (domSH :: l) } : Paddock).domOnReq i =
      { q with ebb := q.ebb.waits q.aon.ticks (domSH :: (l ++ [i])) } := by
  have hon : ({ q with ebb := q.ebb.waits q.aon.ticks (domSH :: l) } : Paddock).domOn i = false :=
    Paddock.domOn_of_ack_zero hack i
  have hnew : (((domSH :: l).map (DomN.asked q.aon.ticks)).any fun x => x.dom == i && x.on) = false := by
    rw [List.any_eq_false]
    intro x hx
    obtain ⟨j, hj, rfl⟩ := List.mem_map.mp hx
    have hne : j ≠ i := fun hji => hi (hji ▸ hj)
    simp [DomN.asked, hne]
  have hraise := Ebb.raiseNext_later hack q.aon.ticks (l ++ [i])
  have hsw : ((domSH :: l).map (DomN.asked q.aon.ticks)) ++ [DomN.asked q.aon.ticks i] =
      (domSH :: (l ++ [i])).map (DomN.asked q.aon.ticks) := by simp
  rw [Paddock.domOnReq, hon, Bool.false_or]
  refine (if_neg (Bool.eq_false_iff.mp hnew)).trans (congrArg (fun e => { q with ebb := e }) (Eq.trans ?_ hraise))
  simp only [Ebb.waits, ← hsw]
  rfl

/-- The domains after SH join those that wait, in order. -/
theorem Paddock.foldl_domOnReq {q : Paddock} (hack : q.ebb.pswAck = 0) (m l : List DomN) (h : (domSH :: (l ++ m)).Nodup) :
    m.foldl Paddock.domOnReq { q with ebb := q.ebb.waits q.aon.ticks (domSH :: l) } =
      { q with ebb := q.ebb.waits q.aon.ticks (domSH :: (l ++ m)) } := by
  induction m generalizing l with
  | nil => simp
  | cons i m ih =>
    have hassoc : l ++ i :: m = l ++ [i] ++ m := by simp
    rw [hassoc] at h ⊢
    have hi : i ∉ domSH :: l := by
      intro hmem
      rw [← List.cons_append, ← List.cons_append] at h
      exact (List.nodup_append'.mp (List.nodup_append'.mp h).1).2.2 hmem (by simp)
    rw [List.foldl_cons, Paddock.domOnReq_later hack hi]
    exact ih _ h

/-- From a dark Ebb the twelve domains wait, PSW_REQ of SH alone raised. -/
theorem Paddock.released_of_dark {q : Paddock} (h : q.ebb.Dark) (bootMode testMode romOk : Bool) :
    q.released bootMode testMode romOk =
      { q with boot := q.boot.sampled bootMode testMode romOk, ebb := q.ebb.rising q.aon.ticks } := by
  let r : Paddock := { q with boot := q.boot.sampled bootMode testMode romOk }
  have hsplit : bootDomains = domSH :: bootDomains.tail := rfl
  have hfirst : r.domOnReq domSH = { r with ebb := r.ebb.waits r.aon.ticks [domSH] } := Paddock.domOnReq_first h
  rw [Paddock.released, hsplit, List.foldl_cons, hfirst]
  exact Paddock.foldl_domOnReq (q := r) h.1 _ [] (by decide)

theorem State.porRelease_eq (s : State) (bootMode testMode romOk : BitVec 8) :
    s.porRelease bootMode testMode romOk = s.modPads fun d q =>
      if q.boot.poreset then q.released (bitAt bootMode d.val) (bitAt testMode d.val) (bitAt romOk d.val) else q := by
  refine congrArg (fun f => dies.foldl f s) (funext fun t => funext fun d => ?_)
  rw [State.releaseReset_eq]
  split
  next h => exact State.modPad_congr (if_pos h).symm
  next h => exact (t.modPad_eq_self d _ (if_neg h)).symm

theorem State.padRelease_eq {s : State} {d : Die} (hpad : (s.pad d).boot.padreset = true)
    (hpor : (s.pad d).boot.poreset = false) (bootMode testMode romOk : Bool) :
    s.padRelease d bootMode testMode romOk = s.modPad d fun q =>
      ({ q with
        aon := { q.aon with rstPad := true }
        bell := { q.bell with unlocked := q.bell.unlocked && testMode } } : Paddock).released bootMode testMode romOk := by
  simp only [State.padRelease, hpad, hpor, Bool.not_false, Bool.and_true, if_true, State.releaseReset_eq]
  exact State.modPad_modPad _ _ _ _

/-! ### PADRESET_N (19 R495) -/

theorem neighbour_ne {d x : Die} {e : Edge} (h : neighbour d e = some x) : x ≠ d := by
  revert h; cases e <;> revert d x <;> decide

/-- A module that is not up does not go down. -/
theorem State.modDown_of_not_up {s : State} {d : Die} {m : ModN} (h : ((s.pad d).conf.mod[m]).state ≠ .up) :
    s.modDown d m = s := by
  unfold State.modDown
  split
  · rfl
  · exact if_pos (by simpa using h)

theorem State.faceDown_of_unlinked {s : State} {d : Die} (h : s.Unlinked d) : s.faceDown d = s := by
  refine List.foldl_eq_self_of_mem fun e _ => ?_
  split
  · rfl
  next x hx => exact List.foldl_eq_self_of_mem fun m hm => State.modDown_of_not_up (h e x hx m hm)

/-- Another die's PADRESET_N clears what a paddock shows of that die (10 R265, R271; log entry 53). -/
def Paddock.forgets (q : Paddock) (d : Die) : Paddock :=
  { q with
    conf := { q.conf with fenced := putBit q.conf.fenced d.val false }
    repl := { q.repl with readyDies := putBit q.repl.readyDies d.val false } }

/-- PADRESET_N of a paddock that holds no access open, is not the Tether's and has no link up to it. -/
theorem State.padAssert_eq {s : State} {d : Die} (hrel : (s.pad d).Released) (hlink : s.Unlinked d)
    (htether : s.krovol.tether ≠ some d) (hacc : (s.pad d).ebb.autoAcc = [])
    (hcq : ∀ q : QN, ((s.pad d).shep.cq[q]).stalled = []) :
    s.padAssert d = (s.modPad d fun q => q.padReset s.krovol).modPads fun _ q => q.forgets d := by
  obtain ⟨hpor, hpad⟩ := hrel
  have hwait : ((s.pad d).shep.cq.toList.flatMap fun x => x.stalled.map fun y => y.1) = [] := by
    simp only [List.flatMap_eq_nil_iff, List.map_eq_nil_iff, Vector.mem_toList_iff]
    intro x hx
    obtain ⟨i, hi, rfl⟩ := Vector.getElem_of_mem hx
    exact hcq ⟨i, hi⟩
  have hunlinked : ((s.modPad d fun q => q.padReset s.krovol).modPads fun _ q => q.forgets d).Unlinked d := by
    intro e x hx m hm
    have hm' : m ∈ s.krovol.modsOn x (facing e) := hm
    simpa [Paddock.forgets, neighbour_ne hx] using hlink e x hx m hm'
  have hno : (s.krovol.tether == some d) = false := by simpa using htether
  refine Eq.trans ?_ (State.faceDown_of_unlinked hunlinked)
  simp only [State.padAssert, hpor, hpad, hwait, hacc, hno, Bool.or_self, Bool.false_eq_true, if_false, List.map_nil,
    List.append_nil, List.foldl_nil, State.modPad_krovol, Paddock.forgets]

/-- Settles O8: a reset is one change of its paddock, and a release one change of each paddock it releases. -/
theorem resetsAndReleases : Obligations.ResetsAndReleases := by
  unfold Obligations.ResetsAndReleases
  refine ⟨⟨fun s => ?_, fun s d hrel hlink htether hacc hcq => ?_⟩, fun s bootMode testMode romOk => ?_,
    fun s d bootMode testMode romOk hpad hpor hdark => ?_⟩
  · exact ⟨s.porAssert, rfl, rfl, rfl, rfl, rfl, s.pad_porAssert⟩
  · refine ⟨_, congrArg Host.Outcome.next (State.padAssert_eq hrel hlink htether hacc hcq), rfl, rfl, rfl, rfl, ?_⟩
    simp only [State.pad_modPads, State.pad_modPad_same]
    refine ⟨rfl, rfl, rfl, rfl, rfl, rfl, rfl, rfl, fun p => ?_, fun x hx => ?_⟩
    · simp [Paddock.forgets, Paddock.padReset]
    · rw [State.pad_modPad_other _ _ _ _ hx]; rfl
  · refine ⟨_, congrArg Host.Outcome.next (s.porRelease_eq bootMode testMode romOk), rfl, rfl, rfl, rfl, fun d => ⟨fun hpor hdark => ?_,
      fun hpor => ?_⟩⟩
    · rw [State.pad_modPads, if_pos hpor, Paddock.released_of_dark hdark]
    · rw [State.pad_modPads, if_neg (by simp [hpor])]
  · refine congrArg Host.Outcome.next ((State.padRelease_eq hpad hpor bootMode testMode romOk).trans (State.modPad_congr ?_))
    let q : Paddock := { s.pad d with
      aon := { (s.pad d).aon with rstPad := true }
      bell := { (s.pad d).bell with unlocked := (s.pad d).bell.unlocked && testMode } }
    exact Paddock.released_of_dark (q := q) hdark bootMode testMode romOk

end Sys2Proof.Machine
end

section
/-!
The steps of start-up: what fails them, what passes them, and the statements O9 and O10 (15 R423 to R425, 12 R313 to R315,
R321, 19 R492, R499).
-/

namespace Sys2Proof.Machine

/-! ### Failures and retries (15 R424) -/

theorem State.stepFail_eq (s : State) (d : Die) : s.stepFail d = s.modPad d Paddock.failed := by
  have hreq : ∀ q : Paddock, (if q.boot.step = 7 then false else q.ebb.hclkReq) = (q.ebb.hclkReq && q.boot.step != 7) := by
    intro q
    split
    next h => simp [h]
    next h => rw [bne_iff_ne.mpr h, Bool.and_true]
  refine congrArg (s.modPad d) (funext fun q => ?_)
  simp only [Paddock.failed, ← hreq, beq_iff_eq]
  rfl

theorem State.fuseTimeout_completes {s : State} {d : Die} (hreq : (s.pad d).boot.fuseReq = true ∨ (s.pad d).boot.fuseAck = true)
    (hstep : (s.pad d).boot.step = 4) (hback : (s.pad d).boot.backoff = false) :
    exec (.fuseTimeout d) s = .next (if (s.pad d).boot.fuseTick + 1000 ≤ (s.pad d).aon.ticks
      then s.modPad d Paddock.failed else s) := by
  have hor : ((s.pad d).boot.fuseReq || (s.pad d).boot.fuseAck) = true := by simpa using hreq
  refine congrArg Host.Outcome.next (if_congr ?_ (s.stepFail_eq d) rfl)
  simp only [hor, hstep, hback, beq_self_eq_true, Bool.not_false, Bool.true_and, decide_eq_true_eq]
  exact Iff.rfl

theorem State.hclkAckTimeout_completes {s : State} {d : Die} (hstep : (s.pad d).boot.step = 7)
    (hback : (s.pad d).boot.backoff = false) (hreq : (s.pad d).ebb.hclkReq = true) (hack : (s.pad d).ebb.hclkAck = false) :
    exec (.hclkAckTimeout d) s = .next (if (s.pad d).ebb.hclkTick + 200 ≤ (s.pad d).aon.ticks
      then s.modPad d Paddock.failed else s) := by
  refine congrArg Host.Outcome.next (if_congr ?_ (s.stepFail_eq d) rfl)
  simp only [hstep, hback, hreq, hack, beq_self_eq_true, Bool.not_false, Bool.true_and, decide_eq_true_eq]
  exact Iff.rfl

/-- A paddock's step 5, before its checkers outside the folds were tested. -/
structure State.TestsPaddock (s : State) (d : Die) : Prop where
  step : (s.pad d).boot.step = 5
  backoff : (s.pad d).boot.backoff = false
  released : (s.pad d).Released
  on : (s.pad d).domOn domSD = true
  untested : bitAt (s.pad d).boot.selfTested 5 = false

/-- A failing checker outside the folds is reported the first time, and fails the step (12 R314, R315). -/
theorem State.selfTest_paddock_fails {s : State} {d : Die} {answers : List (BitVec 4 × BitVec 64)} (h : s.TestsPaddock d)
    (hbad : firstBadChecker answers ≠ none) :
    s.selfTest d .paddock answers =
      (if (s.pad d).boot.a02Filed then s
        else (s.modBoot d fun b => { b with a02Filed := true }).file d
          { s.segReport d 0xA02 (streamAgent d) 0 with atype := 0x3E }).modPad d Paddock.failed := by
  obtain ⟨hstep, hback, ⟨hpor, hpad⟩, hon, hnot⟩ := h
  have hbad' : (firstBadChecker answers).isNone = false := by simpa [Option.isSome_iff_ne_none] using hbad
  simp only [State.selfTest, hstep, hback, hpor, hpad, hon, hnot, hbad', beq_self_eq_true, Bool.not_false, Bool.not_true,
    Bool.true_and, Bool.or_self, Bool.false_eq_true, if_false, State.stepFail_eq]
  rfl

theorem State.bootRetry_waits {s : State} {d : Die} (romOk : Bool)
    (h : (s.pad d).aon.ticks < (s.pad d).boot.failTick + 1000 * min (2 ^ ((s.pad d).stepFails - 1)) 1000) :
    s.bootRetry d romOk = s := by
  have h' : decide ((s.pad d).ticks < (s.pad d).boot.failTick + backoffTicks (s.pad d).stepFails) = true := by
    rw [backoffTicks, Nat.mul_comm]; exact decide_eq_true h
  simp only [State.bootRetry, h', Bool.or_true, if_true]

/-- The wait is over: the step is tried again. -/
theorem State.bootRetry_due {s : State} {d : Die} (romOk : Bool) (hrel : (s.pad d).Released)
    (hback : (s.pad d).boot.backoff = true)
    (h : (s.pad d).boot.failTick + 1000 * min (2 ^ ((s.pad d).stepFails - 1)) 1000 ≤ (s.pad d).aon.ticks) :
    s.bootRetry d romOk =
      let s' := s.modBoot d fun b => { b with backoff := false, romOk := romOk }
      match (s.pad d).boot.step.toNat with
      | 3 => s'.bootGo d
      | 4 => s'.fuseStart d
      | 7 => s'.askClock d
      | _ => s' := by
  obtain ⟨hpor, hpad⟩ := hrel
  have h' : decide ((s.pad d).ticks < (s.pad d).boot.failTick + backoffTicks (s.pad d).stepFails) = false := by
    rw [backoffTicks, Nat.mul_comm]; exact decide_eq_false (Nat.not_lt.mpr h)
  simp only [State.bootRetry, hpor, hpad, hback, h', Bool.not_true, Bool.or_self, Bool.false_eq_true, if_false] <;> rfl

/-- Settles O9: each failure is the one change `Paddock.failed`, and a retry begins the step again. -/
theorem startupFailsAndRetries : Obligations.StartupFailsAndRetries := by
  unfold Obligations.StartupFailsAndRetries
  refine ⟨fun s d => ⟨State.fuseTimeout_completes, State.hclkAckTimeout_completes,
    fun answers hbad hstep hback hrel hon hnot => ?_⟩, fun s d romOk hrel hback => ⟨fun hlt => ?_, fun hle => ?_⟩⟩
  · have htest := State.selfTest_paddock_fails ⟨hstep, hback, hrel, hon, hnot⟩ hbad
    refine ⟨fun hfiled => ?_, fun hfiled => ?_⟩
    · rw [hfiled, if_pos rfl] at htest
      exact congrArg Host.Outcome.next htest
    · have hrep : dieOf ({ s.segReport d 0xA02 (streamAgent d) 0 with atype := 0x3E } : Report).subject = d :=
        dieOf_streamAgent d
      rw [hfiled, if_neg Bool.false_ne_true, State.file_own hrep rfl] at htest
      refine ⟨_, congrArg Host.Outcome.next htest, ((s.onlyPad_modPad d _).modPad _).modPad _, ?_⟩
      simp only [State.pad_modPad_same, State.pad_modBoot_same]
      exact ⟨rfl, rfl, rfl⟩
  · exact congrArg Host.Outcome.next (State.bootRetry_waits romOk hlt)
  · have hretry := State.bootRetry_due romOk hrel hback hle
    refine ⟨fun hstep => ?_, fun hstep => ?_⟩
    · rw [hstep] at hretry
      refine congrArg Host.Outcome.next (hretry.trans ?_)
      simp only [State.modBoot, State.modPad_modPad, State.fuseStart, State.fuseRead]
      rfl
    · rw [hstep] at hretry
      refine congrArg Host.Outcome.next (hretry.trans ?_)
      exact State.modPad_modPad _ _ _ _

end Sys2Proof.Machine
end

section
/-!
The steps of start-up that pass and the statement O10 (15 R423 to R425, 12 R313, R321, 19 R492, R499).
-/

namespace Sys2Proof.Machine

/-! ### A change of one paddock that keeps a part of it -/

/-- `t` differs from `s` in paddock `d` at most, and not in its part `f`. -/
structure State.OnlyPadBut {α : Type} (s t : State) (d : Die) (f : Paddock → α) : Prop where
  only : s.OnlyPad t d
  part : f (t.pad d) = f (s.pad d)

theorem State.OnlyPad.refl (s : State) (d : Die) : s.OnlyPad s d := ⟨rfl, rfl, rfl, rfl, fun _ _ => rfl⟩

theorem State.OnlyPad.trans {s t u : State} {d : Die} (h : s.OnlyPad t d) (g : t.OnlyPad u d) : s.OnlyPad u d :=
  ⟨g.krovol.trans h.krovol, g.tether.trans h.tether, g.fresh.trans h.fresh, g.pending.trans h.pending,
    fun x hx => (g.others x hx).trans (h.others x hx)⟩

section
variable {α : Type} {s t u : State} {d : Die} {f : Paddock → α}

theorem State.OnlyPadBut.refl (s : State) (d : Die) (f : Paddock → α) : s.OnlyPadBut s d f := ⟨.refl s d, rfl⟩

theorem State.OnlyPadBut.modPad (h : s.OnlyPadBut t d f) (g : Paddock → Paddock) (hg : ∀ q, f (g q) = f q) :
    s.OnlyPadBut (t.modPad d g) d f :=
  ⟨h.only.modPad g, by rw [State.pad_modPad_same, hg, h.part]⟩

theorem State.OnlyPadBut.trans (h : s.OnlyPadBut t d f) (g : t.OnlyPadBut u d f) : s.OnlyPadBut u d f :=
  ⟨h.only.trans g.only, g.part.trans h.part⟩

theorem State.OnlyPadBut.foldl {β : Type} (h : s.OnlyPadBut t d f) (g : State → β → State) (l : List β)
    (hg : ∀ (u : State) (b : β), u.OnlyPadBut (g u b) d f) : s.OnlyPadBut (l.foldl g t) d f := by
  induction l generalizing t with
  | nil => exact h
  | cons b l ih => exact ih (h.trans (hg t b))

theorem State.OnlyPadBut.ite {c : Prop} [Decidable c] (ht : s.OnlyPadBut t d f) (hu : s.OnlyPadBut u d f) :
    s.OnlyPadBut (if c then t else u) d f := by
  split <;> assumption

end

/-! ### Fuse words (19 R499) -/

theorem State.fuseWord_rises {s : State} {d : Die} (data : Word) (hback : (s.pad d).boot.backoff = false)
    (hstep : (s.pad d).boot.step = 4) (hreq : (s.pad d).boot.fuseReq = true) (hack : (s.pad d).boot.fuseAck = false) :
    s.fuseWord d data = s.modPad d fun q => { q with boot := { q.boot with
      fuseWords := q.boot.fuseWords ++ [data], fuseReq := false, fuseAck := true, fuseTick := q.aon.ticks } } := by
  simp only [State.fuseWord, hack, Bool.false_eq_true, if_false]
  refine State.modPad_congr (if_pos ?_)
  simp only [hreq, hstep, hback, beq_self_eq_true, Bool.not_false, Bool.and_self]

theorem nextFuse_of_lt {d : Die} {w : List Word} (h : w.length < 8) : nextFuse d w = some w.length := if_pos h

theorem State.fuseWord_falls {s : State} {d : Die} (data : Word) (hback : (s.pad d).boot.backoff = false)
    (hstep : (s.pad d).boot.step = 4) (hreq : (s.pad d).boot.fuseReq = false) (hack : (s.pad d).boot.fuseAck = true)
    (hlen : (s.pad d).boot.fuseWords.length < 8) :
    s.fuseWord d data = s.modPad d fun q => { q with boot := { q.boot with
      fuseAck := false, fuseReq := true
      fuseAddr := BitVec.ofNat 12 q.boot.fuseWords.length, fuseTick := q.aon.ticks } } := by
  simp only [State.fuseWord, hack, if_true, State.fuseFall, hreq, hstep, hback, bne_self_eq_false, Bool.or_self,
    Bool.false_eq_true, if_false, nextFuse_of_lt hlen, State.fuseRead, State.modBoot]
  rw [State.modPad_modPad]
  exact State.modPad_congr rfl

/-! ### Self-test and initialisation of a fold (12 R313, R321) -/

theorem State.selfTest_fold_passes {s : State} {d : Die} {p : PFold} {answers : List (BitVec 4 × BitVec 64)}
    (hrel : (s.pad d).Released) (hback : (s.pad d).boot.backoff = false)
    (hfl : (s.pad d).domOn (domFL p) = true) (hfa : (s.pad d).domOn (domFA p) = true)
    (hgood : firstBadChecker answers = none) (hstep : (s.pad d).boot.step = 5)
    (hnot : bitAt (s.pad d).boot.selfTested p.val = false) :
    s.selfTest d (.fold p) answers = s.modPad d fun q =>
      let done := putBit q.boot.selfTested p.val true
      { q with
        folds := vmod q.folds p fun f => { f with drover := { pass := true }, census := foldCount 0x37 8 f.census }
        boot := { q.boot with selfTested := done, step := if done = BitVec.allOnes 6 then 6 else 5 }
        aon := { q.aon with
          stepFails := if done = BitVec.allOnes 6 then vset q.aon.stepFails q.boot.step.toFin 0 else q.aon.stepFails } } := by
  obtain ⟨hpor, hpad⟩ := hrel
  have hfive : (5 : BitVec 4).toNat = 5 := rfl
  simp only [State.selfTest, hstep, hback, hpor, hpad, hfl, hfa, hgood, hnot, State.droverAt, State.modFold, State.modBoot,
    State.modPad_modPad, Option.isSome_none, beq_self_eq_true, Bool.not_false, Bool.not_true, Bool.true_and, Bool.or_self,
    Bool.false_eq_true, if_false, if_true, State.bootGo, State.pad_modPad_same, hfive, beq_iff_eq, State.stepTo]
  split
  next h =>
    exact State.modPad_congr (by simp only [h, if_true])
  next h => exact State.modPad_congr (by simp only [h, if_false, hstep])

/-- With no record queued and no fault found, initialisation gives the arrays their reset values and notes the fold. -/
theorem State.initFold_clean {s : State} {d : Die} (p : PFold) (hq : (s.pad d).hurdle.queued = []) :
    s.initFold d p [] = s.modPad d fun q => { q with
      folds := vmod q.folds p fun f => { f.arrayReset.millFill f.millWays f.millLost with millLost := false }
      boot := { q.boot with arrayInit := putBit q.boot.arrayInit p.val true } } := by
  simp only [State.initFold, State.unqueue, State.modFold, State.modBoot, State.pad_modPad_same, hq, List.filter_nil,
    State.initRows, List.append_nil, List.foldl_nil, State.modPad_modPad]
  refine State.modPad_congr ?_
  simp only [hq, List.filter_nil]
  rw [← hq]

theorem bitAt_putBit {n : Nat} (a : BitVec n) (i j : Nat) (b : Bool) :
    bitAt (putBit a i b) j = if i = j ∧ j < n then b else bitAt a j := by
  by_cases hj : j < n
  · by_cases hij : i = j
    · subst hij
      cases b <;> simp only [bitAt, putBit, if_true, Bool.false_eq_true, if_false, BitVec.getLsbD_or, BitVec.getLsbD_and,
        BitVec.getLsbD_not, BitVec.getLsbD_ofNat, Nat.testBit_two_pow_self, hj, decide_true, and_self, Bool.and_self, Bool.or_true,
        Bool.not_true, Bool.and_false]
    · have hbit : (2 ^ i).testBit j = false := Nat.testBit_two_pow_of_ne hij
      cases b <;> simp only [bitAt, putBit, if_true, Bool.false_eq_true, if_false, BitVec.getLsbD_or, BitVec.getLsbD_and,
        BitVec.getLsbD_not, BitVec.getLsbD_ofNat, hbit, hj, hij, false_and, Bool.and_false, Bool.or_false, Bool.not_false,
        decide_true, Bool.and_true]
  · simp only [hj, and_false, if_false, bitAt, BitVec.getLsbD_of_ge _ _ (Nat.not_lt.mp hj)]

theorem bitAt_putBit_of_ne {n : Nat} (a : BitVec n) {i j : Nat} (b : Bool) (h : i ≠ j) :
    bitAt (putBit a i b) j = bitAt a j := by
  rw [bitAt_putBit, if_neg fun hc => h hc.1]

theorem bitAt_putBit_same {n : Nat} (a : BitVec n) {i : Nat} (b : Bool) (h : i < n) : bitAt (putBit a i b) i = b := by
  rw [bitAt_putBit, if_pos ⟨rfl, h⟩]

theorem State.arrayInit_fold_clean {s : State} {d : Die} {p : PFold} (hrel : (s.pad d).Released)
    (hback : (s.pad d).boot.backoff = false) (hfl : (s.pad d).domOn (domFL p) = true)
    (hfa : (s.pad d).domOn (domFA p) = true) (hstep : (s.pad d).boot.step = 6)
    (htested : bitAt (s.pad d).boot.selfTested p.val = true) (hnot : bitAt (s.pad d).boot.arrayInit p.val = false)
    (hq : (s.pad d).hurdle.queued = []) (hlanes : bitAt (s.pad d).boot.arrayInit 5 = false) :
    s.arrayInit d (.fold p) [] = s.modPad d fun q => { q with
      folds := vmod q.folds p fun f => { f.arrayReset.millFill f.millWays f.millLost with millLost := false }
      boot := { q.boot with arrayInit := putBit q.boot.arrayInit p.val true } } := by
  obtain ⟨hpor, hpad⟩ := hrel
  have hsix : (6 : BitVec 4).toNat = 6 := rfl
  have hlanes' : bitAt (putBit (s.pad d).boot.arrayInit p.val true) 5 = false := by
    rw [bitAt_putBit_of_ne _ _ (Nat.ne_of_lt p.isLt), hlanes]
  simp only [State.arrayInit, hstep, hback, hpor, hpad, hfl, hfa, htested, hnot, State.initFold_clean p hq,
    beq_self_eq_true, Bool.not_false, Bool.not_true, Bool.true_and, Bool.true_or, Bool.or_self, Bool.false_eq_true, if_false,
    if_true, State.bootGo, State.pad_modPad_same, hsix, Paddock.initDone, hlanes', Bool.false_and, List.contains_nil]

/-! ### HCLK and step 8 (15 R423, R425) -/

/-- A Census boundary outside a Range changes the paddock's folds and Census at most (17 R460). -/
theorem State.censusBoundary_outside {α : Type} {s : State} {d : Die} (f : Paddock → α)
    (hf : ∀ q folds census, f { q with folds := folds, census := census } = f q) (h : s.inRange d = false) :
    s.OnlyPadBut (s.censusBoundary d) d f := by
  simp only [State.censusBoundary, h, Bool.and_false, Bool.false_eq_true, if_false]
  refine .ite (.refl s d f) (.foldl ?_ _ _ fun u p => ?_)
  · refine .ite ?_ ?_
    · exact ((State.OnlyPadBut.refl s d f).modPad _ fun q => hf q _ _).modPad _ fun q => hf q _ _
    · exact (State.OnlyPadBut.refl s d f).modPad _ fun q => hf q _ _
  · exact .ite ((State.OnlyPadBut.refl u d f).modPad _ fun q => hf q _ q.census) (.refl u d f)

/-- Changing the chosen elements of a vector in turn. -/
theorem foldl_vmod_get {α : Type} {n : Nat} (c : Fin n → Bool) (g : α → α) (l : List (Fin n)) (hl : l.Nodup)
    (v : Vector α n) (i : Fin n) :
    (l.foldl (fun v m => if c m then vmod v m g else v) v)[i] = if i ∈ l ∧ c i = true then g v[i] else v[i] := by
  induction l generalizing v with
  | nil => simp
  | cons m l ih =>
    obtain ⟨hm, hl⟩ := List.nodup_cons.mp hl
    rw [List.foldl_cons, ih hl]
    by_cases him : i = m
    · subst him
      by_cases hc : c i = true <;> simp [hm, hc, -Fin.getElem_fin]
    · have hsame : (if c m = true then vmod v m g else v)[i] = v[i] := by
        split
        · exact vmod_get_other v m i g him
        · rfl
      simp only [hsame, List.mem_cons, him, false_or]

/-- A module trains. -/
def ModStat.trains (x : ModStat) : ModStat := { x with state := .training, fdi := .active }

/-- A paddock that comes to step 8: its modules train, and it is absent at assembly if the deadline is past (10 R263). -/
def Paddock.trains (q : Paddock) (k : Krovol) (d : Die) : Paddock :=
  { q with
    boot := { q.boot with
      step := 8
      frozen := if q.boot.frozen.isNone && decide (k.deadlineTick ≤ q.aon.ticks) then some (0, 0) else q.boot.frozen }
    aon := { q.aon with stepFails := vset q.aon.stepFails q.boot.step.toFin 0 }
    conf := { q.conf with
      mod := modNs.foldl (fun v m => if ((k.modEdge[d])[m]).isSome then vmod v m ModStat.trains else v) q.conf.mod } }

/-- The modules of a die that are there change in turn. -/
theorem State.foldl_modMod (s : State) (d : Die) (g : ModStat → ModStat) (l : List ModN) :
    l.foldl (fun t m => if ((t.krovol.modEdge[d])[m]).isSome then t.modMod d m g else t) s =
      s.modPad d fun q => { q with conf := { q.conf with
        mod := l.foldl (fun v m => if ((s.krovol.modEdge[d])[m]).isSome then vmod v m g else v) q.conf.mod } } := by
  induction l generalizing s with
  | nil => exact (s.modPad_eq_self d _ rfl).symm
  | cons m l ih =>
    rw [List.foldl_cons, ih]
    by_cases hc : ((s.krovol.modEdge[d])[m]).isSome = true
    · simp only [hc, if_true, List.foldl_cons, State.modMod_krovol]
      exact State.modPad_modPad _ _ _ _
    · simp only [hc, Bool.false_eq_true, if_false, List.foldl_cons]

theorem State.trainStart_eq (s : State) (d : Die) : s.trainStart d = s.modPad d fun q => q.trains s.krovol d := by
  have hcond : (((s.stepTo d 8).pad d).boot.frozen.isNone &&
        decide ((s.stepTo d 8).krovol.deadlineTick ≤ ((s.stepTo d 8).pad d).ticks)) =
      ((s.pad d).boot.frozen.isNone && decide (s.krovol.deadlineTick ≤ (s.pad d).aon.ticks)) := by
    simp only [State.stepTo, State.pad_modPad_same, State.modPad_krovol, Paddock.ticks]
  unfold State.trainStart
  dsimp only
  rw [hcond]
  refine (State.foldl_modMod _ d ModStat.trains modNs).trans ?_
  by_cases hlate : ((s.pad d).boot.frozen.isNone && decide (s.krovol.deadlineTick ≤ (s.pad d).aon.ticks)) = true
  · rw [if_pos hlate, State.modBoot, State.stepTo, State.modPad_modPad, State.modPad_modPad]
    exact State.modPad_congr (by simp only [Paddock.trains, hlate, if_true]; rfl)
  · rw [if_neg hlate, State.stepTo, State.modPad_modPad]
    exact State.modPad_congr (by simp only [Paddock.trains, hlate, Bool.false_eq_true, if_false]; rfl)

theorem Paddock.trains_mod (q : Paddock) {k : Krovol} {d : Die} {m : ModN} (h : ((k.modEdge[d])[m]).isSome = true) :
    ((q.trains k d).conf.mod[m]).state = .training := by
  have hmem : ∀ m : ModN, m ∈ modNs := by decide
  have hget := foldl_vmod_get (fun m => ((k.modEdge[d])[m]).isSome) ModStat.trains modNs (by decide) q.conf.mod m
  rw [if_pos ⟨hmem m, h⟩] at hget
  exact (congrArg ModStat.state hget).trans rfl

/-- HCLK runs at the point asked for. -/
def State.clockRuns (s : State) (d : Die) (pt : Point) : State :=
  (s.modEbb d fun e => { e with hclkAck := true, hclkOpack := pt, point := pt }).censusBoundary d

theorem State.clockRuns_outside {s : State} {d : Die} (h : s.inRange d = false) (pt : Point) :
    s.OnlyPad (s.clockRuns d pt) d ∧ ((s.clockRuns d pt).pad d).boot = (s.pad d).boot ∧
      ((s.clockRuns d pt).pad d).conf = (s.pad d).conf ∧
      ((s.clockRuns d pt).pad d).ebb = { (s.pad d).ebb with hclkAck := true, hclkOpack := pt, point := pt } := by
  let s1 := s.modEbb d fun e => { e with hclkAck := true, hclkOpack := pt, point := pt }
  have hin : s1.inRange d = false := by
    simpa only [s1, State.inRange, State.member, State.pad_modEbb_same] using h
  obtain ⟨hb, hpart⟩ := State.censusBoundary_outside (fun q => (q.boot, q.conf, q.ebb)) (fun _ _ _ => rfl) hin
  simp only [s1, State.pad_modEbb_same, Prod.mk.injEq] at hpart
  exact ⟨(s.onlyPad_modPad d _).trans hb, hpart⟩

/-- The acknowledgement at step 7 starts HCLK, and step 8 unless the strap holds the paddock. -/
theorem State.clockAck_at_step7 {s : State} {d : Die} (hstep : (s.pad d).boot.step = 7)
    (hback : (s.pad d).boot.backoff = false) (hreq : (s.pad d).ebb.hclkReq = true) (hack : (s.pad d).ebb.hclkAck = false)
    (hin : s.inRange d = false) :
    s.clockAck d true (s.pad d).ebb.hclkOp =
      if (s.pad d).boot.bootMode then (s.clockRuns d (s.pad d).ebb.hclkOp).modBoot d fun b => { b with bootHold := true }
      else (s.clockRuns d (s.pad d).ebb.hclkOp).trainStart d := by
  obtain ⟨-, hboot, -⟩ := State.clockRuns_outside hin (s.pad d).ebb.hclkOp
  rw [State.clockRuns] at hboot
  simp only [State.clockAck, hreq, hack, Bool.not_false, Bool.and_self, beq_self_eq_true, if_true, hboot, hstep, hback]
  rfl

/-- Settles O10: each step that passes is one change of its paddock; HCLK's start brings a Census boundary at most. -/
theorem startupPasses : Obligations.StartupPasses := by
  unfold Obligations.StartupPasses
  refine ⟨fun s d hrel hback => ⟨fun data hstep => ⟨fun hreq hack => ?_, fun hreq hack hlen => ?_⟩,
    fun p hfl hfa => ⟨fun answers hgood hstep hnot => ?_, fun hstep htested hnot hq hlanes => ?_⟩⟩,
    fun s d hrel hstep hback => ⟨fun hreq hack hin => ?_, fun w v hvia hgrant hbit hhold => ?_⟩⟩
  · exact congrArg Host.Outcome.next (State.fuseWord_rises data hback hstep hreq hack)
  · exact congrArg Host.Outcome.next (State.fuseWord_falls data hback hstep hreq hack hlen)
  · exact congrArg Host.Outcome.next (State.selfTest_fold_passes hrel hback hfl hfa hgood hstep hnot)
  · exact congrArg Host.Outcome.next (State.arrayInit_fold_clean hrel hback hfl hfa hstep htested hnot hq hlanes)
  · obtain ⟨honly, hboot, hconf, hebb⟩ := State.clockRuns_outside hin (s.pad d).ebb.hclkOp
    refine ⟨_, congrArg Host.Outcome.next (State.clockAck_at_step7 hstep hback hreq hack hin), ?_⟩
    obtain ⟨hpor, hpad⟩ := hrel
    cases hmode : (s.pad d).boot.bootMode with
    | true =>
      simp only [if_true, State.pad_modBoot_same, Paddock.running, hboot, hpor, hpad, hebb, hconf]
      exact ⟨honly.modPad _, rfl, trivial, fun _ => ⟨trivial, trivial⟩, fun h => Bool.noConfusion h⟩
    | false =>
      simp only [Bool.false_eq_true, if_false, State.trainStart_eq, State.pad_modPad_same]
      refine ⟨honly.modPad _, ?_, ?_, fun h => h.elim, fun _ => ⟨rfl, fun m hm => ?_⟩⟩
      · simp only [Paddock.running, Paddock.trains, hboot, hpor, hpad, hebb, Bool.not_false, Bool.and_self]
      · simp only [Paddock.trains, hebb]
      · exact Paddock.trains_mod _ (honly.krovol ▸ hm)
  · subst hvia
    have hperf : s.perform { w with bar0 := false } 0x5008 (some v) ⟨.boot, 0x5008, w.via, false⟩ =
        ((s.modBoot w.via fun b => { b with bootHold := false }).trainStart w.via, .done respOkay 0) := by
      have hlaid : s.krovol.laid .boot 0x5008 = true := hgrant.laid
      simp only [State.perform, hlaid, if_true, State.regWrite, State.bootWrite, hbit, State.bootRelease, hhold]
      rfl
    refine ⟨_, congrArg Host.Outcome.next (State.Granted.access (wr := some v) hgrant), ?_⟩
    simp only [hperf, State.trainStart_eq, State.modBoot, State.modPad_modPad, State.pad_modPad_same]
    exact ⟨s.onlyPad_modPad w.via _, rfl, rfl, trivial, fun m hm => Paddock.trains_mod _ hm⟩

end Sys2Proof.Machine
end

section
/-!
What operations leave unchanged in every paddock: a part `p` of a paddock that does not see the fields they write.
-/

namespace Sys2Proof.Machine

/-- `t` has the Tether, the count of free values and, in every paddock, the part `p` of `s`. -/
structure State.Frame {α : Type} (p : Paddock → α) (s t : State) : Prop where
  tether : t.tether = s.tether
  fresh : t.fresh = s.fresh
  pads : ∀ x, p (t.pad x) = p (s.pad x)

section
variable {α : Type} {p : Paddock → α} {s t u : State}

theorem State.Frame.refl (p : Paddock → α) (s : State) : s.Frame p s := ⟨rfl, rfl, fun _ => rfl⟩

theorem State.Frame.trans (h : s.Frame p t) (g : t.Frame p u) : s.Frame p u :=
  ⟨g.tether.trans h.tether, g.fresh.trans h.fresh, fun x => (g.pads x).trans (h.pads x)⟩

theorem State.Frame.modPad (h : s.Frame p t) (d : Die) (f : Paddock → Paddock) (hf : ∀ q, p (f q) = p q) :
    s.Frame p (t.modPad d f) := by
  refine ⟨h.tether, h.fresh, fun x => ?_⟩
  rw [State.pad_modPad]
  split
  next hx => subst hx; rw [hf, h.pads]
  next => exact h.pads x

theorem State.Frame.foldl {β : Type} (h : s.Frame p t) (f : State → β → State) (l : List β)
    (hf : ∀ (u : State) (b : β), s.Frame p u → s.Frame p (f u b)) : s.Frame p (l.foldl f t) := by
  induction l generalizing t with
  | nil => exact h
  | cons b l ih => exact ih (hf t b h)

theorem State.Frame.ite {c : Prop} [Decidable c] (ht : s.Frame p t) (hu : s.Frame p u) :
    s.Frame p (if c then t else u) := by
  split <;> assumption

/-! ### Reports, events and what waits for the leader -/

/-- A report that no fold files is stored in a Bell's inbox and does nothing else (13 R342, R345). -/
theorem State.Frame.file (h : s.Frame p t) (hbell : ∀ q b, p { q with bell := b } = p q) (d : Die) {r : Report}
    (hr : r.fromFold = none) : s.Frame p (t.file d r) := by
  unfold State.file State.ftReact
  rw [hr]
  exact h.modPad _ _ fun q => hbell q _

theorem State.Frame.confRep (h : s.Frame p t) (hbell : ∀ q b, p { q with bell := b } = p q) (d : Die)
    (code detail : Nat) : s.Frame p (t.confRep d code detail) :=
  h.file hbell d rfl

theorem State.Frame.wantSwitch (h : s.Frame p t)
    (hneed : ∀ q b, p { q with shep := { q.shep with needSwitch := b } } = p q) (d : Die) : s.Frame p (t.wantSwitch d) := by
  unfold State.wantSwitch
  split
  · exact h.modPad _ _ fun q => hneed q _
  · exact h

theorem State.Frame.recheckDue (h : s.Frame p t)
    (hrecheck : ∀ q x, p { q with shep := { q.shep with recheck := x } } = p q) (d : Die) : s.Frame p (t.recheckDue d) := by
  unfold State.recheckDue
  split
  · exact h
  · exact h.modPad _ _ fun q => hrecheck q _

section
variable (hbell : ∀ q b, p { q with bell := b } = p q) (hshep : ∀ q x, p { q with shep := x } = p q)
include hbell hshep

theorem State.Frame.eqCheck (h : s.Frame p t) (d : Die) (e : EQN) : s.Frame p (t.eqCheck d e) := by
  unfold State.eqCheck
  exact .ite h ((h.modPad d _ fun q => hshep q _).file hbell d rfl)

theorem State.Frame.eqChecks (h : s.Frame p t) (d : Die) (kind : Nat) : s.Frame p (t.eqChecks d kind) :=
  h.foldl _ _ fun _ e hu => .ite (hu.eqCheck hbell hshep d e) hu

theorem State.Frame.eventFrom (h : s.Frame p t) (own : Die) (kind : Nat) (d : Die) (arg : Nat) :
    s.Frame p (t.eventFrom own kind d arg) := by
  unfold State.eventFrom
  split
  · exact h
  · exact (h.eqChecks hbell hshep _ _).modPad _ _ fun q => hshep q _

end

/-! ### Edges and routes -/

theorem State.Frame.loseCutOff (h : s.Frame p t)
    (hslots : ∀ q x y z, p { q with stream := { q.stream with slots := x, hand := y, turns := z } } = p q) (d : Die) :
    s.Frame p (t.loseCutOff d) := by
  unfold State.loseCutOff
  exact .ite h (h.modPad d _ fun q => hslots q _ _ _)

theorem State.Frame.findUnreach (h : s.Frame p t) (hbell : ∀ q b, p { q with bell := b } = p q)
    (hslots : ∀ q x y z, p { q with stream := { q.stream with slots := x, hand := y, turns := z } } = p q)
    (hunreach : ∀ q x, p { q with conf := { q.conf with unreach := x } } = p q) (d : Die) :
    s.Frame p (t.findUnreach d) := by
  unfold State.findUnreach
  exact ((h.modPad d _ fun q => hunreach q _).foldl _ _ fun _ x hu => hu.file hbell d rfl).loseCutOff hslots d

theorem State.Frame.setTurns (h : s.Frame p t) (hstream : ∀ q x, p { q with stream := x } = p q) (ds : List Die) :
    s.Frame p (t.setTurns ds) :=
  h.foldl _ _ fun _ d hu => hu.foldl _ _ fun _ _ hv => hv.modPad d _ fun q => hstream q _

theorem State.Frame.writePaces (h : s.Frame p t)
    (hedge : ∀ q x, p { q with conf := { q.conf with edge := x } } = p q) (ds : List Die) (mhz : Nat) :
    s.Frame p (t.writePaces ds mhz) :=
  h.foldl _ _ fun _ d hu => hu.modPad d _ fun q => hedge q _

section
variable (hstream : ∀ q x, p { q with stream := x } = p q) (hconf : ∀ q x, p { q with conf := x } = p q)
include hstream hconf

theorem State.Frame.writeEdges (h : s.Frame p t) (ds : List Die) (pop : BitVec 8) (o : BitVec 24) :
    s.Frame p (t.writeEdges ds pop o) :=
  h.foldl _ _ fun _ d hu => (hu.foldl _ _ fun _ _ hv => hv.modPad d _ fun q => hconf q _).modPad d _ fun q => hstream q _

variable (hbell : ∀ q b, p { q with bell := b } = p q) (hshep : ∀ q x, p { q with shep := x } = p q)
include hbell hshep

theorem State.Frame.edgeLost (h : s.Frame p t) (d : Die) (e : Edge) : s.Frame p (t.edgeLost d e) := by
  unfold State.edgeLost
  refine State.Frame.wantSwitch (State.Frame.foldl ?_ _ _ fun _ x hu =>
    hu.findUnreach hbell (fun q _ _ _ => hstream q _) (fun q _ => hconf q _) x)
    (fun q _ => hshep q _) d
  exact ((h.modPad d _ fun q => hstream q _).modPad d _ fun q => hconf q _).confRep hbell d _ _

end

/-! ### Replicated registers -/

theorem State.Frame.modRepl (h : s.Frame p t) (lead : Die) (f : Repl → Repl) (hf : ∀ q, p { q with repl := f q.repl } = p q) :
    s.Frame p (t.modRepl lead f) :=
  h.foldl _ _ fun _ d hu => hu.modPad d _ hf

theorem State.Frame.publishEnv (h : s.Frame p t) (hshep : ∀ q x, p { q with shep := x } = p q)
    (henv : ∀ q a b c, p { q with repl := { q.repl with envBad := a, envBadDef := b, envWorst := c } } = p q) (lead : Die) :
    s.Frame p (t.publishEnv lead) := by
  unfold State.publishEnv
  exact (h.modRepl lead _ fun q => henv q _ _ _).modPad lead _ fun q => hshep q _

end

end Sys2Proof.Machine
end

section
/-!
Assembly and the statement O11 (10 R268, R269, 01 R12 to R14, 15 R423).
-/

namespace Sys2Proof.Machine

theorem mem_diesOf {pop : BitVec 8} {d : Die} : d ∈ diesOf pop ↔ bitAt pop d.val = true := by
  simp [diesOf, mem_dies]

theorem nodup_diesOf (pop : BitVec 8) : (diesOf pop).Nodup := List.Nodup.filter _ (by decide)

/-- A member's registers and start-up as a Range forms, `copy` the leader's registers (18 R471). -/
def Paddock.formed (q : Paddock) (copy : Repl) (lead : Die) (range : BitVec 8) : Paddock :=
  { q with
    repl := { copy with present := range, leader := lead, formed := true, lockHash := true, tideHi := q.repl.tideHi }
    boot := { q.boot with ready := true, step := 10 } }

/-- The replicated registers without TIDE_ENV, and start-up. -/
def Paddock.membership (q : Paddock) : Repl × Boot := ({ q.repl with envBad := 0, envBadDef := false, envWorst := 0 }, q.boot)

theorem State.Frame.formEdges {α : Type} {p : Paddock → α} {s t : State} (h : s.Frame p t)
    (hstream : ∀ q x, p { q with stream := x } = p q) (hconf : ∀ q x, p { q with conf := x } = p q)
    (hbell : ∀ q b, p { q with bell := b } = p q) (hshep : ∀ q x, p { q with shep := x } = p q) (lead : Die)
    (range : BitVec 8) : s.Frame p (t.formEdges lead range) := by
  unfold State.formEdges
  have hlost : s.Frame p ((diesOf range).foldl (fun u d => edges.foldl (fun v e =>
      if ((v.pad d).conf.edge[edgeNo e]).inUse && !v.edgeUp d e then v.edgeLost d e else v) u)
      (((t.writeEdges (diesOf range) range (t.frozenEdges range)).setTurns (diesOf range)).writePaces (diesOf range)
        (t.mhz lead))) := by
    refine State.Frame.foldl ?_ _ _ fun _ d hu => hu.foldl _ _ fun _ e hv =>
      .ite (hv.edgeLost hstream hconf hbell hshep d e) hv
    exact ((h.writeEdges hstream hconf _ _ _).setTurns hstream _).writePaces (fun q _ => hconf q _) _ _
  exact .ite hlost (hlost.wantSwitch (fun q _ => hshep q _) lead)

theorem State.pad_foldl_lockAperture (s : State) (l : List Die) (x : Die) : (l.foldl State.lockAperture s).pad x = s.pad x := by
  induction l generalizing s with
  | nil => rfl
  | cons d l ih =>
    rw [List.foldl_cons, ih]
    unfold State.lockAperture
    split <;> rfl

/-- Registers and start-up after a Range formed: its members' as `Paddock.formed` says, every other die's as before. -/
theorem State.membership_form (s : State) (lead : Die) (range : BitVec 8) (d : Die) :
    ((s.form lead range).pad d).membership =
      (if bitAt range d.val then (s.pad d).formed (s.pad lead).repl lead range else s.pad d).membership := by
  let s1 := ((diesOf range).foldl (fun t d => t.modPad d fun q => q.formed (s.pad lead).repl lead range) s)
  let s2 := (diesOf range).foldl State.lockAperture s1
  have hmembers : s2.pad d = if bitAt range d.val then (s.pad d).formed (s.pad lead).repl lead range else s.pad d := by
    simp only [s2, s1, State.pad_foldl_lockAperture]
    rw [State.pad_foldl_modPad _ _ (nodup_diesOf range)]
    simp only [mem_diesOf]
  have hframe : s2.Frame Paddock.membership (s.form lead range) := by
    have hedges := (State.Frame.refl Paddock.membership s2).formEdges (fun _ _ => rfl) (fun _ _ => rfl) (fun _ _ => rfl)
      (fun _ _ => rfl) lead range
    refine State.Frame.eventFrom (fun _ _ => rfl) (fun _ _ => rfl) ?_ _ _ _ _
    refine State.Frame.publishEnv ?_ (fun _ _ => rfl) (fun _ _ _ _ => rfl) lead
    exact hedges.foldl _ _ fun _ _ hu => hu.file (fun _ _ => rfl) lead rfl
  rw [hframe.pads, hmembers]

theorem State.formAll_early {s : State} {lead : Die} {range : BitVec 8} (hr : s.ranges = [(lead, range)])
    (h : (s.pad lead).aon.ticks ≤ s.krovol.asmDeadline * 1000) : s.formAll = s := by
  have hlt : decide (s.krovol.deadlineTick < (s.pad lead).ticks) = false := decide_eq_false (Nat.not_lt.mpr h)
  simp only [State.formAll, hr, List.filter_cons, hlt, Bool.false_eq_true, if_false, List.filter_nil, List.isEmpty_nil,
    if_true]

theorem State.formAll_eq {s : State} {lead : Die} {range : BitVec 8} (hr : s.ranges = [(lead, range)])
    (h : s.krovol.asmDeadline * 1000 < (s.pad lead).aon.ticks) :
    s.formAll = (s.form lead range).modPads fun _ q =>
      if q.assembles then { q with boot := { q.boot with frozen := some (0, 0) } } else q := by
  have hlt : decide (s.krovol.deadlineTick < (s.pad lead).ticks) = true := decide_eq_true h
  simp only [State.formAll, hr, List.filter_cons, hlt, if_true, List.filter_nil, List.isEmpty_cons, Bool.false_eq_true,
    if_false, List.foldl_cons, List.foldl_nil]

theorem Paddock.assembles_of_formed {q : Paddock} (h : q.repl.formed = true) : q.assembles = false := by
  unfold Paddock.assembles
  split
  · simp only [h, Bool.not_true, Bool.and_false]
  · rfl

/-- Settles O11: the deadline is one change of every paddock; in FORMED only `State.form` touches registers and start-up,
and after it the die that is not in the Range is absent. -/
theorem assemblyFormsTheRange : Obligations.AssemblyFormsTheRange := by
  unfold Obligations.AssemblyFormsTheRange
  refine ⟨fun s => ⟨s.deadlineAt, rfl, rfl, rfl, rfl, rfl, fun d => ?_⟩, fun s lead range hr => ⟨fun hle => ?_, fun hlt => ?_⟩⟩
  · unfold State.deadlineAt
    simp only [State.pad_modPads]
    refine ⟨fun hrel hfro hdue => ?_, fun hno => ?_⟩
    · obtain ⟨hpor, hpad⟩ := hrel
      have hdue' : decide ((s.pad d).ticks < s.krovol.deadlineTick) = false := decide_eq_false (Nat.not_lt.mpr hdue)
      simp only [hpor, hpad, hfro, hdue', Option.isSome_none, Bool.or_self, Bool.false_eq_true, if_false, beq_iff_eq]
      exact ⟨fun hstep => if_pos hstep, fun hstep => if_neg hstep⟩
    · refine if_pos ?_
      rcases hno with hfro | hlt
      · simp only [hfro, Bool.or_true, Bool.true_or]
      · have hlt' : decide ((s.pad d).ticks < s.krovol.deadlineTick) = true := decide_eq_true hlt
        simp only [hlt', Bool.or_true]
  · exact congrArg Host.Outcome.next (State.formAll_early hr hle)
  · obtain ⟨t, ht, hkro, hpen, -⟩ := commandsKeepParametersQueueAndTime .formed s
    refine ⟨t, ht, hkro, hpen, fun d => ?_⟩
    have htd : t = s.formAll := (Host.Outcome.next.inj ht).symm
    have hmem := s.membership_form lead range d
    rw [htd, State.formAll_eq hr hlt, State.pad_modPads]
    generalize (s.form lead range).pad d = q at hmem
    refine ⟨fun hin => ?_, fun hout => ?_⟩
    · rw [hin, if_pos rfl] at hmem
      have hrepl := congrArg Prod.fst hmem
      have hboot : q.boot = { (s.pad d).boot with ready := true, step := 10 } := congrArg Prod.snd hmem
      have hformed : q.repl.formed = true := (congrArg Repl.formed hrepl :)
      rw [Paddock.assembles_of_formed hformed, if_neg Bool.false_ne_true, hboot]
      exact ⟨(congrArg Repl.present hrepl :), (congrArg Repl.leader hrepl :), hformed, (congrArg Repl.lockHash hrepl :), rfl, rfl,
        (congrArg Repl.privBlk hrepl :), (congrArg Repl.privQp hrepl :), (congrArg Repl.privEq hrepl :), (congrArg Repl.lockPriv hrepl :)⟩
    · rw [hout, if_neg Bool.false_ne_true] at hmem
      have hrepl := congrArg Prod.fst hmem
      have hboot : q.boot = (s.pad d).boot := congrArg Prod.snd hmem
      have hformed : q.repl.formed = (s.pad d).repl.formed := (congrArg Repl.formed hrepl :)
      have hpresent : q.repl.present = (s.pad d).repl.present := (congrArg Repl.present hrepl :)
      have hass : q.assembles = (s.pad d).assembles := by simp only [Paddock.assembles, hboot, hformed]
      rw [hass, ← hboot]
      split <;> exact ⟨hpresent, rfl⟩

end Sys2Proof.Machine
end

section
/-!
Modules that train, fail and go down, and the statement O12 (10 R261 to R265, 12 R329, R337, 19 R515).
-/

namespace Sys2Proof.Machine

/-! ### A failed attempt and the next one (10 R263) -/

/-- A training attempt of a module failed. -/
def Paddock.trainFailed (q : Paddock) (m : ModN) : Paddock :=
  { q with
    aon := { q.aon with modAttempts := vmod q.aon.modAttempts m fun a => if a = 0xFFFF then 0xFFFF else a + 1 }
    conf := { q.conf with
      mod := vmod q.conf.mod m fun y => { y with state := .waiting, fdi := .linkReset, waitTick := q.aon.ticks } } }

theorem State.trainFailed_eq {s : State} {d : Die} {m : ModN} (hrun : (s.pad d).running = true)
    (hst : ((s.pad d).conf.mod[m]).state = .training) : s.trainFailed d m = s.modPad d fun q => q.trainFailed m := by
  have hcount : ∀ a : BitVec 16, (if a == 0xFFFF then a else a + 1) = if a = 0xFFFF then 0xFFFF else a + 1 := by
    intro a
    by_cases h : a = 0xFFFF
    · subst h; rfl
    · rw [if_neg h, if_neg (by simpa using h)]
  simp only [State.trainFailed, hrun, hst, beq_self_eq_true, Bool.and_self, if_true, State.modMod, State.modConf,
    State.modPad_modPad]
  refine State.modPad_congr ?_
  simp only [Paddock.trainFailed, vmod, vset, hcount]
  rfl

theorem State.trainAgain_eq {s : State} {d : Die} {m : ModN} (hrun : (s.pad d).running = true)
    (hst : ((s.pad d).conf.mod[m]).state = .waiting) :
    s.trainAgain d m =
      if ((s.pad d).conf.mod[m]).waitTick + attemptWait ((s.pad d).aon.modAttempts[m]).toNat ≤ (s.pad d).aon.ticks
      then s.modMod d m ModStat.trains else s := by
  unfold State.trainAgain
  refine if_congr ?_ rfl rfl
  simp only [hrun, hst, beq_self_eq_true, Bool.and_self, Bool.true_and, decide_eq_true_eq, backoffTicks, attemptWait,
    Nat.mul_comm]
  exact Iff.rfl

/-! ### The log shadow (12 R333, R334) -/

section
variable {α : Type} {p : Paddock → α} {s t : State}
  (hhlog : ∀ q l u, p { q with aon := { q.aon with hlog := l, hlogUnread := u } } = p q)
  (hbell : ∀ q b, p { q with bell := b } = p q) (hshep : ∀ q x, p { q with shep := x } = p q)
include hhlog hbell hshep

omit hhlog hshep in
theorem State.Frame.hurdleTell (h : s.Frame p t) (d : Die) (code : Nat) (subject : AgentId) :
    s.Frame p (t.hurdleTell d code subject) :=
  h.file hbell d rfl

theorem State.Frame.hurdleStore (h : s.Frame p t) (d : Die) (r : BitVec 64) : s.Frame p (t.hurdleStore d r) := by
  unfold State.hurdleStore
  exact .ite ((h.modPad d _ fun q => hhlog q _ _).eventFrom hbell hshep _ _ _ _) (h.hurdleTell hbell d _ _)

theorem State.Frame.hurdleAppend (h : s.Frame p t) (d : Die) (r : BitVec 64) : s.Frame p (t.hurdleAppend d r) := by
  unfold State.hurdleAppend
  have hstore := h.hurdleStore hhlog hbell hshep d r
  exact .ite (hstore.hurdleTell hbell d _ _) hstore

theorem State.Frame.laneRepairs (h : s.Frame p t) (d : Die) (m : ModN) (lanes : List (BitVec 11)) :
    s.Frame p (t.laneRepairs d m lanes) :=
  h.foldl _ _ fun _ _ hu => .ite hu (hu.hurdleAppend hhlog hbell hshep d _)

end

theorem State.Frame.ucieSpent {α : Type} {p : Paddock → α} {s t : State} (h : s.Frame p t)
    (hbell : ∀ q b, p { q with bell := b } = p q) (hrecheck : ∀ q x, p { q with shep := { q.shep with recheck := x } } = p q)
    (d : Die) : s.Frame p (t.ucieSpent d) :=
  (h.hurdleTell hbell d _ _).recheckDue hrecheck d

/-- A record that finds room is the last of the shadow. -/
theorem State.hlog_hurdleAppend {s : State} {d : Die} (r : BitVec 64) (h : (s.pad d).aon.hlog.length < 128) :
    ((s.hurdleAppend d r).pad d).aon.hlog = (s.pad d).aon.hlog ++ [r] := by
  have hstore : ((s.hurdleStore d r).pad d).aon.hlog = (s.pad d).aon.hlog ++ [r] := by
    simp only [State.hurdleStore, if_pos h, State.event]
    have hev := fun t : State => (State.Frame.refl (fun q => q.aon.hlog) t).eventFrom (fun _ _ => rfl) (fun _ _ => rfl)
      d 7 d ((s.pad d).aon.hlog.length + 1)
    rw [(hev _).pads d, State.pad_modPad_same]
  have hfile := (State.Frame.refl (fun q => q.aon.hlog) (s.hurdleStore d r)).hurdleTell (fun _ _ => rfl)
    d 0xB03 (agent d 127)
  simp only [State.hurdleAppend, if_pos h]
  exact (hfile.pads d).trans hstore

/-! ### The stages of MODULE_TRAINED (10 R263, R264) -/

/-- The module itself: up at the rate and width reached. -/
def State.comesUp (s : State) (d : Die) (m : ModN) (rate : Rate) (x32 repaired : Bool) : State :=
  let s' := s.modPad d fun q => { q with aon := { q.aon with modAttempts := vset q.aon.modAttempts m 0 } }
  (if ((s.pad d).conf.mod[m]).state == .training then s'.modFresh d m else s').modMod d m fun y =>
    { y with state := .up, fdi := .active, rate := rate, x32 := x32, repaired := repaired }

/-- What Census counts of it, and the lanes that the training repaired. -/
def State.notesUp (s : State) (d : Die) (m : ModN) (again : Bool) (repaired : List (BitVec 11)) : State :=
  let s := if again then s.pcount d 0x1D m.val else s
  if repaired.isEmpty then s else (s.laneRepairs d m repaired).pcount d 0x1C m.val

/-- What is reported of it. -/
def State.reportsUp (s : State) (d : Die) (m : ModN) (low spent : Bool) : State :=
  let s := if low then s.confRep d 0x804 m.val else s
  if spent then s.ucieSpent d else s

/-- What it means for its edge. -/
def State.routesUp (s : State) (d : Die) (e : Edge) : State :=
  if ((s.pad d).conf.edge[edgeNo e]).inUse then s.paceChanged d
  else if s.inRange d && s.edgeOk (s.pad d).repl.present d e then s.wantSwitch d
  else s

theorem State.modUp_eq {s : State} {d : Die} {m : ModN} {e : Edge} {rate : Rate} (x32 : Bool) (repaired : List (BitVec 11))
    (hon : s.ModuleOn d m e)
    (hst : ((s.pad d).conf.mod[m]).state = .training ∨ ((s.pad d).conf.mod[m]).state = .up)
    (hrate : rate.val ≤ ((s.krovol.maxRate[d])[m]).val) :
    s.modUp d m rate x32 repaired =
      (((s.comesUp d m rate x32 !repaired.isEmpty).notesUp d m (((s.pad d).conf.mod[m]).upTick != 0) repaired).reportsUp d m
        (decide (rate.val < ((s.krovol.maxRate[d])[m]).val) || x32) (x32 && !((s.pad d).conf.mod[m]).x32)).routesUp d e := by
  obtain ⟨hrun, hedge⟩ := hon
  have hst' : (((s.pad d).conf.mod[m]).state == .training || ((s.pad d).conf.mod[m]).state == .up) = true := by
    rcases hst with h | h <;> simp [h, -Fin.getElem_fin]
  have hcond : ¬ ((!(s.pad d).running ||
      !(((s.pad d).conf.mod[m]).state == .training || ((s.pad d).conf.mod[m]).state == .up) ||
      decide (((s.krovol.maxRate[d])[m]).val < rate.val)) = true) := by
    simp only [hrun, hst', Bool.not_true, Bool.or_self, Bool.false_or, decide_eq_true_eq]
    exact Nat.not_lt.mpr hrate
  unfold State.modUp
  simp only [hedge]
  refine (if_neg hcond).trans ?_
  rfl

end Sys2Proof.Machine
end

section
/-!
MODULE_TRAINED and MODULE_DOWN stage by stage, and the statement O12 (10 R261 to R265, 12 R329, R337).
-/

namespace Sys2Proof.Machine

/-! ### The module itself -/

/-- A module whose training begins anew: its sequence numbers start again at 0 (10 R267). -/
def ModStat.fresh (x : ModStat) (tick : Nat) : ModStat := { x with seqTx := 0, seqRx := 0, wire := [], upTick := tick }

/-- A module that is up at the rate and width reached. -/
def ModStat.reached (x : ModStat) (rate : Rate) (x32 repaired : Bool) : ModStat :=
  { x with state := .up, fdi := .active, rate := rate, x32 := x32, repaired := repaired }

/-- A paddock whose start-up ends with a module that comes up after the assembly deadline. -/
def Paddock.late (q : Paddock) : Paddock :=
  if q.boot.step == 8 && q.boot.frozen.isSome then
    { q with boot := { q.boot with step := 9 }, repl := { q.repl with lockHash := true } }
  else q

/-- A paddock whose module comes up, `new` where it was down before. -/
def Paddock.comesUp (q : Paddock) (m : ModN) (rate : Rate) (x32 repaired new : Bool) : Paddock :=
  let q' := if new then q.late else q
  { q' with
    aon := { q.aon with modAttempts := vset q.aon.modAttempts m 0 }
    conf := { q.conf with
      mod := vmod q.conf.mod m fun y => (if new then y.fresh q.aon.ticks else y).reached rate x32 repaired } }

theorem Krovol.facingMod_ne {k : Krovol} {d z : Die} {m n : ModN} (h : k.facingMod d m = some (z, n)) : z ≠ d := by
  unfold Krovol.facingMod at h
  split at h
  · cases h
  · split at h
    · cases h
    next x hx =>
      simp only [Option.map_eq_some_iff, Prod.mk.injEq] at h
      obtain ⟨y, -, rfl, -⟩ := h
      exact neighbour_ne hx

theorem vmod_vmod {α : Type} {n : Nat} (v : Vector α n) (i : Fin n) (f g : α → α) :
    vmod (vmod v i f) i g = vmod v i fun x => g (f x) := by
  simp [vmod]

/-- The far end of a fresh module is on another die. -/
theorem State.pad_modFresh (s : State) (d : Die) (m : ModN) :
    (s.modFresh d m).pad d =
      { (s.pad d).late with conf := { (s.pad d).conf with
          mod := vmod (s.pad d).conf.mod m fun y => y.fresh (s.pad d).aon.ticks } } := by
  let s1 := if (s.pad d).boot.step == 8 && (s.pad d).boot.frozen.isSome then s.modPad d fun q => { q with
    boot := { q.boot with step := 9 }, repl := { q.repl with lockHash := true } } else s
  have hlate : s1.pad d = (s.pad d).late := by
    simp only [s1, Paddock.late]
    split
    · exact State.pad_modPad_same _ _ _
    · rfl
  have hconf : (s.pad d).late.conf = (s.pad d).conf := by unfold Paddock.late; split <;> rfl
  have haon : (s.pad d).late.aon = (s.pad d).aon := by unfold Paddock.late; split <;> rfl
  have hnear : ((s1.modMod d m fun y => y.fresh (s1.pad d).aon.ticks).pad d) =
      { (s.pad d).late with conf := { (s.pad d).conf with
          mod := vmod (s.pad d).conf.mod m fun y => y.fresh (s.pad d).aon.ticks } } := by
    rw [State.pad_modMod_same, hlate, hconf, haon]
  refine Eq.trans ?_ hnear
  unfold State.modFresh
  dsimp only
  split
  next z n hz => exact State.pad_modMod_other _ _ _ _ _ (Krovol.facingMod_ne hz).symm
  next => rfl

theorem State.pad_comesUp (s : State) (d : Die) (m : ModN) (rate : Rate) (x32 repaired : Bool) :
    (s.comesUp d m rate x32 repaired).pad d =
      (s.pad d).comesUp m rate x32 repaired (((s.pad d).conf.mod[m]).state == .training) := by
  unfold State.comesUp
  cases hnew : ((s.pad d).conf.mod[m]).state == .training with
  | false =>
    simp only [Bool.false_eq_true, if_false, State.pad_modMod_same, State.pad_modPad_same]
    rfl
  | true =>
    simp only [if_true, State.pad_modMod_same, State.pad_modFresh, State.pad_modPad_same, vmod_vmod]
    simp only [Paddock.comesUp, Paddock.late, if_true]
    split <;> rfl

/-- A module that comes up changes nothing of a paddock but its module, its attempts and the end of its start-up. -/
theorem State.Frame.comesUp {α : Type} {p : Paddock → α} {s t : State} (h : s.Frame p t)
    (hatt : ∀ q x, p { q with aon := { q.aon with modAttempts := x } } = p q)
    (hmod : ∀ q x, p { q with conf := { q.conf with mod := x } } = p q)
    (hlate : ∀ q b r, p { q with boot := { q.boot with step := b }, repl := { q.repl with lockHash := r } } = p q)
    (d : Die) (m : ModN) (rate : Rate) (x32 repaired : Bool) : s.Frame p (t.comesUp d m rate x32 repaired) := by
  have hatts := h.modPad d (fun q => { q with aon := { q.aon with modAttempts := vset q.aon.modAttempts m 0 } })
    fun q => hatt q _
  have hmods : ∀ (u : State) (z : Die) (n : ModN) (f : ModStat → ModStat), s.Frame p u → s.Frame p (u.modMod z n f) :=
    fun u z n f hu => hu.modPad z _ fun q => hmod q _
  refine hmods _ d m _ (.ite ?_ hatts)
  unfold State.modFresh
  dsimp only
  split
  · exact hmods _ _ _ _ (hmods _ _ _ _ (.ite (hatts.modPad d _ fun q => hlate q _ _) hatts))
  · exact hmods _ _ _ _ (.ite (hatts.modPad d _ fun q => hlate q _ _) hatts)

/-! ### What is counted and reported -/

theorem State.Frame.pcount {α : Type} {p : Paddock → α} {s t : State} (h : s.Frame p t)
    (hcensus : ∀ q x, p { q with census := x } = p q) (d : Die) (sel unit : Nat) : s.Frame p (t.pcount d sel unit) :=
  h.modPad d _ fun q => hcensus q _

section
variable {α : Type} {p : Paddock → α} {s t : State} (hbell : ∀ q b, p { q with bell := b } = p q)

theorem State.Frame.notesUp (h : s.Frame p t) (hcensus : ∀ q x, p { q with census := x } = p q) (d : Die) (m : ModN)
    (again : Bool) (repaired : List (BitVec 11))
    (hlanes : ∀ u : State, s.Frame p u → s.Frame p (u.laneRepairs d m repaired)) :
    s.Frame p (t.notesUp d m again repaired) := by
  unfold State.notesUp
  have hagain : s.Frame p (if again = true then t.pcount d 0x1D m.val else t) := .ite (h.pcount hcensus d _ _) h
  exact .ite hagain ((hlanes _ hagain).pcount hcensus d _ _)

include hbell in
theorem State.Frame.reportsUp (h : s.Frame p t)
    (hrecheck : ∀ q x, p { q with shep := { q.shep with recheck := x } } = p q) (d : Die) (m : ModN) (low spent : Bool) :
    s.Frame p (t.reportsUp d m low spent) := by
  unfold State.reportsUp
  have hlow : s.Frame p (if low = true then t.confRep d 0x804 m.val else t) := .ite (h.confRep hbell d _ _) h
  exact .ite (hlow.ucieSpent hbell hrecheck d) hlow

end

@[simp] theorem dieOf_hurdleAgent (d : Die) : dieOf (agent d 127) = d := by
  apply Fin.ext
  simp only [dieOf, agent, BitVec.toNat_ofNat, Fin.ofNat]
  omega

/-- Hurdle's report that a module's lanes are spent (12 R337): its reporter is Hurdle, its subject the Confluence. -/
def State.spentReport (s : State) (d : Die) : Report :=
  { s.segReport d 0xB10 (streamAgent d) 0 with reporter := agent d 127, atype := 0x3E }

theorem State.hurdleTell_stream (s : State) (d : Die) :
    s.hurdleTell d 0xB10 (streamAgent d) = s.modPad d fun q => q.receive (s.spentReport d) :=
  State.file_own (dieOf_streamAgent d) rfl

theorem State.bell_ucieSpent (s : State) (d : Die) :
    ((s.ucieSpent d).pad d).bell = { (s.pad d).bell with inbox := (s.pad d).bell.inbox ++ [s.spentReport d] } := by
  rw [State.ucieSpent, State.hurdleTell_stream]
  have h := (State.Frame.refl (fun q => q.bell) (s.modPad d fun q => q.receive (s.spentReport d))).recheckDue
    (fun _ _ => rfl) d
  rw [h.pads d, State.pad_modPad_same]
  rfl

theorem State.bell_reportsUp (s : State) (d : Die) (m : ModN) (low spent : Bool) :
    ((s.reportsUp d m low spent).pad d).bell = { (s.pad d).bell with
      inbox := (s.pad d).bell.inbox ++ (if low then [s.segReport d 0x804 (streamAgent d) m.val] else [])
        ++ (if spent then [s.spentReport d] else []) } := by
  unfold State.reportsUp
  have hnow : ∀ r, (s.modPad d fun q => q.receive r).spentReport d = s.spentReport d := by
    intro r
    simp only [State.spentReport, State.segReport, State.pad_modPad_same]
    rfl
  cases low <;> cases spent <;>
    simp only [Bool.false_eq_true, if_false, if_true, State.bell_ucieSpent, State.confRep_eq, State.pad_modPad_same,
      List.append_nil, hnow] <;> rfl

/-! ### The edge of a module outside a Range, and in one -/

theorem State.routesUp_outside {s : State} {d : Die} {e : Edge} (huse : ((s.pad d).conf.edge[edgeNo e]).inUse = false)
    (hin : s.inRange d = false) : s.routesUp d e = s := by
  simp only [State.routesUp, huse, hin, Bool.false_and, Bool.false_eq_true, if_false]

/-- What membership and the way to the leader depend on (10 R266). -/
def Paddock.way (q : Paddock) : BitVec 8 × Die × Bool × BitVec 8 :=
  (q.repl.present, q.repl.leader, q.repl.formed, q.conf.unreach)

section
variable {s t : State} {x : Die} (h : (t.pad x).way = (s.pad x).way)
include h

theorem Paddock.way_parts : (t.pad x).repl.present = (s.pad x).repl.present ∧ (t.pad x).repl.leader = (s.pad x).repl.leader ∧
    (t.pad x).repl.formed = (s.pad x).repl.formed ∧ (t.pad x).conf.unreach = (s.pad x).conf.unreach := by
  simpa only [Paddock.way, Prod.mk.injEq] using h

theorem State.inRange_congr : t.inRange x = s.inRange x := by
  obtain ⟨hpresent, -, hformed, -⟩ := Paddock.way_parts h
  simp only [State.inRange, State.member, hpresent, hformed]

theorem State.leadOf_congr : t.leadOf x = s.leadOf x := by
  obtain ⟨hpresent, hleader, -, hunreach⟩ := Paddock.way_parts h
  simp only [State.leadOf, State.inRange_congr h, State.reaches, State.leader, State.member, hpresent, hleader, hunreach] <;> rfl

theorem State.members_congr : t.members x = s.members x := by
  rw [State.members, (Paddock.way_parts h).1, State.members]

end

/-- MODULE_TRAINED up to what it means for the edge. -/
def State.raised (s : State) (d : Die) (m : ModN) (rate : Rate) (x32 : Bool) (repaired : List (BitVec 11)) : State :=
  ((s.comesUp d m rate x32 !repaired.isEmpty).notesUp d m (((s.pad d).conf.mod[m]).upTick != 0) repaired).reportsUp d m
    (decide (rate.val < ((s.krovol.maxRate[d])[m]).val) || x32) (x32 && !((s.pad d).conf.mod[m]).x32)

section
variable {α : Type} {p : Paddock → α} (s : State)
  (hbell : ∀ q b, p { q with bell := b } = p q) (hcensus : ∀ q x, p { q with census := x } = p q)
  (hrecheck : ∀ q x, p { q with shep := { q.shep with recheck := x } } = p q)

include hbell hcensus hrecheck in
/-- What a module that comes up does not touch, its training having repaired no lane. -/
theorem State.frame_raised (hatt : ∀ q x, p { q with aon := { q.aon with modAttempts := x } } = p q)
    (hmod : ∀ q x, p { q with conf := { q.conf with mod := x } } = p q)
    (hlate : ∀ q b r, p { q with boot := { q.boot with step := b }, repl := { q.repl with lockHash := r } } = p q)
    (d : Die) (m : ModN) (rate : Rate) (x32 : Bool) : s.Frame p (s.raised d m rate x32 []) := by
  have hup := (State.Frame.refl p s).comesUp hatt hmod hlate d m rate x32 false
  exact (hup.notesUp hcensus d m _ [] fun _ hu => hu).reportsUp hbell hrecheck d m _ _

end

/-- The parts of a paddock that counts, lane repairs and reports leave as they are. -/
def Paddock.upParts (q : Paddock) : Conf × Boot × Repl × Vector (BitVec 16) 4 := (q.conf, q.boot, q.repl, q.aon.modAttempts)

theorem State.frame_notesUp_reportsUp (s : State) (d : Die) (m : ModN) (again : Bool) (repaired : List (BitVec 11))
    (low spent : Bool) : s.Frame Paddock.upParts ((s.notesUp d m again repaired).reportsUp d m low spent) := by
  have hnotes := (State.Frame.refl Paddock.upParts s).notesUp (fun _ _ => rfl) d m again repaired
    fun _ hu => hu.laneRepairs (fun _ _ _ => rfl) (fun _ _ => rfl) (fun _ _ => rfl) d m repaired
  exact hnotes.reportsUp (fun _ _ => rfl) (fun _ _ => rfl) d m low spent

/-- The parts of its own paddock after a module came up. -/
theorem State.upParts_raised (s : State) (d : Die) (m : ModN) (rate : Rate) (x32 : Bool) (repaired : List (BitVec 11)) :
    ((s.raised d m rate x32 repaired).pad d).upParts =
      ((s.pad d).comesUp m rate x32 (!repaired.isEmpty) (((s.pad d).conf.mod[m]).state == .training)).upParts := by
  rw [← State.pad_comesUp]
  exact (State.frame_notesUp_reportsUp _ d m _ repaired _ _).pads d

theorem State.bell_raised (s : State) (d : Die) (m : ModN) (rate : Rate) (x32 : Bool) :
    ((s.raised d m rate x32 []).pad d).bell = { (s.pad d).bell with
      inbox := (s.pad d).bell.inbox
        ++ (if rate.val < ((s.krovol.maxRate[d])[m]).val ∨ x32 = true then [s.segReport d 0x804 (streamAgent d) m.val] else [])
        ++ (if x32 = true ∧ ((s.pad d).conf.mod[m]).x32 = false then [s.spentReport d] else []) } := by
  let t := (s.comesUp d m rate x32 false).notesUp d m (((s.pad d).conf.mod[m]).upTick != 0) []
  have hframe : s.Frame (fun q => (q.bell, q.aon.tideFx)) t :=
    ((State.Frame.refl _ s).comesUp (fun _ _ => rfl) (fun _ _ => rfl) (fun _ _ _ => rfl) d m rate x32 false).notesUp
      (fun _ _ => rfl) d m _ [] fun _ hu => hu
  obtain ⟨hbell, htide⟩ := Prod.mk.injEq _ _ _ _ ▸ hframe.pads d
  have hrep : ∀ code subject detail, t.segReport d code subject detail = s.segReport d code subject detail := by
    intro code subject detail
    simp only [State.segReport, Paddock.now, htide]
  have hspent : t.spentReport d = s.spentReport d := by simp only [State.spentReport, hrep]
  refine (State.bell_reportsUp t d m _ _).trans ?_
  simp only [hbell, hrep, hspent, Bool.or_eq_true, Bool.and_eq_true, Bool.not_eq_true', decide_eq_true_eq]

/-- The lane that a training repaired enters the log shadow, unless it stands there (12 R329). -/
theorem State.hlog_raised_lane {s : State} {d : Die} (m : ModN) (rate : Rate) (x32 : Bool) (lane : BitVec 11)
    (hroom : (s.pad d).aon.hlog.length < 128) :
    let r := hurdleRec 6 d 7 0 m.val lane.toNat 0 (s.pad d).hours
    ((s.raised d m rate x32 [lane]).pad d).aon.hlog =
      if (s.pad d).aon.hlog.any (sameAct r) then (s.pad d).aon.hlog else (s.pad d).aon.hlog ++ [r] := by
  intro r
  let s1 := s.comesUp d m rate x32 true
  let s2 := if ((s.pad d).conf.mod[m]).upTick != 0 then s1.pcount d 0x1D m.val else s1
  have h2 : s.Frame (fun q => (q.aon.hlog, q.hours)) s2 := by
    have h1 : s.Frame (fun q => (q.aon.hlog, q.hours)) s1 :=
      (State.Frame.refl _ s).comesUp (fun _ _ => rfl) (fun _ _ => rfl) (fun _ _ _ => rfl) d m rate x32 true
    exact .ite (h1.pcount (fun _ _ => rfl) d _ _) h1
  obtain ⟨hlog, hhours⟩ := Prod.mk.injEq _ _ _ _ ▸ h2.pads d
  have hlanes : ((s2.laneRepairs d m [lane]).pad d).aon.hlog =
      if (s.pad d).aon.hlog.any (sameAct r) then (s.pad d).aon.hlog else (s.pad d).aon.hlog ++ [r] := by
    simp only [State.laneRepairs, List.foldl_cons, List.foldl_nil, hlog, hhours]
    split
    · exact hlog
    · rw [State.hlog_hurdleAppend _ (by rw [hlog]; exact hroom), hlog]
  rw [← hlanes]
  have hrest := (((State.Frame.refl (fun q => q.aon.hlog) (s2.laneRepairs d m [lane])).pcount (fun _ _ => rfl) d 0x1C
    m.val).reportsUp (fun _ _ => rfl) (fun _ _ => rfl) d m
    (decide (rate.val < ((s.krovol.maxRate[d])[m]).val) || x32) (x32 && !((s.pad d).conf.mod[m]).x32))
  exact hrest.pads d

end Sys2Proof.Machine
end

section
/-!
Crossing buffers and the statement O14 (10 R260 to R262, R267).
-/

namespace Sys2Proof.Machine

/-! ### Packing and the dam -/

@[simp] theorem EdgeStat.damUpdate_buf (e : EdgeStat) (n : Fin 4) : (e.damUpdate n).buf = e.buf := by
  unfold EdgeStat.damUpdate; dsimp only; split_ifs <;> rfl

@[simp] theorem EdgeStat.damUpdate_acc (e : EdgeStat) (n : Fin 4) : (e.damUpdate n).acc = e.acc := by
  unfold EdgeStat.damUpdate; dsimp only; split_ifs <;> rfl

@[simp] theorem vset_get_same {α : Type} {n : Nat} (v : Vector α n) (i : Fin n) (x : α) : (vset v i x)[i] = x := by
  simp [vset]

/-- The dam rises at 32 ring flits and falls at 16 (10 R262). -/
theorem EdgeStat.damUpdate_dam (e : EdgeStat) (n : Fin 4) :
    (e.damUpdate n).dam[n] = damAfter ((e.buf[n].filter fun c => c.flit.isSome).length) e.dam[n] := by
  unfold EdgeStat.damUpdate damAfter
  dsimp only
  split_ifs with hrise hfall
  · simp [hrise, -Fin.getElem_fin]
  · simp [decide_eq_false hrise, Nat.not_lt.mpr hfall, -Fin.getElem_fin]
  · simp [decide_eq_false hrise, Nat.lt_of_not_le hfall, -Fin.getElem_fin]

/-- The flits that are packed are the oldest two of each network. -/
theorem EdgeStat.pack_slots (e : EdgeStat) (acc sent : Nat) :
    (EdgeStat.pack { e with acc := acc, sent := sent }).1 = e.nextSlots := by
  simp [EdgeStat.pack, EdgeStat.nextSlots, netNo, vset]

theorem EdgeStat.pack_acc (e : EdgeStat) : e.pack.2.acc = e.acc := by
  simp [EdgeStat.pack]

theorem EdgeStat.pack_buf (e : EdgeStat) (n : Fin 4) : e.pack.2.buf[n] = (e.buf[n]).drop 2 := by
  fin_cases n <;> simp [EdgeStat.pack, vset]

/-! ### An edge sends and takes -/

/-- An edge as it sends: one period of its pace is spent, and the oldest flits leave its buffers. -/
def EdgeStat.packed (st : EdgeStat) : EdgeStat := (EdgeStat.pack { st with acc := st.acc - 1024, sent := st.sent + 1 }).2

/-- An edge that takes a slot of a network into its crossing buffer. -/
def EdgeStat.takes (g : EdgeStat) (n : Fin 4) (c : CrossItem) : EdgeStat :=
  EdgeStat.damUpdate { g with buf := vmod g.buf n fun l => l ++ [c] } n

/-- A Confluence flit goes out on a module and reaches the wire of the far end. -/
def State.flitSent (s : State) (d x : Die) (m y : ModN) (e : Edge) : State :=
  let st := (s.pad d).conf.edge[edgeNo e]
  let n := (s.pad d).conf.mod[m].seqTx + 1
  ((((s.modEdgeOf d e fun _ => st.packed).modMod d m fun z => { z with seqTx := n }).modMod x y fun z =>
    { z with wire := z.wire ++ [{ seq := n, ord := st.sent, slots := st.nextSlots }] }).pcount d 0x18 (edgeNo e).val)

theorem State.confSend_eq {s : State} {d x : Die} {m y : ModN} {e : Edge} (hon : s.ModuleOn d m e)
    (hface : s.krovol.facingMod d m = some (x, y)) (hmay : ((s.pad d).conf.edge[edgeNo e]).maySend = true)
    (hup : ((s.pad d).conf.mod[m]).state = .up) (hfar : ((s.pad x).conf.mod[y]).state = .up)
    (hslots : ((s.pad d).conf.edge[edgeNo e]).nextSlots ≠ []) : s.confSend d m = s.flitSent d x m y e := by
  obtain ⟨hrun, hedge⟩ := hon
  have hpack : (EdgeStat.pack { (s.pad d).conf.edge[edgeNo e] with
      acc := ((s.pad d).conf.edge[edgeNo e]).acc - 1024, sent := ((s.pad d).conf.edge[edgeNo e]).sent + 1 }).1 =
      ((s.pad d).conf.edge[edgeNo e]).nextSlots := EdgeStat.pack_slots _ _ _
  simp only [State.confSend, hedge, hface, hrun, hmay, hup, hfar, hpack, List.isEmpty_eq_false_iff.mpr hslots,
    Bool.true_and, beq_self_eq_true, if_true, Bool.false_eq_true, if_false]
  rfl

/-- Settles O14: a send is `State.flitSent`, an accept one change of the paddock. -/
theorem edgesBufferAndSend : Obligations.EdgesBufferAndSend := by
  unfold Obligations.EdgesBufferAndSend
  refine ⟨fun s d x m y e hon hface hmay hup hfar hslots => ?_, fun s d net r outbound e x hrun hopen hslot => ?_⟩
  · have hx : x ≠ d := Krovol.facingMod_ne hface
    refine ⟨_, congrArg Host.Outcome.next (State.confSend_eq hon hface hmay hup hfar hslots), rfl, rfl, rfl, ?_⟩
    have hnear : (s.flitSent d x m y e).pad d = { s.pad d with
        conf := { (s.pad d).conf with
          edge := vmod (s.pad d).conf.edge (edgeNo e) fun _ => ((s.pad d).conf.edge[edgeNo e]).packed
          mod := vmod (s.pad d).conf.mod m fun z => { z with seqTx := (s.pad d).conf.mod[m].seqTx + 1 } }
        census := padCount 0x18 (edgeNo e).val 16 (s.pad d).census } := by
      simp [State.flitSent, hx.symm, -Fin.getElem_fin]
    refine ⟨?_, ?_, ?_, fun n => ?_, fun f hf => ?_, ?_, ?_⟩
    · simp [State.flitSent, hx, -Fin.getElem_fin]
    · rw [hnear]; exact congrArg ModStat.seqTx (vmod_get_same _ _ _)
    · rw [hnear]; exact (congrArg EdgeStat.acc (vmod_get_same _ _ _)).trans (EdgeStat.pack_acc _)
    · rw [hnear]; exact (congrArg (fun g : EdgeStat => g.buf[n]) (vmod_get_same _ _ _)).trans (EdgeStat.pack_buf _ n)
    · rw [hnear]; exact vmod_get_other _ _ _ _ hf
    · rw [hnear]
    · rw [hnear]
  · have hst : s.edgeAccept d net r outbound = s.modPad d fun q => { q with
        stream := { q.stream with slots := q.stream.slots.erase x }
        conf := { q.conf with edge := vmod q.conf.edge (edgeNo e) fun g =>
                                     g.takes (netNo net) ⟨r, !outbound, x.flit, x.resv⟩ } } := by
      simp only [State.edgeAccept, hopen, hslot, hrun, if_true, EdgeStat.takes]
    refine ⟨_, congrArg Host.Outcome.next hst, State.onlyPad_modPad s d _, ?_⟩
    simp only [State.pad_modPad_same, vmod_get_same, EdgeStat.takes, EdgeStat.damUpdate_buf, EdgeStat.damUpdate_dam, true_and, and_true]
    exact ⟨fun n hn => vmod_get_other _ _ _ _ hn, fun f hf => vmod_get_other _ _ _ _ hf⟩

end Sys2Proof.Machine
end

section
/-!
Paces and lost edges, and the statement O12 (10 R261, R264, R265, 11 R302).
-/

namespace Sys2Proof.Machine

/-! ### Chain paces (10 R261) -/

/-- What the chain paces are computed from. -/
def Paddock.paceView (q : Paddock) : Vector ModStat 4 × Vector Bool 3 × Ebb × List Deferred × (BitVec 8 × Die × Bool × BitVec 8) :=
  (q.conf.mod, q.conf.edge.map EdgeStat.inUse, q.ebb, q.shep.deferred, q.way)

section
variable {s t : State} (hk : t.krovol = s.krovol) (hview : ∀ x, (t.pad x).paceView = (s.pad x).paceView)

include hview in
theorem State.paceView_parts (x : Die) : (t.pad x).conf.mod = (s.pad x).conf.mod ∧
    (∀ e : Fin 3, ((t.pad x).conf.edge[e]).inUse = ((s.pad x).conf.edge[e]).inUse) ∧
    (t.pad x).ebb = (s.pad x).ebb ∧ (t.pad x).shep.deferred = (s.pad x).shep.deferred ∧ (t.pad x).way = (s.pad x).way := by
  have h := hview x
  simp only [Paddock.paceView, Prod.mk.injEq] at h
  obtain ⟨hmod, huse, hrest⟩ := h
  refine ⟨hmod, fun e => ?_, hrest⟩
  exact ((Vector.getElem_map ..).symm.trans (congrArg (fun v => v[e]) huse)).trans (Vector.getElem_map ..)

include hk hview in
theorem State.chainPace_congr (o : BitVec 24) (mhz : Nat) (d : Die) (e : Edge) : t.chainPace o mhz d e = s.chainPace o mhz d e := by
  have hpace : ∀ x f, t.edgePace mhz x f = s.edgePace mhz x f := by
    intro x f
    simp only [State.edgePace, hk, (State.paceView_parts hview x).1]
  simp only [State.chainPace, hpace]

include hview in
theorem State.edgesInUse_congr : t.edgesInUse = s.edgesInUse := by
  simp only [State.edgesInUse, (State.paceView_parts hview _).2.1]

include hview in
theorem State.mhz_congr (d : Die) : t.mhz d = s.mhz d := by
  have hway := fun x => (State.paceView_parts hview x).2.2.2.2
  simp only [State.mhz, State.leadOf_congr (hway d), State.members_congr (hway _), (State.paceView_parts hview _).2.2.1,
    (State.paceView_parts hview _).2.2.2.1]

end

/-- The paces that a paddock's edges take. -/
def Conf.paced (c : Conf) (pace : Edge → Nat) : Conf :=
  { c with edge := edges.foldl (fun v e => vmod v (edgeNo e) fun x => { x with pace := pace e }) c.edge }

theorem Conf.paced_edge (c : Conf) (pace : Edge → Nat) (f : Edge) :
    (c.paced pace).edge[edgeNo f] = { c.edge[edgeNo f] with pace := pace f } := by
  cases f <;> simp [Conf.paced, edges, edgeNo, vmod]

theorem Conf.paced_inUse (c : Conf) (pace : Edge → Nat) : (c.paced pace).edge.map EdgeStat.inUse = c.edge.map EdgeStat.inUse := by
  ext i hi
  obtain rfl | rfl | rfl : i = 0 ∨ i = 1 ∨ i = 2 := by omega
  all_goals simp [Conf.paced, edges, edgeNo, vmod]

theorem State.pad_writePaces (s : State) {ds : List Die} (hds : ds.Nodup) (mhz : Nat) (y : Die) :
    (s.writePaces ds mhz).pad y =
      if y ∈ ds then { s.pad y with conf := (s.pad y).conf.paced (s.chainPace s.edgesInUse mhz y) } else s.pad y :=
  State.pad_foldl_modPad (fun d q => { q with conf := q.conf.paced (s.chainPace s.edgesInUse mhz d) }) ds hds s y

/-- After a change of a module each member's edges have the paces of the chains as they then are, and the recheck of the
envelopes is due. -/
theorem State.paceChanged_spec {u : State} {d l : Die} (hl : u.leadOf d = some l) (hin : u.inRange d = true) :
    ((u.paceChanged d).pad l).shep.recheck.isSome = true ∧ ∀ y ∈ u.members d, ∀ f : Edge,
      (((u.paceChanged d).pad y).conf.edge[edgeNo f]).pace =
        (u.paceChanged d).chainPace (u.paceChanged d).edgesInUse ((u.paceChanged d).mhz d) y f := by
  let v := u.writePaces (u.members d) (u.mhz d)
  let t := v.recheckDue d
  have ht : u.paceChanged d = t := by simp only [State.paceChanged, hin, if_true, t, v]
  have hpad : ∀ y, v.pad y = if y ∈ u.members d then
      { u.pad y with conf := (u.pad y).conf.paced (u.chainPace u.edgesInUse (u.mhz d) y) } else u.pad y :=
    State.pad_writePaces u (nodup_diesOf _) (u.mhz d)
  have hv : ∀ x, (v.pad x).paceView = (u.pad x).paceView := by
    intro x
    refine (congrArg Paddock.paceView (hpad x)).trans ?_
    split
    · simp only [Paddock.paceView, Conf.paced_inUse] <;> rfl
    · rfl
  have hframe : v.Frame (fun q => (q.conf, q.paceView)) t :=
    (State.Frame.refl _ v).recheckDue (fun _ _ => rfl) d
  have hconf : ∀ x, (t.pad x).conf = (v.pad x).conf := fun x => congrArg Prod.fst (hframe.pads x)
  have hview : ∀ x, (t.pad x).paceView = (u.pad x).paceView := fun x => (congrArg Prod.snd (hframe.pads x)).trans (hv x)
  have hk : t.krovol = u.krovol := (State.writePaces_keeps (Keeps.refl u) _ _ |> (State.recheckDue_keeps · d)).krovol
  rw [ht]
  refine ⟨?_, fun y hy f => ?_⟩
  · have hlead : v.leadOf d = some l := (State.leadOf_congr (State.paceView_parts hv d).2.2.2.2).trans hl
    simp only [t, State.recheckDue, hlead, State.pad_modPad_same]
    split <;> rfl
  · rw [hconf, State.edgesInUse_congr hview, State.mhz_congr hview, State.chainPace_congr hk hview]
    rw [hpad, if_pos hy]
    exact congrArg EdgeStat.pace (Conf.paced_edge _ _ f)

/-! ### The last module of an edge in use goes down (10 R265) -/

/-- An edge whose last module went down. -/
def EdgeStat.cutOff (x : EdgeStat) : EdgeStat :=
  { x with inUse := false, pace := 0, acc := 0, lost := true, buf := Vector.replicate 4 [], dam := Vector.replicate 4 false }

@[simp] theorem Stream.turned_setTurn (q : Stream) (e : Edge) (b : Bool) : (q.setTurn e b).turned e = b := by
  cases e <;> rfl

/-- What the loss of an edge leaves of a paddock, once the edge is marked. -/
def Paddock.routeView (q : Paddock) (e : Edge) : Vector ModStat 4 × Vector EdgeStat 3 × Bool ×
    Vector Fold 5 × Vector AgentPort 4 × Vector AgentPort 24 :=
  (q.conf.mod, q.conf.edge, q.stream.turned e, q.folds, q.gates, q.stiles)

theorem State.Frame.findUnreach_routeView {s t : State} {e : Edge} (h : s.Frame (Paddock.routeView · e) t) (d : Die) :
    s.Frame (Paddock.routeView · e) (t.findUnreach d) :=
  h.findUnreach (fun _ _ => rfl) (fun q x y z => by cases e <;> rfl) (fun _ _ => rfl) d

theorem State.InboxesKept.findUnreach {s t : State} (h : s.InboxesKept t) (d : Die) : s.InboxesKept (t.findUnreach d) := by
  have hkeep : ∀ u : State, u.InboxesKept (u.loseCutOff d) := by
    intro u
    unfold State.loseCutOff
    dsimp only
    split
    · exact .refl u
    · exact (State.InboxesKept.refl u).modPad d _ fun _ => List.Subset.refl _
  refine State.InboxesKept.trans ?_ (hkeep _)
  refine State.InboxesKept.foldl ?_ _ _ fun u x => (State.InboxesKept.refl u).file d _
  exact h.modPad d _ fun _ => List.Subset.refl _

theorem State.InboxesKept.wantSwitch {s t : State} (h : s.InboxesKept t) (d : Die) : s.InboxesKept (t.wantSwitch d) := by
  unfold State.wantSwitch
  split
  · exact h.modPad _ _ fun _ => List.Subset.refl _
  · exact h

/-- The edge is cut off, 0x803 filed. -/
theorem State.edgeLost_spec (s : State) (d : Die) (e : Edge) :
    ((s.edgeLost d e).pad d).routeView e = ((s.pad d).conf.mod, vmod (s.pad d).conf.edge (edgeNo e) EdgeStat.cutOff, true,
      (s.pad d).folds, (s.pad d).gates, (s.pad d).stiles) ∧
    s.segReport d 0x803 (streamAgent d) (edgeNo e).val ∈ ((s.edgeLost d e).pad d).bell.inbox := by
  let s1 := ((s.modStream d fun q => q.setTurn e true).modEdgeOf d e EdgeStat.cutOff).confRep d 0x803 (edgeNo e).val
  have h1 : s1.pad d = ((s.pad d).receive (s.segReport d 0x803 (streamAgent d) (edgeNo e).val) |> fun q => { q with
      stream := q.stream.setTurn e true, conf := { q.conf with edge := vmod q.conf.edge (edgeNo e) EdgeStat.cutOff } }) := by
    simp only [s1, State.confRep_eq, State.pad_modPad_same, State.pad_modEdgeOf_same, State.pad_modStream_same,
      State.segReport] <;> rfl
  have hframe : s1.Frame (Paddock.routeView · e) (s.edgeLost d e) :=
    State.Frame.wantSwitch ((State.Frame.refl _ s1).foldl _ _ fun _ x hu => hu.findUnreach_routeView x) (fun _ _ => rfl) d
  have hinbox : s1.InboxesKept (s.edgeLost d e) :=
    ((State.InboxesKept.refl s1).foldl _ _ fun u x => (State.InboxesKept.refl u).findUnreach x).wantSwitch d
  refine ⟨?_, hinbox d ?_⟩
  · rw [hframe.pads d, h1]
    simp only [Paddock.routeView, Stream.turned_setTurn] <;> rfl
  · rw [h1]
    exact List.mem_append_right _ (List.mem_singleton.mpr rfl)

/-- A module that goes down trains again; what was on its wire is lost. -/
def ModStat.down (y : ModStat) : ModStat := { y with state := .training, fdi := .retrain, wire := [] }

theorem State.modDown_eq {s : State} {d : Die} {m : ModN} {e : Edge} (hon : s.ModuleOn d m e)
    (hup : ((s.pad d).conf.mod[m]).state = .up) :
    s.modDown d m =
      let s' := s.modMod d m ModStat.down
      if ((s.pad d).conf.edge[edgeNo e]).inUse then if s'.edgeUp d e then s'.paceChanged d else s'.edgeLost d e else s' := by
  obtain ⟨-, hedge⟩ := hon
  simp only [State.modDown, hedge, hup, bne_self_eq_false, Bool.false_eq_true, if_false, State.pad_modMod_same] <;> rfl

/-- An edge none of whose other modules is up is down with its last one. -/
theorem State.edgeUp_down {s : State} {d : Die} {m : ModN} {e : Edge}
    (hrest : ∀ n ∈ s.krovol.modsOn d e, n ≠ m → ((s.pad d).conf.mod[n]).state ≠ .up) :
    (s.modMod d m ModStat.down).edgeUp d e = false := by
  simp only [State.edgeUp, State.modMod_krovol, List.any_eq_false, State.pad_modMod_same, beq_iff_eq]
  intro n hn
  by_cases hnm : n = m
  · subst hnm; rw [vmod_get_same]; exact fun h => by cases h
  · rw [vmod_get_other _ _ _ _ hnm]; exact hrest n hn hnm

/-! ### The three parts of O12 -/

/-- The module, the attempts and the start-up of its own paddock after a module came up. -/
theorem State.raised_own (s : State) (d : Die) (m : ModN) (rate : Rate) (x32 : Bool) (repaired : List (BitVec 11)) :
    let t := s.raised d m rate x32 repaired
    let new := ((s.pad d).conf.mod[m]).state == .training
    let q := if new then (s.pad d).late else s.pad d
    (t.pad d).conf = { (s.pad d).conf with mod := vmod (s.pad d).conf.mod m fun y =>
        (if new then y.fresh (s.pad d).aon.ticks else y).reached rate x32 !repaired.isEmpty } ∧
      (t.pad d).boot = q.boot ∧ (t.pad d).repl = q.repl ∧ (t.pad d).aon.modAttempts = vset (s.pad d).aon.modAttempts m 0 := by
  intro t new q
  have h := State.upParts_raised s d m rate x32 repaired
  simp only [Paddock.upParts, Prod.mk.injEq] at h
  obtain ⟨hconf, hboot, hrepl, hatt⟩ := h
  exact ⟨hconf, hboot, hrepl, hatt⟩

@[simp] theorem Paddock.way_late (q : Paddock) : q.late.way = q.way := by
  unfold Paddock.late; split <;> rfl

theorem State.way_raised (s : State) (d : Die) (m : ModN) (rate : Rate) (x32 : Bool) (repaired : List (BitVec 11)) :
    ((s.raised d m rate x32 repaired).pad d).way = (s.pad d).way := by
  obtain ⟨hconf, -, hrepl, -⟩ := State.raised_own s d m rate x32 repaired
  have hlate : (if ((s.pad d).conf.mod[m]).state == .training then (s.pad d).late else s.pad d).way = (s.pad d).way := by
    split
    · exact Paddock.way_late _
    · rfl
  simp only [Paddock.way, Prod.mk.injEq] at hlate ⊢
  rw [hrepl, hconf]
  exact ⟨hlate.1, hlate.2.1, hlate.2.2.1, rfl⟩

/-- A module that comes up outside a Range. -/
theorem State.modUp_outside {s : State} {d : Die} {m : ModN} {e : Edge} {rate : Rate} (x32 : Bool) (repaired : List (BitVec 11))
    (hon : s.ModuleOn d m e) (hst : ((s.pad d).conf.mod[m]).state = .training)
    (hrate : rate.val ≤ ((s.krovol.maxRate[d])[m]).val) (huse : ((s.pad d).conf.edge[edgeNo e]).inUse = false)
    (hin : s.inRange d = false) : s.modUp d m rate x32 repaired = s.raised d m rate x32 repaired := by
  refine (State.modUp_eq x32 repaired hon (.inl hst) hrate).trans (State.routesUp_outside ?_ ?_)
  · exact (congrArg (fun c : Conf => (c.edge[edgeNo e]).inUse) (State.raised_own s d m rate x32 repaired).1).trans huse
  · exact (State.inRange_congr (State.way_raised s d m rate x32 repaired)).trans hin

theorem State.tether_raised (s : State) (d : Die) (m : ModN) (rate : Rate) (x32 : Bool) (repaired : List (BitVec 11)) :
    (s.raised d m rate x32 repaired).tether = s.tether := by
  have hup := (State.Frame.refl (fun _ => ()) s).comesUp (fun _ _ => rfl) (fun _ _ => rfl) (fun _ _ _ => rfl) d m rate x32
    !repaired.isEmpty
  refine ((hup.notesUp (fun _ _ => rfl) d m _ repaired fun _ hu => ?_).reportsUp (fun _ _ => rfl) (fun _ _ => rfl) d m _ _).tether
  exact hu.laneRepairs (fun _ _ _ => rfl) (fun _ _ => rfl) (fun _ _ => rfl) d m repaired

/-- MODULE_TRAINED during start-up (10 R263, R264, 12 R329, R337). -/
theorem State.modUp_outside_spec {s : State} {d : Die} {m : ModN} {e : Edge} {rate : Rate} (x32 : Bool)
    (repaired : List (BitVec 11)) (hon : s.ModuleOn d m e) (hst : ((s.pad d).conf.mod[m]).state = .training)
    (hrate : rate.val ≤ ((s.krovol.maxRate[d])[m]).val) (huse : ((s.pad d).conf.edge[edgeNo e]).inUse = false)
    (hin : s.inRange d = false) :
    ∃ t, exec (.moduleTrained d m rate x32 repaired) s = .next t ∧
      t.krovol = s.krovol ∧ t.tether = s.tether ∧ t.pending = s.pending ∧
      (t.pad d).conf.mod[m] = { (s.pad d).conf.mod[m] with
        state := .up, fdi := .active, rate := rate, x32 := x32, repaired := !repaired.isEmpty, upTick := (s.pad d).aon.ticks
        seqTx := 0, seqRx := 0, wire := [] } ∧
      (∀ n, n ≠ m → (t.pad d).conf.mod[n] = (s.pad d).conf.mod[n]) ∧
      (t.pad d).aon.modAttempts[m] = 0 ∧
      ((s.pad d).boot.step = 8 → (s.pad d).boot.frozen.isSome = true →
        (t.pad d).boot.step = 9 ∧ (t.pad d).repl.lockHash = true) ∧
      (repaired = [] → (t.pad d).bell = { (s.pad d).bell with
        inbox := (s.pad d).bell.inbox
          ++ (if rate.val < ((s.krovol.maxRate[d])[m]).val ∨ x32 = true then [s.segReport d 0x804 (streamAgent d) m.val] else [])
          ++ (if x32 = true ∧ ((s.pad d).conf.mod[m]).x32 = false then [s.spentReport d] else []) }) ∧
      ∀ lane, repaired = [lane] → (s.pad d).aon.hlog.length < 128 →
        let r := hurdleRec 6 d 7 0 m.val lane.toNat 0 (s.pad d).hours
        (t.pad d).aon.hlog = if (s.pad d).aon.hlog.any (sameAct r) then (s.pad d).aon.hlog else (s.pad d).aon.hlog ++ [r] := by
  have hop := State.modUp_outside x32 repaired hon hst hrate huse hin
  obtain ⟨hconf, hboot, hrepl, hatt⟩ := State.raised_own s d m rate x32 repaired
  obtain ⟨u, hu, hk, hp, -⟩ := commandsKeepParametersQueueAndTime (.moduleTrained d m rate x32 repaired) s
  obtain rfl := Host.Outcome.next.inj (hu.symm.trans (congrArg Host.Outcome.next hop))
  refine ⟨_, hu, hk, State.tether_raised s d m rate x32 repaired, hp, ?_, fun n hn => ?_, ?_, fun hstep hfrozen => ?_,
    ?_, ?_⟩
  · rw [hconf]
    simp only [hst, beq_self_eq_true, if_true, vmod_get_same] <;> rfl
  · rw [hconf]; exact vmod_get_other _ _ _ _ hn
  · rw [hatt]; exact vset_get_same _ _ _
  · rw [hboot, hrepl]
    simp only [hst, beq_self_eq_true, if_true, Paddock.late, hstep, hfrozen, Bool.and_self, and_self]
  · rintro rfl
    exact State.bell_raised s d m rate x32
  · rintro lane rfl hroom
    exact State.hlog_raised_lane m rate x32 lane hroom

theorem State.edgeOk_congr {s t : State} (hk : t.krovol = s.krovol) (hconf : ∀ x, (t.pad x).conf = (s.pad x).conf)
    (pop : BitVec 8) (d : Die) (e : Edge) : t.edgeOk pop d e = s.edgeOk pop d e := by
  simp only [State.edgeOk, State.edgeUp, hk, hconf]

theorem State.needSwitch_wantSwitch {s : State} {d l : Die} (hl : s.leadOf d = some l) :
    ((s.wantSwitch d).pad l).shep.needSwitch = true := by
  simp only [State.wantSwitch, hl, State.pad_modShep_same]

theorem State.inRange_of_leadOf {s : State} {d l : Die} (hl : s.leadOf d = some l) : s.inRange d = true := by
  by_contra hin
  simp [State.leadOf, hin] at hl

/-- What MODULE_TRAINED in a Range means for the edge of the module (10 R264, R265). -/
theorem State.routesUp_spec {u : State} {d l : Die} {e : Edge} (hl : u.leadOf d = some l) :
    (((u.pad d).conf.edge[edgeNo e]).inUse = true →
      ((u.routesUp d e).pad l).shep.recheck.isSome = true ∧
      ((u.routesUp d e).pad l).shep.needSwitch = (u.pad l).shep.needSwitch ∧
      ∀ y ∈ u.members d, ∀ f : Edge, (((u.routesUp d e).pad y).conf.edge[edgeNo f]).pace =
        (u.routesUp d e).chainPace (u.routesUp d e).edgesInUse ((u.routesUp d e).mhz d) y f) ∧
    (((u.pad d).conf.edge[edgeNo e]).inUse = false →
      (∀ y, ((u.routesUp d e).pad y).conf.edge = (u.pad y).conf.edge) ∧
      ((u.routesUp d e).pad l).shep.needSwitch =
        ((u.routesUp d e).edgeOk (u.pad d).repl.present d e || (u.pad l).shep.needSwitch)) := by
  have hin := State.inRange_of_leadOf hl
  refine ⟨fun huse => ?_, fun huse => ?_⟩
  · have hroute : u.routesUp d e = u.paceChanged d := by simp only [State.routesUp, huse, if_true]
    rw [hroute]
    obtain ⟨hdue, hpace⟩ := State.paceChanged_spec hl hin
    refine ⟨hdue, ?_, hpace⟩
    unfold State.paceChanged
    rw [if_pos hin]
    exact (((State.Frame.refl (fun q => q.shep.needSwitch) u).writePaces (fun _ _ => rfl) _ _).recheckDue (fun _ _ => rfl)
      d).pads l
  · have hroute : u.routesUp d e = if u.edgeOk (u.pad d).repl.present d e then u.wantSwitch d else u := by
      simp only [State.routesUp, huse, hin, Bool.true_and, Bool.false_eq_true, if_false]
    have hconf : ∀ x, ((u.wantSwitch d).pad x).conf = (u.pad x).conf :=
      ((State.Frame.refl (fun q => q.conf) u).wantSwitch (fun _ _ => rfl) d).pads
    rw [hroute]
    cases hok : u.edgeOk (u.pad d).repl.present d e with
    | false =>
      simp only [Bool.false_eq_true, if_false, hok, Bool.false_or, implies_true, and_self]
    | true =>
      have hok' := (State.edgeOk_congr (State.wantSwitch_keeps (.refl u) d).krovol hconf _ d e).trans hok
      simp only [if_true, hconf, hok', State.needSwitch_wantSwitch hl, Bool.true_or, implies_true, and_self]

/-- The module, its attempts and the inbox stand while the edge's routes follow. -/
theorem State.frame_routesUp (u : State) (d : Die) (e : Edge) :
    u.Frame (fun q => (q.conf.mod, q.aon.modAttempts, q.bell)) (u.routesUp d e) := by
  have hu := State.Frame.refl (fun q => (q.conf.mod, q.aon.modAttempts, q.bell)) u
  unfold State.routesUp State.paceChanged
  refine .ite (.ite ?_ hu) (.ite (hu.wantSwitch (fun _ _ => rfl) d) hu)
  exact (hu.writePaces (fun _ _ => rfl) _ _).recheckDue (fun _ _ => rfl) d

/-- MODULE_TRAINED in a Range (10 R261, R264, R265). -/
theorem State.modUp_inside_spec {s : State} {d l : Die} {m : ModN} {e : Edge} {rate : Rate} (x32 : Bool)
    (hon : s.ModuleOn d m e) (hl : s.leadOf d = some l)
    (hst : ((s.pad d).conf.mod[m]).state = .training ∨ ((s.pad d).conf.mod[m]).state = .up)
    (hrate : rate.val ≤ ((s.krovol.maxRate[d])[m]).val) :
    ∃ t, exec (.moduleTrained d m rate x32 []) s = .next t ∧ t.krovol = s.krovol ∧ t.tether = s.tether ∧ t.pending = s.pending ∧
      ((t.pad d).conf.mod[m]).state = .up ∧ ((t.pad d).conf.mod[m]).rate = rate ∧ ((t.pad d).conf.mod[m]).x32 = x32 ∧
      (t.pad d).aon.modAttempts[m] = 0 ∧
      (rate.val < ((s.krovol.maxRate[d])[m]).val ∨ x32 = true →
        s.segReport d 0x804 (streamAgent d) m.val ∈ (t.pad d).bell.inbox) ∧
      (((s.pad d).conf.edge[edgeNo e]).inUse = true →
        (t.pad l).shep.recheck.isSome = true ∧ (t.pad l).shep.needSwitch = (s.pad l).shep.needSwitch ∧
        ∀ y ∈ s.members d, ∀ f : Edge,
          ((t.pad y).conf.edge[edgeNo f]).pace = t.chainPace t.edgesInUse (t.mhz d) y f) ∧
      (((s.pad d).conf.edge[edgeNo e]).inUse = false →
        (∀ y, (t.pad y).conf.edge = (s.pad y).conf.edge) ∧
        (t.pad l).shep.needSwitch = (t.edgeOk (s.pad d).repl.present d e || (s.pad l).shep.needSwitch)) := by
  have hop := State.modUp_eq x32 [] hon hst hrate
  obtain ⟨t, ht, hk, hp, -⟩ := commandsKeepParametersQueueAndTime (.moduleTrained d m rate x32 []) s
  obtain rfl := Host.Outcome.next.inj (ht.symm.trans (congrArg Host.Outcome.next hop))
  let u := s.raised d m rate x32 []
  change exec _ s = .next (u.routesUp d e) at ht
  obtain ⟨hconf, -, -, hatt⟩ := State.raised_own s d m rate x32 []
  have hview := (State.frame_routesUp u d e)
  have hviewd := hview.pads d
  simp only [Prod.mk.injEq] at hviewd
  obtain ⟨hmod, hatt', hbell⟩ := hviewd
  have hway := State.way_raised s d m rate x32 []
  have hframe : s.Frame (fun q => (q.shep.needSwitch, q.conf.edge)) u :=
    State.frame_raised s (fun _ _ => rfl) (fun _ _ => rfl) (fun _ _ => rfl) (fun _ _ => rfl) (fun _ _ => rfl)
      (fun _ _ _ => rfl) d m rate x32
  have hneed : (u.pad l).shep.needSwitch = (s.pad l).shep.needSwitch := congrArg Prod.fst (hframe.pads l)
  have hedge : ∀ y, (u.pad y).conf.edge = (s.pad y).conf.edge := fun y => congrArg Prod.snd (hframe.pads y)
  obtain ⟨hopen, hshut⟩ := State.routesUp_spec (u := u) (e := e) ((State.leadOf_congr hway).trans hl)
  rw [State.members_congr hway, hneed, hedge] at hopen
  have hpresent : (u.pad d).repl.present = (s.pad d).repl.present := (Paddock.way_parts hway).1
  simp only [hneed, hedge, hpresent] at hshut
  have hup : (u.pad d).conf.mod[m] = (if ((s.pad d).conf.mod[m]).state == .training then
      ((s.pad d).conf.mod[m]).fresh (s.pad d).aon.ticks else (s.pad d).conf.mod[m]).reached rate x32 false :=
    (congrArg (fun c : Conf => c.mod[m]) hconf).trans (vmod_get_same _ _ _)
  refine ⟨_, ht, hk, hview.tether.trans (State.tether_raised s d m rate x32 []), hp, ?_, ?_, ?_, ?_, fun hlow => ?_,
    hopen, hshut⟩
  · rw [hmod, hup]; rfl
  · rw [hmod, hup]; rfl
  · rw [hmod, hup]; rfl
  · rw [hatt']; exact (congrArg (·[m]) hatt).trans (vset_get_same _ _ _)
  · rw [hbell, State.bell_raised, if_pos hlow]
    exact List.mem_append_left _ (List.mem_append_right _ (List.mem_singleton.mpr rfl))

/-- MODULE_DOWN of the last module of an edge in use (10 R264, R265). -/
theorem State.modDown_last_spec {s : State} {d : Die} {m : ModN} {e : Edge} (hon : s.ModuleOn d m e)
    (hup : ((s.pad d).conf.mod[m]).state = .up) (huse : ((s.pad d).conf.edge[edgeNo e]).inUse = true)
    (hrest : ∀ n ∈ s.krovol.modsOn d e, n ≠ m → ((s.pad d).conf.mod[n]).state ≠ .up) :
    ∃ t, exec (.moduleDown d m) s = .next t ∧ t.krovol = s.krovol ∧ t.pending = s.pending ∧
      ((t.pad d).conf.mod[m]).state = .training ∧ ((t.pad d).conf.mod[m]).wire = [] ∧
      ((t.pad d).conf.edge[edgeNo e]).inUse = false ∧ ((t.pad d).conf.edge[edgeNo e]).lost = true ∧
      ((t.pad d).conf.edge[edgeNo e]).pace = 0 ∧
      (∀ n : Fin 4, ((t.pad d).conf.edge[edgeNo e]).buf[n] = []) ∧
      (t.pad d).stream.turned e = true ∧
      s.segReport d 0x803 (streamAgent d) (edgeNo e).val ∈ (t.pad d).bell.inbox ∧
      (t.pad d).folds = (s.pad d).folds ∧ (t.pad d).gates = (s.pad d).gates ∧ (t.pad d).stiles = (s.pad d).stiles := by
  let s' := s.modMod d m ModStat.down
  have hop : s.modDown d m = s'.edgeLost d e := by
    rw [State.modDown_eq hon hup]
    simp only [huse, State.edgeUp_down hrest, if_true, Bool.false_eq_true, if_false, s']
  obtain ⟨t, ht, hk, hp, -⟩ := commandsKeepParametersQueueAndTime (.moduleDown d m) s
  obtain rfl := Host.Outcome.next.inj (ht.symm.trans (congrArg Host.Outcome.next hop))
  obtain ⟨hview, hfiled⟩ := State.edgeLost_spec s' d e
  have hs' : s'.pad d = { s.pad d with conf := { (s.pad d).conf with mod := vmod (s.pad d).conf.mod m ModStat.down } } :=
    State.pad_modMod_same _ _ _ _
  simp only [Paddock.routeView, Prod.mk.injEq, hs'] at hview
  obtain ⟨hmod, hedge, hturn, hfolds, hgates, hstiles⟩ := hview
  have hcut := (congrArg (fun v => v[edgeNo e]) hedge).trans (vmod_get_same _ _ _)
  have hdown := (congrArg (fun v => v[m]) hmod).trans (vmod_get_same _ _ _)
  rw [State.segReport_modMod] at hfiled
  refine ⟨_, ht, hk, hp, ?_, ?_, ?_, ?_, ?_, fun n => ?_, hturn, hfiled, hfolds, hgates, hstiles⟩
  · exact congrArg ModStat.state hdown
  · exact congrArg ModStat.wire hdown
  · exact congrArg EdgeStat.inUse hcut
  · exact congrArg EdgeStat.lost hcut
  · exact congrArg EdgeStat.pace hcut
  · exact (congrArg (fun x : EdgeStat => x.buf[n]) hcut).trans (by simp [EdgeStat.cutOff])

/-- Settles O12: a module's failure, its coming up in and out of a Range, and its loss, each from its own rule. -/
theorem modulesTrainFailAndGoDown : Obligations.ModulesTrainFailAndGoDown := by
  unfold Obligations.ModulesTrainFailAndGoDown
  refine ⟨fun s d m e hon => ⟨fun hst => ?_, fun hst => ?_, fun rate x32 repaired hst hrate huse hin =>
      State.modUp_outside_spec x32 repaired hon hst hrate huse hin⟩,
    fun s d l m e rate x32 hon hl hst hrate => State.modUp_inside_spec x32 hon hl hst hrate,
    fun s d m e hon hup => ⟨fun huse => ?_, State.modDown_last_spec hon hup⟩⟩
  · exact congrArg Host.Outcome.next (State.trainFailed_eq hon.1 hst)
  · exact congrArg Host.Outcome.next (State.trainAgain_eq hon.1 hst)
  · refine congrArg Host.Outcome.next ((State.modDown_eq hon hup).trans ?_)
    simp only [huse, Bool.false_eq_true, if_false]
    rfl

end Sys2Proof.Machine
end

section
/-!
Pen arbitration and the statement O20 (03 R75 to R77, 05 R135).
-/

namespace Sys2Proof.Machine

theorem rankLt_iff (a b : Nat × Nat × Nat) :
    rankLt a b = true ↔ a.1 < b.1 ∨ a.1 = b.1 ∧ (a.2.1 < b.2.1 ∨ a.2.1 = b.2.1 ∧ a.2.2 < b.2.2) := by
  simp [rankLt]

/-- No item of `rest` that is eligible after `earlier` ranks below `r`. -/
def FC.Lowest (c : FC) (earlier rest : List PenItem) (r : Nat × Nat × Nat) : Prop :=
  ∀ before o after, rest = before ++ o :: after → c.eligible (earlier ++ before) o = true → rankLt (c.rank o) r = false

/-- An item of `rest` is eligible where it stands after `earlier`. -/
def FC.EligibleIn (c : FC) (earlier rest : List PenItem) (it : PenItem) : Prop :=
  ∃ before after, rest = before ++ it :: after ∧ c.eligible (earlier ++ before) it = true

section
variable {c : FC} {earlier t : List PenItem} {a it : PenItem} {r : Nat × Nat × Nat}

theorem FC.EligibleIn.cons (h : c.EligibleIn (earlier ++ [a]) t it) : c.EligibleIn earlier (a :: t) it := by
  obtain ⟨before, after, rfl, hel⟩ := h
  exact ⟨a :: before, after, rfl, by simpa using hel⟩

theorem FC.Lowest.cons (h : c.Lowest (earlier ++ [a]) t r)
    (ha : c.eligible earlier a = true → rankLt (c.rank a) r = false) : c.Lowest earlier (a :: t) r := by
  intro before o after hsplit hel
  cases before with
  | nil =>
    obtain ⟨rfl, -⟩ := List.cons.inj hsplit
    exact ha (by simpa using hel)
  | cons b before =>
    obtain ⟨rfl, rfl⟩ := List.cons.inj hsplit
    exact h before o after rfl (by simpa using hel)

theorem FC.Lowest.mono {r' : Nat × Nat × Nat} (h : c.Lowest earlier t r) (hr : rankLt r r' = false) :
    c.Lowest earlier t r' := by
  intro before o after hsplit hel
  have ho := h before o after hsplit hel
  rw [Bool.eq_false_iff, ne_eq, rankLt_iff] at *
  omega

end

/-- What `FC.best` finds: an eligible item of the lowest rank, or nothing where none is eligible. -/
theorem FC.best_spec (c : FC) (earlier rest : List PenItem) :
    (∀ it, c.best earlier rest = some it → c.EligibleIn earlier rest it ∧ c.Lowest earlier rest (c.rank it)) ∧
    (c.best earlier rest = none → ∀ r, c.Lowest earlier rest r) := by
  induction rest generalizing earlier with
  | nil =>
    refine ⟨fun it h => (nomatch h), fun _ r before o after h => ?_⟩
    simp at h
  | cons a t ih =>
    obtain ⟨hsome, hnone⟩ := ih (earlier ++ [a])
    have hself : c.eligible earlier a = true → c.EligibleIn earlier (a :: t) a :=
      fun hel => ⟨[], t, rfl, by simpa using hel⟩
    have hirr : ∀ x, rankLt x x = false := fun x => by simp [rankLt]
    rw [FC.best]
    cases hel : c.eligible earlier a with
    | false =>
      simp only [Bool.false_eq_true, if_false]
      refine ⟨fun it h => ⟨(hsome it h).1.cons, (hsome it h).2.cons ?_⟩, fun h r => (hnone h r).cons ?_⟩ <;> simp [hel]
    | true =>
      simp only [if_true]
      cases hbest : c.best (earlier ++ [a]) t with
      | none =>
        refine ⟨fun it h => ?_, fun h => (nomatch h)⟩
        obtain rfl := Option.some.inj h
        exact ⟨hself hel, (hnone hbest _).cons fun _ => hirr _⟩
      | some o =>
        obtain ⟨hin, hlow⟩ := hsome o hbest
        cases hlt : rankLt (c.rank o) (c.rank a) with
        | true =>
          simp only [hlt, if_true]
          refine ⟨fun it h => ?_, fun h => (nomatch h)⟩
          obtain rfl := Option.some.inj h
          refine ⟨hin.cons, hlow.cons fun _ => ?_⟩
          rw [Bool.eq_false_iff, ne_eq, rankLt_iff] at *
          omega
        | false =>
          simp only [hlt, Bool.false_eq_true, if_false]
          refine ⟨fun it h => ?_, fun h => (nomatch h)⟩
          obtain rfl := Option.some.inj h
          exact ⟨hself hel, (hlow.mono hlt).cons fun _ => hirr _⟩

/-- The first component of a rank: 0 for an item that goes first, 1 + class otherwise. -/
theorem FC.rank_eq (c : FC) (it : PenItem) :
    c.rank it = (if it.arrive + 2048 ≤ c.cyc ∨ (c.crossing it.flit).isSome = true then 0 else 1 + it.flit.cls.val,
      it.arrive, it.port.val) := by
  simp [FC.rank]

/-- Settles O20: the pull is `FC.best` of the pens, whose rank is the lowest among the eligible items. -/
theorem pullTakesTheLowestRank : Obligations.PullTakesTheLowestRank := by
  unfold Obligations.PullTakesTheLowestRank
  intro c it hpull first
  unfold FC.pull at hpull
  split at hpull
  · cases hpull
  next hcond =>
    simp only [Bool.or_eq_true, decide_eq_true_eq, not_or, Bool.not_eq_true, Nat.not_lt] at hcond
    obtain ⟨⟨⟨hdrain, hhalt⟩, hfrom⟩, -⟩ := hcond
    obtain ⟨hin, hlow⟩ := (c.best_spec [] c.f.pens).1 it hpull
    refine ⟨hdrain, hhalt, hfrom, hin, fun before o after hsplit hel => ?_⟩
    have hrank := hlow before o after hsplit hel
    rw [Bool.eq_false_iff, ne_eq, rankLt_iff, FC.rank_eq, FC.rank_eq] at hrank
    change ¬ ((if first o then 0 else _) < (if first it then 0 else _) ∨
      (if first o then 0 else _) = (if first it then 0 else _) ∧ _) at hrank
    simp only [← Fin.val_inj, Fin.le_def]
    by_cases ho : first o <;> by_cases hit : first it <;>
      simp only [ho, hit, if_true, if_false, not_true, not_false_eq_true, true_implies, false_implies, and_true, true_and,
        and_false, false_or, false_and] at hrank ⊢ <;> omega

end Sys2Proof.Machine
end

section
/-!
The order of a register port's answers, and the statement O28 (18 R474, R477, R478).
-/

namespace Sys2Proof.Machine

/-- An access that 18 R477 does not allow, or whose tag its register does not permit. -/
theorem State.denies_iff (s : State) (w : Who) (a : RegAddr) (t : Target) (write : Bool) :
    s.denies w a t write = true ↔ (write = true ∧ w.strb ≠ 15) ∨ a.toNat % 4 ≠ 0 ∨
      (s.krovol.laid t.block t.off = true ∧ (s.pad t.srv).repl.permits (t.block.priv t.off) write w.dom = false) := by
  have hpermits : (s.pad t.srv).repl.permits (s.krovol.privOf t) write w.dom = false ↔
      s.krovol.laid t.block t.off = true ∧ (s.pad t.srv).repl.permits (t.block.priv t.off) write w.dom = false := by
    unfold Krovol.privOf
    split
    next hlaid => simp [hlaid]
    next hlaid => simp [hlaid, Repl.permits]
  simp only [State.denies, Bool.or_eq_true, Bool.and_eq_true, Bool.not_eq_true', hpermits, bne_iff_ne, or_assoc]

/-- A register port that is free answers with what its access came to. -/
theorem State.portAccess_done {s t : State} {w : Who} {a : RegAddr} {wr : Option Word} {resp : BitVec 2} {data : Word}
    (hpor : (s.pad w.via).boot.poreset = false) (hbusy : (s.pad w.via).rp.busy = false)
    (h : s.access { w with bar0 := false } a wr = (t, .done resp data)) :
    s.portAccess w a wr = t.portReply w.via resp data := by
  simp only [State.portAccess, hpor, hbusy, Bool.or_self, Bool.false_eq_true, if_false, h]
  rfl

/-- Settles O28: the answers in the order of `State.access`. -/
theorem registerPortAnswersInOrder : Obligations.RegisterPortAnswersInOrder := by
  unfold Obligations.RegisterPortAnswersInOrder
  intro s w a wr c u t laid bad
  have hexec : ∀ r, s.portAccess w a wr = r → exec c s = .next r := by
    intro r hr
    cases wr <;> exact congrArg Host.Outcome.next hr
  have hdenies : s.denies u a t wr.isSome = true ↔ bad := State.denies_iff s u a t wr.isSome
  refine ⟨fun h => hexec _ ?_, fun hpor hbusy => ⟨fun hbad => ?_, fun hbad habsent => ?_, fun x i hbad habsent hsleep hwake => ?_,
    fun hbad habsent hsleep hlaid hdiag => ?_⟩⟩
  · have h' : ((s.pad w.via).boot.poreset || (s.pad w.via).rp.busy) = true := by simpa using h
    simp only [State.portAccess, h', if_true]
  · refine hexec _ (State.portAccess_done hpor hbusy ?_)
    simp only [State.access]
    exact if_pos (hdenies.mpr hbad)
  · refine hexec _ (State.portAccess_done hpor hbusy ?_)
    simp only [State.access]
    exact (if_neg fun h => hbad (hdenies.mp h)).trans (if_pos habsent)
  · refine hexec _ (State.portAccess_done (t := s.slumber t.srv) hpor hbusy ?_)
    simp only [State.access]
    refine (if_neg fun h => hbad (hdenies.mp h)).trans ((if_neg (Bool.eq_false_iff.mp habsent)).trans ?_)
    change s.asleep { w with bar0 := false } (s.target w.via a) = _ at hsleep
    simp only [hsleep, hwake, Bool.false_eq_true, if_false, t]
  · refine hexec _ (State.portAccess_done hpor hbusy ?_)
    simp only [State.access]
    refine (if_neg fun h => hbad (hdenies.mp h)).trans ((if_neg (Bool.eq_false_iff.mp habsent)).trans ?_)
    change s.asleep { w with bar0 := false } (s.target w.via a) = _ at hsleep
    change s.krovol.laid (s.target w.via a).block (s.target w.via a).off = false at hlaid
    cases wr with
    | none =>
      have hlocked : (s.pad (s.target w.via a).srv).bell.unlocked = false := hdiag rfl
      simp only [hsleep, State.perform, hlaid, hlocked, Bool.false_and, Bool.false_eq_true, if_false] <;> rfl
    | some v => simp only [hsleep, State.perform, hlaid, Bool.false_eq_true, if_false] <;> rfl

end Sys2Proof.Machine
end

section
/-!
Reads of registers and the statement O29 (18 R473 to R476).
-/

namespace Sys2Proof.Machine

/-- A granted read answers OKAY with what the register's block returns. -/
theorem State.Granted.read {s u : State} {w : Who} {a : RegAddr} {t : Target} {v : Word} (h : s.Granted w a t false)
    (hread : s.regRead t.srv t.block t.off = (u, v)) : s.portAccess w a none = u.okay w.via v := by
  have h' : s.Granted w a t (none : Option Word).isSome := h
  rw [h'.access]
  simp only [State.perform, h.laid, if_true, hread]
  rfl

theorem State.ReadsAs.of_regRead {s : State} {w : Who} {a : RegAddr} {t : Target} {v : Word}
    (hread : s.regRead t.srv t.block t.off = (s, v)) : s.ReadsAs w a t v :=
  fun h => congrArg Host.Outcome.next (h.read hread)

/-- A replicated register other than TIDE_NOW_LO is read without effect. -/
theorem State.ReadsAs.repl {s : State} {w : Who} {a : RegAddr} {off : Nat} {v : Word} (hoff : off ≠ 0x3000)
    (hv : s.replRead w.via off = v) : s.ReadsAs w a ⟨.repl, off, w.via, false⟩ v :=
  .of_regRead (congrArg₂ Prod.mk (if_neg hoff) hv)

/-! ### Registers at computed offsets -/

theorem State.replRead_privQp (s : State) (d : Die) (i : Fin 8) : s.replRead d (0x90 + 4 * i.val) = (s.pad d).repl.privQp[i] := by
  fin_cases i <;> rfl

theorem State.replRead_privEq (s : State) (d : Die) (i : Fin 4) : s.replRead d (0xB0 + 4 * i.val) = (s.pad d).repl.privEq[i] := by
  fin_cases i <;> rfl

theorem State.replRead_deadline (s : State) (d : Die) (c : Cls) :
    s.replRead d (0x3010 + 8 * c.val) = BitVec.ofNat 32 (s.pad d).repl.deadline[c] := by
  fin_cases c <;> rfl

theorem State.replRead_share (s : State) (d : Die) (c : Cls) :
    s.replRead d (0x3014 + 8 * c.val) = BitVec.ofNat 32 (s.pad d).repl.share[c] := by
  fin_cases c <;> rfl

theorem State.streamRead_rate (s : State) (d : Die) (g : GateN) (k : Cls) :
    s.streamRead d (0x1000 + (4 * g.val + k.val) * 8) =
      word [(0, ((((s.pad d).gates[g]).port.sluice)[k]).rate.toNat), (31, bit ((((s.pad d).gates[g]).port.sluice)[k]).enable)] := by
  fin_cases g <;> fin_cases k <;> rfl

/-- CQ_SPACE of a queue. -/
theorem State.queueRead_space (s : State) (d : Die) (n : QN) :
    s.queueRead d (0x20 * n.val + 0x08) = (s, BitVec.ofNat 32 ((s.pad d).shep.cq[n]).free) := by
  have hq : (Fin.ofNat 64 ((0x20 * n.val + 0x08) % 0x1000 / 0x20) : QN) = n := Fin.ext (by simp [Fin.ofNat]; omega)
  have hoff : 0x20 * n.val + 0x08 < 0x1000 := by omega
  have hj : (0x20 * n.val + 0x08) % 0x20 = 0x08 := by omega
  simp only [State.queueRead, if_pos hoff, hq, hj]
  rfl

theorem FoldCensus.regRead_ctr (x : FoldCensus) (n : Fin 8) :
    x.regRead (0x40 + 8 * n.val) = ({ x with
      hi := vset x.hi (Fin.ofNat 13 (5 + n.val)) (BitVec.ofNat 32 ((x.ctr[n]).val.toNat / 2 ^ 32)) },
        BitVec.ofNat 32 (x.ctr[n]).val.toNat) := by
  fin_cases n <;> rfl

theorem Census.regRead_ctr (x : Census) (n : Fin 16) :
    x.regRead (0x1400 + 8 * n.val) = ({ x with
      hi := vset x.hi (Fin.ofNat 17 n.val) (BitVec.ofNat 32 ((x.ctr[n]).val.toNat / 2 ^ 32)) },
        BitVec.ofNat 32 (x.ctr[n]).val.toNat) := by
  fin_cases n <;> rfl

/-! ### What a fold's work puts back -/

theorem State.modFold_congr {s : State} {d : Die} {p : PFold} {f g : Fold → Fold}
    (h : f ((s.pad d).folds[p]) = g ((s.pad d).folds[p])) : s.modFold d p f = s.modFold d p g := by
  refine State.modPad_congr ?_
  simp only [vmod, h]

/-- A fold's work that reports nothing, asks nothing of Hurdle and adds no failure of a way changes the fold and offers its
flits. -/
theorem State.putFc_quiet {s : State} {c : FC} (hfails : c.fails = (s.pad c.die).aon.wayFails) (hreps : c.reps = [])
    (hacts : c.acts = []) :
    s.putFc c = s.modPad c.die fun q => Paddock.offer { q with folds := vset q.folds c.p c.f } c.out := by
  simp only [State.putFc, hreps, hacts, State.fileAll, List.foldl_nil]
  exact State.modPad_congr (by rw [hfails])

theorem Paddock.offer_nil (q : Paddock) : q.offer [] = q := by
  simp [Paddock.offer]

/-- Where it sends nothing either, it changes the fold alone. -/
theorem State.putFc_silent {s : State} {c : FC} (hfails : c.fails = (s.pad c.die).aon.wayFails) (hreps : c.reps = [])
    (hacts : c.acts = []) (hout : c.out = []) : s.putFc c = s.modFold c.die c.p fun _ => c.f := by
  rw [State.putFc_quiet hfails hreps hacts, hout]
  simp only [Paddock.offer_nil] <;> rfl

theorem State.regRead_fold (s : State) (d x : Die) (p : PFold) (o : Nat) :
    s.regRead d (.fold x p) o =
      ((s.ungate x p).putFc (((s.ungate x p).fc x p).regRead o).1, (((s.ungate x p).fc x p).regRead o).2) := rfl

theorem FC.regRead_peek (c : FC) : c.regRead 0x4024 = c.bwPeek := rfl

/-- BW_PEEK of an entry whose check passes captures its STAMP (07 R198). -/
theorem FC.bwPeek_ok {c : FC} {e : PredRec} (he : smGet c.f.pred predDflt c.f.peekIdx.toNat = e) (hok : e.ok = true) :
    let v := word [(0, e.ctr.toNat), (3, bit e.valid), (4, bit e.near), (5, e.src.toNat), (15, 0)]
    c.bwPeek = ({ c with f := { c.f with peek := v.extractLsb' 0 16, peekStamp := e.stamp.extractLsb' 0 32 } }, v) := by
  intro v
  have hread : c.predRead c.f.peekIdx.toNat 0x3E = (c, e) := by simp only [FC.predRead, he, hok, if_true]
  simp only [FC.bwPeek, hread, he, lt_irrefl, decide_false, List.drop_length, List.map_nil, List.append_nil] <;> rfl

/-- Settles O29: each register by its block's function, at the offset the register has. -/
theorem readsReturnAndCapture : Obligations.ReadsReturnAndCapture := by
  unfold Obligations.ReadsReturnAndCapture
  refine ⟨fun s w a => ?_, fun s w => ⟨fun h => ?_, fun d p n a h => ?_, fun d n a h => ?_, fun d p h => ?_⟩⟩
  · intro r repl
    refine ⟨.repl (by decide) rfl, .repl (by decide) rfl, .repl (by decide) rfl, .repl (by decide) rfl, .repl (by decide) rfl,
      fun i => .repl (by omega) (State.replRead_privQp s _ i), fun i => .repl (by omega) (State.replRead_privEq s _ i),
      .repl (by decide) rfl, fun c => ⟨.repl (by omega) (State.replRead_deadline s _ c), .repl (by omega) (State.replRead_share s _ c)⟩,
      fun d => ⟨.of_regRead rfl, .of_regRead rfl, .of_regRead rfl, .of_regRead rfl, .of_regRead rfl, .of_regRead rfl,
        .of_regRead rfl, .of_regRead rfl, .of_regRead rfl, fun g k => .of_regRead ?_, fun n => .of_regRead ?_⟩,
      fun d hd => .of_regRead ?_⟩
    · exact congrArg (Prod.mk s) (State.streamRead_rate s d g k)
    · exact State.queueRead_space s d n
    · simp only [State.regRead, hd, beq_self_eq_true, if_true]
      rfl
  · exact congrArg Host.Outcome.next (h.read rfl)
  · intro u v
    refine congrArg Host.Outcome.next (h.read ?_)
    simp only [State.regRead, FoldCensus.regRead_ctr]
    exact congrArg (·, _) (State.modFold_congr rfl)
  · intro v
    refine congrArg Host.Outcome.next (h.read ?_)
    simp only [State.regRead, Census.regRead_ctr]
    exact congrArg (·, _) (State.modPad_congr rfl)
  · intro u e v hok
    refine congrArg Host.Outcome.next (h.read ?_)
    have hpeek : (u.fc d p).bwPeek = ({ u.fc d p with f := { (u.pad d).folds[p] with
        peek := v.extractLsb' 0 16, peekStamp := e.stamp.extractLsb' 0 32 } }, v) := FC.bwPeek_ok rfl hok
    have hput := State.putFc_silent (s := u) (c := { u.fc d p with f := { (u.pad d).folds[p] with
        peek := v.extractLsb' 0 16, peekStamp := e.stamp.extractLsb' 0 32 } }) rfl rfl rfl rfl
    rw [State.regRead_fold, FC.regRead_peek, hpeek, hput]
    exact congrArg (·, v) (State.modFold_congr rfl)

end Sys2Proof.Machine
end

section
/-!
Writes of registers and the statement O30 (18 R473).
-/

namespace Sys2Proof.Machine

/-- A granted write whose register completes it at once answers OKAY. -/
theorem State.Granted.write {s u : State} {w : Who} {a : RegAddr} {t : Target} {v : Word} (h : s.Granted w a t true)
    (hwrite : s.regWrite t.srv t.block t.off { w with bar0 := false } a v = (u, false)) :
    s.portAccess w a (some v) = u.okay w.via 0 := by
  have h' : s.Granted w a t (some v).isSome := h
  rw [h'.access]
  simp only [State.perform, h.laid, if_true, hwrite]
  rfl

theorem State.WritesAs.of_regWrite {s u : State} {w : Who} {c : Instr} {a : RegAddr} {t : Target} {v : Word}
    (hc : exec c s = .next (s.portAccess w a (some v)))
    (hwrite : s.regWrite t.srv t.block t.off { w with bar0 := false } a v = (u, false)) : s.WritesAs w c a t u :=
  fun h => hc.trans (congrArg Host.Outcome.next (h.write hwrite))

theorem State.modAgent_gate (s : State) (d : Die) (g : GateN) (f : AgentPort → AgentPort) :
    s.modAgent d (Fin.ofNat 28 g.val) f = s.modPad d fun q => { q with gates := vmod q.gates g f } := by
  fin_cases g <;> rfl

/-- A change of a sluice of a Gate. -/
def State.modGateSluice (s : State) (d : Die) (g : GateN) (k : Cls) (f : Sluice → Sluice) : State :=
  s.modPad d fun q => { q with gates := vmod q.gates g fun x =>
    { x with port := { x.port with sluice := vmod x.port.sluice k f } } }

theorem State.streamWrite_rate (s : State) (d : Die) (g : GateN) (k : Cls) (v : Word) :
    s.streamWrite d (0x1000 + (4 * g.val + k.val) * 8) v =
      s.modGateSluice d g k fun x => x.writeRate v (s.pad d).now := by
  fin_cases g <;> fin_cases k <;> rfl

theorem State.streamWrite_burst (s : State) (d : Die) (g : GateN) (k : Cls) (v : Word) :
    s.streamWrite d (0x1004 + (4 * g.val + k.val) * 8) v =
      s.modGateSluice d g k fun x => x.writeBurst v (s.pad d).now := by
  fin_cases g <;> fin_cases k <;> rfl

theorem Sluice.cap_eq (x : Sluice) : x.cap = max 64 x.burst.toNat * 65536 := by
  simp [Sluice.cap]

/-- CLEAR of the predictor (07 R196). -/
theorem State.runFold_clear (s : State) (d : Die) (p : PFold) (v : Word) :
    (s.runFold d p fun c => c.regWrite 0x4000 v) =
      s.modFold d p fun f => { f with pred := if bitAt v 0 then [] else f.pred } := by
  have hclear : (s.fc d p).regWrite 0x4000 v = { s.fc d p with f := { (s.pad d).folds[p] with
      pred := if bitAt v 0 then [] else (s.pad d).folds[p].pred } } := by
    cases hv : bitAt v 0 <;> simp only [FC.regWrite, hv] <;> rfl
  rw [State.runFold, hclear]
  exact (State.putFc_silent rfl rfl rfl rfl).trans (State.modFold_congr rfl)

/-- Settles O30: each write is one change by its block's function. -/
theorem writesReachTheirFields : Obligations.WritesReachTheirFields := by
  unfold Obligations.WritesReachTheirFields
  intro s w v d
  refine ⟨fun g k => ⟨.of_regWrite rfl ?_, .of_regWrite rfl ?_⟩, fun p => ⟨.of_regWrite rfl ?_, .of_regWrite rfl ?_⟩,
    .of_regWrite rfl rfl, .of_regWrite rfl rfl, fun a => ⟨.of_regWrite rfl rfl, .of_regWrite rfl rfl, .of_regWrite rfl rfl,
      .of_regWrite rfl rfl, .of_regWrite rfl rfl, .of_regWrite rfl rfl, fun g => .of_regWrite rfl ?_⟩⟩
  · refine congrArg (·, false) ((State.streamWrite_rate s d g k v).trans (congrArg (s.modGateSluice d g k) (funext fun x => ?_)))
    simp only [Sluice.writeRate, Sluice.cap_eq]
  · refine congrArg (·, false) ((State.streamWrite_burst s d g k v).trans (congrArg (s.modGateSluice d g k) (funext fun x => ?_)))
    simp only [Sluice.writeBurst, Sluice.cap_eq]
  · refine congrArg (·, false) ?_
    exact State.runFold_clear (s.ungate d p) d p v
  · refine congrArg (·, false) (State.modFold_congr ?_)
    rfl
  · exact congrArg (·, false) (State.modAgent_gate s d g _)

end Sys2Proof.Machine
end

section
/-!
Command queues and the statement O32 (15 R398, R399, R406, R409).
-/

namespace Sys2Proof.Machine

/-- A granted write that waits keeps its port busy. -/
theorem State.Granted.write_held {s u : State} {w : Who} {a : RegAddr} {t : Target} {v : Word} (h : s.Granted w a t true)
    (hwrite : s.regWrite t.srv t.block t.off { w with bar0 := false } a v = (u, true)) :
    s.portAccess w a (some v) = u.portWaits w.via := by
  have h' : s.Granted w a t (some v).isSome := h
  rw [h'.access]
  simp only [State.perform, h.laid, if_true, hwrite]
  rfl

/-- The registers of a command queue, by their offset in it. -/
theorem State.queueWrite_cq (s : State) (d : Die) (q : QN) (j : Nat) (hj : j < 0x20) (w : Who) (v : Word) :
    s.queueWrite d (0x20 * q.val + j) w v =
      if j = 0 then s.cqWrite d q w v false
      else if j = 4 then s.cqWrite d q w v true
      else if j = 0x0C then (s.cqCtl d q v, false)
      else if j = 0x14 then (if bitAt v 16 then s.modCq d q fun x => { x with wrongMode := false } else s, false)
      else (s, false) := by
  have hq : (Fin.ofNat 64 ((0x20 * q.val + j) % 0x1000 / 0x20) : QN) = q := Fin.ext (by simp [Fin.ofNat]; omega)
  have hoff : 0x20 * q.val + j < 0x1000 := by omega
  have hmod : (0x20 * q.val + j) % 0x20 = j := by omega
  simp only [State.queueWrite, if_pos hoff, hq, hmod]

@[simp] theorem State.cq_modCq (s : State) (d : Die) (q : QN) (f : CmdQueue → CmdQueue) :
    ((s.modCq d q f).pad d).shep.cq[q] = f ((s.pad d).shep.cq[q]) := by
  rw [State.modCq, State.pad_modShep_same]
  exact vmod_get_same _ _ _

theorem State.modCq_congr {s : State} {d : Die} {q : QN} {f g : CmdQueue → CmdQueue}
    (h : f ((s.pad d).shep.cq[q]) = g ((s.pad d).shep.cq[q])) : s.modCq d q f = s.modCq d q g := by
  refine State.modPad_congr ?_
  simp only [vmod, h]

/-- A report of a Shepherd's queue leaves the Shepherd as it is. -/
theorem State.shep_queueRep (s : State) (d x : Die) (code detail : Nat) :
    ((s.queueRep d code detail).pad x).shep = (s.pad x).shep :=
  ((State.Frame.refl (fun q => q.shep) s).file (fun _ _ => rfl) d rfl).pads x

/-- A word put into a queue makes no push wait. -/
theorem State.stalled_cqPut (s : State) (d : Die) (q : QN) (v : Word) (last : Bool) :
    ((s.cqPut d q v last).pad d).shep.cq[q].stalled = (s.pad d).shep.cq[q].stalled := by
  have hput : ∀ x : CmdQueue, (x.put v last).1.stalled = x.stalled := by
    intro x
    unfold CmdQueue.put
    dsimp only
    split_ifs <;> rfl
  have hshep : ((s.cqPut d q v last).pad d).shep =
      ((s.modCq d q fun _ => (((s.pad d).shep.cq[q]).put v last).1).pad d).shep := by
    unfold State.cqPut
    have hrefl := State.Frame.refl (fun q => q.shep) (s.modCq d q fun _ => (((s.pad d).shep.cq[q]).put v last).1)
    exact (State.Frame.ite ((hrefl.file (fun _ _ => rfl) d rfl).pcount (fun _ _ => rfl) d 0x29 0) hrefl).pads d
  rw [hshep, State.cq_modCq, hput]

/-! ### What a word does (15 R398) -/

section
variable {x : CmdQueue} {v : Word} {last : Bool}

theorem CmdQueue.put_taken (hlast : last = false) (hroom : x.words.length < 64) :
    x.put v last = ({ x with words := x.words ++ [v], tail := x.tail.add 1 }, .taken) := by
  simp only [CmdQueue.put, hlast, Bool.false_eq_true, if_false, if_neg (Nat.not_le.mpr hroom)]

theorem CmdQueue.put_committed (hlast : last = true) (hok : packetOk (x.words ++ [v]) = true) :
    x.put v last = ({ x with packets := x.packets ++ [x.words ++ [v]], words := [], tail := x.tail.add 1 }, .committed) := by
  simp only [CmdQueue.put, hlast, if_true, hok]

theorem CmdQueue.put_rewound (h : last = true ∧ packetOk (x.words ++ [v]) = false ∨ last = false ∧ 64 ≤ x.words.length) :
    x.put v last = (x.rewind, .rewound) := by
  rcases h with ⟨hlast, hbad⟩ | ⟨hlast, hfull⟩
  · simp only [CmdQueue.put, hlast, if_true, hbad, Bool.false_eq_true, if_false]
  · simp only [CmdQueue.put, hlast, Bool.false_eq_true, if_false, if_pos hfull]

end

section
variable {s : State} {d : Die} {q : QN} {v : Word} {last : Bool} {y : CmdQueue} {e : PushEnd}

theorem State.cqPut_kept (h : ((s.pad d).shep.cq[q]).put v last = (y, e)) (he : (e == .rewound) = false) :
    s.cqPut d q v last = s.modCq d q fun _ => y := by
  simp only [State.cqPut, h, he, Bool.false_eq_true, if_false]

theorem State.cqPut_rewound (h : ((s.pad d).shep.cq[q]).put v last = (y, .rewound)) :
    s.cqPut d q v last = ((s.modCq d q fun _ => y).queueRep d 0xC21 q.val).pcount d 0x29 0 := by
  simp only [State.cqPut, h, beq_self_eq_true, if_true]

end

/-- A push into a queue whose pointers are sound and that no flush meets. -/
theorem State.cqWrite_eq {s : State} {d : Die} {q : QN} (w : Who) (v : Word) {last : Bool}
    (hsame : ((s.pad d).shep.cq[q]).same = true) (hflush : (last && s.flushMeets d q) = false) :
    s.cqWrite d q w v last = (s.cqPush d q w v last,
      decide (((s.pad d).shep.cq[q]).stalled.length < (((s.cqPush d q w v last).pad d).shep.cq[q]).stalled.length)) := by
  simp only [State.cqWrite, hflush, State.cqCheck, hsame, Bool.false_eq_true, if_false, if_true]

theorem State.flushMeets_iff (s : State) (d : Die) (q : QN) :
    s.flushMeets d q = true ↔ ((s.pad d).shep.cq[q]).ringMode = false ∧ ((s.pad d).shep.cq[q]).words = [] ∧
      ((s.pad d).shep.cq[q]).flushed = some (s.pad d).aon.hcycle := by
  simp [State.flushMeets, and_assoc, -Fin.getElem_fin]

/-- Settles O32. -/
theorem pushesBuildAndCommitPackets : Obligations.PushesBuildAndCommitPackets := by
  unfold Obligations.PushesBuildAndCommitPackets
  intro s w l q v x u hsame last c j hgrant
  have hoff : s.regWrite l .queue (0x20 * q.val + j) u (queueAddr 0x10000 q.val j) v = s.cqWrite l q u v last := by
    cases last <;> exact State.queueWrite_cq s l q _ (by decide) u v
  have hexec : ∀ r, s.portAccess w (queueAddr 0x10000 q.val j) (some v) = r → exec c s = .next r := by
    intro r hr
    cases last <;> exact congrArg Host.Outcome.next hr
  have hdone : ∀ r, (last && s.flushMeets l q) = false → s.cqPush l q u v last = r →
      ((r.pad l).shep.cq[q]).stalled = x.stalled → exec c s = .next (r.okay w.via 0) := by
    intro r hflush hpush hstalled
    refine hexec _ (hgrant.write (hoff.trans ((State.cqWrite_eq u v hsame hflush).trans ?_)))
    rw [hpush]
    exact congrArg (r, ·) (decide_eq_false (by rw [hstalled]; exact lt_irrefl _))
  have hmeets : s.flushMeets l q = true ↔ x.ringMode = false ∧ x.words = [] ∧ x.flushed = some (s.pad l).aon.hcycle :=
    s.flushMeets_iff l q
  refine ⟨fun hring => ?_, fun hring hmeet => ?_, fun hring hmeet => ?_⟩
  · have hflush : (last && s.flushMeets l q) = false := by
      rw [Bool.and_eq_false_iff, Bool.eq_false_iff (b := s.flushMeets l q), ne_eq, hmeets, hring]
      simp
    refine hdone _ hflush (if_pos hring) ?_
    rw [State.cq_modCq]
  · obtain ⟨rfl, hwords, hflushed⟩ := hmeet
    refine hexec _ (hgrant.write (hoff.trans ?_))
    simp only [State.cqWrite, hmeets.mpr ⟨hring, hwords, hflushed⟩, Bool.and_self, if_true]
  · have hflush : (last && s.flushMeets l q) = false := by
      rw [Bool.eq_false_iff, ne_eq, Bool.and_eq_true, hmeets]
      exact fun ⟨hlast, _, hwords, hflushed⟩ => hmeet ⟨hlast, hwords, hflushed⟩
    have hpush : ¬ x.ringMode = true := by simp [hring]
    refine ⟨fun hfull => ?_, fun hfree hstalled => ?_⟩
    · have hstall : s.cqPush l q u v last = s.modCq l q fun y => { y with stalled := y.stalled ++ [(u, last, v)] } := by
        refine (if_neg hpush).trans (if_pos ?_)
        simpa [x, -Fin.getElem_fin] using hfull
      refine hexec _ (hgrant.write_held (hoff.trans ((State.cqWrite_eq u v hsame hflush).trans ?_)))
      rw [hstall, State.cq_modCq]
      simp
    · have hput : s.cqPush l q u v last = s.cqPut l q v last := by
        refine (if_neg hpush).trans (if_neg ?_)
        simpa [x, hfree, -Fin.getElem_fin] using hstalled
      have hends : ∀ r, s.cqPut l q v last = r → exec c s = .next (r.okay w.via 0) := fun r hr =>
        hdone r hflush (hput.trans hr) (hr ▸ State.stalled_cqPut s l q v last)
      refine ⟨fun hlast hroom => ?_, fun hlast hok => ?_, fun hbad => ?_⟩
      · refine hends _ ((State.cqPut_kept (CmdQueue.put_taken hlast hroom) (by decide)).trans (State.modCq_congr rfl))
      · refine hends _ ((State.cqPut_kept (CmdQueue.put_committed hlast hok) (by decide)).trans (State.modCq_congr rfl))
      · refine hends _ ((State.cqPut_rewound (CmdQueue.put_rewound hbad)).trans ?_)
        rw [State.modCq_congr]
        rfl

end Sys2Proof.Machine
end

section
/-!
Queue control, pops, and the statement O33 (15 R402, R404, R407, R427, R428).
-/

namespace Sys2Proof.Machine

/-! ### Registers of the reply and event queues by their offset -/

theorem State.queueWrite_rq (s : State) (d : Die) (q : QN) (j : Nat) (hj : j < 0x20) (w : Who) (v : Word) :
    s.queueWrite d (0x1000 + 0x20 * q.val + j) w v = (if j = 0x0C then s.rqCtl d q v else s, false) := by
  have hq : (Fin.ofNat 64 ((0x1000 + 0x20 * q.val + j) % 0x1000 / 0x20) : QN) = q := Fin.ext (by simp [Fin.ofNat]; omega)
  have hlow : ¬ 0x1000 + 0x20 * q.val + j < 0x1000 := by omega
  have hoff : 0x1000 + 0x20 * q.val + j < 0x2000 := by omega
  have hmod : (0x1000 + 0x20 * q.val + j) % 0x20 = j := by omega
  simp only [State.queueWrite, if_neg hlow, if_pos hoff, hq, hmod]

theorem State.queueWrite_eq (s : State) (d : Die) (e : EQN) (j : Nat) (hj : j < 0x20) (w : Who) (v : Word) :
    s.queueWrite d (0x2000 + 0x20 * e.val + j) w v = (if j = 0x08 then s.eqCtl d e v else s, false) := by
  have he : (Fin.ofNat 32 ((0x2000 + 0x20 * e.val + j - 0x2000) / 0x20) : EQN) = e := Fin.ext (by simp [Fin.ofNat]; omega)
  have hlow : ¬ 0x2000 + 0x20 * e.val + j < 0x1000 := by omega
  have hoff : ¬ 0x2000 + 0x20 * e.val + j < 0x2000 := by omega
  have hmod : (0x2000 + 0x20 * e.val + j) % 0x20 = j := by omega
  simp only [State.queueWrite, if_neg hlow, if_neg hoff, he, hmod]

theorem State.queueRead_rqPop (s : State) (d : Die) (q : QN) : s.queueRead d (0x1000 + 0x20 * q.val) = s.rqPop d q := by
  have hq : (Fin.ofNat 64 ((0x1000 + 0x20 * q.val) % 0x1000 / 0x20) : QN) = q := Fin.ext (by simp [Fin.ofNat]; omega)
  have hlow : ¬ 0x1000 + 0x20 * q.val < 0x1000 := by omega
  have hoff : 0x1000 + 0x20 * q.val < 0x2000 := by omega
  have hmod : (0x1000 + 0x20 * q.val) % 0x20 = 0 := by omega
  simp only [State.queueRead, if_neg hlow, if_pos hoff, hq, hmod, if_true]

theorem State.queueRead_eqPop (s : State) (d : Die) (e : EQN) : s.queueRead d (0x2000 + 0x20 * e.val) = s.eqPop d e := by
  have he : (Fin.ofNat 32 ((0x2000 + 0x20 * e.val - 0x2000) / 0x20) : EQN) = e := Fin.ext (by simp [Fin.ofNat])
  have hlow : ¬ 0x2000 + 0x20 * e.val < 0x1000 := by omega
  have hoff : ¬ 0x2000 + 0x20 * e.val < 0x2000 := by omega
  have hmod : (0x2000 + 0x20 * e.val) % 0x20 = 0 := by omega
  simp only [State.queueRead, if_neg hlow, if_neg hoff, he, hmod, if_true]

/-! ### Control writes -/

theorem vmod_eq_self {α : Type} {n : Nat} (v : Vector α n) (i : Fin n) (f : α → α) (h : f v[i] = v[i]) : vmod v i f = v := by
  rw [vmod, h]
  simp

/-- Changes of one queue in turn are one change. -/
theorem State.modCq_modCq (s : State) (d : Die) (q : QN) (f g : CmdQueue → CmdQueue) :
    (s.modCq d q f).modCq d q g = s.modCq d q fun y => g (f y) := by
  simp only [State.modCq, State.modShep, State.modPad_modPad, vmod_vmod]

theorem State.modRq_modRq (s : State) (d : Die) (q : QN) (f g : ReplyQueue → ReplyQueue) :
    (s.modRq d q f).modRq d q g = s.modRq d q fun y => g (f y) := by
  simp only [State.modRq, State.modShep, State.modPad_modPad, vmod_vmod]

theorem State.modRq_congr {s : State} {d : Die} {q : QN} {f g : ReplyQueue → ReplyQueue}
    (h : f ((s.pad d).shep.rq[q]) = g ((s.pad d).shep.rq[q])) : s.modRq d q f = s.modRq d q g := by
  refine State.modPad_congr ?_
  simp only [vmod, h]

/-- Change an event queue. -/
def State.modEq (s : State) (d : Die) (e : EQN) (f : EventQueue → EventQueue) : State :=
  s.modShep d fun h => { h with eq := vmod h.eq e f }

theorem State.modEq_modEq (s : State) (d : Die) (e : EQN) (f g : EventQueue → EventQueue) :
    (s.modEq d e f).modEq d e g = s.modEq d e fun y => g (f y) := by
  simp only [State.modEq, State.modShep, State.modPad_modPad, vmod_vmod]

theorem State.modEq_congr {s : State} {d : Die} {e : EQN} {f g : EventQueue → EventQueue}
    (h : f ((s.pad d).shep.eq[e]) = g ((s.pad d).shep.eq[e])) : s.modEq d e f = s.modEq d e g := by
  refine State.modPad_congr ?_
  simp only [vmod, h]

theorem State.cqCtl_flush {s : State} {d : Die} {q : QN} {v : Word} (hsame : ((s.pad d).shep.cq[q]).same = true)
    (hstalled : ((s.pad d).shep.cq[q]).stalled = [])
    (h : bitAt v 1 = true ∨ bitAt v 0 ≠ ((s.pad d).shep.cq[q]).ringMode) :
    s.cqCtl d q v = s.modCq d q fun y => { y with
      packets := [], words := [], stalled := [], head := {}, tail := {}
      flushed := some (s.pad d).aon.hcycle, ringMode := bitAt v 0 } := by
  have hcond : (bitAt v 0 != ((s.pad d).shep.cq[q]).ringMode || bitAt v 1) = true := by
    rw [Bool.or_eq_true, bne_iff_ne]
    exact h.symm
  have hempty : s.cqEmpty d q = s.modCq d q CmdQueue.flush := by
    simp only [State.cqEmpty, State.cqReset, hsame, if_true, State.cqFlush, hstalled, List.foldl_nil]
  simp only [State.cqCtl, hcond, if_true, hempty, State.modCq_modCq]
  rfl

theorem State.cqCtl_keep {s : State} {d : Die} {q : QN} {v : Word} (hflush : bitAt v 1 = false)
    (hmode : bitAt v 0 = ((s.pad d).shep.cq[q]).ringMode) : s.cqCtl d q v = s := by
  simp only [State.cqCtl, hflush, hmode, bne_self_eq_false, Bool.or_self, Bool.false_eq_true, if_false]
  refine State.modPad_eq_self s d _ ?_
  dsimp only
  rw [vmod_eq_self _ _ _ rfl]

/-! ### Pops -/

theorem leastBy_mem {α : Type} (r : α → Nat) {l : List α} {x : α} (h : leastBy r l = some x) : x ∈ l := by
  induction l generalizing x with
  | nil => cases h
  | cons a t ih =>
    rw [leastBy] at h
    split at h
    next y hy =>
      split at h
      · obtain rfl := Option.some.inj h; exact List.mem_cons_of_mem _ (ih hy)
      · obtain rfl := Option.some.inj h; exact List.mem_cons_self
    next => obtain rfl := Option.some.inj h; exact List.mem_cons_self

/-- The first element whose rank is the lowest. -/
theorem leastBy_split {α : Type} (r : α → Nat) {x : α} {before after : List α} (hbefore : ∀ b ∈ before, r x < r b)
    (hafter : ∀ b ∈ after, r x ≤ r b) : leastBy r (before ++ x :: after) = some x := by
  induction before with
  | nil =>
    rw [List.nil_append, leastBy]
    split
    next y hy => exact if_neg (Nat.not_lt.mpr (hafter y (leastBy_mem r hy)))
    next => rfl
  | cons b before ih =>
    rw [List.cons_append, leastBy, ih fun c hc => hbefore c (List.mem_cons_of_mem _ hc)]
    exact if_pos (hbefore b List.mem_cons_self)

section
variable {x : ReplyQueue}

theorem ReplyQueue.pop_current {h : Word} {t : List Word} (hcur : x.current = h :: t) :
    x.pop = (h, { x with current := t, popHi := BitVec.ofNat 32 (2 ^ 31 + x.currentPri.toNat * 2 ^ 29), head := x.head.add 1 }) := by
  have hpri : ∀ a b c, a + b + bit false * c = a + b := fun a b c => by rw [show bit false = 0 from rfl, Nat.zero_mul, Nat.add_zero]
  simp only [ReplyQueue.pop, hcur, hpri]

theorem ReplyQueue.pop_oldest {before after : List Reply} {r : Reply} (hcur : x.current = [])
    (hsplit : x.replies = before ++ r :: after) (hbefore : ∀ b ∈ before, r.pri < b.pri) (hafter : ∀ b ∈ after, r.pri ≤ b.pri) :
    x.pop = (r.words.headD 0, { x with
      replies := before ++ after, current := r.words.tail, currentPri := r.pri
      popHi := BitVec.ofNat 32 (2 ^ 31 + r.pri.toNat * 2 ^ 29 + 2 ^ 28), head := x.head.add 1 }) := by
  have hleast : leastBy (fun y : Reply => y.pri.toNat) x.replies = some r := by
    rw [hsplit]; exact leastBy_split _ (fun b hb => BitVec.lt_def.mp (hbefore b hb)) fun b hb => BitVec.le_def.mp (hafter b hb)
  have hnot : r ∉ before := fun hr => absurd (BitVec.lt_def.mp (hbefore r hr)) (lt_irrefl _)
  have herase : x.replies.erase r = before ++ after := by
    rw [hsplit, List.erase_append_right _ hnot, List.erase_cons_head]
  simp only [ReplyQueue.pop, hcur, hleast, herase, bit, if_true, Nat.one_mul]

theorem ReplyQueue.pop_empty (hcur : x.current = []) (hreplies : x.replies = []) : x.pop = (0, { x with popHi := 0 }) := by
  simp only [ReplyQueue.pop, hcur, hreplies, leastBy]

end

theorem State.rqPop_eq {s : State} {d : Die} {q : QN} {y : ReplyQueue} {v : Word} (hsame : ((s.pad d).shep.rq[q]).same = true)
    (hpop : ((s.pad d).shep.rq[q]).pop = (v, y)) : s.rqPop d q = (s.modRq d q fun _ => y, v) := by
  simp only [State.rqPop, State.rqCheck, hsame, if_true, hpop]

theorem State.eqPop_eq {s : State} {d : Die} {e : EQN} {y : EventQueue} {v : Word} (hsame : ((s.pad d).shep.eq[e]).same = true)
    (hpop : ((s.pad d).shep.eq[e]).pop = (v, y)) : s.eqPop d e = (s.modEq d e fun _ => y, v) := by
  simp only [State.eqPop, State.eqCheck, hsame, if_true, hpop] <;> rfl

/-- Settles O33: each register's access is one change of its queue. -/
theorem queuesFlushAndPop : Obligations.QueuesFlushAndPop := by
  unfold Obligations.QueuesFlushAndPop
  refine ⟨fun s w l v => ⟨?_, fun q hsame => .of_regWrite rfl ?_, fun e hsame => .of_regWrite rfl ?_⟩, fun s w l => ⟨?_, ?_⟩⟩
  · intro q x hsame hstalled hgrant c hc
    have hexec : ∀ r, s.cqCtl l q v = r → exec c s = .next (r.okay w.via 0) := by
      intro r hr
      have hport := hgrant.write (v := v) (congrArg (·, false) hr |> (State.queueWrite_cq s l q 0x0C (by decide) _ v).trans)
      simp only [List.mem_cons, List.not_mem_nil, or_false] at hc
      rcases hc with rfl | rfl <;> exact congrArg Host.Outcome.next hport
    exact ⟨fun h => hexec _ (State.cqCtl_flush hsame hstalled h), fun hflush hmode => hexec _ (State.cqCtl_keep hflush hmode)⟩
  · refine (State.queueWrite_rq s l q 0x0C (by decide) _ v).trans (congrArg (·, false) ?_)
    cases hflush : bitAt v 1 with
    | false => simp only [State.rqCtl, hflush, Bool.false_eq_true, if_false, if_true]
    | true => 
      simp only [State.rqCtl, hflush, if_true, State.rqEmpty, hsame, State.modRq_modRq] <;> rfl
  · refine (State.queueWrite_eq s l e 0x08 (by decide) _ v).trans (congrArg (·, false) ?_)
    cases hflush : bitAt v 9 with
    | false => simp only [State.eqCtl, hflush, Bool.false_eq_true, if_false, if_true]
    | true =>
      have hflushed : s.eqEmpty l e = s.modEq l e EventQueue.flush := by simp only [State.eqEmpty, hsame, if_true] <;> rfl
      simp only [State.eqCtl, hflush, if_true, hflushed]
      exact State.modEq_modEq s l e _ _
  · intro q x hsame hgrant
    have hpop : ∀ r y, x.pop = (r, y) → exec (.rqPop w q) s = .next ((s.modRq l q fun _ => y).okay w.via r) := fun r y hy =>
      congrArg Host.Outcome.next (hgrant.read ((State.queueRead_rqPop s l q).trans (State.rqPop_eq hsame hy)))
    refine ⟨fun h t hcur => ?_, fun before r after hcur hsplit hbefore hafter => ?_, fun hcur hreplies => ?_⟩
    · rw [hpop _ _ (ReplyQueue.pop_current hcur)]
      exact congrArg (fun u : State => Host.Outcome.next (u.okay w.via _)) (State.modRq_congr rfl)
    · rw [hpop _ _ (ReplyQueue.pop_oldest hcur hsplit hbefore hafter)]
      exact congrArg (fun u : State => Host.Outcome.next (u.okay w.via _)) (State.modRq_congr rfl)
    · rw [hpop _ _ (ReplyQueue.pop_empty hcur hreplies)]
      exact congrArg (fun u : State => Host.Outcome.next (u.okay w.via _)) (State.modRq_congr rfl)
  · intro e x hgrant hsame
    have hpop : ∀ r y, x.pop = (r, y) → exec (.eqPop w e) s = .next ((s.modEq l e fun _ => y).okay w.via r) := fun r y hy =>
      congrArg Host.Outcome.next (hgrant.read ((State.queueRead_eqPop s l e).trans (State.eqPop_eq hsame hy)))
    refine ⟨fun h t hev => ?_, fun hev => ?_⟩
    · have hy : x.pop = (h.extractLsb' 0 32, { x with events := t, popHi := h.extractLsb' 32 32, head := x.head.add 1 }) := by
        simp only [EventQueue.pop, hev]
      rw [hpop _ _ hy]
      exact congrArg (fun u : State => Host.Outcome.next (u.okay w.via _)) (State.modEq_congr rfl)
    · have hy : x.pop = (0, { x with popHi := 0 }) := by simp only [EventQueue.pop, hev]
      rw [hpop _ _ hy]
      exact congrArg (fun u : State => Host.Outcome.next (u.okay w.via _)) (State.modEq_congr rfl)

end Sys2Proof.Machine
end

section
/-!
Bell's record store, and the statement O42 (13 R342 to R349, 15 R405).
-/

namespace Sys2Proof.Machine

/-- A Range of one die past start-up, its leader itself, every domain on and HCLK running. -/
def State.oneDie : State := State.reset.modPad 0 fun q => { q with
  boot := { q.boot with poreset := false, step := 10, ready := true }
  ebb := { q.ebb with hclkReq := true, hclkAck := true, pswReq := 0xFFF, pswAck := 0xFFF, iso := 0 }
  repl := { q.repl with present := 1, leader := 0, formed := true } }

/-- A report of the Confluence of die 0. -/
def aReport : Report := { code := 0x804, reporter := streamAgent 0, subject := streamAgent 0, t := 0 }

/-- A report waits at Bell, and event queue 0 of its leader, whose mask asks for the report's event, has pointer copies that
differ (15 R405). -/
def State.reportAtBadQueue : State := State.oneDie.modPad 0 fun q => { q with
  bell := { q.bell with inbox := [aReport] }
  shep := { q.shep with eq := vmod q.shep.eq 0 fun x => { x with mask := 0x7F, head := { a := 1, b := 0 } } } }

/-- Refutes O42: the event that the new record raises compares the pointers of the leader's event queues, and the queue
whose copies differ files 0xC20 (15 R405) into the very inbox that the statement says is empty. -/
theorem not_bellFilesReports : ¬ Obligations.BellFilesReports := by
  unfold Obligations.BellFilesReports
  intro h
  obtain ⟨t, ht, -, hempty, -⟩ := (h State.reportAtBadQueue 0).1 aReport (by decide +kernel) (by decide +kernel)
    (by decide +kernel) (by decide +kernel)
  obtain rfl : State.reportAtBadQueue.bellReport 0 = t := Host.Outcome.next.inj ht
  exact absurd hempty (by decide +kernel)

end Sys2Proof.Machine
end

section
/-!
LCLK ticks and Census periods, and the statement O48 (11 R284, R286, 17 R459 to R462).
-/

namespace Sys2Proof.Machine

/-! ### LCLK ticks -/

/-- No Census period of a paddock ends at its Tide. -/
def Paddock.midPeriod (q : Paddock) : Prop :=
  q.running = true → q.domOn domSD = true → q.census.cfgSet = true ∨ q.census.pendCfg ≠ none →
    q.now < (q.census.nextK + 1) * q.census.periodNow

theorem State.censusBoundary_midPeriod {s : State} {d : Die} (h : (s.pad d).midPeriod) : s.censusBoundary d = s := by
  unfold State.censusBoundary
  refine if_pos ?_
  by_contra hcond
  simp only [Bool.or_eq_true, Bool.not_eq_true', Bool.and_eq_true, decide_eq_true_eq, not_or, not_and, Bool.not_eq_false,
    Option.isNone_iff_eq_none] at hcond
  obtain ⟨⟨⟨hrun, hon⟩, hset⟩, hdue⟩ := hcond
  refine hdue (h hrun hon ?_)
  cases hcfg : (s.pad d).census.cfgSet with
  | true => exact .inl rfl
  | false => exact .inr (hset hcfg)

theorem Paddock.now_tick (q : Paddock) (hrun : q.running = true) :
    (q.aon.tick q.running).tideFx / 2 ^ 24 = max q.now (1000 * (q.aon.ticks + 1)) := by
  simp only [AlwaysOn.tick, hrun, if_true, Paddock.now]
  omega

/-- A tick that ends no Census period and meets no paddock inside Nightfold counts, and does nothing else. -/
theorem State.lclk_eq_countTick {s : State} (hnf : ∀ x a, (s.pad x).ebb.nf ≠ .inside a)
    (hcensus : ∀ x, (s.pad x).running = true → (s.pad x).domOn domSD = true →
      (s.pad x).census.cfgSet = true ∨ (s.pad x).census.pendCfg ≠ none →
      max (s.pad x).now (1000 * ((s.pad x).aon.ticks + 1)) < ((s.pad x).census.nextK + 1) * (s.pad x).census.periodNow) :
    s.lclk = s.countTick := by
  have hmid : ∀ d, (s.countTick.pad d).midPeriod := by
    intro d
    rw [s.pad_countTick]
    split
    next hpor =>
      intro hrun
      simp [Paddock.running, hpor] at hrun
    next =>
      intro hrun hon hcfg
      have hpad : (s.pad d).running = true := by
        have hboot : ((s.pad d).boot.strapTick d (s.pad d).aon.ticks).poreset = (s.pad d).boot.poreset ∧
            ((s.pad d).boot.strapTick d (s.pad d).aon.ticks).padreset = (s.pad d).boot.padreset := by
          unfold Boot.strapTick; split <;> exact ⟨rfl, rfl⟩
        simpa only [Paddock.running, hboot.1, hboot.2] using hrun
      have hlt := hcensus d hpad hon hcfg
      rwa [← Paddock.now_tick _ hpad] at hlt
  have hbound : s.countTick.censusBoundaries = s.countTick :=
    List.foldl_eq_self_of_mem fun d _ => State.censusBoundary_midPeriod (hmid d)
  have hbanks : ∀ d, s.countTick.banksAt d = s.countTick := by
    intro d
    have hebb : (s.countTick.pad d).ebb = (s.pad d).ebb := by rw [s.pad_countTick]; split <;> rfl
    unfold State.banksAt
    split
    next a ha => exact absurd (hebb ▸ ha) (hnf d a)
    next => rfl
  rw [State.lclk, hbound]
  exact List.foldl_eq_self_of_mem fun d _ => hbanks d

theorem State.lclkLost_eq {s : State} {d : Die} (hpor : (s.pad d).boot.poreset = false) :
    s.lclkLost d = if 3000 * 2 ^ 24 < (s.pad d).aon.gapFx ∨ 1500 ≤ (s.pad d).aon.soscGap then s.stick d 4 else s := by
  unfold State.lclkLost
  refine if_congr ?_ rfl rfl
  simp [hpor]

/-! ### The end of a period (17 R460) -/

/-- The configuration that waits asks for CLEAR. -/
def Census.clears (x : Census) : Bool :=
  match x.pendCfg with
  | some c => c.clear
  | none => false

/-- A paddock's banks and its Census as a period that writes no records ends. -/
def Paddock.periodEnds (q : Paddock) : Paddock :=
  let x := q.census
  let cfg := x.pendCfg.getD x.cfg
  let c : Census := { x with
    selchg := false, cleared := x.clears, cfg := cfg, pendCfg := none, cfgSet := true
    capEnd := (x.nextK + 1) * x.periodNow
    nextK := max (if x.pendCfg.isSome then 0 else x.nextK + 1) (q.now / max 1 cfg.period) }
  { q with
    folds := q.folds.map fun f => { f with census := { f.census with restart := false, selchg := false } }
    census := c }

theorem State.captureCycle_ungated {s : State} {d : Die} (h : ∀ p : PFold, (s.power d p).gated = false) :
    s.captureCycle d = s := by
  refine List.foldl_eq_self_of_mem fun p _ => ?_
  simp only [h p, Bool.false_and, Bool.false_eq_true, if_false]

theorem State.censusBoundary_quiet {s : State} {d : Die} (hrun : (s.pad d).running = true)
    (hon : (s.pad d).domOn domSD = true) (hgated : ∀ p : PFold, (s.power d p).gated = false)
    (hset : (s.pad d).census.cfgSet = true) (hen : (s.pad d).census.cfg.en = false)
    (hdue : ((s.pad d).census.nextK + 1) * (s.pad d).census.cfg.period ≤ (s.pad d).now) :
    s.censusBoundary d = s.modPad d fun q =>
      if q.census.clears then q.periodEnds.censusClear else q.periodEnds := by
  have hperiod : (s.pad d).census.periodNow = (s.pad d).census.cfg.period := by simp only [Census.periodNow, hset, if_true]
  have hdue' : decide ((s.pad d).now < ((s.pad d).census.nextK + 1) * (s.pad d).census.cfg.period) = false :=
    decide_eq_false (Nat.not_lt.mpr hdue)
  have hquiet : ∀ f : Paddock → Paddock, (∀ q, (f q).ebb = q.ebb) → (s.modPad d f).captureCycle d = s.modPad d f := by
    intro f hf
    refine State.captureCycle_ungated fun p => ?_
    rw [State.power, State.pad_modPad_same, hf]
    exact hgated p
  simp only [State.censusBoundary, hperiod, hrun, hon, hset, hen, hdue', Bool.not_true, Bool.or_self, Bool.false_or,
    Bool.false_and, Bool.and_false, Bool.false_eq_true, if_false]
  cases hpend : (s.pad d).census.pendCfg with
  | none =>
    refine Eq.trans (hquiet _ fun q => ?_) (State.modPad_congr ?_)
    · rfl
    simp only [hpend, Census.clears, Paddock.periodEnds, hperiod] <;> rfl
  | some c =>
    cases hclear : c.clear with
    | false =>
      simp only [hclear, Bool.false_eq_true, if_false]
      refine Eq.trans (hquiet _ fun q => ?_) (State.modPad_congr ?_)
      · rfl
      simp only [hpend, hclear, Census.clears, Paddock.periodEnds, hperiod] <;> rfl
    | true =>
      simp only [hclear, if_true, State.modPad_modPad]
      refine Eq.trans (hquiet _ fun q => ?_) (State.modPad_congr ?_)
      · rfl
      simp only [hpend, hclear, Census.clears, Paddock.periodEnds, hperiod] <;> rfl

/-- Settles O48: a tick that ends no period counts; a period that ends unwritten is one change of its paddock. -/
theorem ticksAndPeriods : Obligations.TicksAndPeriods := by
  unfold Obligations.TicksAndPeriods
  refine ⟨fun s => ⟨fun hnf hcensus => ?_, fun d => ⟨fun hpor => ?_, fun hpor => ?_⟩⟩, fun s d => ?_⟩
  · refine ⟨s.countTick, congrArg Host.Outcome.next (State.lclk_eq_countTick hnf hcensus), rfl, rfl, rfl, rfl, fun d => ?_⟩
    rw [s.pad_countTick]
    exact ⟨fun hpor => if_pos hpor, fun hpor => (if_neg (Bool.eq_false_iff.mp hpor)).trans rfl⟩
  · refine congrArg Host.Outcome.next ?_
    simp only [State.lclkLost, hpor, Bool.not_true, Bool.false_and, Bool.false_eq_true, if_false]
  · exact congrArg Host.Outcome.next (State.lclkLost_eq hpor)
  · intro q x
    refine ⟨fun hset hnow => ?_, fun hrun hon hgated hset hen hdue => ?_⟩
    · refine congrArg Host.Outcome.next (State.censusBoundary_midPeriod fun _ _ _ => ?_)
      rw [Census.periodNow, if_pos hset]
      exact hnow
    · have hop := State.censusBoundary_quiet hrun hon hgated hset hen hdue
      refine ⟨_, congrArg Host.Outcome.next hop, State.onlyPad_modPad s d _, ?_⟩
      rw [State.pad_modPad_same]
      have hkept : ∀ r : Paddock, (if q.census.clears then q.periodEnds.censusClear else q.periodEnds) = r →
          r.stream = q.stream ∧ r.shep = q.shep ∧ r.bell = q.bell ∧ r.census.cfg = x.pendCfg.getD x.cfg ∧
            r.census.pendCfg = none := by
        rintro r rfl
        split <;> exact ⟨rfl, rfl, rfl, rfl, rfl⟩
      obtain ⟨hstream, hshep, hbell, hcfg, hpend⟩ := hkept _ rfl
      refine ⟨hstream, hshep, hbell, hcfg, hpend, fun hnone => ?_, fun c hc hclear => ?_⟩
      · have hclears : q.census.clears = false := by simp only [Census.clears, show q.census.pendCfg = none from hnone]
        rw [if_neg (Bool.eq_false_iff.mp hclears)]
        refine ⟨?_, rfl, rfl⟩
        have hnone' : (s.pad d).census.pendCfg = none := hnone
        simp only [Paddock.periodEnds, q, hnone'] <;> rfl
      · have hclears : q.census.clears = true := by simp only [Census.clears, show q.census.pendCfg = some c from hc, hclear]
        rw [if_pos hclears]
        refine ⟨fun n => ?_, rfl, rfl, fun p => ⟨?_, ?_, fun n => ?_⟩⟩
        all_goals simp [Paddock.censusClear, Paddock.periodEnds, FoldCensus.zero, x, q]

end Sys2Proof.Machine
end

section
/-!
Writes of the Tether's registers, WINDOW_SWAP, and the statement O50 (16 R441, R442, R445, R446).
-/

namespace Sys2Proof.Machine

theorem State.regWrite_tether {s : State} {d : Die} (h : s.krovol.tether = some d) (o : Nat) (w : Who) (a : RegAddr) (v : Word) :
    s.regWrite d .tether o w a v = s.tetherWrite d o w a v := by
  simp only [State.regWrite, h, beq_self_eq_true, if_true]

/-- A write of the Tether's register at an offset, where it leaves the state `u` at once. -/
theorem State.WritesAs.tether {s u : State} {w : Who} {c : Instr} {a : RegAddr} {d : Die} {off : Nat} {v : Word}
    (hd : s.krovol.tether = some d) (hc : exec c s = .next (s.portAccess w a (some v)))
    (hwrite : s.tetherWrite d off { w with bar0 := false } a v = (u, false)) : s.WritesAs w c a ⟨.tether, off, d, false⟩ u :=
  .of_regWrite hc ((State.regWrite_tether hd off _ a v).trans hwrite)

/-- TAIL of a ring, by its offset. -/
theorem State.tetherWrite_tail (s : State) (d : Die) (q : QN) (w : Who) (a : RegAddr) (v : Word) :
    s.tetherWrite d (0x1000 + 0x20 * q.val + 0x0C) w a v = (s.writeTail d q v, false) := by
  generalize hoff : 0x1000 + 0x20 * q.val + 0x0C = off
  have hq : (Fin.ofNat 64 ((off - 0x1000) / 0x20) : QN) = q := Fin.ext (by simp [Fin.ofNat]; omega)
  have hshadow : shadowOff off = false := by simp [shadowOff]; omega
  have hsrc : (decide (0x400 ≤ off) && decide (off ≤ 0x460)) = false := by simp; omega
  have hring : (decide (0x1000 ≤ off) && decide (off < 0x1800)) = true := by simp; omega
  simp only [State.tetherWrite, hshadow, hsrc, hring, hq, Bool.false_eq_true, if_false, if_true,
    if_neg (show off ≠ 0 by omega), if_neg (show off ≠ 8 by omega), if_neg (show off ≠ 0x10 by omega),
    if_neg (show off ≠ 0x480 by omega), if_neg (show off ≠ 0x484 by omega), if_pos (show off % 0x20 = 0x0C by omega)]

/-- The conditions under which a vector's message goes out at once (16 R445). -/
theorem Tether.msixGo_of_open {t : Tether} {n : QN} (hup : t.linkUp = true) (hperst : t.perst = false) (h : t.VectorOpen n) :
    t.msixGo n = true := by
  obtain ⟨hen, hmask, hvector, hbme, hquiet, hd3, htlp, hflr⟩ := h
  simp [Tether.msixGo, Tether.upstream, hen, hmask, hbme, hquiet, hd3, htlp, hflr, hup, hperst]
  simpa using hvector

theorem Tether.msixGo_of_masked {t : Tether} {n : QN} (h : (t.msix[n]).masked = true ∨ t.bme = false) : t.msixGo n = false := by
  rcases h with h | h
  · simp [Tether.msixGo, -Fin.getElem_fin, h]
  · simp [Tether.msixGo, Tether.upstream, h]

/-- A write of WINCTL: W1C of the two result bits, and COMMIT, which asks for sound windows (16 R441). -/
theorem Tether.writeWinctl_eq (t : Tether) (v : Word) :
    t.writeWinctl v =
      (let u : Tether := { t with commitDone := t.commitDone && !bitAt v 2, commitErr := t.commitErr && !bitAt v 3 }
       if bitAt v 0 = true ∧ t.pending = false then
         (if t.windowsOk then { u with pending := true } else { u with commitErr := true })
       else u) := by
  have hclear : (let t := if bitAt v 2 then { t with commitDone := false } else t
      if bitAt v 3 then { t with commitErr := false } else t) =
        { t with commitDone := t.commitDone && !bitAt v 2, commitErr := t.commitErr && !bitAt v 3 } := by
    cases bitAt v 2 <;> cases bitAt v 3 <;> simp
  unfold Tether.writeWinctl
  simp only [hclear, Bool.and_eq_true, Bool.not_eq_true']
  rfl

/-- The register access ports that waited for the shadows: none did (16 R441). -/
theorem State.unstallShadows_eq_self {s : State} (h : s.tether.stalled = []) : s.unstallShadows = s := by
  unfold State.unstallShadows
  split
  · rfl
  · rw [h]
    show { s with tether := { s.tether with stalled := [] } } = s
    rw [← h]

/-- The Tether's state after WINDOW_SWAP is put in force by itself where nothing waited. -/
theorem exec_windowSwap {s : State} {d : Die} (hdie : s.tetherDie = some d) (hstalled : s.tether.stalled = []) :
    exec .windowSwap s = .next (s.modTether Tether.swap) := by
  have hswap : (s.modTether Tether.swap).tether.stalled = [] := by
    show s.tether.swap.stalled = []
    rw [← hstalled]
    unfold Tether.swap
    split <;> rfl
  show execWindowSwap s = _
  unfold execWindowSwap
  simp only [hdie]
  split
  case isTrue => rw [State.unstallShadows_eq_self hswap]
  case isFalse h => simp [State.modTether, Tether.swap, h]

/-- Settles O50. -/
theorem tetherRegistersTakeWrites : Obligations.TetherRegistersTakeWrites := by
  unfold Obligations.TetherRegistersTakeWrites
  intro s w v d hd t at' put
  refine ⟨?_, ?_, ?_, ?_, ?_, ?_⟩
  · intro q u
    refine .tether hd rfl ((State.tetherWrite_tail s d q _ _ v).trans (congrArg (·, false) ?_))
    have hmode : (((s.modTether fun t => t.modRing q fun r => { r with tail := v.extractLsb' 0 16 }).pad
      ((s.modTether fun t => t.modRing q fun r => { r with tail := v.extractLsb' 0 16 }).queueDie d)).shep.cq[q]).ringMode =
        ((s.pad (s.queueDie d)).shep.cq[q]).ringMode := rfl
    simp only [State.writeTail, hmode]
    by_cases h : ((s.pad (s.queueDie d)).shep.cq[q]).ringMode = true
    · rw [if_pos h, if_pos h]
      rfl
    · rw [if_neg h, if_neg h]
      rfl
  · intro n e
    have hn : (Fin.ofNat 64 (bits v 0 6) : QN) = n := Fin.ext (by simp [bits, n, Fin.ofNat])
    have heoi : s.msixEoi d v = if s.msixCond d n then s.msixDue d n else s := by simp only [State.msixEoi, hn]
    refine ⟨fun hno => ?_, fun hcond hup hopen => ?_, fun hcond hmasked => ?_⟩ <;>
      refine .tether hd rfl (congrArg (·, false) (heoi.trans ?_))
    · simp [hno]
    · obtain ⟨-, hlink, hperst⟩ := hup
      simp only [hcond, if_true, State.msixDue, Tether.msixGo_of_open hlink hperst hopen]
      rfl
    · have hgo : s.tether.msixGo n = false := Tether.msixGo_of_masked hmasked
      simp only [hcond, if_true, State.msixDue, hgo, Bool.false_eq_true, if_false]
      rfl
  · intro h
    refine .tether hd rfl (congrArg (·, false) ?_)
    have hquiet : (t.ltrEn && t.linkUp && !t.perst && t.flr.isNone && v != t.ltr) = false := by
      rcases h with h | h | h <;> simp [h]
    show State.writeLtr s d v = _
    simp only [State.writeLtr]
    rw [if_neg (by simpa using hquiet)]
    rfl
  · intro hltr hup hflr hv
    obtain ⟨-, hlink, hperst⟩ := hup
    refine .tether hd rfl (congrArg (·, false) ?_)
    have hsend : (t.ltrEn && t.linkUp && !t.perst && t.flr.isNone && v != t.ltr) = true := by
      simpa [hltr, hflr, t, hlink, hperst] using hv
    show State.writeLtr s d v = _
    simp only [State.writeLtr]
    rw [if_pos hsend]
    rfl
  · intro u
    exact .tether hd rfl (congrArg (fun t => (put t, false)) (Tether.writeWinctl_eq t v))
  · intro hdie hstalled
    exact exec_windowSwap hdie hstalled

end Sys2Proof.Machine
end

section
/-!
Flits that a ford or a culvert removes or passes, and the statement O17 (09 R249, R251, R252, 12 R310, 14 R370).
-/

namespace Sys2Proof.Machine

/-! ### What arrives at a spot -/

theorem Flit.heard_zero (f : Flit) : f.heard 0 = some f := rfl

@[simp] theorem State.wire_quiet (s : State) (d : Die) (net : Net) (a : Spot) : s.wire d net a 0 = (s, true) := by
  unfold State.wire
  split
  · rfl
  · simp only [Flit.heard_zero, beq_self_eq_true, if_true]

theorem State.wire_broken {s : State} {d : Die} {net : Net} {a : Spot} {f : Flit} {noise : Nat}
    (hat : (s.pad d).stream.at' net a = some f) (hbad : f.heard noise = none) : s.wire d net a noise = (s, false) := by
  simp only [State.wire, hat, hbad]

theorem State.wire_empty {s : State} {d : Die} {net : Net} {a : Spot} (hat : (s.pad d).stream.at' net a = none) (noise : Nat) :
    s.wire d net a noise = (s, true) := by
  simp only [State.wire, hat]

/-! ### A flit that is removed (09 R251, R252) -/

theorem State.Frame.linkFail {α : Type} {p : Paddock → α} {s t : State} (h : s.Frame p t)
    (haon : ∀ q x, p { q with aon := x } = p q) (hbell : ∀ q b, p { q with bell := b } = p q)
    (hshep : ∀ q x, p { q with shep := x } = p q) (d : Die) (net : Net) (ring stage : Nat) :
    s.Frame p (t.linkFail d net ring stage) := by
  unfold State.linkFail
  have hcount := h.modPad d (fun q => { q with aon := { q.aon with linkFails :=
    (countFail (t.pad d).aon.linkFails (netNo net).val .tally (ring * 26 + stage) (t.pad d).now).1 } }) fun q => haon q _
  exact .ite (hcount.hurdleAppend (fun q _ _ => haon q _) hbell hshep d _) hcount

/-- A flit whose check failed is taken off, its ford's link is counted, and 0x701 names the stage. -/
theorem State.dropFlit_spec (s : State) (d : Die) (net : Net) (a : Spot) :
    s.Frame (fun q => (q.folds, q.gates)) (s.dropFlit d net a) ∧
    ((s.dropFlit d net a).pad d).stream = (s.pad d).stream.take net a ∧
    s.segReport d 0x701 (streamAgent d) (stageDetail net (spotStage a)) ∈ ((s.dropFlit d net a).pad d).bell.inbox := by
  let r := s.segReport d 0x701 (streamAgent d) (stageDetail net (spotStage a))
  let u := (s.modPad d fun q => q.took net a).modPad d fun q => q.receive r
  have hdrop : s.dropFlit d net a = u.linkFail d net (spotRing a) (spotStage a) := by
    have hfile : (s.modPad d fun q => q.took net a).file d r = u := State.file_own (dieOf_streamAgent d) rfl
    rw [← hfile]
    rfl
  have hframe : u.Frame (fun q => (q.folds, q.gates, q.stream)) (s.dropFlit d net a) :=
    hdrop ▸ (State.Frame.refl _ u).linkFail (fun _ _ => rfl) (fun _ _ => rfl) (fun _ _ => rfl) d net _ _
  have hu : s.Frame (fun q => (q.folds, q.gates)) u :=
    ((State.Frame.refl _ s).modPad d (fun q => q.took net a) fun _ => rfl).modPad d (fun q => q.receive r) fun _ => rfl
  refine ⟨⟨hframe.tether.trans hu.tether, hframe.fresh.trans hu.fresh, fun x => ?_⟩, ?_, ?_⟩
  · have hx := hframe.pads x
    simp only [Prod.mk.injEq] at hx
    obtain ⟨hfolds, hgates, -⟩ := hx
    exact (Prod.ext hfolds hgates : _ = ((u.pad x).folds, (u.pad x).gates)).trans (hu.pads x)
  · refine (congrArg (·.2.2) (hframe.pads d)).trans ?_
    simp [u, Paddock.receive, Paddock.took]
  · rw [hdrop]
    refine (State.InboxesKept.refl u).linkFail d net _ _ d ?_
    simp [u, Paddock.receive, r]

/-- A flit for an agent that is not configured is taken off and reported; its paddock keeps its units. -/
theorem State.dropStray_units (s : State) (d : Die) (net : Net) (a : Spot) (f : Flit) :
    (s.pad d).SameUnits ((s.dropStray d net a f).pad d) ∧
    ((s.dropStray d net a f).pad d).stream = (s.pad d).stream.take net a := by
  let parts (q : Paddock) := (q.aon, q.repl, q.boot, q.folds, q.gates, q.stiles, q.shep, q.stream)
  have hframe : (s.modPad d fun q => q.took net a).Frame parts (s.dropStray d net a f) :=
    (State.Frame.refl _ _).file (fun _ _ => rfl) d rfl
  have hd : parts ((s.dropStray d net a f).pad d) = parts ((s.pad d).took net a) := by
    rw [hframe.pads d, State.pad_modPad_same]
  simp only [parts, Prod.mk.injEq] at hd
  obtain ⟨haon, hrepl, hboot, hfolds, hgates, hstiles, hshep, hstream⟩ := hd
  exact ⟨⟨haon, hrepl, hboot, hfolds, hgates, hstiles, hshep⟩, hstream⟩

/-- Where the sender is of the die itself, its own Bell is told, and no other paddock. -/
theorem State.dropStray_own (s : State) (d : Die) (net : Net) (a : Spot) {f : Flit} (hsrc : dieOf f.src = d) :
    s.dropStray d net a f = (s.modPad d fun q => q.took net a).modPad d fun q => q.receive
      { s.segReport d 0x702 f.src (stageDetail net (spotStage a)) with addr := f.addr, atype := f.atype } :=
  State.file_own hsrc rfl

/-! ### A wake (14 R370, R380) -/

section
variable {α : Type} {p : Paddock → α} {s t : State} (hebb : ∀ q x, p { q with ebb := x } = p q)
include hebb

theorem State.Frame.nfWake (haon : ∀ q x, p { q with aon := x } = p q) (h : s.Frame p t) : s.Frame p t.nfWake := by
  refine h.foldl _ _ fun u x hu => hu.modPad x _ fun q => ?_
  have hboth : ∀ q x y, p { q with ebb := x, aon := y } = p q := fun q x y => (haon { q with ebb := x } y).trans (hebb q x)
  dsimp only
  split
  · split <;> exact hboth q _ _
  · split
    · exact hebb q _
    · rfl

theorem State.Frame.domOnReq (h : s.Frame p t) (d : Die) (i : DomN) : s.Frame p (t.domOnReq d i) :=
  .ite h (h.modPad d _ fun q => hebb q _)

theorem State.Frame.startWake (hboot : ∀ q x, p { q with boot := x } = p q) (h : s.Frame p t) (d : Die) (n : PFold) :
    s.Frame p (t.startWake d n) := by
  unfold State.startWake
  have hwaking := h.modPad d (fun q => { q with ebb := { q.ebb with
    fold := vmod q.ebb.fold n fun x => { x with waking := some (t.pad d).now } } }) fun q => hebb q _
  have hfa := State.Frame.ite (c := ((t.modPower d n fun x => { x with waking := some (t.pad d).now }).pad d).domOn (domFA n))
    hwaking (((hwaking.modPad d (fun q => { q with boot := { q.boot with
      selfTested := putBit q.boot.selfTested n.val false
      arrayInit := putBit q.boot.arrayInit n.val false } }) fun q => hboot q _).domOnReq hebb d (domFA n)))
  exact .ite h (.ite (hfa.domOnReq hebb d _) hfa)

theorem State.Frame.wakeFold (hboot : ∀ q x, p { q with boot := x } = p q) (hcensus : ∀ q x, p { q with census := x } = p q)
    (hfolds : ∀ q x, p { q with folds := x } = p q) (h : s.Frame p t) (d : Die) (n : PFold) (unit : Nat) :
    s.Frame p (t.wakeFold d n unit) := by
  have hpower : ∀ f, s.Frame p (t.modPower d n f) := fun f => h.modPad d _ fun q => hebb q _
  have hslept : s.Frame p (if ((t.pad d).repl.carries d n).isNone || (t.power d n).waking.isSome then t
      else ((t.modPower d n fun x => { x with target := .doze, woken := true }).startWake d n).pcount d 0x31 unit) :=
    .ite h (((hpower _).startWake hebb hboot d n).pcount hcensus d _ _)
  have hclocked : s.Frame p (if (t.power d n).gated then
      (t.modPower d n fun x => { x with gated := false, state := .run }).modFold d n fun f =>
        { f with census := foldCount 0x38 8 f.census } else t) :=
    .ite ((hpower _).modPad d _ fun q => hfolds q _) h
  unfold State.wakeFold
  dsimp only
  split
  · exact (hpower _).pcount hcensus d _ _
  · exact hslept
  · exact hslept
  · exact hclocked
  · exact hclocked

end

/-! ### The wake of a fold that sleeps (14 R370) -/

theorem Ebb.raiseNext_fold (e : Ebb) (ticks : Nat) : (e.raiseNext ticks).fold = e.fold := by
  unfold Ebb.raiseNext
  dsimp only
  split
  · rfl
  · split <;> rfl

theorem State.fold_domOnReq (s : State) (d : Die) (i : DomN) : ((s.domOnReq d i).pad d).ebb.fold = (s.pad d).ebb.fold := by
  unfold State.domOnReq
  dsimp only
  split
  · rfl
  · simp only [State.modEbb, State.pad_modPad_same, Ebb.raiseNext_fold]

theorem State.OnlyPad.domOnReq {s t : State} {d : Die} (h : s.OnlyPad t d) (i : DomN) : s.OnlyPad (t.domOnReq d i) d := by
  unfold State.domOnReq
  dsimp only
  split
  · exact h
  · exact h.modPad _

/-- The wake of a fold begins: its time is noted. -/
theorem State.startWake_spec {s : State} {d : Die} {p : PFold} (h : (s.power d p).waking = none) :
    s.OnlyPad (s.startWake d p) d ∧ ((s.startWake d p).pad d).ebb.fold =
      vmod (s.pad d).ebb.fold p fun x => { x with waking := some (s.pad d).now } := by
  have hw : s.OnlyPad (s.modPower d p fun x => { x with waking := some (s.pad d).now }) d := (State.OnlyPad.refl s d).modPad _
  have hfold : ((s.modPower d p fun x => { x with waking := some (s.pad d).now }).pad d).ebb.fold =
      vmod (s.pad d).ebb.fold p fun x => { x with waking := some (s.pad d).now } := by
    simp [State.modPower, State.modEbb]
  unfold State.startWake
  simp only [h, Option.isSome_none, Bool.false_eq_true, if_false]
  generalize s.modPower d p (fun x => { x with waking := some (s.pad d).now }) = u at hw hfold ⊢
  have hfa : ∀ v : State, s.OnlyPad v d → (v.pad d).ebb.fold = (u.pad d).ebb.fold →
      s.OnlyPad (if (v.pad d).domOn (domFA p) then v.domOnReq d (domFL p) else v) d ∧
      ((if (v.pad d).domOn (domFA p) then v.domOnReq d (domFL p) else v).pad d).ebb.fold = (u.pad d).ebb.fold := by
    intro v hv hvf
    split
    · exact ⟨hv.domOnReq _, (State.fold_domOnReq v d _).trans hvf⟩
    · exact ⟨hv, hvf⟩
  rw [← hfold]
  apply hfa
  · split
    · exact hw
    · exact (hw.modPad _).domOnReq _
  · split
    · rfl
    · rw [State.fold_domOnReq, State.pad_modPad_same]

/-- A request at a sleeping fold wakes it towards DOZE. -/
theorem State.wakeFold_slept {s : State} {d : Die} {p : PFold} (unit : Nat)
    (hcarries : ((s.pad d).repl.carries d p).isSome = true) (hwaking : (s.power d p).waking = none)
    (hslept : (s.power d p).state = .retain ∨ (s.power d p).state = .off) :
    s.OnlyPad (s.wakeFold d p unit) d ∧ s.Frame (fun q => (q.stream, q.folds)) (s.wakeFold d p unit) ∧
    ((s.wakeFold d p unit).pad d).ebb.fold = vmod (s.pad d).ebb.fold p fun x =>
      { x with target := .doze, woken := true, waking := some (s.pad d).now } := by
  have hnone : ((s.pad d).repl.carries d p).isNone = false := by simpa [Option.isNone_eq_false_iff] using hcarries
  have hwake : s.wakeFold d p unit =
      ((s.modPower d p fun x => { x with target := .doze, woken := true }).startWake d p).pcount d 0x31 unit := by
    unfold State.wakeFold
    rcases hslept with h | h <;> simp only [h, hnone, hwaking, Option.isSome_none, Bool.or_self, Bool.false_eq_true, if_false]
  let u := s.modPower d p fun x => { x with target := .doze, woken := true }
  have hu : (u.power d p).waking = none := by
    simpa [u, State.power, State.modPower, State.modEbb, vmod] using hwaking
  obtain ⟨honly, hfold⟩ := State.startWake_spec hu
  rw [hwake]
  refine ⟨(((State.OnlyPad.refl s d).modPad _).trans honly).modPad _, ?_, ?_⟩
  · have hframe : s.Frame (fun q => (q.stream, q.folds)) u := (State.Frame.refl _ s).modPad d _ fun _ => rfl
    exact (hframe.startWake (fun _ _ => rfl) (fun _ _ => rfl) d p).pcount (fun _ _ => rfl) d _ _
  rw [State.pad_pcount_same]
  refine hfold.trans ?_
  have hpad : (u.pad d).ebb.fold = vmod (s.pad d).ebb.fold p fun x => { x with target := .doze, woken := true } := by
    simp [u, State.modPower, State.modEbb]
  rw [hpad, vmod_vmod]
  have hnow : (u.pad d).now = (s.pad d).now := by simp [u, State.modPower, State.modEbb, Paddock.now]
  rw [hnow]

/-! ### A flit at a culvert (09 R249) -/

section
variable {s : State} {d : Die} {net : Net} {a : Spot} {f : Flit} (hat : (s.pad d).stream.at' net a = some f)
  (hrun : (s.pad d).running = true) (hculvert : s.culvert d (spotPos a) = true)
include hat hrun hculvert

theorem State.culvertAt_bad : s.culvertAt d net a false = (s.modPad d fun q => q.took net a).stick d 2 := by
  simp only [State.culvertAt, hat, hrun, hculvert, Bool.not_true, Bool.or_self, Bool.false_eq_true, if_false,
    Bool.not_false, if_true]
  rfl

theorem State.culvertAt_elsewhere (h : dieOf f.tgt ≠ d ∨ s.destPos d f ≠ spotPos a) :
    s.culvertAt d net a true = s.modPad d fun q => q.passed net a f := by
  have helse : (dieOf f.tgt != d || s.destPos d f != spotPos a) = true := by simpa using h
  simp only [State.culvertAt, hat, hrun, hculvert, helse, Bool.not_true, Bool.or_self, Bool.false_eq_true, if_false, if_true]
  rfl

variable (hdie : dieOf f.tgt = d) (hpos : s.destPos d f = spotPos a)
include hdie hpos

theorem State.culvertAt_answer (hconf : s.krovol.configured f.tgt = true) (hnet : net = .rsp ∨ net = .dat) :
    s.culvertAt d net a true = (s.modPad d fun q => q.took net a).stick d 3 := by
  have hreq : (net == .req || net == .snp) = false := by rcases hnet with rfl | rfl <;> rfl
  simp only [State.culvertAt, hat, hrun, hculvert, hpos, hconf, hreq, Bool.not_true, Bool.or_self, Bool.false_eq_true,
    if_false, hdie, bne_self_eq_false, Bool.false_and]
  rfl

theorem State.culvertAt_stray (hconf : s.krovol.configured f.tgt = false) (hstream : localOf f.tgt ≠ 124) :
    s.culvertAt d net a true = s.dropStray d net a f := by
  have hlocal : (localOf f.tgt != 124) = true := by simpa using hstream
  simp only [State.culvertAt, hat, hrun, hculvert, hpos, hconf, hlocal, Bool.not_true, Bool.or_self, Bool.false_eq_true,
    if_false, hdie, bne_self_eq_false, Bool.not_false, Bool.and_self, if_true]

/-- A request or snoop for the agent that is bypassed passes, is counted, and wakes. -/
theorem State.culvertAt_request (hconf : s.krovol.configured f.tgt = true) (hnet : net = .req ∨ net = .snp) :
    s.culvertAt d net a true =
      (let u := (s.modPad d fun q => q.passed net a f).pcount d 0x15 (netNo net).val
       let v := if net == .req && localOf f.src != 127 && (u.pad d).wakeEn 0 then u.nfWake else u
       match posFold (spotPos a) with
       | some p => v.wakeFold d p 0
       | none => v) := by
  have hreq : (net == .req || net == .snp) = true := by rcases hnet with rfl | rfl <;> rfl
  simp only [State.culvertAt, hat, hrun, hculvert, hpos, hconf, hreq, Bool.not_true, Bool.or_self, Bool.false_eq_true,
    if_false, hdie, bne_self_eq_false, Bool.false_and, if_true] <;> rfl

end

theorem State.culvertAt_idle {s : State} {d : Die} {net : Net} {a : Spot} (h : (s.pad d).running = false ∨ s.culvert d (spotPos a) = false) :
    s.culvertAt d net a true = s := by
  have hidle : (!(s.pad d).running || !s.culvert d (spotPos a)) = true := by rcases h with h | h <;> simp [h]
  unfold State.culvertAt
  simp only [hidle, if_true]
  split <;> rfl

/-- The Stream after a request or snoop passed a culvert. -/
theorem State.stream_culvertAt_request {s : State} {d : Die} {net : Net} {a : Spot} {f : Flit}
    (hat : (s.pad d).stream.at' net a = some f) (hrun : (s.pad d).running = true) (hculvert : s.culvert d (spotPos a) = true)
    (hdie : dieOf f.tgt = d) (hpos : s.destPos d f = spotPos a) (hconf : s.krovol.configured f.tgt = true)
    (hnet : net = .req ∨ net = .snp) :
    ((s.culvertAt d net a true).pad d).stream = (s.pad d).stream.pass net a f := by
  rw [State.culvertAt_request hat hrun hculvert hdie hpos hconf hnet]
  let u := (s.modPad d fun q => q.passed net a f).pcount d 0x15 (netNo net).val
  have hu : (u.pad d).stream = (s.pad d).stream.pass net a f := by simp [u, Paddock.passed]
  have hv : u.Frame (·.stream) (if net == .req && localOf f.src != 127 && (u.pad d).wakeEn 0 then u.nfWake else u) :=
    .ite ((State.Frame.refl _ u).nfWake (fun _ _ => rfl) (fun _ _ => rfl)) (.refl _ u)
  dsimp only
  split
  · exact ((hv.wakeFold (fun _ _ => rfl) (fun _ _ => rfl) (fun _ _ => rfl) (fun _ _ => rfl) d _ 0).pads d).trans hu
  · exact (hv.pads d).trans hu

/-! ### The statement -/

/-- A flit at a culvert, its bits as they were. -/
theorem exec_culvertFlit_quiet (s : State) (d : Die) (net : Net) (a : Spot) :
    exec (.culvertFlit d net a 0) s = .next (s.culvertAt d net a true) := by
  show execCulvertFlit d net a 0 s = _
  simp only [execCulvertFlit, State.wire_quiet]

/-- A flit at a ford whose check fails. -/
theorem badFlit_removed {s : State} {d : Die} {a : Spot} {noise : Nat} {f : Flit} (hat : (s.pad d).stream.at' .req a = some f)
    (hbad : f.heard noise = none) (harr : s.arrived d .req a false = .badCrc) :
    ∃ t, exec (.reqFlitArrival d a noise) s = .next t ∧
      t.krovol = s.krovol ∧ t.tether = s.tether ∧ t.pending = s.pending ∧
      (t.pad d).stream = (s.pad d).stream.take .req a ∧
      s.segReport d 0x701 (streamAgent d) (stageDetail .req (spotStage a)) ∈ (t.pad d).bell.inbox ∧
      (t.pad d).folds = (s.pad d).folds ∧ (t.pad d).gates = (s.pad d).gates := by
  have hexec : exec (.reqFlitArrival d a noise) s = .next (s.dropFlit d .req a) := by
    show execReqFlitArrival d a noise s = _
    simp only [execReqFlitArrival, State.wire_broken hat hbad, State.reqArrival, harr]
  obtain ⟨t, ht, hkrovol, hpending, -⟩ := commandsKeepParametersQueueAndTime (.reqFlitArrival d a noise) s
  obtain rfl : t = s.dropFlit d .req a := Host.Outcome.next.inj (ht.symm.trans hexec)
  obtain ⟨hframe, hstream, hinbox⟩ := State.dropFlit_spec s d .req a
  have hunits := Prod.mk.inj (hframe.pads d)
  exact ⟨_, hexec, hkrovol, hframe.tether, hpending, hstream, hinbox, hunits.1, hunits.2⟩

/-- A snoop at a ford whose agent is not configured. -/
theorem straySnoop_removed {s : State} {d : Die} {a : Spot} {f : Flit} (harr : s.arrived d .snp a true = .noAgent f) :
    ∃ t, exec (.snpFlitArrival d a 0) s = .next t ∧
      (s.pad d).SameUnits (t.pad d) ∧ (t.pad d).stream = (s.pad d).stream.take .snp a ∧
      (dieOf f.src = d → s.OnlyPad t d ∧ (s.pad d).Filed (t.pad d)
        { s.segReport d 0x702 f.src (stageDetail .snp (spotStage a)) with addr := f.addr, atype := f.atype }) := by
  have hexec : exec (.snpFlitArrival d a 0) s = .next (s.dropStray d .snp a f) := by
    show execSnpFlitArrival d a 0 s = _
    simp only [execSnpFlitArrival, State.wire_quiet, State.snpArrival, harr]
  obtain ⟨hunits, hstream⟩ := State.dropStray_units s d .snp a f
  refine ⟨_, hexec, hunits, hstream, fun hsrc => ?_⟩
  rw [State.dropStray_own s d .snp a hsrc]
  refine ⟨((State.OnlyPad.refl s d).modPad _).modPad _, ?_⟩
  rw [Paddock.Filed, State.pad_modPad_same, State.pad_modPad_same]
  rfl

@[simp] theorem localOf_agent (d : Die) {l : Nat} (hl : l < 128) : localOf (agent d l) = l := by
  have hd := d.isLt
  simp only [localOf, agent, BitVec.toNat_ofNat]
  omega

@[simp] theorem dieOf_agent (d : Die) {l : Nat} (hl : l < 128) : dieOf (agent d l) = d := by
  have hd := d.isLt
  refine Fin.ext ?_
  simp only [dieOf, agent, BitVec.toNat_ofNat, Fin.ofNat]
  omega

/-- A snoop whose agent is configured is for a configured agent; one for the Muster is for the Stream segment itself. -/
theorem Krovol.configured_snp {k : Krovol} {f : SnpFlit} (h : k.configured f.tgt = true) : k.configured (Flit.snp f).tgt = true := by
  unfold Flit.tgt
  dsimp only
  split
  · have hlocal : localOf (agent (dieOf f.tgt) 124) = 124 := localOf_agent _ (by decide)
    simp [Krovol.configured, hlocal]
  · exact h

/-- A snoop at the culvert of a sleeping fold. -/
theorem snoop_wakes {s : State} {d : Die} {a : Spot} {f : SnpFlit} {p : PFold} (hrun : (s.pad d).running = true)
    (hat : (s.pad d).stream.at' .snp a = some (.snp f)) (hculvert : s.culvert d (spotPos a) = true)
    (hdie : dieOf (Flit.snp f).tgt = d) (hpos : s.destPos d (.snp f) = spotPos a) (hconf : s.krovol.configured f.tgt = true)
    (hfold : posFold (spotPos a) = some p) (hcarries : ((s.pad d).repl.carries d p).isSome = true)
    (hwaking : (s.power d p).waking = none) (hslept : (s.power d p).state = .retain ∨ (s.power d p).state = .off) :
    ∃ t, exec (.culvertFlit d .snp a 0) s = .next t ∧ s.OnlyPad t d ∧
      (t.pad d).stream = (s.pad d).stream.pass .snp a (.snp f) ∧
      (t.power d p).target = .doze ∧ (t.power d p).woken = true ∧ (t.power d p).waking = some (s.pad d).now ∧
      (t.power d p).state = (s.power d p).state ∧
      (∀ n, n ≠ p → t.power d n = s.power d n) ∧ (t.pad d).folds = (s.pad d).folds := by
  let u := (s.modPad d fun q => q.passed .snp a (.snp f)).pcount d 0x15 1
  have hu : s.OnlyPad u d := ((State.OnlyPad.refl s d).modPad _).modPad _
  have hpad : u.pad d = ((s.pad d).passed .snp a (.snp f) |> fun q => { q with census := padCount 0x15 1 16 q.census }) := by
    simp [u]
  have hpower : ∀ n, u.power d n = s.power d n := fun n => by rw [State.power, hpad]; rfl
  have hculv : s.culvertAt d .snp a true = u.wakeFold d p 0 := by
    rw [State.culvertAt_request hat hrun hculvert hdie hpos (Krovol.configured_snp hconf) (.inr rfl), hfold]
    rfl
  obtain ⟨honly, hframe, hfolds⟩ := State.wakeFold_slept (s := u) (p := p) 0 (by rw [hpad]; exact hcarries)
    ((hpower p) ▸ hwaking) ((hpower p) ▸ hslept)
  have hunits := Prod.mk.inj (hframe.pads d)
  have hwoken : (u.wakeFold d p 0).power d p =
      { s.power d p with target := .doze, woken := true, waking := some (s.pad d).now } := by
    rw [State.power, hfolds, vmod_get_same, ← State.power, hpower, hpad]
    rfl
  refine ⟨_, (exec_culvertFlit_quiet s d .snp a).trans (congrArg _ hculv), hu.trans honly, ?_, ?_, ?_, ?_, ?_, fun n hn => ?_, ?_⟩
  · rw [hunits.1, hpad]
    rfl
  · rw [hwoken]
  · rw [hwoken]
  · rw [hwoken]
  · rw [hwoken]
  · rw [State.power, hfolds, vmod_get_other _ _ _ _ hn, ← State.power, hpower]
  · rw [hunits.2, hpad]
    rfl

/-- Settles O17. -/
theorem badFlitsAndCulverts : Obligations.BadFlitsAndCulverts := by
  unfold Obligations.BadFlitsAndCulverts
  refine ⟨fun s d a noise f => ⟨badFlit_removed, straySnoop_removed⟩, ?_,
    fun s d a f p hrun hat hculvert hdie hpos hconf hfold hcarries hwaking hslept =>
      snoop_wakes hrun hat hculvert hdie hpos hconf hfold hcarries hwaking hslept⟩
  intro s d net a
  refine ⟨fun hat noise => ?_, fun h => ?_, fun f hrun hat hculvert => ⟨fun noise hbad => ?_, fun h => ?_, fun hdie hpos => ?_⟩⟩
  · show execCulvertFlit d net a noise s = _
    simp only [execCulvertFlit, State.wire_empty hat, State.culvertAt, hat]
  · rw [exec_culvertFlit_quiet, State.culvertAt_idle h]
  · show execCulvertFlit d net a noise s = _
    simp only [execCulvertFlit, State.wire_broken hat hbad, State.culvertAt_bad hat hrun hculvert]
  · rw [exec_culvertFlit_quiet, State.culvertAt_elsewhere hat hrun hculvert h]
  · refine ⟨fun hconf hnet => ?_, fun hconf hnet => ?_, fun hconf hlocal => ?_⟩
    · rw [exec_culvertFlit_quiet, State.culvertAt_answer hat hrun hculvert hdie hpos hconf hnet]
    · exact ⟨_, exec_culvertFlit_quiet s d net a, State.stream_culvertAt_request hat hrun hculvert hdie hpos hconf hnet⟩
    · refine ⟨_, exec_culvertFlit_quiet s d net a, ?_⟩
      rw [State.culvertAt_stray hat hrun hculvert hdie hpos hconf hlocal]
      exact State.dropStray_units s d net a f

end Sys2Proof.Machine
end

section
/-!
Requests and snoops that arrive, and the statement O16 (03 R73, R74, 09 R240 to R242, 17 R458, 19 R503).
-/

namespace Sys2Proof.Machine

theorem exec_reqFlitArrival_quiet (s : State) (d : Die) (a : Spot) :
    exec (.reqFlitArrival d a 0) s = .next (s.reqArrival d a true) := by
  show execReqFlitArrival d a 0 s = _
  simp only [execReqFlitArrival, State.wire_quiet]

theorem exec_snpFlitArrival_quiet (s : State) (d : Die) (a : Spot) :
    exec (.snpFlitArrival d a 0) s = .next (s.snpArrival d a true) := by
  show execSnpFlitArrival d a 0 s = _
  simp only [execSnpFlitArrival, State.wire_quiet]

/-- Ejection of a flit that came around 31 times is counted, and nothing else happens. -/
theorem State.escalate_eq (s : State) (d : Die) (net : Net) (rev : BitVec 5) :
    s.escalate d net rev = s.modPad d fun q => { q with census :=
      (if rev = 31 then padCount 0x11 (netNo net).val 16 q.census else q.census) } := by
  unfold State.escalate
  split
  next h => rfl
  next h => exact (State.modPad_eq_self s d _ rfl).symm

/-- What an arrival reads of the paddock is as before the flit's escalation. -/
theorem State.escalate_pad (s : State) (d : Die) (net : Net) (rev : BitVec 5) :
    ∃ c, ((s.escalate d net rev).pad d) = { s.pad d with census := c } :=
  ⟨_, by rw [State.escalate_eq, State.pad_modPad_same]⟩

/-! ### A request at the ford of its home fold -/

section
variable {s : State} {d : Die} {a : Spot} {f : ReqFlit} {p : PFold} (harr : s.Stands d .req a (.req f))
  (htgt : isFold f.tgt = true) (hpos : posFold (spotPos a) = some p) (hgated : ((s.pad d).ebb.fold[p]).gated = false)
  (hfence : s.fenced d (spotPos a) = false)
  (hnow : (s.pad d).now < abandonFrom (s.pad d).repl f (s.pad d).now)
include harr htgt hpos hgated hfence hnow

theorem State.reqArrival_fold : s.reqArrival d a true = (
    let u := s.escalate d .req f.rev
    let x := (s.pad d).folds[p]
    match x.penRoom (penOf d f) (f.rev == 31), x.portTakes (spotPort a) f && (!x.refuseReq || f.op.isPut || f.fromShep) with
    | some kept, true =>
      (u.modStream d fun y => y.take .req a).modFold d p fun y => { y.unrecord f with
        pens := penInsert y.pens
          { pen := penOf d f, flit := f, port := spotPort a, arrive := (s.pad d).aon.hcycle
            df := (deadlineFrom f.dl (s.pad d).now).toNat, af := abandonFrom (s.pad d).repl f (s.pad d).now, kept := kept }
        census := if f.rev == 31 then foldCount 0x0E 8 (y.unrecord f).census else (y.unrecord f).census }
    | _, _ => (u.modFold d p fun y => y.record (spotPort a) f).refuseFlit d .req a (.req f) false) := by
  have hlater : ¬ abandonFrom (s.pad d).repl f (s.pad d).now ≤ (s.pad d).now := by omega
  have hungate : s.ungate d p = s := by simp [-Fin.getElem_fin, State.ungate, hgated]
  obtain ⟨c, hu⟩ := s.escalate_pad d .req f.rev
  have hfence' : (s.escalate d .req f.rev).fenced d (spotPos a) = false := by
    rw [State.fenced, hu]
    exact hfence
  have hfold : s.reqArrival d a true = s.reqAtFold d a p f := by
    simp only [State.reqArrival, show s.arrived d .req a true = .flit (.req f) from harr, htgt, if_true, hpos]
  rw [hfold]
  unfold State.reqAtFold
  rw [hungate]
  simp only [hfence', Bool.false_eq_true, if_false]
  simp only [hu]
  exact (if_neg hlater).trans rfl

/-- It joins the pens. -/
theorem State.reqArrival_enters {kept : Bool} (hroom : ((s.pad d).folds[p]).penRoom (penOf d f) (f.rev == 31) = some kept)
    (hport : ((s.pad d).folds[p]).portTakes (spotPort a) f = true)
    (hopen : ((s.pad d).folds[p]).refuseReq = false ∨ f.op.isPut = true ∨ f.fromShep = true) :
    s.reqArrival d a true = ((s.escalate d .req f.rev).modPad d fun q => { q with stream := q.stream.take .req a }).modFold d p
      fun y => { y.unrecord f with
        pens := penInsert y.pens
          { pen := penOf d f, flit := f, port := spotPort a, arrive := (s.pad d).aon.hcycle
            df := (deadlineFrom f.dl (s.pad d).now).toNat, af := abandonFrom (s.pad d).repl f (s.pad d).now, kept := kept }
        census := if f.rev == 31 then foldCount 0x0E 8 (y.unrecord f).census else (y.unrecord f).census } := by
  have htakes : (((s.pad d).folds[p]).portTakes (spotPort a) f &&
      (!((s.pad d).folds[p]).refuseReq || f.op.isPut || f.fromShep)) = true := by
    rcases hopen with h | h | h <;> simp [-Fin.getElem_fin, hport, h]
  rw [State.reqArrival_fold harr htgt hpos hgated hfence hnow]
  simp only [hroom, htakes] <;> rfl

/-- It stays on the Stream, its REV up by one. -/
theorem State.reqArrival_refused (hroom : ((s.pad d).folds[p]).penRoom (penOf d f) (f.rev == 31) = none) :
    s.reqArrival d a true =
      (((s.escalate d .req f.rev).modFold d p fun y => y.record (spotPort a) f).modPad d fun q =>
        { q with stream := q.stream.pass .req a (.req { f with rev := if f.rev = 31 then 31 else f.rev + 1 }) }).pcount d 0x10 0 := by
  rw [State.reqArrival_fold harr htgt hpos hgated hfence hnow]
  simp only [hroom, State.refuseFlit, Flit.bump, beq_iff_eq, Bool.false_eq_true, if_false] <;> rfl

end

theorem Fold.record_pens (x : Fold) (port : Fin 4) (f : ReqFlit) :
    (x.record port f).pens = x.pens ∧ (x.record port f).tt = x.tt := by
  unfold Fold.record
  dsimp only
  split <;> exact ⟨rfl, rfl⟩

theorem State.OnlyPad.escalate (s : State) (d : Die) (net : Net) (rev : BitVec 5) : s.OnlyPad (s.escalate d net rev) d := by
  rw [State.escalate_eq]
  exact (State.OnlyPad.refl s d).modPad _

/-! ### A snoop at the ford of its Gate -/

/-- The place of a snoop in a snoop inbox. -/
def AgentPort.snpRoom (x : AgentPort) (escalated : Bool) : Option Bool :=
  inboxRoom 16 ((x.snpIn.filter fun y => !y.kept).length) ((x.snpIn.filter fun y => y.kept).length) escalated

theorem Paddock.agent_gate (q : Paddock) (g : GateN) : q.agent (Fin.ofNat 28 g.val) = q.gates[g] := by
  fin_cases g <;> rfl

section
variable {s : State} {d : Die} {a : Spot} {f : SnpFlit} {g : GateN} (harr : s.Stands d .snp a (.snp f))
  (hmuster : f.muster = false) (htgt : f.tgt = agent d g.val) (hfence : s.fenced d (spotPos a) = false)
include harr hmuster htgt hfence

theorem State.snpArrival_gate : s.snpArrival d a true = (
    let u := s.escalate d .snp f.rev
    match ((s.pad d).gates[g]).snpRoom (f.rev == 31) with
    | some kept => (u.modStream d fun x => x.take .snp a).modPad d fun q =>
        { q with gates := vmod q.gates g fun x => x.takeSnoop f kept }
    | none => u.refuseFlit d .snp a (.snp f) false) := by
  obtain ⟨c, hu⟩ := s.escalate_pad d .snp f.rev
  have hfence' : (s.escalate d .snp f.rev).fenced d (spotPos a) = false := by
    rw [State.fenced, hu]
    exact hfence
  have hg := g.isLt
  have hlocal : localOf f.tgt = g.val := htgt ▸ localOf_agent d (by omega)
  have hgate : isGate f.tgt = true := by simp [isGate, hlocal]
  have hn : (Fin.ofNat 28 (sluiceOf f.tgt) : AgentN) = Fin.ofNat 28 g.val := by
    simp only [sluiceOf, hlocal, if_pos hg]
  simp only [State.snpArrival, show s.arrived d .snp a true = .flit (.snp f) from harr, hfence', Bool.false_eq_true, if_false,
    hmuster, hgate, Bool.true_or, if_true, hn, Paddock.agent_gate, State.modAgent_gate]
  simp only [hu] <;> rfl

end

/-- Settles O16. -/
theorem requestsAndSnoopsArrive : Obligations.RequestsAndSnoopsArrive := by
  unfold Obligations.RequestsAndSnoopsArrive
  refine ⟨fun s d a f p harr htgt hpos hgated hfence hnow => ?_, fun s d a f g harr hmuster htgt hfence => ?_⟩
  · obtain ⟨c, hu⟩ := s.escalate_pad d .req f.rev
    refine ⟨fun kept hroom hport hopen => ?_, fun hroom => ?_⟩
    · refine ⟨_, (exec_reqFlitArrival_quiet s d a).trans (congrArg _
        (State.reqArrival_enters harr htgt hpos hgated hfence hnow hroom hport hopen)),
        ((State.OnlyPad.escalate s d _ _).modPad _).modPad _, ?_⟩
      simp only [State.modFold, State.pad_modPad_same, hu, true_and, and_true]
      exact ⟨congrArg Fold.pens (vmod_get_same _ _ _), (congrArg Fold.tt (vmod_get_same _ _ _)).trans rfl,
        fun n hn => vmod_get_other _ _ _ _ hn⟩
    · refine ⟨_, (exec_reqFlitArrival_quiet s d a).trans (congrArg _
        (State.reqArrival_refused harr htgt hpos hgated hfence hnow hroom)),
        (((State.OnlyPad.escalate s d _ _).modPad _).modPad _).modPad _, ?_⟩
      simp only [State.modFold, State.pad_pcount_same, State.pad_modPad_same, hu, true_and]
      obtain ⟨hpens, htt⟩ := Fold.record_pens ((s.pad d).folds[p]) (spotPort a) f
      exact ⟨(congrArg Fold.pens (vmod_get_same _ _ _)).trans hpens, (congrArg Fold.tt (vmod_get_same _ _ _)).trans htt⟩
  · intro l room
    obtain ⟨c, hu⟩ := s.escalate_pad d .snp f.rev
    have hexec := (exec_snpFlitArrival_quiet s d a).trans (congrArg _ (State.snpArrival_gate harr hmuster htgt hfence))
    refine ⟨fun kept hroom => hexec.trans (congrArg _ ?_), fun hroom => ⟨_, hexec, ?_⟩⟩
    · have hplace : ((s.pad d).gates[g]).snpRoom (f.rev == 31) = some kept := hroom
      simp only [hplace, State.modStream, State.modPad_modPad] <;> rfl
    · have hplace : ((s.pad d).gates[g]).snpRoom (f.rev == 31) = none := hroom
      simp only [hplace, State.refuseFlit, State.modStream, Flit.bump, beq_iff_eq, Bool.false_eq_true, if_false]
      refine ⟨((State.OnlyPad.escalate s d _ _).modPad _).modPad _, ?_⟩
      simp only [State.pad_pcount_same, State.pad_modPad_same, hu, and_true]
      exact ⟨rfl, rfl, rfl, rfl, rfl, rfl, rfl⟩

end Sys2Proof.Machine
end

section
/-!
Turns, injection and reservations of the Stream, and the statement O18 (09 R236, R243, R244, 10 R262).
-/

namespace Sys2Proof.Machine

/-! ### Turns -/

section
variable {s : State} {d : Die} {net : Net} {r : Ring} {pos : Fin 16} {f : Flit} (hrun : (s.pad d).running = true)
  (hat : (s.pad d).stream.at' net (.ring r pos) = some f) (hstage : stageOf r pos.val = 0) (hturn : s.mustTurn d r f = true)
include hrun hat hstage hturn

/-- The turn buffer of a flit: those of its network that turn at its position to its kind of ring. -/
theorem State.turnAt_room
    (h : ((s.pad d).stream.turns.filter fun t => t.net == net && t.pos == pos.val && t.toY == ringX r).length < 4) :
    s.turnAt d net (.ring r pos) = s.modPad d fun q => { q with
      stream := { q.stream.take net (.ring r pos) with
        turns := q.stream.turns ++ [{ net := net, pos := pos.val, toY := ringX r, flit := f, since := q.aon.hcycle }] } } := by
  simp only [State.turnAt, hat, hrun, hstage, hturn, bne_self_eq_false, Bool.not_true, Bool.or_self, Bool.false_eq_true, if_false, if_pos h]
  exact State.modPad_congr rfl

theorem State.turnAt_full
    (h : 4 ≤ ((s.pad d).stream.turns.filter fun t => t.net == net && t.pos == pos.val && t.toY == ringX r).length)
    (hlive : ∀ g, f = .req g → (s.pad d).now < abandonFrom (s.pad d).repl g (s.pad d).now) :
    s.turnAt d net (.ring r pos) =
      (s.pcount d 0x13 (netNo net).val).modPad d fun q => { q with stream := q.stream.pass net (.ring r pos) f } := by
  simp only [State.turnAt, hat, hrun, hstage, hturn, bne_self_eq_false, Bool.not_true, Bool.or_self, Bool.false_eq_true,
    if_false, if_neg (Nat.not_lt.mpr h)]
  cases f with
  | req g => exact if_neg (Nat.not_le.mpr (hlive g rfl))
  | snp g => rfl
  | rsp g => rfl
  | dat g => rfl

end

/-! ### Injection -/

/-- A flit that asks for nothing leaves its queue, and its agent was the last served. -/
theorem State.uninject_answer (s : State) (d : Die) {i : InjItem} (h : ∀ g, i.flit ≠ .req g) :
    s.uninject d (.item i) = s.modPad d fun q => { q with stream := { q.stream with
      inj := q.stream.inj.erase i
      rr := (i.net, i.pos, i.agent) :: q.stream.rr.filter fun x => !(x.1 == i.net && x.2.1 == i.pos) } } := by
  unfold State.uninject
  dsimp only
  split
  next g hg => exact absurd hg (h g)
  next => rfl

/-- What stands at a stage once a slot was put there. -/
theorem Stream.slot_put (q : Stream) (x : RingSlot) :
    ({ q with slots := (q.slots.filter fun y => !(y.net == x.net && y.ring == x.ring && y.stage == x.stage)) ++ [x] } : Stream).slot
      x.net x.ring x.stage = some x := by
  have hnone : (q.slots.filter fun y => !(y.net == x.net && y.ring == x.ring && y.stage == x.stage)).find?
      (fun y => y.net == x.net && y.ring == x.ring && y.stage == x.stage) = none := by
    rw [List.find?_eq_none]
    intro y hy
    simpa only [Bool.not_eq_true', Bool.not_eq_true] using (List.mem_filter.mp hy).2
  simp only [Stream.slot, List.find?_append, hnone, Option.none_or, List.find?_cons, beq_self_eq_true, Bool.and_self]

theorem Stream.slot_updateWhere {q : Stream} {net : Net} {r : Ring} {st : Nat} {x : RingSlot} (h : q.slot net r st = some x)
    {m : RingSlot → RingSlot} (hm : ∀ y, (m y).net = y.net ∧ (m y).ring = y.ring ∧ (m y).stage = y.stage) :
    ({ q with slots := updateWhere (fun y => y.net == net && y.ring == r && y.stage == st) m q.slots } : Stream).slot net r st =
      some (m x) := by
  let here (y : RingSlot) : Bool := y.net == net && y.ring == r && y.stage == st
  have hkeep : (here ∘ fun y => if here y then m y else y) = here := by
    funext y
    obtain ⟨hnet, hring, hstage⟩ := hm y
    simp only [Function.comp]
    split
    · simp only [here, hnet, hring, hstage]
    · rfl
  have hx : here x = true := List.find?_some h
  show (updateWhere here m q.slots).find? here = some (m x)
  rw [updateWhere, List.find?_map, hkeep, show q.slots.find? here = some x from h]
  simp only [Option.map_some, if_pos hx]

section
variable {s : State} {d : Die} {net : Net} {pos : Fin 16} {i : InjItem} (hrun : (s.pad d).running = true)
include hrun

theorem State.injectAt_occupied {r : Ring} {x : RingSlot} (hslot : (s.pad d).stream.slot net r (stageOf r pos.val) = some x)
    (hflit : x.flit.isSome = true) : s.injectAt d net (.ring r pos) = s := by
  have hfull : (x.flit.isNone && x.resv == some (d, pos.val)) = false := by simp [Option.isNone_eq_false_iff.mpr hflit]
  simp only [State.injectAt, hrun, hslot, hfull, Bool.not_true, Bool.not_false, Bool.true_or, Bool.false_eq_true, if_false, if_true]

theorem State.injectAt_free {r : Ring} (hnext : s.nextInject d net pos.val (some r) = some (.item i))
    (hdam : s.dammed d net r = false) (hslot : (s.pad d).stream.slot net r (stageOf r pos.val) = none) :
    s.injectAt d net (.ring r pos) = ((s.uninject d (.item i)).modPad d fun q => { q with stream := { q.stream with
      slots := (q.stream.slots.filter fun x => !(x.net == net && x.ring == r && x.stage == stageOf r pos.val)) ++
        [{ net := net, ring := r, stage := stageOf r pos.val, flit := some i.flit, resv := none, seen := true }] } }).pcount
          d 0x14 (netNo net).val := by
  simp only [State.injectAt, hrun, hslot, hdam, hnext, Bool.not_true, Bool.or_self, Bool.false_eq_true, if_false]
  rfl

theorem State.injectAt_hand (hnext : s.nextInject d net pos.val none = some (.item i)) :
    s.injectAt d net (.hand pos) = ((s.uninject d (.item i)).modPad d fun q => { q with stream := { q.stream with
      hand := q.stream.hand ++ [{ net := net, pos := pos, flit := i.flit }] } }).pcount d 0x14 (netNo net).val := by
  simp only [State.injectAt, hrun, hnext, Bool.not_true, Bool.false_eq_true, if_false]
  rfl

end

/-! ### Reservations -/

/-- A stage that carries a flit is marked for the position that starves beside it. -/
theorem State.reserveAt_starved {s : State} {d : Die} {net : Net} {r : Ring} {pos : Fin 16} {x : RingSlot} {i : InjItem}
    (hrun : (s.pad d).running = true) (hslot : (s.pad d).stream.slot net r (stageOf r pos.val) = some x)
    (hflit : x.flit.isSome = true) (hresv : x.resv = none) (hdam : s.dammed d net r = false)
    (hi : i ∈ s.candidates d net pos.val (some r))
    (hwait : i.since + max 1 (s.pad d).stream.starve.toNat ≤ (s.pad d).aon.hcycle)
    (hmark : ∀ y, (s.pad y).holdsMark net r (d, pos.val) = false) :
    s.reserveAt d net (.ring r pos) = (s.modPad d fun q => { q with stream := { q.stream with
      slots := updateWhere (fun y => y.net == net && y.ring == r && y.stage == stageOf r pos.val)
        (fun y => { y with resv := some (d, pos.val) }) q.stream.slots } }).pcount d 0x12 (netNo net).val := by
  have hstarved : (s.candidates d net pos.val (some r)).any (fun i =>
      decide (i.since + max 1 (s.pad d).stream.starve.toNat ≤ (s.pad d).aon.hcycle)) = true :=
    List.any_eq_true.mpr ⟨i, hi, decide_eq_true hwait⟩
  have hmine : (dies.any fun y => (s.pad y).holdsMark net r (d, pos.val)) = false := by
    simp only [hmark, List.any_eq_false, Bool.false_eq_true, not_false_eq_true, implies_true]
  simp only [State.reserveAt, hslot, hrun, hstarved, hmine, hflit, hresv, hdam, Bool.true_or, Bool.not_false, Option.isNone_none,
    Bool.and_self, if_true]
  rfl

/-- Settles O18. -/
theorem flitsTurnInjectAndReserve : Obligations.FlitsTurnInjectAndReserve := by
  unfold Obligations.FlitsTurnInjectAndReserve
  refine ⟨fun s d net r pos f hrun hat hstage hturn => ?_, fun s d net pos i hrun hreq => ⟨fun r hnext hdam hslot => ?_,
    fun hnext => ?_, fun r x hslot hflit => ?_⟩, fun s d net r pos x i hrun hslot hflit hresv hdam hi hwait hmark => ?_⟩
  · intro same
    refine ⟨fun h => congrArg Host.Outcome.next (State.turnAt_room hrun hat hstage hturn h), fun h hlive =>
      ⟨_, congrArg Host.Outcome.next (State.turnAt_full hrun hat hstage hturn h hlive),
        ((State.OnlyPad.refl s d).modPad _).modPad _, ?_⟩⟩
    simp only [State.pad_modPad_same, State.pad_pcount_same, and_true]
    exact ⟨rfl, rfl, rfl, rfl, rfl, rfl, rfl⟩
  · have hinject := State.injectAt_free hrun hnext hdam hslot
    rw [State.uninject_answer s d hreq] at hinject
    refine ⟨_, congrArg Host.Outcome.next hinject, (((State.OnlyPad.refl s d).modPad _).modPad _).modPad _, ?_⟩
    simp only [State.pad_modPad_same, State.pad_pcount_same, and_true]
    exact ⟨⟨rfl, rfl, rfl, rfl, rfl, rfl, rfl⟩, Stream.slot_put _ { net := net, ring := r, stage := stageOf r pos.val, flit := some i.flit, resv := none, seen := true }⟩
  · have hinject := State.injectAt_hand hrun hnext
    rw [State.uninject_answer s d hreq] at hinject
    refine ⟨_, congrArg Host.Outcome.next hinject, (((State.OnlyPad.refl s d).modPad _).modPad _).modPad _, ?_⟩
    simp only [State.pad_modPad_same, State.pad_pcount_same, and_true]
    exact ⟨rfl, rfl, rfl, rfl, rfl, rfl, rfl⟩
  · exact congrArg Host.Outcome.next (State.injectAt_occupied hrun hslot hflit)
  · refine ⟨_, congrArg Host.Outcome.next (State.reserveAt_starved hrun hslot hflit hresv hdam hi hwait hmark),
      ((State.OnlyPad.refl s d).modPad _).modPad _, ?_⟩
    simp only [State.pad_modPad_same, State.pad_pcount_same, and_true]
    exact ⟨⟨rfl, rfl, rfl, rfl, rfl, rfl, rfl⟩, Stream.slot_updateWhere hslot fun _ => ⟨rfl, rfl, rfl⟩⟩

end Sys2Proof.Machine
end

section
/-!
The Shepherd's sluice, the acknowledgement of a fence, and the statement O19 (09 R245, R246, R250, 14 R366, R369).
-/

namespace Sys2Proof.Machine

/-! ### The Shepherd's sluice -/

theorem State.modPortOf_shepherd (s : State) (d x : Die) (f : ReqPort → ReqPort) :
    s.modPortOf d (agent x 127) f = s.modPad d fun q => { q with shep := { q.shep with port := f q.shep.port } } := by
  simp only [State.modPortOf, localOf_agent x (show 127 < 128 by decide)]
  rfl

theorem State.portOf_shepherd (s : State) (d x : Die) : s.portOf d (agent x 127) = (s.pad d).shep.port := by
  simp only [State.portOf, localOf_agent x (show 127 < 128 by decide)]
  rfl

/-- The sluice of SH admits what it picks. -/
theorem State.sluiceAdmit_shepherd {s : State} {d : Die} {u : Txn} (hrun : (s.pad d).running = true)
    (hsh : (s.pad d).domOn domSH = true) (hhold : (s.pad d).stream.hold = false)
    (hpick : ((s.pad d).shep.port.tick (s.pad d).now).pick ((s.pad d).shep.port.tick (s.pad d).now).hasCredit = some u) :
    s.sluiceAdmit d 29 = (s.modPad d fun q => { q with shep := { q.shep with
      port := ((s.pad d).shep.port.tick (s.pad d).now).admitNow u } }).inject d .req (agent d 127) u.flit.cls (.req u.flit) := by
  let v := s.modPad d fun q => { q with shep := { q.shep with port := q.shep.port.tick (s.pad d).now } }
  have hagent : sluiceAgent d 29 = agent d 127 := rfl
  have hidle : (!s.sluiceLive d 29 || (s.pad d).stream.hold || s.nfHolds d 29) = false := by
    have hlive : s.sluiceLive d 29 = true := by
      simp [State.sluiceLive, hrun, hsh]
    simp [hlive, hhold, State.nfHolds]
  have htick : s.tickSluice d 29 = v := State.modPortOf_shepherd s d d _
  have hport : (v.pad d).shep.port = (s.pad d).shep.port.tick (s.pad d).now := by simp [v]
  have hready : v.sluiceReady d 29 = ((s.pad d).shep.port.tick (s.pad d).now).hasCredit := by
    rw [← hport]
    rfl
  unfold State.sluiceAdmit
  rw [if_neg (by simpa using hidle)]
  simp only [htick, hagent, State.portOf_shepherd, hport, hready, hpick]
  show ((v.modPortOf d (agent d 127) fun p => p.admitNow u).inject d .req (agent d 127) u.flit.cls (.req u.flit)) = _
  rw [State.modPortOf_shepherd, State.modPad_modPad]
  exact congrArg (fun x : State => x.inject d .req (agent d 127) u.flit.cls (.req u.flit)) (State.modPad_congr rfl)

/-! ### The end of a fence -/

theorem posDom_posFold {pos : Fin 16} {p : PFold} (h : posFold pos.val = some p) : posDom pos.val = domFL p := by
  revert h; revert p; fin_cases pos <;> decide

/-- What the end of a fence leaves of the paddock when SD or SH goes off behind it. -/
def Paddock.fenceView (q : Paddock) : Stream × Vector Fold 5 × BitVec 16 × BitVec 16 × (PFold → Bool × Bool) :=
  (q.stream, q.folds, q.ebb.fenceAck, q.ebb.culvertEn, fun p => (bitAt q.ebb.iso (domFL p).val, bitAt q.ebb.pswReq (domFL p).val))

theorem Paddock.fenceView_domOff (q : Paddock) {i : DomN} (hi : 5 ≤ i.val) (ticks : Nat) :
    ({ q with ebb := q.ebb.domOff i ticks } : Paddock).fenceView = q.fenceView := by
  have hne : ∀ p : PFold, i.val ≠ (domFL p).val := by
    intro p
    have hp := p.isLt
    simp only [domFL, Fin.val_ofNat]
    omega
  simp only [Paddock.fenceView, Ebb.domOff, bitAt_putBit_of_ne _ _ (hne _)]

theorem State.OnlyPadBut.domOffReq {s t : State} {d : Die} {i : DomN} (h : s.OnlyPadBut t d Paddock.fenceView)
    (hi : 5 ≤ i.val) : s.OnlyPadBut (t.domOffReq d i) d Paddock.fenceView :=
  h.modPad (fun q => { q with ebb := q.ebb.domOff i (t.pad d).ticks }) fun q => q.fenceView_domOff hi _

/-- A sticky bit of a class that SH held wakes nothing. -/
theorem State.stick_held (s : State) (d : Die) {i : Nat} (hi : 7 ≤ i) :
    s.stick d i = s.modPad d fun q => { q with aon := { q.aon with sticky := putBit q.aon.sticky i true } } := by
  simp [State.stick, Nat.not_lt.mpr hi]

theorem State.OnlyPadBut.nfFenced {s t : State} {d : Die} (h : s.OnlyPadBut t d Paddock.fenceView) (pos : Fin 16) :
    s.OnlyPadBut (t.nfFenced d pos) d Paddock.fenceView := by
  have hsd : s.OnlyPadBut (t.nfDownSd d) d Paddock.fenceView :=
    State.OnlyPadBut.domOffReq (h.modPad (fun q => { q with conf := _ }) fun _ => rfl) (by decide)
  have hbits : s.OnlyPadBut (t.heldBits d) d Paddock.fenceView := by
    refine h.foldl _ _ fun u c => .ite ?_ (.refl u d _)
    rw [State.stick_held u d (by omega)]
    exact (State.OnlyPadBut.refl u d _).modPad _ fun _ => rfl
  have hsh : s.OnlyPadBut (t.nfDownSh d) d Paddock.fenceView :=
    State.OnlyPadBut.domOffReq (hbits.modPad (fun q => { q with bell := q.bell.lostWithSh }) fun _ => rfl) (by decide)
  exact .ite h (.ite (.ite hsh h) (.ite hsd h))

/-- The end of a fence: the culvert takes the ford's place, and the FL of a fold's ford goes off. -/
def Paddock.fenceEnded (q : Paddock) (pos : Fin 16) : Paddock :=
  let e := { q.ebb with fenceAck := putBit q.ebb.fenceAck pos.val true, culvertEn := putBit q.ebb.culvertEn pos.val true }
  { q with ebb := match posFold pos.val with
    | some p => e.domOff (domFL p) q.ticks
    | none => e }

theorem State.fenceDone_eq {s : State} {d : Die} {pos : Fin 16} (hrun : (s.pad d).running = true)
    (hreq : bitAt (s.pad d).ebb.fenceReq pos.val = true) (hack : bitAt (s.pad d).ebb.fenceAck pos.val = false)
    (hinj : ∀ i ∈ (s.pad d).stream.inj, i.pos = pos.val → i.held = true) (hhand : ∀ h ∈ (s.pad d).stream.hand, h.pos ≠ pos) :
    s.fenceDone d pos = s.modPad d fun q => q.fenceEnded pos := by
  have hi : ((s.pad d).stream.inj.any fun i => i.pos == pos.val && !i.held) = false := by
    rw [List.any_eq_false]
    intro i hmem
    by_cases hp : i.pos = pos.val
    · simp [hinj i hmem hp]
    · simp [hp]
  have hh : ((s.pad d).stream.hand.any fun h => h.pos == pos) = false := by
    rw [List.any_eq_false]
    intro h hmem
    simpa using hhand h hmem
  simp only [State.fenceDone, hrun, hreq, hack, hi, hh, Bool.not_false, Bool.and_self, if_true]
  unfold Paddock.fenceEnded
  cases hp : posFold pos.val with
  | none => rfl
  | some p =>
    simp only [State.domOffReq, State.modEbb, State.modPad_modPad, State.pad_modPad_same]
    exact State.modPad_congr rfl

theorem Paddock.fenceEnded_acked (q : Paddock) (pos : Fin 16) :
    bitAt (q.fenceEnded pos).ebb.fenceAck pos.val = true ∧ bitAt (q.fenceEnded pos).ebb.culvertEn pos.val = true := by
  unfold Paddock.fenceEnded
  dsimp only
  split <;> exact ⟨bitAt_putBit_same _ _ pos.isLt, bitAt_putBit_same _ _ pos.isLt⟩

theorem Paddock.fenceEnded_fold (q : Paddock) {pos : Fin 16} {p : PFold} (h : posFold pos.val = some p) :
    bitAt (q.fenceEnded pos).ebb.iso (domFL p).val = true ∧ bitAt (q.fenceEnded pos).ebb.pswReq (domFL p).val = false := by
  unfold Paddock.fenceEnded
  simp only [h, Ebb.domOff]
  exact ⟨bitAt_putBit_same _ _ (domFL p).isLt, bitAt_putBit_same _ _ (domFL p).isLt⟩

/-- Settles O19. -/
theorem sluiceAdmitsAndFenceAcks : Obligations.SluiceAdmitsAndFenceAcks := by
  unfold Obligations.SluiceAdmitsAndFenceAcks
  intro s d hrun
  refine ⟨fun n hhold => ?_, fun u hsh hhold => ?_, fun pos hreq hack hinj hhand => ?_⟩
  · refine congrArg Host.Outcome.next ?_
    unfold State.sluiceAdmit
    rw [if_pos (by simp [hhold])]
  · intro p hpick
    refine ⟨_, congrArg Host.Outcome.next (State.sluiceAdmit_shepherd hrun hsh hhold hpick),
      ((State.OnlyPad.refl s d).modPad _).modPad _, ?_⟩
    simp only [State.inject, State.pad_modPad_same]
    exact ⟨rfl, rfl, rfl, rfl⟩
  · obtain ⟨v, hv⟩ : ∃ v, v = s.modPad d fun q => q.fenceEnded pos := ⟨_, rfl⟩
    have hexec : exec (.fenceAck d pos) s = .next (v.nfFenced d pos) := by
      rw [hv, ← State.fenceDone_eq hrun hreq hack hinj hhand]
      rfl
    have hpad : v.pad d = (s.pad d).fenceEnded pos := by rw [hv, State.pad_modPad_same]
    have honly : s.OnlyPad v d := hv ▸ (State.OnlyPad.refl s d).modPad _
    obtain ⟨hkept, hview⟩ := (State.OnlyPadBut.refl v d Paddock.fenceView).nfFenced pos
    rw [hpad] at hview
    simp only [Paddock.fenceView, Prod.mk.injEq] at hview
    obtain ⟨hstream, hfolds, hfence, hculvert, hbits⟩ := hview
    have hbits' : ∀ p, _ := fun p => Prod.mk.inj (congrFun hbits p)
    refine ⟨_, hexec, honly.trans hkept, ?_, ?_, fun p hp => ?_, fun hnf hp => ?_, hstream, hfolds⟩
    · rw [hfence]
      exact ((s.pad d).fenceEnded_acked pos).1
    · rw [hculvert]
      exact ((s.pad d).fenceEnded_acked pos).2
    · rw [(hbits' p).1, (hbits' p).2]
      exact (s.pad d).fenceEnded_fold hp
    · have hstay : v.nfFenced d pos = v := by
        have hnf' : (v.pad d).ebb.nf ≠ .step3 := by
          rw [hpad, Paddock.fenceEnded]
          simpa only [hp] using hnf
        unfold State.nfFenced
        exact if_pos (by simp [hnf'])
      rw [hstay, hpad, Paddock.fenceEnded]
      simp only [hp, and_self]

end Sys2Proof.Machine
end

section
/-!
A command that the Shepherd runs and answers: what taking it and its only reply leave (15 R401, R403, R411).
-/

namespace Sys2Proof.Machine

theorem vmod_comm {α : Type} {n : Nat} (v : Vector α n) {i j : Fin n} (h : i ≠ j) (f g : α → α) :
    vmod (vmod v i f) j g = vmod (vmod v j g) i f := by
  apply Vector.ext
  intro k hk
  have hget : ∀ (w : Vector α n) (m : Fin n) (e : α → α), (vmod w m e)[k] = if (⟨k, hk⟩ : Fin n) = m then e w[m] else w[k] :=
    fun w m e => vmod_get w m ⟨k, hk⟩ e
  rw [hget, hget, hget, hget, vmod_get_other _ _ _ _ h.symm, vmod_get_other _ _ _ _ h]
  grind

theorem vmod_congr {α : Type} {n : Nat} {v : Vector α n} {i : Fin n} {f g : α → α} (h : f v[i] = g v[i]) :
    vmod v i f = vmod v i g := by
  rw [vmod, vmod, h]

theorem State.modPad_comm (s : State) {d x : Die} (h : d ≠ x) (f g : Paddock → Paddock) :
    (s.modPad d f).modPad x g = (s.modPad x g).modPad d f := by
  simp only [State.modPad, vmod_comm s.pads h f g]

/-- The paddock whose Shepherd has run its taken packet. -/
def Paddock.served (q : Paddock) : Paddock := { q with shep := { q.shep with taken := [], wdogTick := q.aon.ticks } }

/-- The paddock with the only reply of a taken packet. -/
def Paddock.answers (q : Paddock) (k : Taken) (st : Status) (data : List Word) : Paddock :=
  { q with shep := { q.shep with
    cq := vmod q.shep.cq k.q fun x => { x with busyFirst := false }
    rq := vmod q.shep.rq k.q fun x => { x with
      replies := [{ pri := k.pri, words := replyWords k.opc k.tag k.pri k.seq st data }]
      tail := x.tail.add (data.length + 2) } } }

/-- The state whose Shepherd has run its taken packet. -/
def State.serve (s : State) (d : Die) : State := s.modPad d Paddock.served

theorem State.pad_serve (s : State) (d x : Die) :
    (s.serve d).pad x = { s.pad x with shep := ((s.serve d).pad x).shep } := by
  by_cases hx : x = d
  · subst hx; simp only [State.serve, State.pad_modPad_same]; rfl
  · rw [State.serve, State.pad_modPad_other _ _ _ _ hx]

theorem State.shep_serve (s : State) (d : Die) :
    ((s.serve d).pad d).shep = { (s.pad d).shep with taken := [], wdogTick := (s.pad d).aon.ticks } := by
  rw [State.serve, State.pad_modPad_same]
  rfl

/-- A change that the Shepherd's own books do not touch may come before or after the packet is struck off. -/
theorem State.modPad_serve (s : State) (d x : Die) {f : Paddock → Paddock} (hf : ∀ q, f q.served = (f q).served) :
    (s.serve d).modPad x f = (s.modPad x f).serve d := by
  by_cases hx : x = d
  · subst hx
    simp only [State.serve, State.modPad_modPad, hf]
  · exact State.modPad_comm s (Ne.symm hx) _ _

/-- The packet that runs: the only one that the Shepherd has taken. -/
theorem State.runTaken_ran {s : State} {d : Die} {opc : BitVec 8} {k : Taken} (h : s.Ran d opc k) (f : Taken → State → State) :
    s.runTaken d opc.toNat f = f k (s.serve d) := by
  have htake : takeFirst (fun k : Taken => k.opc.toNat == opc.toNat) (s.pad d).shep.taken = some (k, []) := by
    rw [h.taken]
    simp [takeFirst, h.opcode]
  simp only [State.runTaken, h.runs, htake, Bool.not_true, Bool.false_eq_true, if_false]
  rfl

/-- An answer that fits an empty reply queue. -/
theorem State.answer_empty {t : State} {d : Die} {k : Taken} {st : Status} {data : List Word}
    (hsaid : (k.quiet && st == .done) = false) (hrq : ((t.pad d).shep.rq[k.q]).Empty) (hlen : data.length ≤ 254) :
    t.answer d k st data true = t.modPad d fun q => q.answers k st data := by
  obtain ⟨hreplies, hcurrent, hheld, hsame⟩ := hrq
  let v := t.modCq d k.q fun x => { x with busyFirst := false }
  have hv : (v.pad d).shep.rq[k.q] = (t.pad d).shep.rq[k.q] := by
    simp only [v, State.modCq, State.pad_modShep_same]
  have hcheck : v.rqCheck d k.q = v := by
    unfold State.rqCheck
    exact if_pos (hv ▸ hsame)
  have hpost : ∀ r : Reply, r.words.length ≤ 256 → ((t.pad d).shep.rq[k.q]).post r =
      { (t.pad d).shep.rq[k.q] with replies := [r], tail := ((t.pad d).shep.rq[k.q]).tail.add r.words.length } := by
    intro r hr
    simp [-Fin.getElem_fin, ReplyQueue.post, ReplyQueue.used, hreplies, hcurrent, hheld, hr]
  have hanswer : t.answer d k st data true =
      v.modRq d k.q fun x => x.post { pri := k.pri, words := replyWords k.opc k.tag k.pri k.seq st data } := by
    simp only [State.answer, hsaid, Bool.false_eq_true, if_false, if_true, State.post]
    exact congrArg (fun u : State => u.modRq d k.q _) hcheck
  rw [hanswer]
  simp only [v, State.modRq, State.modCq, State.modShep, State.modPad_modPad]
  refine State.modPad_congr ?_
  let r : Reply := { pri := k.pri, words := replyWords k.opc k.tag k.pri k.seq st data }
  have hmod : vmod (t.pad d).shep.rq k.q (fun x => x.post r) = vmod (t.pad d).shep.rq k.q fun x =>
      { x with replies := [r], tail := x.tail.add (data.length + 2) } :=
    vmod_congr (hpost r (by simp only [r, replyWords, List.length_cons]; omega))
  rw [Paddock.answers, ← hmod]

/-- A loud packet's only reply, its reply queue empty: whatever its command changed outside the queues. -/
theorem State.answer_serve {s u : State} {d : Die} {opc : BitVec 8} {k : Taken} (h : s.Ran d opc k) (st : Status)
    {data : List Word} (hu : (u.pad d).shep.rq = (s.pad d).shep.rq) (hlen : data.length ≤ 254) :
    (u.serve d).answer d k st data true = u.replies d k st data := by
  obtain ⟨hreplies, hcurrent, hheld⟩ := h.empty
  have hrq : ((u.serve d).pad d).shep.rq[k.q] = (s.pad d).shep.rq[k.q] := by
    rw [State.shep_serve]
    exact congrArg (fun v : Vector ReplyQueue 64 => v[k.q]) hu
  rw [State.answer_empty (by simp only [h.loud, Bool.false_and]) (hrq ▸ ⟨hreplies, hcurrent, hheld, h.pointers⟩) hlen, State.serve, State.modPad_modPad]
  have hold : (u.pad d).shep.rq[k.q] = (s.pad d).shep.rq[k.q] := congrArg (fun v : Vector ReplyQueue 64 => v[k.q]) hu
  refine State.modPad_congr ?_
  simp only [Paddock.answers, Paddock.served]
  rfl

/-- A command that changes nothing but answers. -/
theorem State.reply_serve {s u : State} {d : Die} {opc : BitVec 8} {k : Taken} (h : s.Ran d opc k) (st : Status)
    (hu : (u.pad d).shep.rq = (s.pad d).shep.rq) : (u.serve d).reply d k st = u.replies d k st [] :=
  State.answer_serve h st hu (Nat.zero_le _)

/-! ### What a command reads of the state -/

theorem State.frame_serve (s : State) (d : Die) {α : Type} {p : Paddock → α} (hp : ∀ q, p q.served = p q) :
    s.Frame p (s.serve d) :=
  (State.Frame.refl p s).modPad d _ hp

section
variable (s : State) (d x : Die)

@[simp] theorem State.serve_krovol : (s.serve d).krovol = s.krovol := rfl
@[simp] theorem State.serve_tether : (s.serve d).tether = s.tether := rfl
@[simp] theorem State.serve_fresh : (s.serve d).fresh = s.fresh := rfl
@[simp] theorem State.serve_pending : (s.serve d).pending = s.pending := rfl
@[simp] theorem State.serve_aon : ((s.serve d).pad x).aon = (s.pad x).aon := by rw [State.pad_serve]
@[simp] theorem State.serve_repl : ((s.serve d).pad x).repl = (s.pad x).repl := by rw [State.pad_serve]
@[simp] theorem State.serve_boot : ((s.serve d).pad x).boot = (s.pad x).boot := by rw [State.pad_serve]
@[simp] theorem State.serve_ebb : ((s.serve d).pad x).ebb = (s.pad x).ebb := by rw [State.pad_serve]
@[simp] theorem State.serve_folds : ((s.serve d).pad x).folds = (s.pad x).folds := by rw [State.pad_serve]
@[simp] theorem State.serve_gates : ((s.serve d).pad x).gates = (s.pad x).gates := by rw [State.pad_serve]
@[simp] theorem State.serve_stiles : ((s.serve d).pad x).stiles = (s.pad x).stiles := by rw [State.pad_serve]
@[simp] theorem State.serve_stream : ((s.serve d).pad x).stream = (s.pad x).stream := by rw [State.pad_serve]
@[simp] theorem State.serve_conf : ((s.serve d).pad x).conf = (s.pad x).conf := by rw [State.pad_serve]
@[simp] theorem State.serve_bell : ((s.serve d).pad x).bell = (s.pad x).bell := by rw [State.pad_serve]
@[simp] theorem State.serve_census : ((s.serve d).pad x).census = (s.pad x).census := by rw [State.pad_serve]
@[simp] theorem State.serve_now : ((s.serve d).pad x).now = (s.pad x).now := by rw [State.pad_serve]; rfl
@[simp] theorem State.serve_domOn (i : DomN) : ((s.serve d).pad x).domOn i = (s.pad x).domOn i := by rw [State.pad_serve]; rfl
@[simp] theorem State.serve_members : (s.serve d).members x = s.members x := by simp [State.members]
@[simp] theorem State.serve_inRange : (s.serve d).inRange x = s.inRange x := by simp [State.inRange, State.member]
@[simp] theorem State.serve_member (y : Die) : (s.serve d).member x y = s.member x y := by simp [State.member]
@[simp] theorem State.serve_planned : (s.serve d).planned x = s.planned x := by simp [State.planned]
@[simp] theorem State.serve_present (y : Die) : (s.serve d).present x y = s.present x y := by simp [State.present]
@[simp] theorem State.serve_dieCheck (y : Die) : (s.serve d).dieCheck x y = s.dieCheck x y := by simp [State.dieCheck]

end

end Sys2Proof.Machine
end

section
/-!
Queries that the Shepherd answers and the statement O56 (15 R414, R416, 12 R335).
-/

namespace Sys2Proof.Machine

/-! ### What the words show -/

@[simp] theorem State.serve_fwWord (s : State) (d x : Die) : fwWord ((s.serve d).pad x) = fwWord (s.pad x) := by
  by_cases hx : x = d
  · subst hx; simp only [fwWord, State.shep_serve]
  · rw [State.serve, State.pad_modPad_other _ _ _ _ hx]

@[simp] theorem State.serve_charterWord (s : State) (d x : Die) (i : Nat) : (s.serve d).charterWord x i = s.charterWord x i := by
  have hlead : ∀ (c : Bool) (y : Die), (if c = true then (s.serve d).pad y else (s.serve d).pad x).ebb =
      (if c = true then s.pad y else s.pad x).ebb := by
    intro c y; cases c <;> simp
  have hleadfw : ∀ (c : Bool) (y : Die), fwWord (if c = true then (s.serve d).pad y else (s.serve d).pad x) =
      fwWord (if c = true then s.pad y else s.pad x) := by
    intro c y; cases c <;> simp
  unfold State.charterWord
  simp only [State.serve_repl, State.serve_inRange, State.serve_krovol, State.serve_folds, hlead, hleadfw]

theorem Fold.length_dump (f : Fold) (first n fresh : Nat) : (f.dump first n fresh).length = 4 * n := by
  unfold Fold.dump
  rw [List.length_flatMap, List.map_congr_left (g := fun _ => 4)]
  · simp [Nat.mul_comm]
  · intro i _
    split <;> rfl

/-! ### The statement -/

section
variable {s : State} {d : Die} {k : Taken}

theorem exec_ping (h : s.Ran d 0x01 k) : exec (.ping d) s = .next (s.replies d k .done
    [fwWord (s.pad d), popWord s.krovol (s.pad d).repl]) := by
  refine congrArg Host.Outcome.next ((State.runTaken_ran h _).trans ?_)
  simp only [State.runPing, State.serve_fwWord, State.serve_repl, State.serve_krovol]
  exact State.answer_serve h _ rfl (show 2 ≤ 254 by omega)

theorem exec_queryCharter (h : s.Ran d 0x02 k) {off n : Nat} (hoff : off = bits (k.p 1) 0 14) (hn : n = bits (k.p 1) 14 6) :
    exec (.queryCharter d) s = .next (
      if 1 ≤ n ∧ n ≤ 62 ∧ off + n ≤ 16384 then
        s.replies d k .done ((List.range n).map fun i => s.charterWord d (off + i))
      else s.replies d k .badParam []) := by
  refine congrArg Host.Outcome.next ((State.runTaken_ran h _).trans ?_)
  simp only [State.runQueryCharter, ← hoff, ← hn, State.serve_charterWord]
  by_cases hok : 1 ≤ n ∧ n ≤ 62 ∧ off + n ≤ 16384
  · rw [if_pos hok, if_neg (by simp; omega)]
    exact State.answer_serve h _ rfl (by simp; omega)
  · rw [if_neg hok, if_pos (by simp; omega)]
    exact State.reply_serve h _ rfl

/-- TT_DUMP: the entries of a fold, or zeros where its FL is off. -/
theorem exec_ttDump (h : s.Ran d 0x06 k) {x : Die} {p : PFold} {first n : Nat} (hx : x = dieAt (k.p 1) 0)
    (hp : p = Fin.ofNat 5 (bits (k.p 1) 3 3)) (hfirst : first = bits (k.p 1) 6 9) (hn : n = bits (k.p 1) 15 4) :
    exec (.ttDump d) s = .next (
      if bits (k.p 1) 3 3 ≤ 4 ∧ 1 ≤ n ∧ first + n ≤ 512 ∧ s.planned x = true then
        if s.present d x = false then s.replies d k .notPresent []
        else if (s.pad x).domOn (domFL p) = true then
          { s.replies d k .done (((s.pad x).folds[p]).dump first n s.fresh) with fresh := s.fresh + n }
        else s.replies d k .done (List.replicate (4 * n) 0)
      else s.replies d k .badParam []) := by
  have hn16 : n < 16 := hn ▸ Nat.mod_lt _ (by decide)
  refine congrArg Host.Outcome.next ((State.runTaken_ran h _).trans ?_)
  simp only [State.runTtDump, ← hx, ← hp, ← hfirst, ← hn, State.serve_planned, State.serve_present, State.serve_domOn,
    State.serve_folds, State.serve_fresh]
  by_cases hok : bits (k.p 1) 3 3 ≤ 4 ∧ 1 ≤ n ∧ first + n ≤ 512 ∧ s.planned x = true
  · have hgood : ¬ (decide (4 < bits (k.p 1) 3 3) || decide (n = 0) || decide (512 < first + n) || !s.planned x) = true := by
      simp [hok.2.2.2]; omega
    rw [if_pos hok, if_neg hgood]
    cases s.present d x with
    | false => exact State.reply_serve h _ rfl
    | true =>
      simp only [Bool.not_true, Bool.false_eq_true, if_false, Bool.true_eq_false]
      rw [State.answer_serve h _ rfl (by rw [Fold.length_dump]; omega), State.answer_serve h _ rfl (by simp; omega)]
  · have hbad : (decide (4 < bits (k.p 1) 3 3) || decide (n = 0) || decide (512 < first + n) || !s.planned x) = true := by
      cases hplanned : s.planned x
      · simp
      · simp only [hplanned, and_true] at hok
        simp; omega
    rw [if_neg hok, if_pos hbad]
    exact State.reply_serve h _ rfl

/-! ### HURDLE_LOG_READ (12 R335) -/

/-- The unread marks once the records from `first` on are read. -/
theorem bitAt_read (first n : Nat) (u : BitVec 128) {j : Nat} (hj : j < 128) :
    bitAt ((List.range n).foldl (fun u i => putBit u (first + i) false) u) j =
      (bitAt u j && !decide (first ≤ j ∧ j < first + n)) := by
  induction n with
  | zero => simp; omega
  | succ n ih =>
    rw [List.range_succ, List.foldl_append, List.foldl_cons, List.foldl_nil, bitAt_putBit, ih]
    by_cases h : first + n = j
    · subst h; simp [hj]
    · have hiff : (first ≤ j ∧ j < first + (n + 1)) ↔ (first ≤ j ∧ j < first + n) := by omega
      simp only [h, false_and, if_false, hiff]

/-- Two words of each of `n` records. -/
theorem words64_flatMap (r : Nat → BitVec 64) (n : Nat) :
    ((List.range n).flatMap fun i => words64 (r i)).length = 2 * n ∧
    ∀ i, i < n → ((List.range n).flatMap fun i => words64 (r i))[2 * i]? = some ((r i).extractLsb' 0 32) ∧
      ((List.range n).flatMap fun i => words64 (r i))[2 * i + 1]? = some ((r i).extractLsb' 32 32) := by
  induction n with
  | zero => simp
  | succ n ih =>
    obtain ⟨hlen, hget⟩ := ih
    rw [List.range_succ, List.flatMap_append, List.flatMap_singleton]
    refine ⟨by rw [List.length_append, hlen]; simp [words64]; omega, fun i hi => ?_⟩
    rcases Nat.lt_succ_iff_lt_or_eq.mp hi with h | rfl
    · rw [List.getElem?_append_left (by omega), List.getElem?_append_left (by omega)]
      exact hget i h
    · rw [List.getElem?_append_right (by omega), List.getElem?_append_right (by omega), hlen]
      simp [words64]

/-- The paddock whose records from `first` on are read. -/
def Paddock.logRead (q : Paddock) (first n : Nat) : Paddock :=
  { q with aon := { q.aon with hlogUnread := (List.range n).foldl (fun u i => putBit u (first + i) false) q.aon.hlogUnread } }

/-- A record of the log shadow as HURDLE_LOG_READ shows it; one it does not hold is open (log entry 16). -/
def State.logShown (s : State) (x : Die) (i first : Nat) : BitVec 64 :=
  (s.pad x).aon.hlog.getD (first + i) (Config.openWord (s.fresh + 2 * i + 1) ++ Config.openWord (s.fresh + 2 * i))

theorem exec_hurdleLogRead_bad (h : s.Ran d 0x71 k)
    (hbad : ¬ (1 ≤ bits (k.p 1) 10 5 ∧ bits (k.p 1) 10 5 ≤ 30 ∧ bits (k.p 1) 3 7 + bits (k.p 1) 10 5 ≤ 128)) :
    s.Answers (.hurdleLogRead d) d k .badParam := by
  refine congrArg Host.Outcome.next ((State.runTaken_ran h _).trans ?_)
  simp only [State.runHurdleLogRead]
  rw [if_pos (by simp; omega)]
  exact State.reply_serve h _ rfl

theorem exec_hurdleLogRead (h : s.Ran d 0x71 k) {x : Die} {first n : Nat} (hx : x = dieAt (k.p 1) 0)
    (hfirst : first = bits (k.p 1) 3 7) (hn : n = bits (k.p 1) 10 5) (hok : 1 ≤ n ∧ n ≤ 30 ∧ first + n ≤ 128)
    (hdie : s.dieCheck d x = none) :
    exec (.hurdleLogRead d) s = .next { (s.modPad x fun q => q.logRead first n).replies d k .done
      ((List.range n).flatMap fun i => words64 (s.logShown x i first)) with fresh := s.fresh + 2 * n } := by
  refine congrArg Host.Outcome.next ((State.runTaken_ran h _).trans ?_)
  simp only [State.runHurdleLogRead, ← hx, ← hfirst, ← hn, State.serve_dieCheck, hdie, State.serve_aon, State.serve_fresh]
  rw [if_neg (by simp; omega)]
  have hserve : (s.serve d).modPad x (fun q => { q with aon := { q.aon with
      hlogUnread := (List.range n).foldl (fun u i => putBit u (first + i) false) (s.pad x).aon.hlogUnread } }) =
      (s.modPad x fun q => q.logRead first n).serve d := by
    refine Eq.trans (State.modPad_congr ?_) (State.modPad_serve s d x (f := fun q => q.logRead first n) fun _ => rfl)
    simp only [Paddock.logRead, State.serve_aon]
  rw [hserve]
  have hrq : ((s.modPad x fun q => q.logRead first n).pad d).shep.rq = (s.pad d).shep.rq :=
    ((State.Frame.refl (fun q => q.shep.rq) s).modPad x (fun q => q.logRead first n) fun _ => rfl).pads d
  have hwords := (words64_flatMap (fun i => s.logShown x i first) n).1
  exact congrArg (fun t : State => { t with fresh := s.fresh + 2 * n })
    (State.answer_serve h _ hrq (by rw [hwords]; omega))

end

/-- Settles O56. -/
theorem queriesAnswer : Obligations.QueriesAnswer := by
  unfold Obligations.QueriesAnswer
  intro s d k w x
  refine ⟨exec_ping, fun h => ?_, fun h => ?_, fun h => ?_⟩
  · intro off n ok
    have hexec := exec_queryCharter h (off := off) (n := n) rfl rfl
    exact ⟨fun hok => hexec.trans (congrArg _ (if_pos hok)), fun hbad => hexec.trans (congrArg _ (if_neg hbad))⟩
  · intro p first n ok
    have hexec := exec_ttDump h (x := x) (p := p) (first := first) (n := n) rfl rfl rfl rfl
    refine ⟨fun hbad => hexec.trans (congrArg _ (if_neg hbad)), fun hok habsent => ?_, fun hok hthere hon => ?_, fun hok hthere hoff => ?_⟩ <;>
      refine hexec.trans (congrArg _ ((if_pos hok).trans ?_))
    · exact if_pos habsent
    · exact (if_neg (by simp [hthere])).trans (if_pos hon)
    · exact (if_neg (by simp [hthere])).trans (if_neg (by simp [hoff]))
  · intro first n ok
    refine ⟨exec_hurdleLogRead_bad h, fun hok hdie hlog => ?_⟩
    obtain ⟨hlen, hget⟩ := words64_flatMap (fun i => s.logShown x i first) n
    have hpad : (s.modPad x fun q => q.logRead first n).pad x = (s.pad x).logRead first n := State.pad_modPad_same ..
    refine ⟨_, _, exec_hurdleLogRead h rfl rfl rfl hok hdie, rfl, rfl, rfl, hlen, fun i hi => ?_, fun j hj => ?_, fun y hy => ?_, ?_⟩
    · obtain ⟨hlo, hhi⟩ := hget i hi
      have hshown : (s.pad x).aon.hlog[first + i]? = some (s.logShown x i first) := by
        rw [State.logShown, List.getD_eq_getElem?_getD, List.getElem?_eq_getElem (by omega)]
        rfl
      rw [hlo, hhi, hshown]
      exact ⟨rfl, rfl⟩
    · rw [hpad]
      exact bitAt_read first n _ hj
    · exact State.pad_modPad_other _ _ _ _ hy
    · rw [hpad]
      rfl

end Sys2Proof.Machine
end

section
/-!
Settings that take effect at once and the statement O57 (11 R294, 17 R459, 14 R375, 13 R358, R359).
-/

namespace Sys2Proof.Machine

/-! ### What an envelope takes of the state: its parameters and the detours (11 R296 to R300) -/

section
variable {v : Env} {t : State} (hk : t.krovol = v.s.krovol) (hs : ∀ d, (t.pad d).stream = (v.s.pad d).stream)
include hs

theorem Env.route_at (x : Die) (fuel : Nat) (d : Die) : ({ v with s := t } : Env).route x fuel d = v.route x fuel d := by
  induction fuel generalizing d with
  | zero => rfl
  | succ n ih => simp only [Env.route, hs, ih]

include hk

theorem Env.leg_at (a b : Die) : ({ v with s := t } : Env).leg a b = v.leg a b := by
  simp only [Env.leg, Env.route_at hs, hk]
  rfl

omit hs in
theorem Env.fanTime_at (home d : Die) : ({ v with s := t } : Env).fanTime home d = v.fanTime home d := by
  simp only [Env.fanTime, hk]

theorem Env.snp_at (home : Die) : ({ v with s := t } : Env).snp home = v.snp home := by
  simp only [Env.snp, Env.leg_at hk hs, Env.fanTime_at hk, hk]
  rfl

theorem Env.fold_at (mp : Bool) (home : Die) : ({ v with s := t } : Env).fold mp home = v.fold mp home := by
  simp only [Env.fold, Env.snp_at hk hs, hk]
  rfl

theorem Env.total_at (f : Nat) (req home : Die) : ({ v with s := t } : Env).total f req home = v.total f req home := by
  simp only [Env.total, Env.leg_at hk hs]
  rfl

theorem Env.worst_at (a : RegionAttr) : ({ v with s := t } : Env).worst a = v.worst a := by
  simp only [Env.worst, Env.fold_at hk hs, Env.total_at hk hs]
  rfl

omit hs in
theorem Env.slow_at : ({ v with s := t } : Env).slow = v.slow := by
  simp only [Env.slow, hk]

theorem Env.ok_at (a : RegionAttr) : ({ v with s := t } : Env).ok a = v.ok a := by
  simp only [Env.ok, Env.worst_at hk hs, Env.slow_at hk]
  rfl

/-- An envelope is feasible or not whatever else the state holds. -/
theorem Env.bad_at (n : Nat) : ({ v with s := t } : Env).bad n = v.bad n := by
  simp only [Env.bad, Env.ok_at hk hs]

end

/-! ### Settings of every member -/

section
variable (s : State) (d : Die)

/-- What each of some paddocks is set to, before or after the packet is struck off. -/
theorem State.foldl_serve {l : List Die} {f : Die → Paddock → Paddock} (hf : ∀ x q, f x q.served = (f x q).served) :
    l.foldl (fun u x => u.modPad x (f x)) (s.serve d) = (l.foldl (fun u x => u.modPad x (f x)) s).serve d := by
  induction l generalizing s with
  | nil => rfl
  | cons x l ih => rw [List.foldl_cons, List.foldl_cons, State.modPad_serve s d x (hf x), ih]

theorem State.serve_dozeDies : (s.serve d).dozeDies = s.dozeDies := by
  simp only [State.dozeDies, State.serve_repl, State.serve_ebb]

theorem State.serve_envNow (x : Die) : (s.serve d).envNow x = { s.envNow x with s := s.serve d } := by
  simp only [State.envNow, State.serve_repl, State.serve_ebb, State.serve_conf, State.serve_dozeDies]

/-- A change of the replicated registers is refused, or not, by the envelopes in force. -/
theorem State.serve_envRefuses (x : Die) (r : Repl) :
    envRefuses ((s.serve d).envNow x) { (s.serve d).envNow x with r := r } =
      envRefuses (s.envNow x) { s.envNow x with r := r } := by
  have hold := fun n => Env.bad_at (v := s.envNow x) (t := s.serve d) rfl (fun _ => State.serve_stream ..) n
  have hnew := fun n => Env.bad_at (v := { s.envNow x with r := r }) (t := s.serve d) rfl (fun _ => State.serve_stream ..) n
  simp only [envRefuses, State.serve_envNow, hold, hnew]

theorem State.serve_ringOk (x : Die) (lo hi : Nat) : (s.serve d).ringOk x lo hi = s.ringOk x lo hi := by
  simp only [State.ringOk, State.serve_repl, State.serve_krovol]

theorem State.serve_retainOk (r : BitVec 64) : (s.serve d).retainOk r = s.retainOk r := by
  have hways : ∀ x, (s.serve d).mpWays x = s.mpWays x := fun x => by rw [State.mpWays, State.serve_folds, State.mpWays]
  simp only [State.retainOk, hways, State.serve_planned]

theorem State.serve_anyDef (f : DefKind → Bool) : (s.serve d).anyDef d f = s.anyDef d f := by
  simp only [State.anyDef, State.shep_serve]

theorem State.serve_modRepl (f : Repl → Repl) : (s.serve d).modRepl d f = (s.modRepl d f).serve d := by
  rw [State.modRepl, State.serve_members]
  exact State.foldl_serve s d (f := fun _ q => { q with repl := f q.repl }) fun _ _ => rfl

/-- Every paddock of a list set in turn. -/
theorem State.pad_members (f : Paddock → Paddock) (x : Die) :
    ((s.members d).foldl (fun u y => u.modPad y f) s).pad x = if x ∈ s.members d then f (s.pad x) else s.pad x :=
  State.pad_foldl_modPad (fun _ => f) (s.members d) (nodup_diesOf _) s x

end

/-! ### DEADLINE_SET (11 R294) -/

section
variable {s : State} {d : Die} {k : Taken}

/-- The registers that DEADLINE_SET leaves. -/
def Repl.deadlined (r : Repl) (k : Taken) : Repl :=
  { r with
    deadline := vset r.deadline (Fin.ofNat 4 (bits (k.p 1) 0 2)) (bits (k.p 2) 0 17)
    share := vset r.share (Fin.ofNat 4 (bits (k.p 1) 0 2)) (bits (k.p 3) 0 17)
    qAllow := if bitAt (k.p 1) 2 then (k.p 4).extractLsb' 0 8 else r.qAllow
    jAllow := if bitAt (k.p 1) 2 then (k.p 4).extractLsb' 8 8 else r.jAllow }

theorem Repl.setDeadline_eq (r : Repl) (k : Taken) :
    r.setDeadline (Fin.ofNat 4 (bits (k.p 1) 0 2)) (bits (k.p 2) 0 17) (bits (k.p 3) 0 17)
      (if bitAt (k.p 1) 2 then some ((k.p 4).extractLsb' 0 8, (k.p 4).extractLsb' 8 8) else none) = r.deadlined k := by
  unfold Repl.setDeadline Repl.deadlined
  cases bitAt (k.p 1) 2 <;> rfl

theorem exec_deadlineSet {dl sh : Nat} (h : s.Ran d 0xA0 k) (hdl : dl = bits (k.p 2) 0 17) (hsh : sh = bits (k.p 3) 0 17) :
    exec (.deadlineSet d) s = .next (
      if 100 ≤ dl ∧ dl ≤ 100000 ∧ 50 ≤ sh ∧ sh ≤ dl then
        if envRefuses (s.envNow d) { s.envNow d with r := (s.envNow d).r.deadlined k } then s.replies d k .notPermitted []
        else (((s.serve d).modRepl d fun r => r.deadlined k).envChanged d).reply d k .done
      else s.replies d k .badParam []) := by
  refine congrArg Host.Outcome.next ((State.runTaken_ran h _).trans ?_)
  unfold State.runDeadlineSet
  simp only [Repl.setDeadline_eq, State.serve_envRefuses]
  simp only [← hdl, ← hsh]
  have hr : ((s.serve d).envNow d).r = (s.envNow d).r := State.serve_repl ..
  rw [hr]
  by_cases hok : 100 ≤ dl ∧ dl ≤ 100000 ∧ 50 ≤ sh ∧ sh ≤ dl
  · rw [if_pos hok, if_neg (by simp; omega), State.reply_serve h _ rfl]
  · rw [if_neg hok, if_pos (by simp; omega), State.reply_serve h _ rfl]

/-- Every member's replicated registers change, and no Shepherd's queue. -/
theorem State.shep_modRepl (s : State) (d : Die) (f : Repl → Repl) : ((s.modRepl d f).pad d).shep = (s.pad d).shep :=
  ((State.Frame.refl (fun q => q.shep) s).modRepl d f fun _ => rfl).pads d

theorem State.onlyRepl_modRepl (s : State) (d : Die) (f : Repl → Repl) : s.OnlyRepl (s.modRepl d f) d f := by
  have hframe := (State.Frame.refl (fun _ : Paddock => ()) s).modRepl d f fun _ => rfl
  obtain ⟨hkrovol, hpending⟩ : (s.modRepl d f).krovol = s.krovol ∧ (s.modRepl d f).pending = s.pending :=
    have hkeeps := State.modRepl_keeps (Keeps.refl s) d f
    ⟨hkeeps.krovol, hkeeps.pending⟩
  exact ⟨hkrovol, hframe.tether, hframe.fresh, hpending, State.pad_members s d (fun q => { q with repl := f q.repl })⟩

/-- DEADLINE_SET with a recheck due: the recheck takes the new values. -/
theorem exec_deadlineSet_due (h : s.Ran d 0xA0 k)
    (hok : 100 ≤ bits (k.p 2) 0 17 ∧ bits (k.p 2) 0 17 ≤ 100000 ∧ 50 ≤ bits (k.p 3) 0 17 ∧ bits (k.p 3) 0 17 ≤ bits (k.p 2) 0 17)
    (henv : envRefuses (s.envNow d) { s.envNow d with r := (s.envNow d).r.deadlined k } = false)
    (hdue : (s.pad d).shep.recheck.isSome = true) :
    exec (.deadlineSet d) s = .next ((s.modRepl d fun r => r.deadlined k).replies d k .done []) := by
  have hshep := State.shep_modRepl s d fun r => r.deadlined k
  have hstays : ((s.modRepl d fun r => r.deadlined k).serve d).envChanged d = (s.modRepl d fun r => r.deadlined k).serve d := by
    unfold State.envChanged
    rw [State.shep_serve, hshep]
    exact if_pos hdue
  rw [exec_deadlineSet h rfl rfl, if_pos hok, if_neg (by simp [henv]), State.serve_modRepl, hstays,
    State.reply_serve h _ (congrArg Shep.rq hshep)]

/-- A change of the paddock itself that leaves its Shepherd, with an answer. -/
theorem State.reply_own {opc : BitVec 8} (h : s.Ran d opc k) {f : Paddock → Paddock} (hf : ∀ q, (f q).shep = q.shep)
    (hserve : ∀ q, f q.served = (f q).served) (st : Status) :
    ((s.serve d).modPad d f).reply d k st = (s.modPad d f).replies d k st [] := by
  rw [State.modPad_serve s d d hserve]
  exact State.reply_serve h st (by rw [State.pad_modPad_same, hf])

/-- Settings of paddocks leave the Range's parameters, its Tether and its queue. -/
theorem State.foldl_modPad_rest (f : Paddock → Paddock) (l : List Die) (s : State) :
    (l.foldl (fun u x => u.modPad x f) s).krovol = s.krovol ∧ (l.foldl (fun u x => u.modPad x f) s).tether = s.tether ∧
      (l.foldl (fun u x => u.modPad x f) s).pending = s.pending := by
  induction l generalizing s with
  | nil => exact ⟨rfl, rfl, rfl⟩
  | cons x l ih => exact ih (s.modPad x f)

/-- A setting of every member that leaves their Shepherds, answered DONE. -/
theorem State.reply_members {opc : BitVec 8} (h : s.Ran d opc k) {f : Paddock → Paddock} (hf : ∀ q, (f q).shep = q.shep)
    (hserve : ∀ q, f q.served = (f q).served) :
    (((s.members d).foldl (fun u x => u.modPad x f) (s.serve d)).reply d k .done) =
      ((s.members d).foldl (fun u x => u.modPad x f) s).replies d k .done [] := by
  have hshep := (State.Frame.refl (fun q => q.shep) s).foldl (fun u x => u.modPad x f) (s.members d) fun u x hu => hu.modPad x f hf
  rw [State.foldl_serve s d (f := fun _ => f) fun _ => hserve]
  exact State.reply_serve h _ (congrArg Shep.rq (hshep.pads d))

/-! ### CENSUS_CONFIG (17 R459) and NIGHTFOLD_PROGRAM (14 R375) -/

/-- The Census of a paddock with a configuration that waits for the next boundary. -/
def Paddock.censusSet (q : Paddock) (cfg : DumpCfg) : Paddock :=
  { q with census := { q.census with
    pendCfg := some cfg, nextK := if q.census.cfgSet then q.census.nextK else q.now / cfg.period } }

def Taken.censusBase (k : Taken) : Nat := bits (k.p 1) 14 18 * 2 ^ 14 + bits (k.p 2) 0 20 * 2 ^ 32

def Taken.census (k : Taken) : DumpCfg :=
  { en := bitAt (k.p 1) 0, clear := bitAt (k.p 1) 1, depth := bits (k.p 1) 2 4, base := BitVec.ofNat 52 k.censusBase
    period := (k.p 3).toNat }

theorem exec_censusConfig (h : s.Ran d 0x90 k) :
    exec (.censusConfig d) s = .next (
      if 50000 ≤ (k.p 3).toNat ∧ bits (k.p 1) 2 4 ≤ 8 ∧
          s.ringOk d k.censusBase (k.censusBase + 2 ^ bits (k.p 1) 2 4 * 16384) = true then
        ((s.members d).foldl (fun u x => u.modPad x fun q => q.censusSet k.census) s).replies d k .done []
      else s.replies d k .badParam []) := by
  refine congrArg Host.Outcome.next ((State.runTaken_ran h _).trans ?_)
  unfold State.runCensusConfig
  simp only [State.serve_ringOk, State.serve_members]
  have hok : (decide ((k.p 3).toNat < 50000) || decide (8 < bits (k.p 1) 2 4) ||
      !s.ringOk d k.censusBase (k.censusBase + 2 ^ bits (k.p 1) 2 4 * 16384)) = true ↔
      ¬ (50000 ≤ (k.p 3).toNat ∧ bits (k.p 1) 2 4 ≤ 8 ∧
        s.ringOk d k.censusBase (k.censusBase + 2 ^ bits (k.p 1) 2 4 * 16384) = true) := by
    simp only [Bool.or_eq_true, decide_eq_true_eq, Bool.not_eq_true']
    grind
  refine (if_congr hok (State.reply_serve h _ rfl)
    (State.reply_members h (f := fun q => q.censusSet k.census) (fun _ => rfl) fun _ => rfl)).trans (ite_not ..)

def Taken.nightfold (k : Taken) : NfProgram :=
  { interval := bits (k.p 1) 0 16, sentinels := bits (k.p 1) 16 13, retain := (k.p 3) ++ (k.p 2)
    wakeEn := (k.p 4).extractLsb' 0 5 }

theorem exec_nightfoldProgram (h : s.Ran d 0x60 k) (hnf : s.anyDef d (fun y => y == .nightfold) = false) :
    exec (.nightfoldProgram d) s = .next (
      if 1 ≤ k.nightfold.interval ∧ k.nightfold.interval ≤ 60000 ∧ k.nightfold.sentinels ≤ 4096 ∧
          s.retainOk k.nightfold.retain = true then
        ((s.members d).foldl (fun u x => u.modPad x fun q => { q with aon := { q.aon with nfProg := some k.nightfold } })
          s).replies d k .done []
      else s.replies d k .badParam []) := by
  refine congrArg Host.Outcome.next ((State.runTaken_ran h _).trans ?_)
  unfold State.runNightfoldProgram
  simp only [State.serve_retainOk, State.serve_members, State.serve_anyDef, hnf, Bool.false_eq_true, if_false]
  have hok : (decide (k.nightfold.interval = 0) || decide (60000 < k.nightfold.interval) ||
      decide (4096 < k.nightfold.sentinels) || !s.retainOk k.nightfold.retain) = true ↔
      ¬ (1 ≤ k.nightfold.interval ∧ k.nightfold.interval ≤ 60000 ∧ k.nightfold.sentinels ≤ 4096 ∧
        s.retainOk k.nightfold.retain = true) := by
    simp only [Bool.or_eq_true, decide_eq_true_eq, Bool.not_eq_true']
    grind
  exact (if_congr hok (State.reply_serve h .badParam rfl)
    (State.reply_members h (f := fun q => { q with aon := { q.aon with nfProg := some k.nightfold } }) (fun _ => rfl) fun _ => rfl)).trans (ite_not ..)

/-! ### Factory test mode (13 R358, R359) -/

theorem exec_factoryUnlock (h : s.Ran d 0xF0 k) :
    exec (.factoryUnlock d) s = .next (
      if (s.pad d).aon.unlockTries = 3 ∨ (s.pad d).boot.testmode = false then s.replies d k .notPermitted []
      else if (k.p 1).extractLsb' 0 16 = s.krovol.unlock then
        (s.modPad d fun q => { q with bell := { q.bell with unlocked := true } }).replies d k .done []
      else (s.modPad d fun q => { q with aon := { q.aon with unlockTries := q.aon.unlockTries + 1 } }).replies d k
        .notPermitted []) := by
  refine congrArg Host.Outcome.next ((State.runTaken_ran h _).trans ?_)
  unfold State.runFactoryUnlock
  simp only [State.serve_aon, State.serve_boot, State.serve_krovol, Bool.or_eq_true, beq_iff_eq, Bool.not_eq_true', bne_iff_ne,
    ite_not]
  refine if_congr Iff.rfl (State.reply_serve h _ rfl) (if_congr Iff.rfl ?_ ?_)
  · exact State.reply_own h (f := fun q => { q with bell := { q.bell with unlocked := true } }) (fun _ => rfl) (fun _ => rfl) _
  · exact State.reply_own h (f := fun q => { q with aon := { q.aon with unlockTries := q.aon.unlockTries + 1 } })
      (fun _ => rfl) (fun _ => rfl) _

theorem exec_injectFault_locked (h : s.Ran d 0xF1 k) (hlocked : (s.pad d).bell.unlocked = false) :
    s.Answers (.injectFault d) d k .notPermitted := by
  refine congrArg Host.Outcome.next ((State.runTaken_ran h _).trans ?_)
  unfold State.runInjectFault
  simp only [State.serve_bell, hlocked, Bool.not_false, if_true]
  exact State.reply_serve h _ rfl

/-- The report that INJECT_FAULT files. -/
def State.injected (s : State) (d : Die) (k : Taken) : Report :=
  { code := (k.p 1).extractLsb' 0 12, reporter := (k.p 2).extractLsb' 0 10, subject := (k.p 2).extractLsb' 10 10
    addr := some ((k.p 4).extractLsb' 0 20 ++ (k.p 3)), atype := (k.p 2).extractLsb' 20 6, t := (s.pad d).now
    detail := BitVec.ofNat 16 (bits (k.p 1) 17 3), injected := true }

theorem exec_injectFault_report (h : s.Ran d 0xF1 k) (hunlocked : (s.pad d).bell.unlocked = true)
    (hsticky : (stickyCodes.map fun e => e.1).contains ((k.p 1).extractLsb' 0 12).toNat = false)
    (hknown : codeKnown ((k.p 1).extractLsb' 0 12) = true) (hmode : bits (k.p 1) 12 2 = 0) (hfold : bits (k.p 1) 17 3 < 5)
    (hthere : s.present d (dieAt (k.p 1) 14) = true) (hreporter : dieOf ((k.p 2).extractLsb' 0 10) = d)
    (hsubject : dieOf ((k.p 2).extractLsb' 10 10) = d) :
    exec (.injectFault d) s = .next ((s.modPad d fun q => q.receive (s.injected d k)).replies d k .done []) := by
  refine congrArg Host.Outcome.next ((State.runTaken_ran h _).trans ?_)
  have hfind : stickyCodes.find? (fun e => e.1 == ((k.p 1).extractLsb' 0 12).toNat) = none := by
    rw [List.find?_eq_none]
    intro e he hcode
    have hin : ((k.p 1).extractLsb' 0 12).toNat ∈ stickyCodes.map fun e => e.1 := by
      simp only [beq_iff_eq] at hcode
      exact List.mem_map.mpr ⟨e, he, hcode⟩
    exact absurd (List.contains_iff_mem.mpr hin) (by rw [hsticky]; exact Bool.false_ne_true)
  have hbad : (!codeKnown ((k.p 1).extractLsb' 0 12) || decide (bits (k.p 1) 17 3 = 5) || decide (bits (k.p 1) 17 3 = 6) ||
      decide (1 < bits (k.p 1) 12 2) ||
      decide (bits (k.p 1) 12 2 = 1) && !corruptCodes.contains ((k.p 1).extractLsb' 0 12).toNat) = false := by
    simp [hknown, hmode]; omega
  have hreport : (s.serve d).injectReport d (dieAt (k.p 1) 14) k ((k.p 4).extractLsb' 0 20 ++ (k.p 3)) =
      (s.modPad d fun q => q.receive (s.injected d k)).serve d := by
    unfold State.injectReport
    have hnow := State.serve_now s d d
    simp only [hfind, hreporter, hnow]
    rw [← State.modPad_serve s d d (f := fun q => q.receive (s.injected d k)) fun _ => rfl]
    exact State.file_own (r := s.injected d k) hsubject rfl
  unfold State.runInjectFault
  simp only [State.serve_bell, hunlocked, hbad, State.serve_present, hthere, Bool.not_true, Bool.false_eq_true, if_false]
  rw [if_pos hmode, hreport]
  refine State.reply_serve h _ ?_
  rw [State.pad_modPad_same]
  rfl

end

/-- Settles O57. -/
theorem settingsTakeEffect : Obligations.SettingsTakeEffect := by
  unfold Obligations.SettingsTakeEffect
  intro s d k q
  refine ⟨fun h => ?_, fun h => ?_, fun h hnf => ?_, fun h => ?_, fun h => ?_⟩
  · intro c dl sh ok set old
    have hexec := exec_deadlineSet h (dl := dl) (sh := sh) rfl rfl
    exact ⟨fun hbad => hexec.trans (congrArg _ (if_neg hbad)),
      fun hok henv => hexec.trans (congrArg _ ((if_pos hok).trans (if_pos henv))),
      fun hok henv hdue => ⟨_, exec_deadlineSet_due h hok henv hdue, State.onlyRepl_modRepl s d _⟩⟩
  · intro depth base period ok cfg
    have hexec := exec_censusConfig h
    refine ⟨fun hbad => hexec.trans (congrArg _ (if_neg hbad)), fun hok =>
      ⟨_, hexec.trans (congrArg _ (if_pos hok)), ?_⟩⟩
    obtain ⟨hkrovol, htether, hpending⟩ := State.foldl_modPad_rest (fun q => q.censusSet k.census) (s.members d) s
    exact ⟨hkrovol, htether, hpending, State.pad_members s d fun q => q.censusSet k.census⟩
  · intro p ok
    have hexec := exec_nightfoldProgram h hnf
    refine ⟨fun hbad => hexec.trans (congrArg _ (if_neg hbad)), fun hok =>
      ⟨_, hexec.trans (congrArg _ (if_pos hok)), ?_⟩⟩
    let f (q : Paddock) : Paddock := { q with aon := { q.aon with nfProg := some k.nightfold } }
    obtain ⟨hkrovol, htether, hpending⟩ := State.foldl_modPad_rest f (s.members d) s
    exact ⟨hkrovol, htether, hpending, State.pad_members s d f⟩
  · have hexec := exec_factoryUnlock h
    refine ⟨fun hno => hexec.trans (congrArg _ (if_pos hno)), fun htries htest => hexec.trans (congrArg _ (if_neg ?_))⟩
    rintro (h | h)
    · exact htries h
    · exact Bool.false_ne_true (h.symm.trans htest)
  · intro x code
    exact ⟨exec_injectFault_locked h, fun hunlocked hsticky hknown hmode hfold hthere hreporter hsubject =>
      exec_injectFault_report h hunlocked hsticky hknown hmode hfold hthere hreporter hsubject⟩

end Sys2Proof.Machine
end

section
/-!
Packets that the Shepherd takes, held replies, the watchdog, and the statement O55 (15 R397, R400, R403, R410, R417, R420).
-/

namespace Sys2Proof.Machine

/-! ### A packet is taken (15 R400) -/

/-- The command queue whose first packet was taken. -/
def CmdQueue.took (c : CmdQueue) (rest : List (List Word)) (n : Nat) (seq : BitVec 16) (busy : Bool) : CmdQueue :=
  { c with packets := rest, head := c.head.add n, lastSeq := seq, busyFirst := busy }

theorem Ptr2.same_add {p : Ptr2} (h : p.same = true) (n : Nat) : (p.add n).same = true := by
  simp only [Ptr2.same, Ptr2.add, beq_iff_eq] at *
  rw [h]

/-- The paddock whose Shepherd took the first packet of a queue. -/
def Paddock.taking (p : Paddock) (q : QN) (l : List Word) (rest : List (List Word)) : Paddock :=
  { p with
    shep := { p.shep with
      rrLast := q, wdogTick := p.ticks
      cq := vmod p.shep.cq q fun c => c.took rest l.length (takenOf q l).seq true }
    census := padCount 0x2B ((takenOf q l).opc.toNat / 16) 16 (padCount 0x28 0 16 p.census) }

section
variable {s : State} {d : Die} {q : QN} {l : List Word} {rest : List (List Word)}

theorem State.takePacket_eq (htakes : s.shepTakes d = true) (hnext : (s.pad d).shep.nextQueue = some q)
    (hpackets : ((s.pad d).shep.cq[q]).packets = l :: rest) (hsame : ((s.pad d).shep.cq[q]).same = true)
    (hstalled : ((s.pad d).shep.cq[q]).stalled = []) :
    s.takePacket d = (
      let u := s.modPad d fun p => p.taking q l rest
      match s.formCheck d (takenOf q l) (l.headD 0) with
      | some st => u.reply d (takenOf q l) st
      | none => u.modShep d fun x => { x with taken := x.taken ++ [takenOf q l] }) := by
  let u := s.modPad d fun p => p.taking q l rest
  have hshep : (u.pad d).shep = ((s.pad d).taking q l rest).shep := by simp only [u, State.pad_modPad_same]
  have hcq : (u.pad d).shep.cq[q] = ((s.pad d).shep.cq[q]).took rest l.length (takenOf q l).seq true := by
    rw [hshep]
    exact vmod_get_same _ _ _
  have hcheck : u.cqCheck d q = u := by
    have hgood : ((u.pad d).shep.cq[q]).same = true := by
      rw [hcq]
      obtain ⟨hhead, htail⟩ := Bool.and_eq_true_iff.mp hsame
      exact Bool.and_eq_true_iff.mpr ⟨Ptr2.same_add hhead _, htail⟩
    unfold State.cqCheck
    exact if_pos hgood
  have hroom : u.cqUnstall d q 513 = u := by
    have hnone : ((u.pad d).shep.cq[q]).stalled = [] := by rw [hcq]; exact hstalled
    unfold State.cqUnstall
    simp only [hnone]
  have htaken : ((s.modShep d fun x => { x with
      rrLast := q
      wdogTick := (s.pad d).ticks
      cq := vmod x.cq q fun c => { c.take with lastSeq := (takenOf q l).seq, busyFirst := true } }).pcount d 0x28 0).pcount d 0x2B
        ((takenOf q l).opc.toNat / 16) = u := by
    have hcq' : vmod (s.pad d).shep.cq q (fun c => { c.take with lastSeq := (takenOf q l).seq, busyFirst := true }) =
        vmod (s.pad d).shep.cq q fun c => c.took rest l.length (takenOf q l).seq true :=
      vmod_congr (by simp only [CmdQueue.take, CmdQueue.took, hpackets, List.tail_cons, List.headD_cons])
    simp only [State.modShep, State.pcount, State.modPad_modPad]
    refine State.modPad_congr ?_
    simp only [hcq']
    rfl
  have hform : u.formCheck d (takenOf q l) (l.headD 0) = s.formCheck d (takenOf q l) (l.headD 0) := by
    have hdef : (u.pad d).shep.deferred = (s.pad d).shep.deferred := by rw [hshep]; rfl
    have hin : u.inRange d = s.inRange d := by simp only [State.inRange, State.member, u, State.pad_modPad_same]; rfl
    simp only [State.formCheck, hdef, hin]
  simp only [State.takePacket, htakes, hnext, hpackets, Bool.not_true, Bool.false_eq_true, if_false, htaken, hcheck, hroom, hform] <;> rfl

end

theorem State.formCheck_ne_done {s : State} {d : Die} {k : Taken} {w : Word} {st : Status} (h : s.formCheck d k w = some st) :
    st ≠ .done := by
  rintro rfl
  unfold State.formCheck at h
  split at h
  · exact absurd h (by decide)
  · split_ifs at h <;> exact absurd h (by decide)

/-- What an answer leaves: it changes its own Shepherd's queues, and files there what the queues report. -/
theorem State.OnlyPadBut.reply {α : Type} {s t : State} {d : Die} {f : Paddock → α} (h : s.OnlyPadBut t d f)
    (hcq : ∀ q x, f { q with shep := { q.shep with cq := x } } = f q) (hrq : ∀ q x, f { q with shep := { q.shep with rq := x } } = f q)
    (hbell : ∀ q x, f { q with bell := x } = f q) (k : Taken) (st : Status) : s.OnlyPadBut (t.reply d k st) d f := by
  have hmodRq : ∀ {u : State}, s.OnlyPadBut u d f → ∀ g, s.OnlyPadBut (u.modRq d k.q g) d f := fun hu g => hu.modPad _ fun q => hrq q _
  have hbusy : s.OnlyPadBut (t.modCq d k.q fun x => { x with busyFirst := false }) d f := h.modPad _ fun q => hcq q _
  have hcheck : s.OnlyPadBut ((t.modCq d k.q fun x => { x with busyFirst := false }).rqCheck d k.q) d f := by
    unfold State.rqCheck
    refine .ite hbusy (hmodRq ?_ _)
    unfold State.queueRep
    rw [State.file_own (by simp [shepAgent]) rfl]
    exact (hmodRq hbusy _).modPad _ fun q => hbell q _
  exact .ite hbusy (hmodRq hcheck _)

/-! ### Held replies (15 R403) -/

theorem State.postHeld_eq {s : State} {d : Die} {q : QN} (hrun : (s.pad d).shepRuns = true)
    (hsame : ((s.pad d).shep.rq[q]).same = true) : s.postHeld d q = s.modRq d q ReplyQueue.postHeld := by
  have hcheck : s.rqCheck d q = s := if_pos hsame
  simp only [State.postHeld, hrun, if_true, hcheck]

theorem State.modRq_self {s : State} {d : Die} {q : QN} {f : ReplyQueue → ReplyQueue}
    (h : f ((s.pad d).shep.rq[q]) = (s.pad d).shep.rq[q]) : s.modRq d q f = s := by
  refine State.modPad_eq_self s d _ ?_
  dsimp only
  rw [vmod_eq_self _ _ _ h]

/-! ### The watchdog (15 R420) -/

theorem State.Frame.stick {α : Type} {p : Paddock → α} {s t : State} (h : s.Frame p t)
    (hebb : ∀ q x, p { q with ebb := x } = p q) (haon : ∀ q x, p { q with aon := x } = p q) (d : Die) (i : Nat) :
    s.Frame p (t.stick d i) := by
  unfold State.stick
  have hset := h.modPad d (fun q => { q with aon := { q.aon with sticky := putBit q.aon.sticky i true } }) fun q => haon q _
  exact .ite (hset.nfWake hebb haon) hset

theorem State.sticky_nfWake {s : State} {x : Die} {i : Nat} (h : bitAt (s.pad x).aon.sticky i = true) :
    bitAt (s.nfWake.pad x).aon.sticky i = true := by
  have hput : ∀ b : BitVec 10, bitAt b i = true → bitAt (putBit b 6 true) i = true := by
    intro b hb
    rw [bitAt_putBit]
    split
    · rfl
    · exact hb
  rw [State.nfWake, State.pad_modPads]
  dsimp only
  split
  · split
    · exact h
    · dsimp only
      split
      · exact h
      · exact hput _ h
  · split <;> exact h

theorem State.sticky_stick (s : State) (d : Die) {i : Nat} (hi : i < 10) : bitAt ((s.stick d i).pad d).aon.sticky i = true := by
  have hset : bitAt ((s.modPad d fun q => { q with aon := { q.aon with sticky := putBit q.aon.sticky i true } }).pad d).aon.sticky i =
      true := by
    rw [State.pad_modPad_same]
    exact bitAt_putBit_same _ _ hi
  unfold State.stick
  dsimp only
  split
  · exact State.sticky_nfWake hset
  · exact hset

/-- The state of a Shepherd whose watchdog fires: its time starts anew, and the bit is set. -/
def State.barks (s : State) (d : Die) : State :=
  (s.modPad d fun p => { p with shep := { p.shep with wdogTick := p.aon.ticks } }).stick d 5

theorem State.shep_barks (s : State) (d : Die) :
    ((s.barks d).pad d).shep = { (s.pad d).shep with wdogTick := (s.pad d).aon.ticks } ∧
    ((s.barks d).pad d).aon.ticks = (s.pad d).aon.ticks := by
  let u := s.modPad d fun p => { p with shep := { p.shep with wdogTick := p.aon.ticks } }
  have hu : u.pad d = { s.pad d with shep := { (s.pad d).shep with wdogTick := (s.pad d).aon.ticks } } := State.pad_modPad_same ..
  have hshep : ((u.stick d 5).pad d).shep = (u.pad d).shep :=
    ((State.Frame.refl (fun q => q.shep) u).stick (fun _ _ => rfl) (fun _ _ => rfl) d 5).pads d
  have hticks : ((u.stick d 5).pad d).aon.ticks = (u.pad d).aon.ticks :=
    ((State.stick_keeps (Keeps.refl u) d 5).pads d).ticks
  rw [hu] at hshep hticks
  exact ⟨hshep, hticks⟩

section
variable {s : State} {d : Die}

theorem exec_watchdog_early (h : (s.pad d).aon.ticks < (s.pad d).shep.wdogTick + 10000) : exec (.watchdog d) s = .next s := by
  refine congrArg Host.Outcome.next (if_neg ?_)
  intro hdue
  exact Nat.not_le.mpr h (of_decide_eq_true (Bool.and_eq_true_iff.mp hdue).2)

theorem exec_watchdog_due (hreleased : (s.pad d).Released) (hsh : (s.pad d).domOn domSH = true)
    (hdue : (s.pad d).shep.wdogTick + 10000 ≤ (s.pad d).aon.ticks) : exec (.watchdog d) s = .next ((s.barks d).failTaken d) := by
  obtain ⟨hporeset, hpadreset⟩ := hreleased
  have hticks : (s.modShep d fun x => { x with wdogTick := (s.pad d).ticks }) =
      s.modPad d fun p => { p with shep := { p.shep with wdogTick := p.aon.ticks } } := State.modPad_congr rfl
  refine congrArg Host.Outcome.next ((if_pos ?_).trans (congrArg (fun u : State => (u.stick d 5).failTaken d) hticks))
  simp only [hporeset, hpadreset, hsh, Bool.not_false, Bool.and_self, Bool.true_and, decide_eq_true_eq]
  exact hdue

end

theorem State.nfStop_none {u : State} {d : Die} (h : ∀ o ∈ (u.pad d).shep.deferred, o.kind ≠ .nightfold) : u.nfStop d = u := by
  have hnone : u.nfOp d = none := by
    rw [State.nfOp, State.defAt, List.find?_eq_none]
    exact fun o ho => by simpa using h o ho
  simp only [State.nfStop, hnone]

/-- Where every deferred command is kept, what was taken is answered FAILED and no more. -/
theorem State.failTaken_kept {u : State} {d : Die} (hkept : ∀ o ∈ (u.pad d).shep.deferred, o.kind.keeps = true) :
    u.failTaken d = ((u.pad d).shep.taken.foldl (fun s k => s.reply d k .failed)
      (u.modShep d fun x => { x with taken := [] })).nfStop d := by
  have hgone : ((u.pad d).shep.deferred.filter fun o => !o.kind.keeps) = [] := by
    rw [List.filter_eq_nil_iff]
    exact fun o ho => by simp [hkept o ho]
  have hall : ((u.pad d).shep.deferred.filter fun o => o.kind.keeps) = (u.pad d).shep.deferred :=
    List.filter_eq_self.mpr hkept
  simp only [State.failTaken, hgone, List.foldl_nil, List.any_nil, Bool.not_false, List.filter_true]
  refine congrArg (fun v : State => State.nfStop ((u.pad d).shep.taken.foldl (fun s k => s.reply d k .failed) v) d) ?_
  refine State.modPad_congr ?_
  simp only [hall]

/-- The one deferred command is not kept, and what it leaves behind needs no undoing. -/
theorem State.failTaken_one {u : State} {d : Die} {o : Deferred} (hdef : (u.pad d).shep.deferred = [o])
    (htaken : (u.pad d).shep.taken = []) (hkeeps : o.kind.keeps = false) (hstop : u.stopDef d o = u) :
    u.failTaken d = ((u.modShep d fun x => { x with
      taken := [], deferred := [], sweeps := x.sweeps.filter fun j => !(jobOf o.id == j.id) }).answer d o.pkt .failed []
        o.kind.unanswered).nfStop d := by
  simp only [State.failTaken, hdef, htaken, hkeeps, hstop, List.filter_cons, Bool.not_false, if_true,
    List.filter_nil, List.foldl_cons, List.foldl_nil, List.any_cons, List.any_nil, Bool.or_false]
  refine congrArg (fun v : State => State.nfStop (v.answer d o.pkt .failed [] o.kind.unanswered) d) ?_
  refine State.modPad_congr ?_
  simp [hdef, hkeeps]

/-- A final reply that fits an empty reply queue. -/
theorem State.answer_final {t : State} {d : Die} {k : Taken} {st : Status} {data : List Word}
    (hsaid : (k.quiet && st == .done) = false) (hrq : ((t.pad d).shep.rq[k.q]).Empty) (hlen : data.length ≤ 254) :
    t.answer d k st data false = t.modRq d k.q fun x => { x with
      replies := [{ pri := k.pri, words := replyWords k.opc k.tag k.pri k.seq st data }]
      tail := x.tail.add (data.length + 2) } := by
  obtain ⟨hreplies, hcurrent, hheld, hsame⟩ := hrq
  have hcheck : t.rqCheck d k.q = t := if_pos hsame
  simp only [State.answer, hsaid, Bool.false_eq_true, if_false, State.post, hcheck]
  refine State.modRq_congr ?_
  simp [-Fin.getElem_fin, ReplyQueue.post, ReplyQueue.used, hreplies, hcurrent, hheld, replyWords]
  omega

section
variable {u : State} {d : Die} (hloud : ∀ o ∈ (u.pad d).shep.deferred, o.kind.keeps = true ∧ o.kind ≠ .nightfold)
include hloud

theorem State.failTaken_idle (htaken : (u.pad d).shep.taken = []) : u.failTaken d = u := by
  have hself : (u.modShep d fun x => { x with taken := [] }) = u := by
    refine State.modPad_eq_self u d _ ?_
    dsimp only
    rw [← htaken]
  rw [State.failTaken_kept fun o ho => (hloud o ho).1, htaken, List.foldl_nil, hself]
  exact State.nfStop_none fun o ho => (hloud o ho).2

theorem State.failTaken_answers {k : Taken} (htaken : (u.pad d).shep.taken = [k]) (hquiet : k.quiet = false)
    (hrq : ((u.pad d).shep.rq[k.q]).Empty) (hwdog : (u.pad d).shep.wdogTick = (u.pad d).aon.ticks) :
    u.failTaken d = u.replies d k .failed [] := by
  let v := u.modShep d fun x => { x with taken := [] }
  have hv : (v.pad d).shep = { (u.pad d).shep with taken := [] } := State.pad_modShep_same .. ▸ rfl
  have hreply : v.reply d k .failed = u.replies d k .failed [] := by
    refine (State.answer_empty (by simp only [hquiet, Bool.false_and]) (by rw [hv]; exact hrq) (Nat.zero_le _)).trans ?_
    simp only [v, State.modShep, State.modPad_modPad]
    refine State.modPad_congr ?_
    simp only [← hwdog, Paddock.answers]
    rfl
  rw [State.failTaken_kept fun o ho => (hloud o ho).1, htaken, List.foldl_cons, List.foldl_nil, hreply]
  refine State.nfStop_none ?_
  have hdef : ((u.replies d k .failed []).pad d).shep.deferred = (u.pad d).shep.deferred := by
    simp only [State.replies, State.pad_modPad_same]
  rw [hdef]
  exact fun o ho => (hloud o ho).2

end

/-- A HURDLE_LOG_LOAD is not resumed: FAILED is its final reply. -/
theorem State.failTaken_hurdleLoad {u : State} {d : Die} {o : Deferred} {todo : List (BitVec 64)} {n : Nat}
    (hdef : (u.pad d).shep.deferred = [o]) (htaken : (u.pad d).shep.taken = []) (hkind : o.kind = .hurdleLoad todo n)
    (hquiet : o.pkt.quiet = false) (hrq : ((u.pad d).shep.rq[o.pkt.q]).Empty) :
    ((u.failTaken d).pad d).aon = (u.pad d).aon ∧ ((u.failTaken d).pad d).shep.deferred = [] ∧
    (((u.failTaken d).pad d).shep.rq[o.pkt.q]).replies =
      [{ pri := o.pkt.pri, words := replyWords o.pkt.opc o.pkt.tag o.pkt.pri o.pkt.seq .failed [] }] := by
  let v := u.modShep d fun x => { x with
    taken := [], deferred := [], sweeps := x.sweeps.filter fun j => !(jobOf o.id == j.id) }
  have hv : v.pad d = { u.pad d with shep := { (u.pad d).shep with
      taken := [], deferred := [], sweeps := (u.pad d).shep.sweeps.filter fun j => !(jobOf o.id == j.id) } } := by
    simp only [v, State.pad_modShep_same]
  have hrqv : ((v.pad d).shep.rq[o.pkt.q]).Empty := by simpa only [hv] using hrq
  let r : Reply := { pri := o.pkt.pri, words := replyWords o.pkt.opc o.pkt.tag o.pkt.pri o.pkt.seq .failed [] }
  let t := v.modRq d o.pkt.q fun x => { x with replies := [r], tail := x.tail.add 2 }
  have ht : t.pad d = { v.pad d with shep := { (v.pad d).shep with
      rq := vmod (v.pad d).shep.rq o.pkt.q fun x => { x with replies := [r], tail := x.tail.add 2 } } } := by
    simp only [t, State.modRq, State.pad_modShep_same]
  have hfail : u.failTaken d = t := by
    rw [State.failTaken_one hdef htaken (by rw [hkind]; rfl) (by rw [State.stopDef, hkind])]
    refine (congrArg (fun w : State => w.nfStop d) ?_).trans (State.nfStop_none ?_)
    · rw [hkind]
      exact State.answer_final (by simp only [hquiet, Bool.false_and]) hrqv (Nat.zero_le _)
    · rw [ht, hv]
      simp
  rw [hfail, ht, hv]
  exact ⟨rfl, rfl, congrArg ReplyQueue.replies (vmod_get_same _ _ _)⟩

/-- Settles O55. -/
theorem packetsAreTakenInTurn : Obligations.PacketsAreTakenInTurn := by
  unfold Obligations.PacketsAreTakenInTurn
  intro s d q x c y
  refine ⟨?_, ?_, ?_, ?_, ?_, exec_watchdog_early, ?_⟩
  · intro l rest htakes hnext hpackets hsame hstalled k took
    have hexec : exec (.packetTake d) s = .next _ :=
      congrArg Host.Outcome.next (State.takePacket_eq htakes hnext hpackets hsame hstalled)
    have honly : s.OnlyPad (s.modPad d fun p => p.taking q l rest) d := (State.OnlyPad.refl s d).modPad _
    have hpad : (s.modPad d fun p => p.taking q l rest).pad d = (s.pad d).taking q l rest := State.pad_modPad_same ..
    cases hform : s.formCheck d (takenOf q l) (l.headD 0) with
    | none =>
      rw [hform] at hexec
      refine ⟨_, hexec, honly.modPad _, ?_⟩
      simp only [State.pad_modShep_same, hpad]
      refine ⟨rfl, rfl, fun _ => ⟨rfl, vmod_get_same _ _ _, rfl⟩, fun st hst => ?_⟩
      exact absurd hst (by simp)
    | some st =>
      rw [hform] at hexec
      let u := s.modPad d fun p => p.taking q l rest
      have hreply := (State.OnlyPadBut.refl u d fun p => (p.shep.rrLast, p.folds)).reply (fun _ _ => rfl) (fun _ _ => rfl)
        (fun _ _ => rfl) (takenOf q l) st
      have hparts := Prod.mk.inj hreply.part
      rw [hpad] at hparts
      refine ⟨_, hexec, honly.trans hreply.only, hparts.1, hparts.2, fun hst => absurd hst (by simp), fun st' hst' hreplies hcurrent hheld hempty => ?_⟩
      obtain rfl : st = st' := Option.some.inj hst'
      have hsaid : ((takenOf q l).quiet && st == .done) = false := by
        simp [State.formCheck_ne_done hform]
      have hanswer : u.reply d (takenOf q l) st = u.modPad d fun p => p.answers (takenOf q l) st [] :=
        State.answer_empty hsaid (by rw [hpad]; exact ⟨hreplies, hcurrent, hheld, hempty⟩) (Nat.zero_le _)
      have hdone : (u.reply d (takenOf q l) st).pad d = ((s.pad d).taking q l rest).answers (takenOf q l) st [] := by
        rw [hanswer, State.pad_modPad_same, hpad]
      show ((u.reply d (takenOf q l) st).pad d).shep.taken = _ ∧ ((u.reply d (takenOf q l) st).pad d).shep.cq[q] = _ ∧
        ((u.reply d (takenOf q l) st).pad d).shep.rq[q] = _
      rw [hdone]
      refine ⟨rfl, ?_, ?_⟩
      · refine (vmod_get_same _ _ _).trans ?_
        exact congrArg (fun z : CmdQueue => { z with busyFirst := false }) (vmod_get_same _ _ _)
      · exact (vmod_get_same _ _ _).trans rfl
  · intro h
    refine congrArg Host.Outcome.next ?_
    rcases h with h | h
    · simp only [State.takePacket, h, Bool.not_false, if_true]
    · unfold State.takePacket
      split
      · rfl
      · simp only [show (s.pad d).shep.nextQueue = none from h]
  · intro h
    refine congrArg Host.Outcome.next ?_
    simp only [State.postHeld, h, Bool.false_eq_true, if_false]
  · intro hrun hsame hheld
    refine congrArg Host.Outcome.next ((State.postHeld_eq hrun hsame).trans (State.modRq_self ?_))
    simp only [ReplyQueue.postHeld, show ((s.pad d).shep.rq[q]).held = [] from hheld]
  · intro hrun hsame r rest hheld
    refine congrArg Host.Outcome.next ((State.postHeld_eq hrun hsame).trans ?_)
    have hheld' : ((s.pad d).shep.rq[q]).held = r :: rest := hheld
    split
    next hfits => exact State.modRq_congr (by simp only [ReplyQueue.postHeld, hheld']; rw [if_pos hfits])
    next hfull => exact State.modRq_self (by simp only [ReplyQueue.postHeld, hheld']; rw [if_neg hfull])
  · intro hreleased hsh hdue stuck empty
    obtain ⟨hshep, hticks⟩ := s.shep_barks d
    have hexec := exec_watchdog_due hreleased hsh hdue
    have hdef : ((s.barks d).pad d).shep.deferred = x.deferred := by rw [hshep]
    have htaken : ((s.barks d).pad d).shep.taken = x.taken := by rw [hshep]
    have hrq : ∀ j : QN, ((s.barks d).pad d).shep.rq[j] = x.rq[j] := fun j => by rw [hshep]
    have hwdog : ((s.barks d).pad d).shep.wdogTick = ((s.barks d).pad d).aon.ticks := by rw [hshep, hticks]
    refine ⟨fun hd ht => ?_, fun k hd ht hquiet hempty => ?_, fun o hd ht hkeeps hnf => ?_,
      fun o todo n hd ht hkind hquiet hempty => ?_⟩
    · refine hexec.trans (congrArg _ (State.failTaken_idle ?_ (htaken.trans ht)))
      rw [hdef, hd]
      simp
    · refine hexec.trans (congrArg _ (State.failTaken_answers ?_ (htaken.trans ht) hquiet ((hrq k.q) ▸ hempty) hwdog))
      rw [hdef, hd]
      simp
    · refine hexec.trans (congrArg _ (State.failTaken_idle ?_ (htaken.trans ht)))
      rw [hdef, hd]
      simpa using ⟨hkeeps, hnf⟩
    · obtain ⟨t, ht', hkrovol, hpending, -⟩ := commandsKeepParametersQueueAndTime (.watchdog d) s
      obtain rfl : t = (s.barks d).failTaken d := Host.Outcome.next.inj (ht'.symm.trans hexec)
      obtain ⟨haon, hnone, hreplies⟩ := State.failTaken_hurdleLoad (hdef.trans hd) (htaken.trans ht) hkind hquiet
        ((hrq o.pkt.q) ▸ hempty)
      refine ⟨_, hexec, hkrovol, hpending, hnone, ?_, hreplies⟩
      rw [haon]
      exact State.sticky_stick _ d (by decide)

end Sys2Proof.Machine
end

section
/-!
Commands about folds and lines that take long and the statement O58 (06 R167 to R169, 12 R316, R326, R327, 14 R368).
-/

namespace Sys2Proof.Machine

/-! ### A command that goes on -/

/-- Answered DEFERRED, a command goes on: whatever it changed outside the Shepherd before. -/
theorem State.defer_serve {s u : State} {d : Die} {opc : BitVec 8} {k : Taken} (h : s.Ran d opc k) (kind : DefKind)
    (hu : (u.pad d).shep.rq = (s.pad d).shep.rq) : (u.serve d).defer d k kind = u.defers d k kind := by
  unfold State.defer
  rw [State.answer_serve h .deferred hu (Nat.zero_le _)]
  simp only [State.defers, State.replies, State.modShep, State.modPad_modPad]

section
variable {s : State} {d : Die}

theorem State.anyDef_idle (hidle : s.Idle d) (f : DefKind → Bool) : (s.serve d).anyDef d f = false := by
  rw [State.serve_anyDef, State.anyDef, show (s.pad d).shep.deferred = [] from hidle]
  rfl

theorem State.serve_homesC0 (x : Die) : (s.serve d).homesC0 d x = s.homesC0 d x := by
  have hbad := fun n => Env.bad_at (v := s.envNow d) (t := s.serve d) rfl (fun _ => State.serve_stream ..) n
  simp only [State.homesC0, State.serve_envNow, hbad]
  rfl

theorem State.serve_mpWays (x : Die) : (s.serve d).mpWays x = s.mpWays x := by
  rw [State.mpWays, State.serve_folds, State.mpWays]

theorem State.serve_power (x : Die) (p : PFold) : (s.serve d).power x p = s.power x p := by
  rw [State.power, State.serve_ebb, State.power]

theorem State.serve_millBlocked (x : Die) (p : PFold) : (s.serve d).millBlocked d x p = s.millBlocked d x p := by
  simp only [State.millBlocked, State.serve_repl, State.serve_mpWays, State.serve_folds]

end

/-- A fold's registers leave the Shepherd alone. -/
theorem State.shep_modFold (s : State) (d x : Die) (p : PFold) (f : Fold → Fold) : ((s.modFold x p f).pad d).shep = (s.pad d).shep :=
  ((State.Frame.refl (fun q => q.shep) s).modPad x (fun q => { q with folds := vmod q.folds p f }) fun _ => rfl).pads d

theorem State.serve_modFold (s : State) (d x : Die) (p : PFold) (f : Fold → Fold) :
    (s.serve d).modFold x p f = (s.modFold x p f).serve d :=
  State.modPad_serve s d x (f := fun q => { q with folds := vmod q.folds p f }) fun _ => rfl

section
variable {s : State} {d : Die} {k : Taken}

/-! ### Maintenance (06 R167, R168) -/

theorem exec_maintRange (h : s.Ran d 0x30 k) :
    exec (.maintRange d) s = .next (
      match maintOp (bits (k.p 1) 0 2) with
      | none => s.replies d k .badParam []
      | some op =>
        if lineOfWords (k.p 3) (k.p 4) ≤ lineOfWords (k.p 1) (k.p 2) then s.replies d k .badParam []
        else s.defers d k (.maint { op := op, limit := lineOfWords (k.p 3) (k.p 4)
                                    next := Vector.replicate 8 (lineOfWords (k.p 1) (k.p 2)) })) := by
  refine congrArg Host.Outcome.next ((State.runTaken_ran h _).trans ?_)
  simp only [State.runMaintRange, State.reply_serve h _ rfl, State.defer_serve h _ rfl] <;> rfl

theorem exec_maintSetway {x : Die} {first cnt : Nat} {p : PFold} (h : s.Ran d 0x31 k) (hx : x = dieAt (k.p 1) 0)
    (hfirst : first = bits (k.p 1) 7 12) (hcnt : cnt = bits (k.p 2) 0 13) (hlo : 1 ≤ cnt) (hhi : first + cnt ≤ 4096)
    (hdie : s.dieCheck d x = none) (hp : (s.pad x).repl.pfoldOf x (Fin.ofNat 4 (bits (k.p 1) 3 2)) = some p) :
    exec (.maintSetway d) s = .next (
      let m (a : Nat) : DefKind := .setway { d := x, n := Fin.ofNat 4 (bits (k.p 1) 3 2), action := (k.p 1).extractLsb' 5 2
                                             ways := (k.p 2).extractLsb' 13 16, next := a, limit := (first + cnt) * 16 }
      if (k.p 1).extractLsb' 5 2 = (3 : BitVec 2) then
        (s.modFold x p fun f => { f with poolLost := f.poolLost.filter fun i => i < first || first + cnt ≤ i }).defers d k
          (m ((first + cnt) * 16))
      else s.defers d k (m (first * 16))) := by
  refine congrArg Host.Outcome.next ((State.runTaken_ran h _).trans ?_)
  have hcount : (decide (cnt = 0) || decide (4096 < first + cnt)) = false := by simp; omega
  simp only [State.runMaintSetway, ← hx, ← hfirst, ← hcnt, State.serve_dieCheck, hdie, State.serve_repl, hp, beq_iff_eq, hcount,
    Bool.false_eq_true, if_false]
  by_cases hact : (k.p 1).extractLsb' 5 2 = (3 : BitVec 2)
  · simp only [hact, if_true]
    rw [State.serve_modFold]
    exact State.defer_serve h _ (congrArg Shep.rq (State.shep_modFold s d x p _))
  · simp only [hact, if_false]
    exact State.defer_serve h _ rfl

theorem exec_maintSetway_bad (h : s.Ran d 0x31 k)
    (hbad : bits (k.p 2) 0 13 = 0 ∨ 4096 < bits (k.p 1) 7 12 + bits (k.p 2) 0 13) : s.Answers (.maintSetway d) d k .badParam := by
  refine congrArg Host.Outcome.next ((State.runTaken_ran h _).trans ?_)
  unfold State.runMaintSetway
  exact (if_pos (by simpa using hbad)).trans (State.reply_serve h _ rfl)

/-! ### SCRUB_RANGE of an array, MILLPOND_CONFIG that does not grow (12 R316, 06 R169) -/

theorem exec_scrubRange {y : Die} {first cnt : Nat} (h : s.Ran d 0x20 k) (hidle : s.Idle d) (harray : bitAt (k.p 1) 0 = true)
    (hy : y = dieAt (k.p 2) 0) (hfirst : first = bits (k.p 3) 0 18) (hcnt : cnt = bits (k.p 4) 0 18) :
    exec (.scrubRange d) s = .next (
      let a := arrayOf (bits (k.p 2) 6 3)
      if 1 ≤ cnt ∧ first + cnt ≤ arraySize a ∧ bits (k.p 2) 3 3 ≤ 4 then
        match s.dieCheck d y with
        | some st => s.replies d k st []
        | none => (s.modFold y (Fin.ofNat 5 (bits (k.p 2) 3 3)) fun f => { f with scrub := some {
            array := some a, next := first, limit := first + cnt, pace := bits (k.p 1) 1 4, lastCycle := 0
            record := bitAt (k.p 1) 5 } }).defers d k (.scrub true 0 (s.pad d).now 0 0)
      else s.replies d k .badParam []) := by
  refine congrArg Host.Outcome.next ((State.runTaken_ran h _).trans ?_)
  have hok : (decide (cnt = 0) || decide (arraySize (arrayOf (bits (k.p 2) 6 3)) < first + cnt) ||
      decide (4 < bits (k.p 2) 3 3)) = true ↔
      ¬ (1 ≤ cnt ∧ first + cnt ≤ arraySize (arrayOf (bits (k.p 2) 6 3)) ∧ bits (k.p 2) 3 3 ≤ 4) := by
    simp; omega
  simp only [State.runScrubRange, harray, if_true, ← hy, ← hfirst, ← hcnt, State.serve_dieCheck, State.anyDef_idle hidle,
    State.serve_now, Bool.false_eq_true, if_false]
  refine (if_congr hok (State.reply_serve h .badParam rfl) ?_).trans (ite_not ..)
  cases s.dieCheck d y with
  | some st => exact State.reply_serve h st rfl
  | none =>
    show ((s.serve d).scrubStart y _ _ _ _ _).defer d k _ = _
    unfold State.scrubStart
    rw [State.serve_modFold]
    exact State.defer_serve h _ (congrArg Shep.rq (State.shep_modFold s d y _ _))

theorem newMill_self (n : Nat) : newMill n n = [] := by
  unfold newMill
  rw [List.filter_eq_nil_iff]
  intro w _
  simp

theorem exec_millpondConfig {x : Die} {new : Nat} (h : s.Ran d 0x32 k) (hidle : s.Idle d) (hx : x = dieAt (k.p 1) 0)
    (hnew : new = bits (k.p 1) 3 4) :
    (8 < new → s.Answers (.millpondConfig d) d k .badParam) ∧
    (new ≤ 8 → s.dieCheck d x = none → new ≤ s.mpWays x → (s.pad d).repl.mpMiB x ≤ new →
      exec (.millpondConfig d) s = .next (s.defers d k (.millpond x new))) := by
  have hrun : exec (.millpondConfig d) s = .next ((s.serve d).runMillpondConfig d k) :=
    congrArg Host.Outcome.next (State.runTaken_ran h _)
  refine ⟨fun hbad => hrun.trans (congrArg _ ?_), fun hok hdie hshrink hroom => hrun.trans (congrArg _ ?_)⟩
  · simp only [State.runMillpondConfig, ← hx, ← hnew, if_pos hbad]
    exact State.reply_serve h _ rfl
  · have hallowed : (if new < s.mpWays x then decide (new < (s.pad d).repl.mpMiB x)
        else (newMill (s.mpWays x) new).any fun w => pfolds.any fun p => bitAt ((s.pad x).folds[p]).poolDisabled w.val) = false := by
      split
      · exact decide_eq_false (by omega)
      · rw [show s.mpWays x = new by omega, newMill_self]
        rfl
    simp only [State.runMillpondConfig, ← hx, ← hnew, if_neg (Nat.not_lt.mpr hok), State.serve_dieCheck, hdie,
      State.anyDef_idle hidle, State.serve_mpWays, State.serve_repl, State.serve_folds, hallowed, Bool.false_eq_true, if_false,
      if_pos hshrink]
    exact State.defer_serve h _ rfl

/-! ### FOLD_POWER (14 R368) -/

theorem exec_foldPower_bad (h : s.Ran d 0x10 k) (hbad : bits (k.p 1) 5 3 ∉ [0, 1, 3, 4]) : s.Answers (.foldPower d) d k .badParam := by
  have hnone : foldStateOf (bits (k.p 1) 5 3) = none := by
    unfold foldStateOf
    split <;> simp_all
  refine congrArg Host.Outcome.next ((State.runTaken_ran h _).trans ?_)
  simp only [State.runFoldPower, hnone]
  exact State.reply_serve h _ rfl

/-- The paddock whose fold drains for RETAIN. -/
def Paddock.drainsToRetain (q : Paddock) (p : PFold) : Paddock :=
  { q with
    folds := vmod q.folds p fun f => { f with refuseReq := true }
    ebb := { q.ebb with fold := vmod q.ebb.fold p fun y => { y with
      state := .drain, target := .retain, gated := false, waking := none } } }

theorem State.setTarget_retain {t : State} {x : Die} {p : PFold} (hstate : (t.power x p).state = .run) :
    t.setTarget x p .retain = t.modPad x fun q => q.drainsToRetain p := by
  simp only [State.setTarget, hstate, State.startDrain, State.modPower, State.modEbb, State.modFold, State.modPad_modPad]
  rfl

theorem State.setTarget_run {t : State} {x : Die} {p : PFold} (hstate : (t.power x p).state = .run)
    (hgated : (t.power x p).gated = false) :
    t.setTarget x p .run = t.modPad x fun q => { q with ebb := { q.ebb with
      fold := vmod q.ebb.fold p fun y => { y with target := .run } } } := by
  have hclocked : (((t.modPower x p fun y => { y with target := .run }).pad x).ebb.fold[p]).gated = false := by
    simp only [State.modPower, State.pad_modEbb_same]
    exact (congrArg FoldPower.gated (vmod_get_same _ _ _)).trans hgated
  have hstay : (t.modPower x p fun y => { y with target := .run }).ungate x p = t.modPower x p fun y => { y with target := .run } := by
    unfold State.ungate
    rw [hclocked]
    rfl
  simp only [State.setTarget, hstate, hstay]
  rfl

theorem State.Frame.defers {α : Type} {p : Paddock → α} {s t : State} (h : s.Frame p t)
    (hshep : ∀ q x, p { q with shep := x } = p q) (d : Die) (k : Taken) (kind : DefKind) : s.Frame p (t.defers d k kind) :=
  (h.modPad d _ fun q => hshep q _).modPad d _ fun q => hshep q _

section
variable {x : Die} {p : PFold} (h : s.Ran d 0x10 k) (hidle : s.Idle d) (hx : x = dieAt (k.p 1) 0)
  (hdie : s.dieCheck d x = none) (hp : (s.pad d).repl.pfoldOf x (Fin.ofNat 4 (bits (k.p 1) 3 2)) = some p)
  (hstate : (s.power x p).state = .run)
include h hidle hx hdie hp hstate

theorem exec_foldPower_retain (ht : bits (k.p 1) 5 3 = 3) (hc0 : s.homesC0 d x = false) :
    exec (.foldPower d) s = .next ((s.defers d k (.foldPower x (Fin.ofNat 4 (bits (k.p 1) 3 2)) .retain)).modPad x fun q =>
      q.drainsToRetain p) := by
  refine congrArg Host.Outcome.next ((State.runTaken_ran h _).trans ?_)
  have hrefused : (s.serve d).powerRefused d x p .retain = false := (State.serve_homesC0 x).trans hc0
  have hidle' : ∀ f, (s.serve d).anyDef d f = false := State.anyDef_idle hidle
  have hdrain : ((s.power x p).state == FoldState.drain) = false := by rw [hstate]; rfl
  have hup : ((s.defers d k (.foldPower x (Fin.ofNat 4 (bits (k.p 1) 3 2)) .retain)).power x p).state = .run := by
    have hebb := (State.Frame.refl (fun q => q.ebb) s).defers (fun _ _ => rfl) d k (.foldPower x (Fin.ofNat 4 (bits (k.p 1) 3 2)) .retain)
    rw [State.power, hebb.pads x]
    exact hstate
  simp only [State.runFoldPower, ht, foldStateOf, ← hx, State.serve_dieCheck, hdie, State.serve_repl, hp, hrefused, hidle',
    State.serve_power, hdrain, Bool.or_self, Bool.false_and, Bool.false_eq_true, if_false]
  rw [if_pos (by decide), State.defer_serve h _ rfl]
  exact State.setTarget_retain hup

theorem exec_foldPower_run (ht : bits (k.p 1) 5 3 = 0) (hgated : (s.power x p).gated = false)
    (hdue : (s.pad d).shep.recheck.isSome = true) :
    exec (.foldPower d) s = .next ((s.modPad x fun q => { q with ebb := { q.ebb with
      fold := vmod q.ebb.fold p fun y => { y with target := .run } } }).replies d k .done []) := by
  refine congrArg Host.Outcome.next ((State.runTaken_ran h _).trans ?_)
  have hidle' : ∀ f, (s.serve d).anyDef d f = false := State.anyDef_idle hidle
  have hdrain : ((s.power x p).state == FoldState.drain) = false := by rw [hstate]; rfl
  simp only [State.runFoldPower, ht, foldStateOf, ← hx, State.serve_dieCheck, hdie, State.serve_repl, hp, State.powerRefused, hidle',
    State.serve_power, hdrain, Bool.or_self, Bool.false_and, Bool.false_eq_true, if_false]
  rw [if_neg (by decide), State.setTarget_run ((congrArg FoldPower.state (State.serve_power x p)).trans hstate)
    ((congrArg FoldPower.gated (State.serve_power x p)).trans hgated)]
  let f (q : Paddock) : Paddock := { q with ebb := { q.ebb with fold := vmod q.ebb.fold p fun y => { y with target := .run } } }
  have hshep : ((s.modPad x f).pad d).shep = (s.pad d).shep :=
    ((State.Frame.refl (fun q => q.shep) s).modPad x f fun _ => rfl).pads d
  have henv : ((s.modPad x f).serve d).envChanged d = (s.modPad x f).serve d := by
    unfold State.envChanged
    rw [State.shep_serve, hshep]
    exact if_pos hdue
  show (((s.serve d).modPad x f).envChanged d).reply d k .done = (s.modPad x f).replies d k .done []
  rw [State.modPad_serve s d x (f := f) fun _ => rfl, henv]
  exact State.reply_serve h _ (congrArg Shep.rq hshep)

end

/-! ### FOLD_SPARE_IN and FOLD_RETIRE (12 R326, R327) -/

theorem State.bringUp_eq (t : State) (x : Die) : t.bringUp x 4 = (t.modPad x fun q => { q with
    boot := { q.boot with selfTested := putBit q.boot.selfTested 4 false, arrayInit := putBit q.boot.arrayInit 4 false }
    ebb := { q.ebb with fold := vmod q.ebb.fold 4 fun y => { y with target := .run } } }).startWake x 4 := by
  simp only [State.bringUp, State.modPower, State.modEbb, State.modPad_modPad]
  rfl

theorem State.moveBusy_idle (hidle : s.Idle d) (x : Die) : (s.serve d).moveBusy d x = false := State.anyDef_idle hidle _

theorem exec_foldSpareIn {x : Die} {t : Nat} (h : s.Ran d 0x12 k) (hidle : s.Idle d) (hx : x = dieAt (k.p 1) 0)
    (ht : t = bits (k.p 1) 5 3) :
    exec (.foldSpareIn d) s = .next (
      let n : LFold := Fin.ofNat 4 (bits (k.p 1) 3 2)
      if t ≠ 4 ∧ t ≠ n.val then s.replies d k .badParam []
      else match s.dieCheck d x with
      | some st => s.replies d k st []
      | none =>
        let q : PFold := Fin.ofNat 5 t
        let m := (s.pad d).repl.foldmap[x]
        if ((s.pad d).repl.carries x q).isSome || bitAt m.failed q.val || s.millBlocked d x q then s.replies d k .notPermitted []
        else (s.defers d k (.move { d := x, n := n, src := m.pfold[n], dst := q, retire := false
                                    vacant := bitAt m.vacant n.val })).bringUp x q) := by
  refine congrArg Host.Outcome.next ((State.runTaken_ran h _).trans ?_)
  simp only [State.runFoldSpareIn, ← hx, ← ht, State.serve_dieCheck, State.serve_repl, State.serve_millBlocked, State.startMove,
    State.moveBusy_idle hidle, Bool.false_eq_true, if_false, State.reply_serve h _ rfl, State.defer_serve h _ rfl,
    Bool.and_eq_true, bne_iff_ne] <;> rfl

theorem exec_foldRetire {x : Die} {p : PFold} (h : s.Ran d 0x11 k) (hidle : s.Idle d) (hx : x = dieAt (k.p 1) 0)
    (hp : p = Fin.ofNat 5 (bits (k.p 1) 3 3)) :
    (4 < bits (k.p 1) 3 3 → s.Answers (.foldRetire d) d k .badParam) ∧
    (bits (k.p 1) 3 3 ≤ 4 → s.dieCheck d x = none →
      (bitAt ((s.pad d).repl.foldmap[x]).failed p.val = true → s.Answers (.foldRetire d) d k .done) ∧
      (∀ n, bitAt ((s.pad d).repl.foldmap[x]).failed p.val = false → (s.pad d).repl.carries x p = some n →
        exec (.foldRetire d) s = .next (
          match ((s.pad d).repl.foldmap[x]).standby with
          | none => s.replies d k .notPermitted []
          | some q =>
            if (q != 4 && q.val != n.val) || s.millBlocked d x q then s.replies d k .notPermitted []
            else (s.defers d k (.move { d := x, n := n, src := p, dst := q, retire := true })).bringUp x q))) := by
  have hrun : exec (.foldRetire d) s = .next ((s.serve d).runFoldRetire d k) :=
    congrArg Host.Outcome.next (State.runTaken_ran h _)
  refine ⟨fun hbad => hrun.trans (congrArg _ ((if_pos hbad).trans (State.reply_serve h _ rfl))), fun hfold hdie =>
    ⟨fun hfailed => hrun.trans (congrArg _ ?_), fun n hsound hcarries => hrun.trans (congrArg _ ?_)⟩⟩
  · simp only [State.runFoldRetire, if_neg (Nat.not_lt.mpr hfold), ← hx, ← hp, State.serve_dieCheck, hdie, State.serve_repl, hfailed,
      if_true]
    exact State.reply_serve h _ rfl
  · simp only [State.runFoldRetire, if_neg (Nat.not_lt.mpr hfold), ← hx, ← hp, State.serve_dieCheck, hdie, State.serve_repl, hsound,
      hcarries, State.serve_millBlocked, State.moveBusy_idle hidle, State.startMove, Bool.false_eq_true, if_false,
      State.reply_serve h _ rfl, State.defer_serve h _ rfl] <;> rfl

end

/-- Settles O58. -/
theorem foldCommandsGoOn : Obligations.FoldCommandsGoOn := by
  unfold Obligations.FoldCommandsGoOn
  intro s d k hidle w x n
  refine ⟨fun h => ?_, fun h => ?_, fun h harray => ?_, fun h => ?_, fun h => ?_, fun h => ?_, fun h => ?_⟩
  · intro lo hi
    have hexec := exec_maintRange h
    have hcode : bits w 0 2 < 4 := Nat.mod_lt _ (by decide)
    refine ⟨fun hbad => hexec.trans (congrArg _ ?_), fun op hop hlo => hexec.trans (congrArg _ ?_)⟩
    · rcases hbad with hbad | hbad
      · rw [show bits (k.p 1) 0 2 = 3 from hbad] <;> rfl
      · split
        · rfl
        · exact if_pos hbad
    · have hmaint : maintOp (bits (k.p 1) 0 2) = some op := by
        simp only [List.mem_cons, Prod.mk.injEq, List.not_mem_nil, or_false] at hop
        rcases hop with ⟨hb, rfl⟩ | ⟨hb, rfl⟩ | ⟨hb, rfl⟩ <;> rw [show bits (k.p 1) 0 2 = _ from hb] <;> rfl
      rw [hmaint]
      exact if_neg (Nat.not_le.mpr hlo)
  · intro first cnt
    refine ⟨exec_maintSetway_bad h, fun hlo hhi hdie p hp => ?_⟩
    have hexec := exec_maintSetway h (x := x) (first := first) (cnt := cnt) rfl rfl rfl hlo hhi hdie hp
    exact ⟨fun hact => hexec.trans (congrArg _ (if_neg hact)), fun hact => hexec.trans (congrArg _ (if_pos hact))⟩
  · intro y a first cnt ok
    have hexec := exec_scrubRange h hidle harray (y := y) (first := first) (cnt := cnt) rfl rfl rfl
    refine ⟨fun hbad => hexec.trans (congrArg _ (if_neg hbad)), fun hok hdie => hexec.trans (congrArg _ ((if_pos hok).trans ?_))⟩
    simp only [hdie] <;> rfl
  · intro new
    exact exec_millpondConfig h hidle rfl rfl
  · intro t
    refine ⟨exec_foldPower_bad h, fun p _ hdie hp hstate => ⟨fun ht hc0 => ?_, fun ht hgated hdue => ?_⟩⟩
    · exact exec_foldPower_retain h hidle rfl hdie hp hstate ht hc0
    · exact exec_foldPower_run h hidle rfl hdie hp hstate ht hgated hdue
  · intro t
    have hexec := exec_foldSpareIn h hidle (x := x) (t := t) rfl rfl
    have hq : t = 4 → (Fin.ofNat 5 t : PFold) = 4 := fun ht => by rw [ht] <;> rfl
    have hspare : (t = 4) → ¬ (t ≠ 4 ∧ t ≠ n.val) := fun ht hne => hne.1 ht
    refine ⟨fun h4 hn => hexec.trans (congrArg _ (if_pos ⟨h4, hn⟩)), fun ht hdie => ?_, fun ht hdie hfree hfailed => ?_,
      fun ht hdie hfree hsound hroom => ?_⟩
    · obtain ⟨st, hst⟩ := Option.ne_none_iff_exists'.mp hdie
      refine ⟨st, hexec.trans (congrArg _ ((if_neg (hspare ht)).trans ?_))⟩
      simp only [hst]
    · refine hexec.trans (congrArg _ ((if_neg (hspare ht)).trans ?_))
      simp only [hdie]
      rw [hq ht, hfree]
      have hfailed' : bitAt ((s.pad d).repl.foldmap[x]).failed (4 : PFold).val = true := hfailed
      exact if_pos (by simp only [hfailed', Bool.or_true, Bool.true_or])
    · refine hexec.trans (congrArg _ ((if_neg (hspare ht)).trans ?_))
      simp only [hdie]
      rw [hq ht, hfree]
      refine (if_neg ?_).trans (State.bringUp_eq _ x)
      have hsound' : bitAt ((s.pad d).repl.foldmap[x]).failed (4 : PFold).val = false := hsound
      simp only [Option.isSome_none, hsound', hroom, Bool.or_self, Bool.false_eq_true, not_false_eq_true]
  · intro p m
    obtain ⟨hbad, hgood⟩ := exec_foldRetire h hidle (x := x) (p := p) rfl rfl
    refine ⟨hbad, fun hfold hdie => (hgood hfold hdie).1, fun hfold hdie hsound hcarries hstandby => ?_,
      fun c hfold hdie hsound hcarries hstandby hroom => ?_⟩
    · obtain ⟨n, hn⟩ := Option.isSome_iff_exists.mp hcarries
      refine ((hgood hfold hdie).2 n hsound hn).trans (congrArg _ ?_)
      simp only [show ((s.pad d).repl.foldmap[x]).standby = none from hstandby]
    · refine ((hgood hfold hdie).2 c hsound hcarries).trans (congrArg _ ?_)
      simp only [show ((s.pad d).repl.foldmap[x]).standby = some 4 from hstandby]
      refine (if_neg ?_).trans (State.bringUp_eq _ x)
      simp only [hroom, bne_self_eq_false, Bool.false_and, Bool.or_self, Bool.false_eq_true, not_false_eq_true]

end Sys2Proof.Machine
end

section
/-!
Commands about the Range and the statement O59 (10 R272, R275, 14 R373, R377, 15 R421, 12 R334).
-/

namespace Sys2Proof.Machine

/-! ### Changes before or after a command is deferred -/

/-- The paddock whose Shepherd answered a taken packet DEFERRED. -/
def Paddock.deferring (q : Paddock) (k : Taken) (kind : DefKind) : Paddock :=
  { q with shep := { q.shep with
    taken := [], wdogTick := q.aon.ticks, nextId := q.shep.nextId + 1
    deferred := q.shep.deferred ++ [{ id := q.shep.nextId, pkt := k, kind := kind }]
    cq := vmod q.shep.cq k.q fun x => { x with busyFirst := false }
    rq := vmod q.shep.rq k.q fun x => { x with
      replies := [{ pri := k.pri, words := replyWords k.opc k.tag k.pri k.seq .deferred [] }], tail := x.tail.add 2 } } }

theorem State.defers_eq (s : State) (d : Die) (k : Taken) (kind : DefKind) :
    s.defers d k kind = s.modPad d fun q => q.deferring k kind := by
  simp only [State.defers, State.replies, State.modPad_modPad]
  rfl

section
variable {k : Taken} {kind : DefKind}

theorem State.modPad_defers (s : State) (d x : Die) {f : Paddock → Paddock}
    (hf : ∀ q, f (q.deferring k kind) = (f q).deferring k kind) :
    (s.defers d k kind).modPad x f = (s.modPad x f).defers d k kind := by
  simp only [State.defers_eq]
  by_cases hx : x = d
  · subst hx
    simp only [State.modPad_modPad, hf]
  · exact State.modPad_comm s (Ne.symm hx) _ _

theorem State.foldl_defers (s : State) (d : Die) {l : List Die} {f : Die → Paddock → Paddock}
    (hf : ∀ x q, f x (q.deferring k kind) = (f x q).deferring k kind) :
    l.foldl (fun u x => u.modPad x (f x)) (s.defers d k kind) = (l.foldl (fun u x => u.modPad x (f x)) s).defers d k kind := by
  induction l generalizing s with
  | nil => rfl
  | cons x l ih => rw [List.foldl_cons, List.foldl_cons, State.modPad_defers s d x (hf x), ih]

theorem State.pad_defers (s : State) (d x : Die) :
    (s.defers d k kind).pad x = { s.pad x with shep := ((s.defers d k kind).pad x).shep } := by
  rw [State.defers_eq]
  by_cases hx : x = d
  · subst hx; simp only [State.pad_modPad_same]; rfl
  · rw [State.pad_modPad_other _ _ _ _ hx]

theorem State.members_defers (s : State) (d x : Die) : (s.defers d k kind).members x = s.members x := by
  rw [State.members, State.pad_defers, State.members]

end

/-! ### PATCH_LOAD, HURDLE_LOG_LOAD and DIE_FENCE (15 R421, 12 R334, 10 R275) -/

section
variable {s : State} {d : Die} {k : Taken}

theorem exec_patchLoad_busy (h : s.Ran d 0x03 k) (hbusy : ¬s.Idle d) : s.Answers (.patchLoad d) d k .busy := by
  refine congrArg Host.Outcome.next ((State.runTaken_ran h _).trans ?_)
  have hsome : (!((s.serve d).pad d).shep.deferred.isEmpty) = true := by
    rw [State.shep_serve]
    simpa using hbusy
  exact (if_pos hsome).trans (State.reply_serve h _ rfl)

theorem exec_patchLoad (h : s.Ran d 0x03 k) (hidle : s.Idle d) :
    exec (.patchLoad d) s = .next (s.modPad d fun q => { q with shep := { q.shep with
      taken := [], wdogTick := q.aon.ticks, nextId := q.shep.nextId + 1
      deferred := [{ id := q.shep.nextId, pkt := k
                     kind := .patch (BitVec.ofNat 52 (lineOfWords (k.p 1) (k.p 2) * 64)) (bits (k.p 3) 0 17) false 0 [] }] } }) := by
  refine congrArg Host.Outcome.next ((State.runTaken_ran h _).trans ?_)
  have hnone : (!((s.serve d).pad d).shep.deferred.isEmpty) = false := by
    rw [State.shep_serve]
    simpa using hidle
  refine (if_neg (by rw [hnone]; exact Bool.false_ne_true)).trans ?_
  simp only [State.serve, State.modShep, State.modPad_modPad]
  rfl

theorem exec_hurdleLogLoad_bad (h : s.Ran d 0x70 k) (hbad : bits (k.p 1) 0 5 = 0 ∨ 30 < bits (k.p 1) 0 5) :
    s.Answers (.hurdleLogLoad d) d k .badParam := by
  refine congrArg Host.Outcome.next ((State.runTaken_ran h _).trans ?_)
  exact (if_pos (by simpa using hbad)).trans (State.reply_serve h _ rfl)

/-- Sound records of members are all to be stored. -/
theorem exec_hurdleLogLoad {n : Nat} {recs : List (BitVec 64)} (h : s.Ran d 0x70 k) (hn : n = bits (k.p 1) 0 5)
    (hrecs : recs = (List.range n).map fun i => (k.p (2 * i + 3)) ++ (k.p (2 * i + 2))) (hlo : 1 ≤ n) (hhi : n ≤ 30)
    (hok : ∀ y ∈ recs, recValid y = true ∧ s.planned (recDie y) = true ∧ s.member d (recDie y) = true) :
    exec (.hurdleLogLoad d) s = .next (s.defers d k (.hurdleLoad recs 0)) := by
  refine congrArg Host.Outcome.next ((State.runTaken_ran h _).trans ?_)
  have hcount : (decide (n = 0) || decide (30 < n)) = false := by simp; omega
  have hhere : (recs.filter fun r => (recValid r && s.planned (recDie r)) && s.member d (recDie r)) = recs := by
    refine List.filter_eq_self.mpr fun y hy => ?_
    obtain ⟨hvalid, hplanned, hmember⟩ := hok y hy
    simp only [hvalid, hplanned, hmember, Bool.and_self]
  have hbad : (recs.filter fun r => !(recValid r && s.planned (recDie r))) = [] := by
    refine List.filter_eq_nil_iff.mpr fun y hy => ?_
    obtain ⟨hvalid, hplanned, -⟩ := hok y hy
    simp only [hvalid, hplanned, Bool.and_self, Bool.not_true, Bool.false_eq_true, not_false_eq_true]
  have hlen : n - recs.length = 0 := by rw [hrecs]; simp
  simp only [State.runHurdleLogLoad, ← hn, ← hrecs, hcount, State.serve_planned, State.serve_member, hhere, hbad,
    Bool.false_eq_true, if_false, List.length_nil, List.replicate_zero, List.foldl_nil, hlen]
  exact State.defer_serve h _ rfl

theorem State.serve_joinWaits (hidle : s.Idle d) : (s.serve d).joinWaits d = false := State.anyDef_idle hidle _

theorem exec_dieFence {x : Die} (h : s.Ran d 0x51 k) (hidle : s.Idle d) (hx : x = dieAt (k.p 1) 0) :
    exec (.dieFence d) s = .next (
      let rest := putBit (s.pad d).repl.present x.val false
      if !s.planned x then s.replies d k .badParam []
      else if !s.member d x then s.replies d k .notPresent []
      else if x == d || connected rest d != rest || decide (0 < (s.pad d).repl.mpMiB x) then s.replies d k .notPermitted []
      else (s.modRepl d fun y => { y with fenceBusy := true, leaving := putBit y.leaving x.val true }).defers d k (.fence x 1)) := by
  refine congrArg Host.Outcome.next ((State.runTaken_ran h _).trans ?_)
  simp only [State.runDieFence, ← hx, State.serve_planned, State.serve_joinWaits hidle, State.serve_member, State.serve_repl,
    State.anyDef_idle hidle, Bool.false_eq_true, if_false, State.reply_serve h _ rfl, State.serve_modRepl]
  rw [State.defer_serve h _ (congrArg Shep.rq (State.shep_modRepl s d _))]

/-! ### OPPOINT_SET (14 R373) -/

/-- The paddock whose rails are asked for a supply. -/
def Paddock.supplied (q : Paddock) (rails : List RailN) (mv : Nat) : Paddock :=
  { q with ebb := { q.ebb with avs := rails.foldl (fun v r => vset v r (some { mv := mv, tick := q.ticks })) q.ebb.avs } }

theorem State.writeSupply_foldl (u : State) (mv : Nat) (l : List Die) :
    l.foldl (fun u y => u.writeSupply y mv) u = l.foldl (fun v y => v.modPad y fun q => q.supplied u.krovol.railList mv) u := by
  have hgen : ∀ (v : State), v.krovol = u.krovol → l.foldl (fun u y => u.writeSupply y mv) v =
      l.foldl (fun v y => v.modPad y fun q => q.supplied u.krovol.railList mv) v := by
    induction l with
    | nil => exact fun _ _ => rfl
    | cons y l ih =>
      intro v hv
      have hstep : v.writeSupply y mv = v.modPad y fun q => q.supplied u.krovol.railList mv :=
        State.modPad_congr (by simp only [Paddock.supplied, hv])
      rw [List.foldl_cons, List.foldl_cons, hstep]
      exact ih _ hv
  exact hgen u rfl

theorem Paddock.supplied_first (q : Paddock) (k : Krovol) (mv : Nat) :
    (q.supplied k.railList mv).ebb.avs[(0 : RailN)] = some { mv := mv, tick := q.aon.ticks } := by
  unfold Krovol.railList
  split
  · simp only [Paddock.supplied, List.foldl_cons, List.foldl_nil]
    exact (vmod_get_other _ 1 0 (fun _ => some ({ mv := mv, tick := q.ticks } : AvsWrite)) (by decide)).trans (vset_get_same _ _ _)
  · exact vset_get_same _ _ _

theorem State.serve_envAt (s : State) (d x : Die) (pt : Point) : (s.serve d).envAt x pt = { s.envAt x pt with s := s.serve d } := by
  have hview : ∀ y, ((s.serve d).pad y).paceView = (s.pad y).paceView := (s.frame_serve d fun _ => rfl).pads
  simp only [State.envAt, State.serve_envNow, State.edgesInUse_congr hview,
    State.chainPace_congr (s := s) (t := s.serve d) rfl hview]

theorem State.serve_envRefuses_at (pt : Point) :
    envRefuses ((s.serve d).envNow d) ((s.serve d).envAt d pt) = envRefuses (s.envNow d) (s.envAt d pt) := by
  have hold := fun n => Env.bad_at (v := s.envNow d) (t := s.serve d) rfl (fun _ => State.serve_stream ..) n
  have hnew := fun n => Env.bad_at (v := s.envAt d pt) (t := s.serve d) rfl (fun _ => State.serve_stream ..) n
  simp only [envRefuses, State.serve_envNow, State.serve_envAt, hold, hnew]

/-- The paddock whose operating point is about to change. -/
def Paddock.opChanging (q : Paddock) (pt : Point) : Paddock := { q with ebb := { q.ebb with changing := true, opTarget := pt } }

/-- Every member is told of the new point, and asked for its supply where it is a faster one. -/
def State.opBegins (s : State) (d : Die) (pt : Point) (up : Bool) : State :=
  let u := (s.members d).foldl (fun u y => u.modPad y fun q => q.opChanging pt) s
  if up then (s.members d).foldl (fun u y => u.modPad y fun q => q.supplied s.krovol.railList (Config.supplyMv pt)) u else u

theorem State.opBegins_spec (s : State) (d : Die) (pt : Point) (up : Prop) [Decidable up] :
    let t := s.opBegins d pt (decide up)
    (t.krovol = s.krovol ∧ t.tether = s.tether ∧ t.pending = s.pending) ∧ (∀ y, (t.pad y).shep = (s.pad y).shep) ∧
    ∀ y ∈ s.members d, (t.pad y).ebb.changing = true ∧ (t.pad y).ebb.opTarget = pt ∧
      (t.pad y).ebb.avs[(0 : RailN)] = if up then some { mv := Config.supplyMv pt, tick := (s.pad y).aon.ticks }
        else (s.pad y).ebb.avs[(0 : RailN)] := by
  intro t
  let u := (s.members d).foldl (fun u y => u.modPad y fun q => q.opChanging pt) s
  have hu := State.pad_members s d fun q => q.opChanging pt
  have hurest := State.foldl_modPad_rest (fun q => q.opChanging pt) (s.members d) s
  have hushep := ((State.Frame.refl (fun q => q.shep) s).foldl (fun u y => u.modPad y fun q => q.opChanging pt) (s.members d)
    fun _ y hv => hv.modPad y (fun q => q.opChanging pt) fun _ => rfl).pads
  by_cases hup : up
  · let f (q : Paddock) : Paddock := q.supplied s.krovol.railList (Config.supplyMv pt)
    have ht : t = (s.members d).foldl (fun v y => v.modPad y f) u := if_pos (decide_eq_true hup)
    obtain ⟨hkrovol, htether, hpending⟩ := State.foldl_modPad_rest f (s.members d) u
    have hshep := ((State.Frame.refl (fun q => q.shep) u).foldl (fun v y => v.modPad y f) (s.members d)
      fun _ y hv => hv.modPad y f fun _ => rfl).pads
    rw [ht]
    refine ⟨⟨hkrovol.trans hurest.1, htether.trans hurest.2.1, hpending.trans hurest.2.2⟩,
      fun y => (hshep y).trans (hushep y), fun y hy => ?_⟩
    rw [State.pad_foldl_modPad (fun _ => f) (s.members d) (nodup_diesOf _) u y, if_pos hy, hu y, if_pos hy, if_pos hup]
    exact ⟨rfl, rfl, Paddock.supplied_first _ _ _⟩
  · have ht : t = u := if_neg (by simpa using hup)
    rw [ht]
    refine ⟨hurest, hushep, fun y hy => ?_⟩
    rw [hu y, if_pos hy, if_neg hup]
    exact ⟨rfl, rfl, rfl⟩

theorem exec_oppointSet {pt : Point} (h : s.Ran d 0x80 k) (hpt : pt = Fin.ofNat 4 (bits (k.p 1) 0 2)) :
    exec (.oppointSet d) s = .next (
      let up := decide (Config.mhz (s.pad d).ebb.point ≤ Config.mhz pt)
      if envRefuses (s.envNow d) (s.envAt d pt) then s.replies d k .notPermitted []
      else if s.anyDef d (fun y => y.isOpp || y == .nightfold || (match y with
          | .join _ _ | .fence _ _ => true
          | _ => false)) then s.replies d k .busy []
      else (s.opBegins d pt up).defers d k
        (.oppoint pt (s.pad d).ebb.point (if up then .supply else .armed) (s.pad d).now)) := by
  refine congrArg Host.Outcome.next ((State.runTaken_ran h _).trans ?_)
  have hkind : ∀ kind, (s.serve d).defer d k kind = s.defers d k kind := fun kind => State.defer_serve h kind rfl
  have hbegins : ∀ kind, (s.members d).foldl (fun u y => u.modPad y fun q => q.opChanging pt) (s.defers d k kind) =
      ((s.members d).foldl (fun u y => u.modPad y fun q => q.opChanging pt) s).defers d k kind :=
    fun kind => State.foldl_defers s d (f := fun _ q => q.opChanging pt) fun _ _ => rfl
  have hsupplies : ∀ (u : State) kind, u.krovol = s.krovol → (∀ x, (u.pad x).repl = (s.pad x).repl) →
      (u.defers d k kind).writeSupplies d (Config.supplyMv pt) =
        ((s.members d).foldl (fun u y => u.modPad y fun q => q.supplied s.krovol.railList (Config.supplyMv pt)) u).defers d k kind := by
    intro u kind hk hrepl
    have hmembers : (u.defers d k kind).members d = s.members d := by
      rw [State.members_defers, State.members, hrepl, State.members]
    have hkrovol : (u.defers d k kind).krovol = s.krovol := hk
    rw [State.writeSupplies, State.writeSupply_foldl, hmembers, hkrovol]
    exact State.foldl_defers u d (f := fun _ q => q.supplied s.krovol.railList (Config.supplyMv pt)) fun _ _ => rfl
  simp only [State.runOppointSet, ← hpt, State.serve_envRefuses_at, State.serve_anyDef, State.serve_ebb, State.serve_now,
    State.reply_serve h _ rfl, hkind, State.members_defers]
  refine if_congr Iff.rfl rfl (if_congr Iff.rfl rfl ?_)
  by_cases hup : Config.mhz (s.pad d).ebb.point ≤ Config.mhz pt
  · simp only [hup, if_true, decide_true, State.opBegins]
    refine (congrArg (fun u : State => u.writeSupplies d (Config.supplyMv pt)) (hbegins _)).trans (hsupplies _ _ ?_ ?_)
    · exact (State.foldl_modPad_rest (fun q => q.opChanging pt) (s.members d) s).1
    · exact ((State.Frame.refl (fun q => q.repl) s).foldl _ _ fun _ y hu => hu.modPad y (fun q => q.opChanging pt) fun _ => rfl).pads
  · simp only [hup, if_false, decide_false, State.opBegins, Bool.false_eq_true]
    exact hbegins _

/-! ### NIGHTFOLD_ENTER (14 R377) -/

/-- The paddock whose entry into Nightfold begins. -/
def Paddock.nightBegins (q : Paddock) : Paddock :=
  { q with
    ebb := { q.ebb with
      nf := .step1, nfAbort := false, nfFailed := false, fold := q.ebb.fold.map fun x => { x with beforeNf := x.target } }
    aon := { q.aon with nfStart := q.now, nfBefore := q.aon.nfSamples } }

theorem exec_nightfoldEnter_none (h : s.Ran d 0x61 k) (hprog : (s.pad d).aon.nfProg = none) :
    s.Answers (.nightfoldEnter d) d k .notPermitted := by
  refine congrArg Host.Outcome.next ((State.runTaken_ran h _).trans ?_)
  unfold State.runNightfoldEnter
  simp only [State.serve_aon, hprog, Option.isNone_none, Bool.true_or, if_true]
  exact State.reply_serve h _ rfl

theorem exec_nightfoldEnter (h : s.Ran d 0x61 k) (hidle : s.Idle d) (hprog : (s.pad d).aon.nfProg.isSome = true)
    (hrun : ∀ y ∈ s.members d, (s.pad y).bell.ftHalt = false) :
    exec (.nightfoldEnter d) s = .next (((s.members d).foldl (fun u y => u.modPad y Paddock.nightBegins) s).defers d k .nightfold) := by
  refine congrArg Host.Outcome.next ((State.runTaken_ran h _).trans ?_)
  have hhalt : ((s.members d).any fun x => (s.pad x).bell.ftHalt) = false := by
    simpa using hrun
  have hsome : (s.pad d).aon.nfProg.isNone = false := by simpa using hprog
  simp only [State.runNightfoldEnter, State.serve_members, State.serve_aon, State.serve_bell, hhalt, hsome, Bool.or_self,
    State.anyDef_idle hidle, Bool.false_eq_true, if_false, State.defer_serve h _ rfl]
  rw [State.members_defers]
  exact State.foldl_defers s d (f := fun _ => Paddock.nightBegins) fun _ _ => rfl

/-! ### DIE_JOIN (10 R272) -/

/-- The port of an agent with the sluice settings of the leader's. -/
def AgentPort.sluicedAs (p x : AgentPort) : AgentPort := { p with port := p.port.copySluices x.port }

/-- The joining paddock with the leader's settings. -/
def Paddock.joining (q l : Paddock) : Paddock :=
  { q with
    repl := { q.repl with regions := l.repl.regions, regionDefault := l.repl.regionDefault }
    gates := Vector.ofFn fun g => (q.gates[g]).sluicedAs l.gates[g]
    stiles := Vector.ofFn fun n => (q.stiles[n]).sluicedAs l.stiles[n]
    shep := { q.shep with patch := l.shep.patch, port := q.shep.port.copySluices l.shep.port } }

theorem State.joinWrite_eq (u : State) (d x : Die) : u.joinWrite d x =
    (u.setSluice28 x ((u.sluice28 d).map Sluice.copyOf)).modPad x fun q => q.joining (u.pad d) := rfl

/-- A join that was just accepted begins at once. -/
theorem State.joinWork_begins {v : State} {d x : Die} {o : Deferred} (hdef : (v.pad d).shep.deferred = [o])
    (hkind : o.kind = .join x false) (hready : bitAt (v.pad d).repl.readyDies x.val = true) (hsw : (v.pad d).shep.sw = none) :
    v.joinWork d = ((v.modDef d o.id fun _ => .join x true).joinWrite d x).startSwitch d
      (putBit (v.pad d).repl.present x.val true) (some o.id) := by
  have hfence : v.anyDef d DefKind.anyFence = false := by
    simp only [State.anyDef, hdef, List.any_cons, List.any_nil, hkind, DefKind.anyFence, Bool.or_self]
  simp only [State.joinWork, hsw, hfence, hdef, Option.isSome_none, Bool.or_self, Bool.false_eq_true, if_false, List.find?_cons,
    hkind, hready]

theorem State.modDef_defers (s : State) (d : Die) (k : Taken) (a b : DefKind) (hidle : s.Idle d) :
    (s.defers d k a).modDef d (s.pad d).shep.nextId (fun _ => b) = s.defers d k b := by
  simp only [State.defers_eq, State.modDef, State.modShep, State.modPad_modPad]
  refine State.modPad_congr ?_
  simp [Paddock.deferring, show (s.pad d).shep.deferred = [] from hidle, updateWhere]

section
variable {k : Taken} {kind : DefKind} (u : State) (d x : Die)

theorem State.live_defers : (u.defers d k kind).live x = u.live x := by
  simp only [State.live, State.members_defers, State.reaches, State.member]
  rw [State.pad_defers]

theorem State.now_defers : ((u.defers d k kind).pad x).now = (u.pad x).now := by
  rw [State.pad_defers]
  rfl

theorem State.setSluice28_defers (v : Vector Sluice 4) :
    (u.defers d k kind).setSluice28 x v = (u.setSluice28 x v).defers d k kind := by
  unfold State.setSluice28
  have hk : (u.defers d k kind).krovol = u.krovol := rfl
  rw [hk]
  split
  · rfl
  · exact State.modPad_defers u d x (f := fun q => { q with stream := { q.stream with sluice28 := v } }) fun _ => rfl

theorem State.sluice28_defers : (u.defers d k kind).sluice28 x = u.sluice28 x := by
  have hk : (u.defers d k kind).krovol = u.krovol := rfl
  have ht : (u.defers d k kind).tether = u.tether := rfl
  rw [State.sluice28, hk, ht, State.pad_defers]
  rfl

theorem State.joinWrite_defers : (u.defers d k kind).joinWrite d x = (u.joinWrite d x).defers d k kind := by
  have hjoining : ∀ q : Paddock, q.joining ((u.defers d k kind).pad d) = q.joining (u.pad d) := by
    intro q
    rw [State.defers_eq, State.pad_modPad_same]
    rfl
  rw [State.joinWrite_eq, State.joinWrite_eq, State.sluice28_defers, State.setSluice28_defers]
  simp only [hjoining]
  exact State.modPad_defers _ d x (f := fun q => q.joining (u.pad d)) fun _ => rfl

theorem State.startSwitch_defers (present : BitVec 8) (op : Option Nat) :
    (u.defers d k kind).startSwitch d present op = (u.startSwitch d present op).defers d k kind := by
  let f (q : Paddock) : Paddock := { q with shep := { q.shep with
    sw := some { start := (u.pad d).now, present := present, forOp := op }, needSwitch := false } }
  have hshep : (u.defers d k kind).modPad d f = (u.modPad d f).defers d k kind := State.modPad_defers u d d fun _ => rfl
  unfold State.startSwitch
  rw [State.now_defers]
  show ((((u.defers d k kind).modPad d f).live d).foldl _ ((u.defers d k kind).modPad d f)) = _
  rw [hshep, State.live_defers]
  exact State.foldl_defers (u.modPad d f) d (f := fun _ q => { q with stream := { q.stream with hold := true } }) fun _ _ => rfl

end

/-- A paddock as a switch starts: the leader notes it, and the dies that it reaches admit no request. -/
theorem State.pad_startSwitch (u : State) (d : Die) (present : BitVec 8) (op : Option Nat) (y : Die) :
    (u.startSwitch d present op).pad y =
      (let q := if y = d then { u.pad d with shep := { (u.pad d).shep with
         sw := some { start := (u.pad d).now, present := present, forOp := op }, needSwitch := false } } else u.pad y
       if y ∈ u.live d then { q with stream := { q.stream with hold := true } } else q) := by
  let f (q : Paddock) : Paddock := { q with shep := { q.shep with
    sw := some { start := (u.pad d).now, present := present, forOp := op }, needSwitch := false } }
  have hpad : ∀ z, (u.modPad d f).pad z = if z = d then f (u.pad d) else u.pad z := fun z => State.pad_modPad u d z f
  have hlive : (u.modPad d f).live d = u.live d := by
    simp only [State.live, State.members, State.reaches, State.member, hpad, if_true]
    rfl
  have hnodup : (u.live d).Nodup := (nodup_diesOf _).filter _
  show (((u.modPad d f).live d).foldl (fun v z => v.modPad z fun q => { q with stream := { q.stream with hold := true } })
    (u.modPad d f)).pad y = _
  rw [hlive, State.pad_foldl_modPad _ _ hnodup, hpad]

section
variable {s : State} {d : Die} {k : Taken}

/-- The state of a join that begins, before its packet is answered. -/
def State.joinBegins (s : State) (d x : Die) : State :=
  ((s.modRepl d fun r => { r with joinBusy := true }).joinWrite d x).startSwitch d
    (putBit (s.pad d).repl.present x.val true) (some (s.pad d).shep.nextId)

theorem exec_dieJoin_refused {x : Die} (h : s.Ran d 0x50 k) (hidle : s.Idle d) (hx : x = dieAt (k.p 1) 0) :
    (s.planned x = false → s.Answers (.dieJoin d) d k .badParam) ∧
    (s.planned x = true → s.member d x = true → s.Answers (.dieJoin d) d k .done) ∧
    (s.planned x = true → s.member d x = false → bitAt (s.pad d).repl.readyDies x.val = false →
      s.Answers (.dieJoin d) d k .notPresent) := by
  have hrun : exec (.dieJoin d) s = .next ((s.serve d).runDieJoin d k) := congrArg Host.Outcome.next (State.runTaken_ran h _)
  refine ⟨fun hplanned => ?_, fun hplanned hmember => ?_, fun hplanned hmember hready => ?_⟩ <;>
    refine hrun.trans (congrArg _ ?_)
  · simp only [State.runDieJoin, ← hx, State.serve_planned, hplanned, Bool.not_false, if_true]
    exact State.reply_serve h _ rfl
  · simp only [State.runDieJoin, ← hx, State.serve_planned, hplanned, State.serve_joinWaits hidle, State.anyDef_idle hidle,
      State.serve_member, hmember, Bool.not_true, Bool.false_eq_true, if_false, if_true]
    exact State.reply_serve h _ rfl
  · simp only [State.runDieJoin, ← hx, State.serve_planned, hplanned, State.serve_joinWaits hidle, State.anyDef_idle hidle,
      State.serve_member, hmember, State.serve_repl, hready, Bool.not_true, Bool.not_false, Bool.false_eq_true, if_false, if_true]
    exact State.reply_serve h _ rfl

theorem exec_dieJoin {x : Die} (h : s.Ran d 0x50 k) (hidle : s.Idle d) (hx : x = dieAt (k.p 1) 0) (hplanned : s.planned x = true)
    (hmember : s.member d x = false) (hready : bitAt (s.pad d).repl.readyDies x.val = true) (hsw : (s.pad d).shep.sw = none) :
    exec (.dieJoin d) s = .next ((s.joinBegins d x).defers d k (.join x true)) := by
  refine congrArg Host.Outcome.next ((State.runTaken_ran h _).trans ?_)
  simp only [State.runDieJoin, ← hx, State.serve_planned, hplanned, State.serve_joinWaits hidle, State.anyDef_idle hidle,
    State.serve_member, hmember, State.serve_repl, hready, Bool.not_true, Bool.false_eq_true, if_false]
  let u := s.modRepl d fun r => { r with joinBusy := true }
  have hshep : (u.pad d).shep = (s.pad d).shep := State.shep_modRepl s d _
  have hrepl : (u.pad d).repl.readyDies = (s.pad d).repl.readyDies ∧ (u.pad d).repl.present = (s.pad d).repl.present := by
    have hpad : u.pad d = if d ∈ s.members d then { s.pad d with repl := { (s.pad d).repl with joinBusy := true } } else s.pad d :=
      State.pad_members s d (fun q => { q with repl := { q.repl with joinBusy := true } }) d
    rw [hpad]
    split <;> exact ⟨rfl, rfl⟩
  have hidle' : u.Idle d := (congrArg Shep.deferred hshep).trans hidle
  have hv : ((u.defers d k (.join x false)).pad d) = (u.pad d).deferring k (.join x false) := by
    rw [State.defers_eq, State.pad_modPad_same]
  have hdef : ((u.defers d k (.join x false)).pad d).shep.deferred =
      [{ id := (u.pad d).shep.nextId, pkt := k, kind := .join x false }] := by
    rw [hv]
    simp [Paddock.deferring, show (u.pad d).shep.deferred = [] from hidle']
  rw [State.serve_modRepl, State.defer_serve h _ (congrArg Shep.rq hshep)]
  rw [State.joinWork_begins hdef rfl (by rw [hv]; exact hrepl.1 ▸ hready) (by rw [hv]; exact (congrArg Shep.sw hshep).trans hsw)]
  rw [State.modDef_defers u d k _ _ hidle', State.joinWrite_defers, State.startSwitch_defers, hv]
  show ((u.joinWrite d x).startSwitch d (putBit (u.pad d).repl.present x.val true) (some (u.pad d).shep.nextId)).defers d k _ = _
  rw [hrepl.2, hshep]
  rfl

/-- What a join that begins leaves of each paddock. -/
theorem State.joinBegins_spec {x : Die} (hmember : s.member d x = false) (hd : d ∈ s.members d) :
    let t := s.joinBegins d x
    let l := s.pad d
    (s.krovol.tether ≠ some x → t.tether = s.tether ∧ (t.pad x).stream = { (s.pad x).stream with
      sluice28 := (s.sluice28 d).map Sluice.copyOf }) ∧
    (s.krovol.tether = some x → t.tether = { s.tether with port := { s.tether.port with
      sluice := (s.sluice28 d).map Sluice.copyOf } }) ∧
    (t.pad x).shep.patch = l.shep.patch ∧
    (∀ y, (t.pad y).repl = if y ∈ s.members d then { (s.pad y).repl with joinBusy := true }
      else if y = x then { (s.pad y).repl with regions := l.repl.regions, regionDefault := l.repl.regionDefault }
      else (s.pad y).repl) ∧
    (∀ g : GateN, (t.pad x).gates[g] = ((s.pad x).gates[g]).sluicedAs l.gates[g]) ∧
    (∀ n : Fin 24, (t.pad x).stiles[n] = ((s.pad x).stiles[n]).sluicedAs l.stiles[n]) ∧
    (t.pad d).shep.sw = some { start := l.now, present := putBit l.repl.present x.val true, forOp := some l.shep.nextId } ∧
    ∀ y ∈ s.live d, (t.pad y).stream = { (s.pad y).stream with hold := true } := by
  intro t l
  let u := s.modRepl d fun r => { r with joinBusy := true }
  let S := (s.sluice28 d).map Sluice.copyOf
  let w := u.joinWrite d x
  have hxm : x ∉ s.members d := fun hx => by
    have hbit : s.member d x = true := mem_diesOf.mp hx
    exact Bool.false_ne_true (hmember.symm.trans hbit)
  have hdx : d ≠ x := fun hx => hxm (hx ▸ hd)
  obtain ⟨hukrovol, hutether, -, -, hu⟩ := State.onlyRepl_modRepl s d fun r => { r with joinBusy := true }
  have hux : u.pad x = s.pad x := (hu x).trans (if_neg hxm)
  have hud : u.pad d = { s.pad d with repl := { (s.pad d).repl with joinBusy := true } } := (hu d).trans (if_pos hd)
  have hS : (u.sluice28 d).map Sluice.copyOf = S := by
    have h28 : u.sluice28 d = s.sluice28 d := by simp only [State.sluice28, u, hukrovol, hutether, hud]
    rw [h28]
  have hw : w = (u.setSluice28 x S).modPad x fun q => q.joining (u.pad d) := by rw [← hS]; rfl
  have hset : ∀ y, y ≠ x → (u.setSluice28 x S).pad y = u.pad y := by
    intro y hy
    unfold State.setSluice28
    split
    · rfl
    · exact State.pad_modStream_other _ _ _ _ hy
  have hwo : ∀ y, y ≠ x → w.pad y = u.pad y := fun y hy => by
    rw [hw, State.pad_modPad_other _ _ _ _ hy, hset y hy]
  have hwx : w.pad x = ((u.setSluice28 x S).pad x).joining (u.pad d) := by rw [hw, State.pad_modPad_same]
  have hwd := (hwo d hdx).trans hud
  have hlive : w.live d = s.live d := by
    simp only [State.live, State.members, State.reaches, State.member, hwd]
  have ht : ∀ y, t.pad y = _ := State.pad_startSwitch w d (putBit (s.pad d).repl.present x.val true) (some (s.pad d).shep.nextId)
  have hxl : x ∉ s.live d := fun hx => hxm (List.mem_of_mem_filter hx)
  have htx : t.pad x = w.pad x := by
    rw [ht x, hlive]
    simp only [if_neg hxl, if_neg hdx.symm]
  obtain ⟨st, hst, hst28⟩ : ∃ st, (u.setSluice28 x S).pad x = { s.pad x with stream := st } ∧
      (s.krovol.tether ≠ some x → st = { (s.pad x).stream with sluice28 := S }) := by
    unfold State.setSluice28
    rw [hukrovol]
    split
    next h => exact ⟨(s.pad x).stream, hux, fun hno => absurd (beq_iff_eq.mp h) hno⟩
    next h => exact ⟨_, by rw [State.pad_modStream_same, hux], fun _ => rfl⟩
  have htx' : t.pad x = ({ s.pad x with stream := st } : Paddock).joining (u.pad d) := by rw [htx, hwx, hst]
  have htether : t.tether = (u.setSluice28 x S).tether := by
    have hrest := State.foldl_modPad_rest (fun q => { q with stream := { q.stream with hold := true } })
    have hwt : w.tether = (u.setSluice28 x S).tether := by rw [hw, State.modPad_tether]
    exact (hrest _ _).2.1.trans hwt
  refine ⟨fun hno => ⟨?_, ?_⟩, fun hyes => ?_, ?_, fun y => ?_, fun g => ?_, fun n => ?_, ?_, fun y hy => ?_⟩
  · rw [htether, State.setSluice28, hukrovol, if_neg (by simpa using hno)]
    exact hutether
  · rw [htx']
    exact hst28 hno
  · rw [htether, State.setSluice28, hukrovol, if_pos (by simpa using hyes)]
    exact congrArg (fun z : Tether => { z with port := { z.port with sluice := S } }) hutether
  · rw [htx', hud]
    rfl
  · by_cases hy : y = x
    · subst hy
      rw [if_neg hxm, if_pos rfl, htx', hud]
      rfl
    · have hrepl : (t.pad y).repl = (w.pad y).repl := by
        rw [ht y]
        by_cases hyd : y = d
        · subst hyd
          simp only [if_true]
          split <;> rfl
        · simp only [if_neg hyd]
          split <;> rfl
      rw [hrepl, hwo y hy, hu y, if_neg hy]
      split <;> rfl
  · rw [htx', hud]
    exact Vector.getElem_ofFn ..
  · rw [htx', hud]
    exact Vector.getElem_ofFn ..
  · rw [ht d, hwd]
    simp only [if_true]
    split <;> rfl
  · have hyx : y ≠ x := fun h => hxl (h ▸ hy)
    rw [ht y, hlive]
    simp only [if_pos hy]
    by_cases hyd : y = d
    · subst hyd
      simp only [if_true, hwd]
    · rw [if_neg hyd, hwo y hyx, hu y]
      split <;> rfl

end

end

/-- Settles O59. -/
theorem rangeCommandsBegin : Obligations.RangeCommandsBegin := by
  unfold Obligations.RangeCommandsBegin
  intro s d k x r fields
  refine ⟨fun h hidle => ?_, fun h hidle => ?_, fun h => ?_, fun h => ?_, fun h => ?_, fun h => ?_⟩
  · obtain ⟨hbad, hdone, habsent⟩ := exec_dieJoin_refused h hidle (x := x) rfl
    refine ⟨hbad, hdone, habsent, fun hplanned hmember hready hsw hd => ?_⟩
    intro l
    have hexec := exec_dieJoin h hidle (x := x) rfl hplanned hmember hready hsw
    obtain ⟨t, ht, hkrovol, hpending, -⟩ := commandsKeepParametersQueueAndTime (.dieJoin d) s
    obtain rfl : t = (s.joinBegins d x).defers d k (.join x true) := Host.Outcome.next.inj (ht.symm.trans hexec)
    obtain ⟨hfar, htether, hpatch, hrepl, hgates, hstiles, hswitch, hhold⟩ := State.joinBegins_spec hmember hd
    refine ⟨_, hexec, hkrovol, hpending, fun hno => ⟨(hfar hno).1, fun _ => (hfar hno).2⟩, htether, hpatch, hrepl,
      fun g c => ?_, fun n c => ?_, hswitch, hhold⟩
    · rw [hgates g]
      exact Vector.getElem_map ..
    · rw [hstiles n]
      exact Vector.getElem_map ..
  · intro rest
    have hexec := exec_dieFence h hidle (x := x) rfl
    refine ⟨fun hplanned => hexec.trans (congrArg _ (if_pos (by simp [hplanned]))), fun hplanned hmember => ?_,
      fun hplanned hmember hrefused => ?_, fun hplanned hmember hother hconn hmp => ?_⟩
    · exact hexec.trans (congrArg _ ((if_neg (by simp [hplanned])).trans (if_pos (by simp [hmember]))))
    · refine hexec.trans (congrArg _ ((if_neg (by simp [hplanned])).trans ((if_neg (by simp [hmember])).trans (if_pos ?_))))
      rcases hrefused with hself | hcut
      · simp [hself]
      · have hcut' : (connected (putBit (s.pad d).repl.present x.val false) d != putBit (s.pad d).repl.present x.val false) = true :=
          bne_iff_ne.mpr hcut
        simp only [hcut', Bool.or_true, Bool.true_or]
    · refine ⟨s.modRepl d fun y => { y with fenceBusy := true, leaving := putBit y.leaving x.val true },
        hexec.trans (congrArg _ ((if_neg (by simp [hplanned])).trans ((if_neg (by simp [hmember])).trans (if_neg ?_)))), ?_⟩
      · have hconn' : (connected (putBit (s.pad d).repl.present x.val false) d != putBit (s.pad d).repl.present x.val false) = false :=
          bne_eq_false_iff_eq.mpr hconn
        have hmp' : decide (0 < (s.pad d).repl.mpMiB x) = false := decide_eq_false (by rw [show (s.pad d).repl.mpMiB x = 0 from hmp]; omega)
        have hother' : (x == d) = false := beq_eq_false_iff_ne.mpr hother
        simp only [hother', hconn', hmp', Bool.or_self, Bool.false_eq_true, not_false_eq_true]
      · obtain ⟨hkrovol, htether, -, hpending, hpads⟩ :=
          State.onlyRepl_modRepl s d fun y => { y with fenceBusy := true, leaving := putBit y.leaving x.val true }
        refine ⟨⟨hkrovol, htether, hpending⟩, fun y => ?_, fun y => ?_⟩ <;>
        · rw [hpads y]
          split <;> rfl
  · intro pt old
    have hexec := exec_oppointSet h (pt := pt) rfl
    refine ⟨fun hrefused => hexec.trans (congrArg _ (if_pos hrefused)), fun hok hnight => ?_, fun hok hidle => ?_⟩
    · have hbusy : s.anyDef d (fun y => y.isOpp || y == .nightfold || (match y with
          | .join _ _ | .fence _ _ => true
          | _ => false)) = true := by
        obtain ⟨o, ho⟩ := List.map_eq_singleton_iff.mp hnight
        simp [State.anyDef, ho.1, ho.2]
      exact hexec.trans (congrArg _ ((if_neg (by simp [hok])).trans (if_pos hbusy)))
    · intro up
      have hnone : s.anyDef d (fun y => y.isOpp || y == .nightfold || (match y with
          | .join _ _ | .fence _ _ => true
          | _ => false)) = false := by
        rw [State.anyDef, show (s.pad d).shep.deferred = [] from hidle]
        rfl
      refine ⟨s.opBegins d pt (decide up), hexec.trans (congrArg _ ((if_neg (by simp [hok])).trans ((if_neg (by simp [hnone])).trans ?_))), ?_⟩
      · simp only [decide_eq_true_eq, up, old]
      · exact State.opBegins_spec s d pt up
  · refine ⟨exec_nightfoldEnter_none h, fun hprog hrun hidle => ⟨_, exec_nightfoldEnter h hidle hprog hrun, ?_, fun y hy => ?_⟩⟩
    · exact State.foldl_modPad_rest Paddock.nightBegins (s.members d) s
    · rw [State.pad_members s d Paddock.nightBegins y, if_pos hy]
      exact ⟨rfl, rfl, rfl, rfl⟩
  · exact ⟨exec_patchLoad_busy h, exec_patchLoad h⟩
  · intro n recs
    exact ⟨exec_hurdleLogLoad_bad h, fun hlo hhi hok => exec_hurdleLogLoad h rfl rfl hlo hhi hok⟩

end Sys2Proof.Machine
end

section
/-!
REGION_SET and its switch, the points of a die fence and the statement O60 (01 R25, R29, 10 R276, 15 R415).
-/

namespace Sys2Proof.Machine

/-! ### REGION_SET (01 R25, R29) -/

section
variable {s : State} {d : Die} {k : Taken}

theorem State.serve_regionBad (r : Repl) (n : Nat) (g : Region) (w : Word) : (s.serve d).regionBad r n g w = s.regionBad r n g w := by
  simp only [State.regionBad, State.serve_mpWays, State.serve_planned]

/-- The paddock whose ports hold REQ for a region's change. -/
def Paddock.regionHeld (q : Paddock) (b : Bool) : Paddock := { q with shep := { q.shep with regionHold := b } }

theorem exec_regionSet {n : Nat} {old g : Region} (h : s.Ran d 0x40 k) (hn : n = bits (k.p 1) 0 7)
    (hold : old = (s.pad d).repl.regionAt n) (hg : g = regionOfWords k n old) :
    exec (.regionSet d) s = .next (
      if s.regionBad (s.pad d).repl n g (k.p 6) then s.replies d k .badParam []
      else if s.regionBusy d g.attr then s.replies d k .busy []
      else if envRefuses (s.envNow d) { s.envNow d with r := (s.envNow d).r.setRegion n g } then s.replies d k .notPermitted []
      else if regionFull n old g then
        ((s.members d).foldl (fun t x => t.modPad x fun q => q.regionHeld true) s).defers d k (.region { n := n, new := g, full := true })
      else
        let t := ((s.modRepl d fun y => y.setRegion n g).serve d).envChanged d
        if regionSweeps n old g then t.defer d k (.region { n := n, new := g, full := false, step := 3 }) else t.reply d k .done) := by
  refine congrArg Host.Outcome.next ((State.runTaken_ran h _).trans ?_)
  have hr : ((s.serve d).envNow d).r = (s.envNow d).r := State.serve_repl ..
  simp only [State.runRegionSet, ← hn, State.serve_repl, ← hold, ← hg, State.serve_regionBad, State.regionBusy, State.serve_anyDef,
    State.reply_serve h _ rfl, hr, State.serve_envRefuses, State.serve_modRepl, State.defer_serve h _ rfl]
  refine if_congr Iff.rfl rfl (if_congr Iff.rfl rfl (if_congr Iff.rfl rfl (if_congr Iff.rfl ?_ rfl)))
  rw [State.members_defers]
  exact State.foldl_defers s d (f := fun _ q => q.regionHeld true) fun _ _ => rfl

end

/-! ### What an answer leaves as it was -/

section
variable {α : Type} {s t : State} {d : Die} {f : Paddock → α}

theorem State.OnlyPadBut.answer (h : s.OnlyPadBut t d f) (hcq : ∀ q x, f { q with shep := { q.shep with cq := x } } = f q)
    (hrq : ∀ q x, f { q with shep := { q.shep with rq := x } } = f q) (hbell : ∀ q x, f { q with bell := x } = f q)
    (k : Taken) (st : Status) (data : List Word) (first : Bool) : s.OnlyPadBut (t.answer d k st data first) d f := by
  have hmodRq : ∀ {u : State}, s.OnlyPadBut u d f → ∀ g, s.OnlyPadBut (u.modRq d k.q g) d f := fun hu g => hu.modPad _ fun q => hrq q _
  have hfile : ∀ {u : State} {r : Report}, s.OnlyPadBut u d f → dieOf r.subject = d → r.fromFold = none →
      s.OnlyPadBut (u.file d r) d f := by
    intro u r hu hown hr
    rw [State.file_own hown hr]
    exact hu.modPad _ fun q => hbell q _
  have hbusy : s.OnlyPadBut (if first then t.modCq d k.q fun x => { x with busyFirst := false } else t) d f :=
    .ite (h.modPad _ fun q => hcq q _) h
  exact .ite hbusy (hmodRq (.ite hbusy (hmodRq (hfile (hmodRq hbusy _) (by simp [shepAgent]) rfl) _)) _)

theorem State.OnlyPadBut.finish (h : s.OnlyPadBut t d f) (hcq : ∀ q x, f { q with shep := { q.shep with cq := x } } = f q)
    (hrq : ∀ q x, f { q with shep := { q.shep with rq := x } } = f q) (hbell : ∀ q x, f { q with bell := x } = f q)
    (hdef : ∀ q x, f { q with shep := { q.shep with deferred := x } } = f q) (id : Nat) (st : Status) (data : List Word) :
    s.OnlyPadBut (t.finish d id st data) d f := by
  unfold State.finish
  split
  · exact h
  · exact (h.modPad _ fun q => hdef q _).answer hcq hrq hbell _ _ _ _

end

/-! ### Steps taken in every Range -/

/-- What a step that goes by a leader's deferred commands does where one Range alone has anything to do. -/
theorem State.leaders_foldl_one {s : State} {d : Die} (f : State → Die → State) (hd : d ∈ s.leaders)
    (hidle : ∀ (u : State), (∀ l, l ≠ d → (u.pad l).shep.deferred = (s.pad l).shep.deferred) →
      ∀ l ∈ s.leaders, l ≠ d → f u l = u)
    (hframe : ∀ l, l ≠ d → ((f s d).pad l).shep.deferred = (s.pad l).shep.deferred) :
    s.leaders.foldl f s = f s d := by
  have hnodup : s.leaders.Nodup := (List.nodup_finRange 8).filter _
  obtain ⟨a, b, hab⟩ := List.append_of_mem hd
  rw [hab] at hnodup
  have hstays : ∀ (l : List Die) (u : State), (∀ x, x ≠ d → (u.pad x).shep.deferred = (s.pad x).shep.deferred) →
      (∀ x ∈ l, x ∈ s.leaders ∧ x ≠ d) → l.foldl f u = u := by
    intro l
    induction l with
    | nil => exact fun _ _ _ => rfl
    | cons x l ih =>
      intro u hu hl
      obtain ⟨hx, hxd⟩ := hl x (List.mem_cons_self ..)
      rw [List.foldl_cons, hidle u hu x hx hxd]
      exact ih u hu fun y hy => hl y (List.mem_cons_of_mem _ hy)
  have hda : d ∉ a := fun h => (List.nodup_append.mp hnodup).2.2 d h d (List.mem_cons_self ..) rfl
  have hdb : d ∉ b := (List.nodup_cons.mp (List.nodup_append.mp hnodup).2.1).1
  rw [hab, List.foldl_append, List.foldl_cons, hstays a s (fun _ _ => rfl) fun x hx => ⟨?_, fun h => hda (h ▸ hx)⟩,
    hstays b _ hframe fun x hx => ⟨?_, fun h => hdb (h ▸ hx)⟩]
  · rw [hab]; simp [hx]
  · rw [hab]; simp [hx]

section
variable {s : State} {d : Die}

theorem execRegionSwitch_one (hd : d ∈ s.leaders) (hothers : ∀ l ∈ s.leaders, l ≠ d → s.regionOp l = none)
    (hframe : ∀ l, l ≠ d → ((s.regionSwitchOf d).pad l).shep.deferred = (s.pad l).shep.deferred) :
    exec .regionSwitch s = .next (s.regionSwitchOf d) := by
  refine congrArg Host.Outcome.next (State.leaders_foldl_one _ hd (fun u hu l hl hld => ?_) hframe)
  have hop : u.regionOp l = none := by
    have := hothers l hl hld
    simp only [State.regionOp, State.defAt] at this ⊢
    rw [hu l hld]
    exact this
  unfold State.regionSwitchOf
  rw [hop]

theorem execFenceDrained_one (hd : d ∈ s.leaders) (hothers : ∀ l ∈ s.leaders, l ≠ d → s.defAt l DefKind.anyFence = none)
    (hframe : ∀ l, l ≠ d → ((s.fenceStepOf d).pad l).shep.deferred = (s.pad l).shep.deferred) :
    exec .fenceDrained s = .next (s.fenceStepOf d) := by
  refine congrArg Host.Outcome.next (State.leaders_foldl_one _ hd (fun u hu l hl hld => ?_) hframe)
  have hop : u.defAt l DefKind.anyFence = none := by
    have := hothers l hl hld
    simp only [State.defAt] at this ⊢
    rw [hu l hld]
    exact this
  unfold State.fenceStepOf
  rw [hop]

end

/-! ### The switch of a region (01 R29) -/

section
variable {s : State} {d : Die} {id : Nat} {r : RegionOp}

theorem State.regionSwitchOf_waits (hop : s.regionOp d = some (id, r)) (hfull : r.full = true)
    (hwait : s.linesIdle d (s.regionLines d r) = false ∨ (r.step ≠ 1 ∧ s.jobOpen (jobOf id) = true)) : s.regionSwitchOf d = s := by
  unfold State.regionSwitchOf
  simp only [hop, hfull, if_true]
  by_cases hstep : r.step = 1
  · rcases hwait with hidle | ⟨hno, -⟩
    · simp only [hstep, hidle, if_true, Bool.false_eq_true, if_false]
    · exact absurd hstep hno
  · have hbusy : (s.jobOpen (jobOf id) || !s.linesIdle d (s.regionLines d r)) = true := by
      rcases hwait with hidle | ⟨-, hjob⟩
      · rw [hidle]; exact Bool.or_true _
      · rw [hjob]; rfl
    simp only [if_neg hstep, hbusy, if_true]

/-- Every member shows the region, and lets REQ flits in again. -/
def State.regionWritten (s : State) (d : Die) (r : RegionOp) : State :=
  (s.members d).foldl (fun t x => t.modPad x fun q => q.regionHeld false) (s.modRepl d fun y => y.setRegion r.n r.new)

theorem State.regionSwitchOf_switches (hop : s.regionOp d = some (id, r)) (hfull : r.full = true) (hstep : r.step ≠ 1)
    (hjob : s.jobOpen (jobOf id) = false) (hidle : s.linesIdle d (s.regionLines d r) = true)
    (hnone : ∀ x, ∀ p : PFold, ((s.pad x).repl.carries x p).isSome = true → s.heldLines x p (s.regionLines d r) = [])
    (hdue : (s.pad d).shep.recheck.isSome = true) :
    s.regionSwitchOf d = (s.regionWritten d r).finish d id .done [] := by
  have hheld : ((s.live d).any fun x => pfolds.any fun p =>
      ((s.pad x).repl.carries x p).isSome && !(s.heldLines x p (s.regionLines d r)).isEmpty) = false := by
    refine List.any_eq_false.mpr fun x _ => ?_
    rw [Bool.not_eq_true]
    refine List.any_eq_false.mpr fun p _ => ?_
    by_cases hcarries : ((s.pad x).repl.carries x p).isSome = true
    · simp [hnone x p hcarries]
    · simp [hcarries]
  have hmembers : (s.modRepl d fun y => y.setRegion r.n r.new).members d = s.members d := by
    obtain ⟨-, -, -, -, hpad⟩ := State.onlyRepl_modRepl s d fun y => y.setRegion r.n r.new
    have hpresent : ((s.modRepl d fun y => y.setRegion r.n r.new).pad d).repl.present = (s.pad d).repl.present := by
      rw [hpad]
      split
      · simp only [Repl.setRegion]
        split <;> rfl
      · rfl
    simp only [State.members, hpresent]
  have hrecheck : ((s.regionWritten d r).pad d).shep.recheck = (s.pad d).shep.recheck :=
    (((State.Frame.refl (fun q => q.shep.recheck) s).modRepl d _ fun _ => rfl).foldl _ _ fun _ x hu =>
      hu.modPad x (fun q => q.regionHeld false) fun _ => rfl).pads d
  have hsame : (s.regionWritten d r).envChanged d = s.regionWritten d r := if_pos (hrecheck ▸ hdue)
  have hbusy : (s.jobOpen (jobOf id) || !s.linesIdle d (s.regionLines d r)) = false := by rw [hjob, hidle]; rfl
  unfold State.regionSwitchOf
  simp only [hop, hfull, if_true, if_neg hstep, hbusy, hheld, hmembers, Bool.false_eq_true, if_false]
  exact congrArg (fun u : State => u.finish d id .done []) hsame

theorem State.regionWritten_pad (x : Die) : (s.regionWritten d r).pad x =
    if x ∈ s.members d then ({ s.pad x with repl := (s.pad x).repl.setRegion r.n r.new } : Paddock).regionHeld false else s.pad x := by
  obtain ⟨-, -, -, -, hpad⟩ := State.onlyRepl_modRepl s d fun y => y.setRegion r.n r.new
  rw [State.regionWritten, State.pad_foldl_modPad (fun _ q => q.regionHeld false) (s.members d) (nodup_diesOf _), hpad x]
  split <;> rfl

theorem State.regionWritten_frame {α : Type} {p : Paddock → α} (hrepl : ∀ q x, p { q with repl := x } = p q)
    (hhold : ∀ q b, p (q.regionHeld b) = p q) : s.Frame p (s.regionWritten d r) :=
  ((State.Frame.refl p s).modRepl d _ fun _ => hrepl _ _).foldl _ _ fun _ x hu => hu.modPad x (fun q => q.regionHeld false) fun _ => hhold _ _

/-- What the switch of a region leaves. -/
theorem State.regionFinished_spec :
    let t := (s.regionWritten d r).finish d id .done []
    t.tether = s.tether ∧ s.ReplOf t d (fun y => y.setRegion r.n r.new) ∧ (∀ x ∈ s.members d, (t.pad x).shep.regionHold = false) ∧
    (∀ x, (t.pad x).folds = (s.pad x).folds) ∧ ∀ l, l ≠ d → (t.pad l).shep.deferred = (s.pad l).shep.deferred := by
  intro t
  let view (q : Paddock) := (q.repl, q.shep.regionHold, q.folds)
  obtain ⟨honly, hview⟩ := (State.OnlyPadBut.refl (s.regionWritten d r) d view).finish (fun _ _ => rfl) (fun _ _ => rfl)
    (fun _ _ => rfl) (fun _ _ => rfl) id .done []
  have hpad : ∀ x, view (t.pad x) = view ((s.regionWritten d r).pad x) ∧
      (x ≠ d → (t.pad x).shep.deferred = ((s.regionWritten d r).pad x).shep.deferred) := by
    intro x
    by_cases hx : x = d
    · subst hx; exact ⟨hview, fun h => absurd rfl h⟩
    · exact ⟨congrArg view (honly.others x hx), fun _ => by rw [honly.others x hx]⟩
  have htether : (s.regionWritten d r).tether = s.tether :=
    (State.foldl_modPad_rest (fun q => q.regionHeld false) (s.members d) _).2.1.trans (State.onlyRepl_modRepl s d _).2.1
  simp only [view, State.regionWritten_pad, Prod.mk.injEq] at hpad
  refine ⟨honly.tether.trans htether, fun x => ?_, fun x hx => ?_, fun x => ?_, fun l hl => ?_⟩
  · rw [(hpad x).1.1]
    split <;> rfl
  · rw [(hpad x).1.2.1, if_pos hx]
    rfl
  · rw [(hpad x).1.2.2]
    split <;> rfl
  · rw [(hpad l).2 hl]
    split <;> rfl

end

/-! ### The points of a die fence (10 R276) -/

theorem mem_pfolds (p : PFold) : p ∈ pfolds := by revert p; decide

theorem State.carriers_all {s : State} {x : Die} {f : PFold → Bool} :
    (s.carriers x).all f = true ↔ ∀ p, ((s.pad x).repl.carries x p).isSome = true → f p = true := by
  simp only [State.carriers, List.all_eq_true, List.mem_filter, mem_pfolds, true_and]

section
variable {s : State} {d x : Die} {o : Deferred}

theorem State.fenceStepOf_first (hdef : s.defAt d DefKind.anyFence = some o) (hkind : o.kind = .fence x 1) :
    s.fenceStepOf d = if ∀ p, ((s.pad x).repl.carries x p).isSome = true → ((s.pad x).folds[p]).tt = [] ∧ ((s.pad x).folds[p]).pens = []
      then s.fenceSweep d o.id x else s := by
  unfold State.fenceStepOf
  simp only [hdef, hkind]
  refine if_congr ?_ rfl rfl
  simp only [State.carriers_all, Bool.and_eq_true, List.isEmpty_iff]

theorem State.fenceStepOf_third (hdef : s.defAt d DefKind.anyFence = some o) (hkind : o.kind = .fence x 3) :
    s.fenceStepOf d = if s.jobOpen (jobOf o.id) = false ∧ (s.pad d).shep.sw = none ∧
        ∀ p, ((s.pad x).repl.carries x p).isSome = true →
          (s.fc x p).recorded = [] ∧ ((s.pad x).folds[p]).dirtyLines = [] ∧ ((s.pad x).folds[p]).quiet = true
      then (s.modDef d o.id fun _ => .fence x 4).startSwitch d (putBit (s.pad d).repl.present x.val false) (some o.id) else s := by
  unfold State.fenceStepOf
  simp only [hdef, hkind]
  refine if_congr ?_ rfl rfl
  simp only [Bool.and_eq_true, State.carriers_all, List.isEmpty_iff, Bool.not_eq_true', Option.isNone_iff_eq_none, and_assoc]
  exact and_congr_right fun _ => and_comm

/-- The paddock with another job of sweeping lines. -/
def Paddock.swept (q : Paddock) (j : Nat) (l : List Line) : Paddock :=
  if l.isEmpty then q else { q with shep := { q.shep with sweeps := q.shep.sweeps ++ [{ id := j, todo := l }] } }

theorem State.addJob_eq (s : State) (x : Die) (j : Nat) (l : List Line) : s.addJob x j l = s.modPad x fun q => q.swept j l := by
  unfold State.addJob Paddock.swept
  split
  · exact (State.modPad_eq_self s x _ rfl).symm
  · rfl

theorem State.Frame.addJob {α : Type} {p : Paddock → α} {t : State} (h : s.Frame p t)
    (hsweeps : ∀ q y, p { q with shep := { q.shep with sweeps := y } } = p q) (y : Die) (j : Nat) (l : List Line) :
    s.Frame p (t.addJob y j l) := by
  rw [State.addJob_eq]
  refine h.modPad y _ fun q => ?_
  unfold Paddock.swept
  split
  · rfl
  · exact hsweeps q _

/-- What the sweep of a fence leaves of the paddocks. -/
theorem State.fenceSweep_frame {α : Type} {p : Paddock → α} (hsweeps : ∀ q y, p { q with shep := { q.shep with sweeps := y } } = p q)
    (id : Nat) : (s.modDef d id fun _ => .fence x 3).Frame p (s.fenceSweep d id x) :=
  (State.Frame.addJob (.refl p _) hsweeps _ _ _).foldl _ _ fun _ y hu => hu.addJob hsweeps y _ _

theorem State.deferred_modDef (s : State) (d : Die) (id : Nat) (f : DefKind → DefKind) (l : Die) (hl : l ≠ d) :
    ((s.modDef d id f).pad l).shep.deferred = (s.pad l).shep.deferred := by
  rw [State.modDef, State.pad_modShep_other _ _ _ _ hl]

theorem State.fenceSwitch_deferred (id : Nat) (op : Option Nat) (present : BitVec 8) (l : Die) (hl : l ≠ d) :
    (((s.modDef d id fun _ => .fence x 4).startSwitch d present op).pad l).shep.deferred = (s.pad l).shep.deferred := by
  rw [State.pad_startSwitch]
  simp only [if_neg hl]
  rw [← State.deferred_modDef s d id (fun _ => .fence x 4) l hl]
  split <;> rfl

/-- The fence's first point is reached: its sweep begins. -/
theorem State.fenceSweep_spec (id : Nat) :
    let t := s.fenceSweep d id x
    t.tether = s.tether ∧ (∀ y, (t.pad y).repl = (s.pad y).repl ∧ (t.pad y).folds = (s.pad y).folds) ∧
    (∀ e ∈ (t.pad d).shep.deferred, e.id = id → e.kind = .fence x 3) ∧
    ∀ l, l ≠ d → (t.pad l).shep.deferred = (s.pad l).shep.deferred := by
  intro t
  have hview := State.fenceSweep_frame (s := s) (d := d) (x := x) (p := fun q => (q.repl, q.folds, q.shep.deferred)) (fun _ _ => rfl) id
  have hdef : ∀ y, (t.pad y).shep.deferred = _ := fun y => (Prod.ext_iff.mp (Prod.ext_iff.mp (hview.pads y)).2).2
  have hother : ∀ y, ((s.modDef d id fun _ => .fence x 3).pad y).repl = (s.pad y).repl ∧
      ((s.modDef d id fun _ => .fence x 3).pad y).folds = (s.pad y).folds := by
    intro y
    rw [State.modDef, State.modShep, State.pad_modPad]
    split
    next h => subst h; exact ⟨rfl, rfl⟩
    next => exact ⟨rfl, rfl⟩
  refine ⟨hview.tether, fun y => ⟨?_, ?_⟩, fun e he hid => ?_, fun l hl => (hdef l).trans (State.deferred_modDef s d id _ l hl)⟩
  · exact (Prod.ext_iff.mp (hview.pads y)).1.trans (hother y).1
  · exact (Prod.ext_iff.mp (Prod.ext_iff.mp (hview.pads y)).2).1.trans (hother y).2
  · rw [hdef d, State.modDef, State.modShep, State.pad_modPad_same] at he
    obtain ⟨y, -, hy⟩ := List.mem_map.mp he
    split at hy
    · subst hy; rfl
    next hno => subst hy; exact absurd (beq_iff_eq.mpr hid) hno

/-- The fence's third point is reached: the switch that takes the die out begins. -/
theorem State.fenceSwitch_spec (id : Nat) (present : BitVec 8) (op : Option Nat) :
    let t := (s.modDef d id fun _ => .fence x 4).startSwitch d present op
    t.tether = s.tether ∧ (t.pad d).shep.sw = some { start := (s.pad d).now, present := present, forOp := op } ∧
    ∀ y ∈ s.live d, (t.pad y).stream = { (s.pad y).stream with hold := true } := by
  intro t
  let v := s.modDef d id fun _ => .fence x 4
  have hpad : ∀ y, v.pad y = { s.pad y with shep := (v.pad y).shep } := by
    intro y
    simp only [v, State.modDef, State.modShep, State.pad_modPad]
    split
    next h => subst h; rfl
    next => rfl
  have hlive : v.live d = s.live d := by
    simp only [State.live, State.members, State.reaches, State.member]
    rw [hpad d]
  have ht := State.pad_startSwitch v d present op
  have hnow : (v.pad d).now = (s.pad d).now := by rw [hpad d]; rfl
  refine ⟨(State.foldl_modPad_rest (fun q => { q with stream := { q.stream with hold := true } }) _ _).2.1, ?_, fun y hy => ?_⟩
  · rw [ht d, hnow]
    simp only [if_true]
    split <;> rfl
  · rw [ht y, hlive, if_pos hy]
    have hs : (v.pad y).stream = (s.pad y).stream := by rw [hpad y]
    split
    next h => subst h; exact congrArg (fun z : Stream => { z with hold := true }) hs
    next => exact congrArg (fun z : Stream => { z with hold := true }) hs

end

/-- Settles O60. -/
theorem regionsSwitchAndFencesDrain : Obligations.RegionsSwitchAndFencesDrain := by
  unfold Obligations.RegionsSwitchAndFencesDrain
  intro s d
  refine ⟨fun k h => ?_, fun id r hd hothers hop hfull => ?_, fun o x hd hothers hdef => ?_⟩
  · intro n reg old g v
    have hexec := exec_regionSet h (n := n) (old := old) (g := g) rfl rfl rfl
    refine ⟨fun hbad => hexec.trans (congrArg _ (if_pos hbad)), fun hok hjoin => ?_, fun hok hidle henv => ⟨fun hf => ?_, fun hf hsweeps hdue => ?_⟩⟩
    · obtain ⟨y, b, hjoin⟩ := hjoin
      obtain ⟨o, ho, hkind⟩ := List.map_eq_singleton_iff.mp hjoin
      have hbusy : s.regionBusy d g.attr = true := by
        simp only [State.regionBusy, State.anyDef, ho, List.any_cons, hkind, Bool.true_or]
      exact hexec.trans (congrArg _ ((if_neg (by simp [reg, hok])).trans (if_pos hbusy)))
    · have hbusy : s.regionBusy d g.attr = false := by
        rw [State.regionBusy, State.anyDef, show (s.pad d).shep.deferred = [] from hidle]
        rfl
      refine ⟨_, hexec.trans (congrArg _ ((if_neg (by simp [reg, hok])).trans ((if_neg (by simp [hbusy])).trans
        ((if_neg (by simp [henv, v])).trans (if_pos hf))))), ?_⟩
      obtain ⟨hkrovol, htether, hpending⟩ := State.foldl_modPad_rest (fun q => q.regionHeld true) (s.members d) s
      exact ⟨hkrovol, htether, hpending, State.pad_members s d fun q => q.regionHeld true⟩
    · have hbusy : s.regionBusy d g.attr = false := by
        rw [State.regionBusy, State.anyDef, show (s.pad d).shep.deferred = [] from hidle]
        rfl
      have hshep := State.shep_modRepl s d fun y => y.setRegion n g
      have hstays : ((s.modRepl d fun y => y.setRegion n g).serve d).envChanged d = (s.modRepl d fun y => y.setRegion n g).serve d := by
        refine if_pos ?_
        rw [State.shep_serve]
        exact (congrArg (fun z : Shep => z.recheck.isSome) hshep).trans hdue
      refine ⟨s.modRepl d fun y => y.setRegion n g, hexec.trans (congrArg _ ((if_neg (by simp [reg, hok])).trans
        ((if_neg (by simp [hbusy])).trans ((if_neg (by simp [henv, v])).trans ((if_neg (by simp [hf])).trans ?_))))),
        State.onlyRepl_modRepl s d _⟩
      simp only [hstays, hsweeps, Bool.false_eq_true, if_false]
      exact State.reply_serve h _ (congrArg Shep.rq hshep)
  · intro f none'
    have hwaits : ∀ hwait, exec .regionSwitch s = .next s := fun hwait => by
      have hstays := State.regionSwitchOf_waits hop hfull hwait
      exact (execRegionSwitch_one hd hothers fun l _ => by rw [hstays]).trans (congrArg _ hstays)
    refine ⟨fun hidle => hwaits (.inl hidle), fun hstep hjob => hwaits (.inr ⟨hstep, hjob⟩), fun hstep hjob hidle hnone hdue => ?_⟩
    have hswitch := State.regionSwitchOf_switches hop hfull hstep hjob hidle hnone hdue
    obtain ⟨htether, hrepl, hhold, hfolds, hdef⟩ := State.regionFinished_spec (s := s) (d := d) (id := id) (r := r)
    have hexec := (execRegionSwitch_one hd hothers fun l hl => by rw [hswitch]; exact hdef l hl).trans (congrArg _ hswitch)
    obtain ⟨t, ht, hkrovol, hpending, -⟩ := commandsKeepParametersQueueAndTime .regionSwitch s
    obtain rfl := Host.Outcome.next.inj (ht.symm.trans hexec)
    exact ⟨_, hexec, hkrovol, htether, hpending, hrepl, hhold, hfolds⟩
  · have hstays : s.fenceStepOf d = s → exec .fenceDrained s = .next s := fun h =>
      (execFenceDrained_one hd hothers fun l _ => by rw [h]).trans (congrArg _ h)
    obtain ⟨t, ht, hkrovol, hpending, -⟩ := commandsKeepParametersQueueAndTime .fenceDrained s
    intro carried
    refine ⟨fun hkind => ?_, fun hkind => ?_⟩
    · intro idle
      have hstep := State.fenceStepOf_first hdef hkind
      refine ⟨fun hno => hstays (hstep.trans (if_neg hno)), fun hyes => ?_⟩
      have hsweep := hstep.trans (if_pos hyes)
      obtain ⟨htether, hsame, hthird, hothersDef⟩ := State.fenceSweep_spec (s := s) (d := d) (x := x) o.id
      have hexec := (execFenceDrained_one hd hothers fun l hl => by rw [hsweep]; exact hothersDef l hl).trans (congrArg _ hsweep)
      obtain rfl := Host.Outcome.next.inj (ht.symm.trans hexec)
      exact ⟨_, hexec, hkrovol, htether, hpending, hsame, hthird⟩
    · have hstep := State.fenceStepOf_third hdef hkind
      refine ⟨fun hbusy => hstays (hstep.trans (if_neg ?_)), fun hheld => hstays (hstep.trans (if_neg ?_)), fun hjob hsw hclear => ?_⟩
      · rintro ⟨hjob, hsw, -⟩
        rcases hbusy with h | h
        · exact Bool.false_ne_true (hjob.symm.trans h)
        · rw [hsw] at h; exact absurd h (by decide)
      · rintro ⟨-, -, hclear⟩
        obtain ⟨p, hp, hrec⟩ := hheld
        exact hrec (hclear p hp).1
      · have hsweep := hstep.trans (if_pos ⟨hjob, hsw, hclear⟩)
        obtain ⟨htether, hnewSw, hhold⟩ := State.fenceSwitch_spec (s := s) (d := d) (x := x) o.id
          (putBit (s.pad d).repl.present x.val false) (some o.id)
        have hexec := (execFenceDrained_one hd hothers fun l hl => by
          rw [hsweep]; exact State.fenceSwitch_deferred o.id _ _ l hl).trans (congrArg _ hsweep)
        obtain rfl := Host.Outcome.next.inj (ht.symm.trans hexec)
        exact ⟨_, hexec, hkrovol, htether, hpending, hnewSw, hhold⟩

end Sys2Proof.Machine
end

section
/-!
The Tether's links and resets and the statement O53 (16 R447 to R451, 19 R516, 18 R484).
-/

namespace Sys2Proof.Machine

/-! ### Resets (16 R449, R450, 19 R516) -/

section
variable {s : State} {d : Die}

/-- No command queue of the Shepherd that the Tether's rings feed is in host-ring mode. -/
abbrev State.NoRings (s : State) (d : Die) : Prop := ∀ q : QN, ((s.pad (s.queueDie d)).shep.cq[q]).ringMode = false

theorem State.flushRings_calm (hcalm : s.NoRings d) : s.flushRings d = s := by
  have hfold : ∀ l : List QN, l.foldl (fun u q => if ((u.pad (s.queueDie d)).shep.cq[q]).ringMode then
      u.cqEmpty (s.queueDie d) q else u) s = s := by
    intro l
    induction l with
    | nil => rfl
    | cons q l ih => rw [List.foldl_cons, hcalm q, if_neg Bool.false_ne_true, ih]
  exact hfold _

theorem State.tetherReset_calm (hcalm : s.NoRings d) (link : Bool) :
    s.tetherReset d link = s.modTether fun t => t.afterReset s.krovol (s.pad d).now link := by
  rw [State.tetherReset, State.flushRings_calm hcalm]

/-- A link-down event where the package is not entering Nightfold. -/
theorem State.downEvent_calm (hcalm : s.NoRings d) (hnight : s.tether.noTlp = false) :
    s.downEvent d = (s.modTether fun t => t.afterReset s.krovol (s.pad d).now true).modPad d fun q =>
      q.receive (s.tetherReport d 0x901 0) := by
  simp only [State.downEvent, State.tetherReset_calm hcalm]
  refine (if_neg (by simpa [Tether.afterReset] using hnight)).trans ?_
  exact State.tetherRep_eq _ d 0x901 0

end

/-! ### Bus Master Enable (16 R448) -/

section
variable {s : State} {d : Die}

theorem exec_busMasterEnable (hdie : s.tetherDie = some d) (hup : s.tether.linkUp = true) (hperst : s.tether.perst = false)
    (hflr : s.tether.flr = none) (on : Bool) : exec (.busMasterEnable on) s = .next (s.setBme d on) := by
  refine congrArg Host.Outcome.next ?_
  simp only [hdie, hup, hperst, hflr, Option.isNone_none, Bool.not_false, Bool.and_self, if_true]

theorem State.setBme_idle (hopen : ∀ q : QN, (s.tether.ring[q]).open' = []) (on : Bool) :
    s.setBme d on = { s with tether := { s.tether with
      bme := on, quiescing := s.tether.quiescing || (!on && s.tether.bme && !s.tether.dropTags.isEmpty) } } := by
  have hnone : ((List.finRange 64).filter fun q => !((s.tether.ring[q]).open').isEmpty) = [] := by
    refine List.filter_eq_nil_iff.mpr fun q _ => ?_
    simp [-Fin.getElem_fin, hopen q]
  simp only [State.setBme, hnone, List.isEmpty_nil, Bool.true_and, List.foldl_nil]
  cases on <;> cases hb : s.tether.bme <;> cases hd : s.tether.dropTags.isEmpty <;> simp [State.modTether]

theorem State.ringRewind_fresh {q : QN} {r : RingRead} (hopen : (s.tether.ring[q]).open' = [r])
    (hwords : ((s.pad (s.queueDie d)).shep.cq[q]).words = []) (hsame : ((s.pad (s.queueDie d)).shep.cq[q]).same = true)
    (hlate : r.got.length < r.want) :
    s.ringRewind d q = s.modTether fun t => { t.modRing q fun y => { y with
      head := BitVec.ofNat 16 ((y.head.toNat + y.size) % y.size), open' := [] } with
      dropTags := t.dropTags ++ [{ tag := r.tag, left := r.want - r.got.length }] } := by
  have hcheck : s.cqCheck (s.queueDie d) q = s := if_pos hsame
  have hl : (s.tether.ring[q]).late = [{ tag := r.tag, left := r.want - r.got.length }] := by
    simp only [HostRing.late, hopen, List.filter_cons, decide_eq_true hlate, if_true, List.filter_nil, List.map_cons, List.map_nil]
  simp only [State.ringRewind, hcheck, hwords, List.isEmpty_nil, if_true, hl, List.length_nil, Nat.zero_mod, Nat.sub_zero]

theorem State.setBme_one {q : QN} {r : RingRead} (hbme : s.tether.bme = true) (hopen : (s.tether.ring[q]).open' = [r])
    (hothers : ∀ k, k ≠ q → (s.tether.ring[k]).open' = []) : s.setBme d false =
      ((s.modTether fun t => { t with bme := false }).ringRewind d q).modTether fun t => { t with quiescing := true } := by
  have hone : ((List.finRange 64).filter fun k => !((s.tether.ring[k]).open').isEmpty) = [q] := by
    have hp : (fun k : QN => !((s.tether.ring[k]).open').isEmpty) = fun k => k == q := by
      funext k
      by_cases hk : k = q
      · subst hk; simp [-Fin.getElem_fin, hopen]
      · simp [-Fin.getElem_fin, hothers k hk, hk]
    rw [hp, List.filter_beq, List.count_eq_one_of_mem (List.nodup_finRange 64) (List.mem_finRange q)]
    rfl
  simp only [State.setBme, hone, hbme]
  rfl

end

/-- Settles O53. -/
theorem resetsAndLinkEvents : Obligations.ResetsAndLinkEvents := by
  unfold Obligations.ResetsAndLinkEvents
  intro s d t put fresh calm
  refine ⟨rfl, rfl, fun hdie => ⟨fun rate width hshape hdown hperst => ⟨fun hwide flit => ?_, fun hwidth hnight flit hflit hrate => ?_⟩,
    fun hcalm hup hperst => ⟨?_, ?_, fun hnight => ⟨?_, ?_⟩⟩, fun hup hperst hflr => ⟨fun hopen => ⟨fun on h => ?_, fun hbme hdrop => ?_⟩,
      fun q r hopen hothers hwords hsame hlate hbme hdrop => ?_⟩⟩⟩
  · refine congrArg Host.Outcome.next ?_
    simp only [State.linkTrained, hdie, decide_eq_true hwide, Bool.or_true, if_true]
  · refine congrArg Host.Outcome.next ?_
    have hno : ¬s.krovol.linkWidth < width.toNat := by omega
    have hf : (flit && !s.krovol.flitMode) = false := by
      cases flit
      · rfl
      · simp [hflit rfl]
    have hr : (!flit && rate == 5) = false := by
      cases flit
      · simpa using hrate rfl
      · rfl
    have hdown' : s.tether.linkUp = false := hdown
    have hperst' : s.tether.perst = false := hperst
    have hnight' : s.tether.noTlp = false := hnight
    simp only [State.linkTrained, hdie, hshape, hdown', hperst', hnight', hf, hr, decide_eq_false hno, Bool.not_true, Bool.or_self,
      Bool.false_eq_true, if_false]
    rfl
  · by_cases hflr : t.flr = none
    · refine ⟨t.afterReset s.krovol (s.pad d).now false, congrArg Host.Outcome.next ?_, fun _ => ?_, fun h => ?_, hup, rfl, rfl⟩
      · simp only [State.initiateFlr, hdie, show s.tether.linkUp = true from hup, show s.tether.perst = false from hperst,
          show s.tether.flr = none from hflr, Option.isNone_none, Bool.not_false, Bool.and_self, if_true]
        exact State.tetherReset_calm hcalm false
      · exact ⟨rfl, rfl, rfl, rfl, rfl, rfl, rfl, rfl, rfl, rfl, rfl, rfl, rfl⟩
      · rw [hflr] at h
        exact absurd h (by decide)
    · refine ⟨t, congrArg Host.Outcome.next ?_, fun h => absurd h hflr, fun _ => rfl, hup, rfl, rfl⟩
      have hsome : s.tether.flr.isNone = false := Option.isNone_eq_false_iff.mpr (Option.isSome_iff_ne_none.mpr hflr)
      simp only [State.initiateFlr, hdie, hsome, Bool.and_false, Bool.false_eq_true, if_false]
      rfl
  · refine ⟨t.afterReset s.krovol (s.pad d).now true, congrArg Host.Outcome.next ?_, ?_, rfl, rfl⟩
    · simp only [State.hotReset, hdie, show s.tether.linkUp = true from hup, if_true]
      exact State.tetherReset_calm hcalm true
    · exact ⟨rfl, rfl, rfl, rfl, rfl, rfl, rfl, rfl, rfl, rfl, rfl, rfl, rfl⟩
  · have hlost : s.linkLost = s.downEvent d := by
      simp only [State.linkLost, hdie, show s.tether.linkUp = true from hup, if_true]
    refine ⟨_, congrArg Host.Outcome.next (hlost.trans (State.downEvent_calm hcalm hnight)), ?_⟩
    refine ⟨rfl, ⟨rfl, rfl, rfl, rfl, rfl, rfl, rfl, rfl, rfl, rfl, rfl, rfl, rfl⟩, rfl, ?_⟩
    rw [State.pad_modPad_same]
    rfl
  · let v := s.modTether fun t => { t with perst := true }
    have hlost : s.perstAssert = v.downEvent d := by
      have hdie' : (s.modTether fun t => { t with perst := true }).tetherDie = some d := hdie
      simp only [State.perstAssert, show s.tether.perst = false from hperst, Bool.false_eq_true, if_false, hdie', v]
    refine ⟨_, congrArg Host.Outcome.next (hlost.trans (State.downEvent_calm (s := v) hcalm hnight)), ?_⟩
    refine ⟨rfl, ⟨rfl, rfl, rfl, rfl, rfl, rfl, rfl, rfl, rfl, rfl, rfl, rfl, rfl⟩, rfl, rfl, ?_⟩
    rw [State.pad_modPad_same]
    rfl
  · refine (exec_busMasterEnable hdie hup hperst hflr on).trans (congrArg _ ((State.setBme_idle hopen on).trans ?_))
    have hquiet : (!on && s.tether.bme && !s.tether.dropTags.isEmpty) = false := by
      rcases h with h | h | h
      · simp [h]
      · simp [show s.tether.bme = false from h]
      · simp [show s.tether.dropTags = [] from h]
    rw [hquiet, Bool.or_false]
  · refine (exec_busMasterEnable hdie hup hperst hflr false).trans (congrArg _ ((State.setBme_idle hopen false).trans ?_))
    have hquiesces : (!false && s.tether.bme && !s.tether.dropTags.isEmpty) = true := by
      simp only [t] at hbme hdrop
      simp [hbme, hdrop]
    rw [hquiesces, Bool.or_true]
  · have hrewind := State.ringRewind_fresh (s := s.modTether fun t => { t with bme := false }) (q := q) (r := r) hopen hwords hsame hlate
    refine ⟨_, (exec_busMasterEnable hdie hup hperst hflr false).trans
      (congrArg _ ((State.setBme_one hbme hopen hothers).trans (congrArg (fun u : State => u.modTether _) hrewind))),
      rfl, rfl, rfl, ?_, fun k => ?_⟩
    · exact congrArg (· ++ [({ tag := r.tag, left := r.want - r.got.length } : LateRead)]) hdrop
    · show ((vmod t.ring q _)[k]).open' = []
      by_cases hk : k = q
      · subst hk
        rw [vmod_get_same]
      · rw [vmod_get_other _ _ _ _ hk]
        exact hothers k hk

end Sys2Proof.Machine
end

section
/-!
Host rings, MSI-X vectors, L1 and the statement O54 (16 R442 to R446).
-/

namespace Sys2Proof.Machine

section
variable {s : State} {d : Die} {q : QN} {g : BitVec 10}

/-! ### Ring reads (16 R442) -/

theorem Tether.upstream_of_takes {t : Tether} (hup : t.linkUp = true) (hperst : t.perst = false) (htakes : t.Takes)
    (hbme : t.bme = true) (hquiet : t.quiescing = false) (hd3 : t.d3 = false) : t.upstream = true := by
  obtain ⟨htlp, hflr⟩ := htakes
  simp only [Tether.upstream, hup, hperst, hbme, hquiet, hd3, htlp, hflr, Option.isNone_none, Bool.not_false, Bool.and_self]

theorem HostRing.asked_closed {r : HostRing} (hopen : r.open' = []) : r.asked = 0 := by rw [HostRing.asked, hopen]; rfl

theorem exec_hostRingFetch (h : s.RingReady d q g) (hopen : (s.tether.ring[q]).open' = []) {n : Nat} (hn : 0 < n) :
    let r := s.tether.ring[q]
    let addr := r.base.toNat + 4 * (r.head.toNat % r.size)
    n = min (min (min r.waiting (r.size - r.head.toNat % r.size)) (min s.tether.maxReadWords ((4096 - addr % 4096) / 4)))
      ((s.pad (s.queueDie d)).shep.cq[q]).free →
    exec (.hostRingFetch q) s = .next ((s.modTether fun t =>
      t.modRing q fun r => { r with open' := r.open' ++ [{ tag := g, want := n }] }).toHost d (.memRead g (BitVec.ofNat 64 addr) n)) := by
  intro r addr hwords
  obtain ⟨⟨hdie, hup, hperst⟩, htakes, ⟨hbme, hquiet, hd3⟩, hmode, hsound, htag⟩ := h
  have hupstream := Tether.upstream_of_takes hup hperst htakes hbme hquiet hd3
  have hnext : (s.tether.ring[q]).next = r.head.toNat % r.size := by rw [HostRing.next, HostRing.asked_closed hopen]; rfl
  refine congrArg Host.Outcome.next ?_
  simp only [State.ringFetch, hdie, htag, hnext, HostRing.asked_closed hopen, Nat.sub_zero, hupstream, hmode, hsound]
  have hcount := hwords.symm
  simp only [r, addr] at hcount
  rw [hcount, if_pos (by simpa using hn)]

/-! ### What comes from the host (16 R442, R443) -/

theorem State.shep_pcount (u : State) (x y : Die) (sel unit : Nat) : ((u.pcount x sel unit).pad y).shep = (u.pad y).shep :=
  ((State.Frame.refl (fun q => q.shep) u).modPad x (fun q => { q with census := padCount sel unit 16 q.census }) fun _ => rfl).pads y

/-- The word that ends a ring's only read goes to its queue, where it starts a packet. -/
theorem State.ringDeliver_last {u : State} {v : Word}
    (hopen : (u.tether.ring[q]).open' = [{ tag := g, want := 1, got := [v] }])
    (hwords : ((u.pad (u.queueDie d)).shep.cq[q]).words = []) (hsame : ((u.pad (u.queueDie d)).shep.cq[q]).same = true)
    (hlen : 1 ≤ bits v 8 6) : u.ringDeliver d q 2 =
      ((u.modTether fun t => t.modRing q fun r => { r with head := BitVec.ofNat 16 ((r.head.toNat + 1) % r.size), open' := [] }).modCq
        (u.queueDie d) q fun c => { c with words := [v], tail := c.tail.add 1 }).pcount d 0x24 0 := by
  let w := u.modTether fun t => t.modRing q fun r => { r with head := BitVec.ofNat 16 ((r.head.toNat + 1) % r.size), open' := [] }
  have hput : w.cqFetched (u.queueDie d) q v = w.modCq (u.queueDie d) q fun c => { c with words := [v], tail := c.tail.add 1 } := by
    have hcheck : w.cqCheck (u.queueDie d) q = w := if_pos hsame
    have hwords' : ((w.pad (u.queueDie d)).shep.cq[q]).words = [] := hwords
    have hlast : decide (bits (([] ++ [v] : List Word).headD 0) 8 6 + 1 ≤ ([] ++ [v] : List Word).length) = false := by
      simp
      omega
    have hroom : ((w.pad (u.queueDie d)).shep.cq[q]).words.length < 64 := by rw [hwords']; decide
    unfold State.cqFetched
    simp only [hcheck, hwords', hlast]
    refine (State.cqPut_kept (CmdQueue.put_taken rfl hroom) (by decide)).trans (State.modCq_congr ?_)
    simp only [hwords', List.nil_append]
  have hempty : ((((w.cqFetched (u.queueDie d) q v).pcount d 0x24 0).tether.ring[q]).open' = []) := by
    rw [hput]
    show ((vmod u.tether.ring q _)[q]).open' = []
    rw [vmod_get_same]
  have hstep : u.ringDeliver d q 2 = ((w.cqFetched (u.queueDie d) q v).pcount d 0x24 0).ringDeliver d q 1 := by
    rw [State.ringDeliver]
    simp only [hopen, if_true, Nat.le_refl]
    rfl
  rw [hstep, State.ringDeliver]
  simp only [hempty]
  exact congrArg (fun x : State => x.pcount d 0x24 0) hput

/-- The one word of a ring's read arrives, and starts a packet. -/
theorem exec_hostRingCompletion_word {v : Word} (hup : s.TetherUp d) (hopen : (s.tether.ring[q]).open' = [{ tag := g, want := 1 }])
    (hwords : ((s.pad (s.queueDie d)).shep.cq[q]).words = []) (hsame : ((s.pad (s.queueDie d)).shep.cq[q]).same = true)
    (hlen : 1 ≤ bits v 8 6) :
    exec (.hostRingCompletion q g (.words [v])) s = .next (
      ((s.modTether fun t => { t with
        idleSince := (s.pad d).now
        ring := vmod t.ring q fun r => { r with head := BitVec.ofNat 16 ((r.head.toNat + 1) % r.size), open' := [] } }).modCq
          (s.queueDie d) q fun c => { c with words := [v], tail := c.tail.add 1 }).pcount d 0x24 0) := by
  obtain ⟨hdie, hlink, hperst⟩ := hup
  have hasked : (s.tether.ring[q]).asked = 1 := by rw [HostRing.asked, hopen]; rfl
  refine congrArg Host.Outcome.next ?_
  simp only [State.ringCompletion, hdie, hlink, hperst, hopen, List.find?_cons, beq_self_eq_true, hasked, Bool.not_true,
    Bool.or_self, Bool.false_eq_true, if_false]
  refine Eq.trans (State.ringDeliver_last (v := v) (g := g) ?_ ?_ ?_ hlen) ?_
  · show ((vmod s.tether.ring q _)[q]).open' = _
    rw [vmod_get_same, hopen]
    simp
  · exact hwords
  · exact hsame
  · refine congrArg (fun t : Tether => (({ s with tether := t } : State).modCq (s.queueDie d) q
      fun c => { c with words := [v], tail := c.tail.add 1 }).pcount d 0x24 0) ?_
    refine congrArg (fun r => ({ s.tether with idleSince := (s.pad d).now, ring := r } : Tether)) ?_
    exact vmod_vmod s.tether.ring q (fun r => { r with open' := r.open'.map _ })
      fun r => { r with head := BitVec.ofNat 16 ((r.head.toNat + 1) % r.size), open' := [] }

/-! ### Reads that fail (16 R443) -/

/-- The header's status after a read that failed. -/
def statusAfter (st : BitVec 16) (cfg : SMap Word) (b : AerBit) : BitVec 16 :=
  match b with
  | .unsupported => putBit st 13 true
  | .abort => putBit st 12 true
  | .poisoned => if bitAt (smGet cfg 0 0x04) 6 then putBit (putBit st 15 true) 8 true else putBit st 15 true
  | .timeout | .unexpected | .malformed => st

/-- The Tether after a read of a ring failed: the ring stands, its words discarded. -/
def Tether.ringFailed (t : Tether) (q : QN) (g : BitVec 10) (now : Nat) : Tether :=
  { t.modRing q fun r => { r with fault := true } with dropTags := lateTake t.dropTags g none, idleSince := now }

theorem Tether.ringFailed_ring (t : Tether) (now : Nat) :
    ((t.ringFailed q g now).ring[q]).fault = true ∧ ((t.ringFailed q g now).ring[q]).open' = (t.ring[q]).open' := by
  simp only [Tether.ringFailed, Tether.modRing, vmod_get_same, and_self]

/-- The state after a read of a ring failed, the ring's uncommitted packet gone. -/
def State.ringFails (v : State) (d : Die) (q : QN) (g : BitVec 10) (now : Nat) (b : AerBit) : State :=
  let w := v.modTether fun t => t.ringFailed q g now
  (match b with
    | .unsupported => w.pciStatus 13
    | .abort => w.pciStatus 12
    | .poisoned => if bitAt (smGet w.tether.cfg 0 0x04) 6 then (w.pciStatus 15).pciStatus 8 else w.pciStatus 15
    | .timeout | .unexpected | .malformed => w).aer d b

theorem State.ringFault_eq (u : State) (b : AerBit) : u.ringFault d q g b = (u.ringRewind d q).ringFails d q g (u.pad d).now b := by
  cases b <;> rfl

theorem State.modTether_congr {v : State} {f h : Tether → Tether} (hf : f v.tether = h v.tether) : v.modTether f = v.modTether h :=
  congrArg (fun t => ({ v with tether := t } : State)) hf

theorem State.aer_modTether (v : State) (f : Tether → Tether) (b : AerBit) : (v.modTether f).aer d b =
    (v.modTether fun t => { f t with aerSticky := putBit (f t).aerSticky b.no true }).modPad d fun p =>
      p.receive (v.tetherReport d 0x903 b.no) := State.aer_eq _ d b

theorem State.pciStatus_modTether (v : State) (f : Tether → Tether) (i : Nat) : (v.modTether f).pciStatus i =
    v.modTether fun t => { f t with pciStat := putBit (f t).pciStat i true } := rfl

/-- The Tether's bits of a failed read: AER's and the header's. -/
def Tether.errorBits (t : Tether) (b : AerBit) : Tether :=
  { t with pciStat := statusAfter t.pciStat t.cfg b, aerSticky := putBit t.aerSticky b.no true }

theorem State.ringFails_eq (v : State) (now : Nat) (b : AerBit) : v.ringFails d q g now b =
    (v.modTether fun t => (t.ringFailed q g now).errorBits b).modPad d fun p => p.receive (v.tetherReport d 0x903 b.no) := by
  have hcfg : (v.modTether fun t => t.ringFailed q g now).tether.cfg = v.tether.cfg := rfl
  unfold State.ringFails Tether.errorBits
  cases b with
  | poisoned =>
    simp only [hcfg, State.pciStatus_modTether, statusAfter]
    by_cases hc : bitAt (smGet v.tether.cfg 0 0x04) 6 = true
    · simp only [hc, if_true, State.aer_modTether]
      exact congrArg (fun w : State => w.modPad d _) (State.modTether_congr (by simp only [Tether.ringFailed, Tether.modRing, hc, if_true]))
    · simp only [hc, if_false, Bool.false_eq_true, State.aer_modTether]
      exact congrArg (fun w : State => w.modPad d _) (State.modTether_congr (by simp only [Tether.ringFailed, Tether.modRing, hc, if_false, Bool.false_eq_true]))
  | unsupported => simp only [State.pciStatus_modTether, State.aer_modTether, statusAfter]
  | abort => simp only [State.pciStatus_modTether, State.aer_modTether, statusAfter]
  | timeout => simp only [State.aer_modTether, statusAfter]
  | unexpected => simp only [State.aer_modTether, statusAfter]
  | malformed => simp only [State.aer_modTether, statusAfter]

theorem State.ringFails_spec (v : State) (now : Nat) (b : AerBit) :
    let t := v.ringFails d q g now b
    t.tether.pciStat = statusAfter v.tether.pciStat v.tether.cfg b ∧ (t.tether.ring[q]).fault = true ∧
      (t.tether.ring[q]).open' = (v.tether.ring[q]).open' ∧ t.tether.aerSticky = putBit v.tether.aerSticky b.no true ∧
      (v.pad d).Filed (t.pad d) (v.tetherReport d 0x903 b.no) := by
  intro t
  have ht : t = _ := State.ringFails_eq v now b
  obtain ⟨hfault, hopen⟩ := Tether.ringFailed_ring (q := q) (g := g) v.tether now
  rw [ht]
  refine ⟨rfl, hfault, hopen, rfl, ?_⟩
  rw [State.pad_modPad_same]
  rfl

/-- What a failed read of a ring with no uncommitted word leaves. -/
theorem State.ringFault_spec {u : State} {n : Nat} (hopen : (u.tether.ring[q]).open' = [{ tag := g, want := n }])
    (hwords : ((u.pad (u.queueDie d)).shep.cq[q]).words = []) (hsame : ((u.pad (u.queueDie d)).shep.cq[q]).same = true)
    (hn : 0 < n) (b : AerBit) :
    let t := u.ringFault d q g b
    t.tether.pciStat = statusAfter u.tether.pciStat u.tether.cfg b ∧ (t.tether.ring[q]).fault = true ∧
      (t.tether.ring[q]).open' = [] ∧ t.tether.aerSticky = putBit u.tether.aerSticky b.no true ∧
      (u.pad d).Filed (t.pad d) (u.tetherReport d 0x903 b.no) := by
  intro t
  have hrewind := State.ringRewind_fresh hopen hwords hsame hn
  have hring : ((u.ringRewind d q).tether.ring[q]).open' = [] := by
    rw [hrewind]
    show ((vmod u.tether.ring q _)[q]).open' = []
    rw [vmod_get_same]
  have hrest : (u.ringRewind d q).tether.pciStat = u.tether.pciStat ∧ (u.ringRewind d q).tether.cfg = u.tether.cfg ∧
      (u.ringRewind d q).tether.aerSticky = u.tether.aerSticky ∧ (u.ringRewind d q).pad d = u.pad d := by
    rw [hrewind]
    exact ⟨rfl, rfl, rfl, rfl⟩
  obtain ⟨hstat, hcfg, hsticky, hpad⟩ := hrest
  have hspec := State.ringFails_spec (d := d) (q := q) (g := g) (u.ringRewind d q) (u.pad d).now b
  rw [← State.ringFault_eq, hstat, hcfg, hring, hsticky, hpad, State.tetherReport, hpad] at hspec
  exact hspec

theorem exec_hostRingCompletion_failed (hup : s.TetherUp d) {n : Nat} (hopen : (s.tether.ring[q]).open' = [{ tag := g, want := n }])
    {x : RingAnswer} {b : AerBit} (hx : (x, b) ∈ [(RingAnswer.unsupported, AerBit.unsupported), (.abort, .abort), (.poisoned, .poisoned)]) :
    exec (.hostRingCompletion q g x) s = .next ((s.modTether fun t => { t with idleSince := (s.pad d).now }).ringFault d q g b) := by
  obtain ⟨hdie, hlink, hperst⟩ := hup
  refine congrArg Host.Outcome.next ?_
  simp only [State.ringCompletion, hdie, hlink, hperst, hopen, List.find?_cons, beq_self_eq_true, Bool.not_true, Bool.or_self,
    Bool.false_eq_true, if_false]
  simp only [List.mem_cons, Prod.mk.injEq, List.not_mem_nil, or_false] at hx
  rcases hx with ⟨rfl, rfl⟩ | ⟨rfl, rfl⟩ | ⟨rfl, rfl⟩ <;> rfl

/-- Device Control 2 bit 4 disables the timeout. -/
theorem exec_completionTimeout (hdie : s.tetherDie = some d) {n : Nat} (hopen : (s.tether.ring[q]).open' = [{ tag := g, want := n }])
    (hn : 0 < n) : exec (.completionTimeout q g) s =
      .next (if bitAt (smGet s.tether.cfg 0 0x78) 4 then s else s.ringFault d q g .timeout) := by
  refine congrArg Host.Outcome.next ?_
  have hlate : ((s.tether.ring[q]).open'.any fun r => r.tag == g && decide (r.got.length < r.want)) = true := by
    rw [hopen]
    simpa using hn
  simp only [State.ringTimeout, hdie, hlate, if_true]

/-! ### MSI-X (16 R445) -/

theorem exec_msixVectorDue (hdie : s.tetherDie = some d) : exec (.msixVectorDue q) s = .next (
    let u := s.modTether fun t => { t with cond := putBit t.cond q.val (s.msixCond d q) }
    if s.msixCond d q = true ∧ bitAt s.tether.cond q.val = false then u.msixDue d q else u) := by
  refine congrArg Host.Outcome.next ?_
  simp only [State.msixCheck, hdie, Bool.and_eq_true, Bool.not_eq_true']

theorem exec_msixSend (hdie : s.tetherDie = some d) : exec (.msixSend q) s = .next (
    if bitAt s.tether.pba q.val && s.tether.msixGo q then
      (s.modTether fun t => { t with pba := putBit t.pba q.val false }).msixWrite d q
    else s) := by
  refine congrArg Host.Outcome.next ?_
  simp only [State.msixPending, hdie]

/-! ### L1 (16 R446) -/

theorem exec_l1Entry (hup : s.TetherUp d) {sub : BitVec 2} (hsub : sub ≠ 0) (hen : s.tether.l1En = true) (hlpm : s.tether.lpm = 0)
    (hidle : s.tether.idle = true) (hltr : s.tether.ltrEn = false) :
    exec (.l1Entry sub) s = .next (
      if s.tether.subOk sub = true ∧ s.tether.idleSince + s.tether.idleNs ≤ (s.pad d).now then
        s.modTether fun t => { t with lpm := sub } else s) := by
  obtain ⟨hdie, hlink, hperst⟩ := hup
  refine congrArg Host.Outcome.next ?_
  have hsub' : (sub != 0) = true := bne_iff_ne.mpr hsub
  have hlpm' : (s.tether.lpm == 0) = true := beq_iff_eq.mpr hlpm
  simp only [State.enterL1, hdie, hlink, hperst, hen, hlpm', hidle, hltr, hsub', Bool.not_false, Bool.and_true, Bool.true_and,
    Bool.false_and, Bool.false_eq_true, if_false, Bool.and_eq_true, decide_eq_true_eq]

end

/-- Settles O54. -/
theorem ringsVectorsAndL1 : Obligations.RingsVectorsAndL1 := by
  unfold Obligations.RingsVectorsAndL1
  intro s d q t r c
  refine ⟨fun g n h hopen hn => ?_, fun hup => ⟨fun g v hopen hsize hwords hsame hlen => ?_, fun g n hopen hn hwords hsame => ?_, ?_,
    fun sub hsub hen hlpm hidle hltr => exec_l1Entry hup hsub hen hlpm hidle hltr⟩⟩
  · intro addr hwords
    refine (exec_hostRingFetch h hopen hn hwords).trans (congrArg Host.Outcome.next ?_)
    refine congrArg (fun x => ({ s with tether := { s.tether with
      ring := x, out := t.out ++ [.memRead g (BitVec.ofNat 64 addr) n], idleSince := (s.pad d).now, lpm := 0 } } : State)) ?_
    have hopen' : (s.tether.ring[q]).open' = [] := hopen
    refine vmod_congr (v := s.tether.ring) (f := fun r => { r with open' := r.open' ++ [{ tag := g, want := n }] })
      (g := fun r => { r with open' := [{ tag := g, want := n }] }) ?_
    simp only [hopen', List.nil_append]
  · have hexec := exec_hostRingCompletion_word hup hopen hwords hsame hlen
    obtain ⟨u, hu, hkrovol, hpending, -⟩ := commandsKeepParametersQueueAndTime (.hostRingCompletion q g (.words [v])) s
    obtain rfl := Host.Outcome.next.inj (hu.symm.trans hexec)
    refine ⟨_, hexec, hkrovol, hpending, ?_, ?_, rfl⟩
    · show (vmod s.tether.ring q _)[q] = _
      rw [vmod_get_same]
      have hhead : BitVec.ofNat 16 ((r.head.toNat + 1) % r.size) = r.head + 1 := by
        rw [Nat.mod_eq_of_lt hsize]
        exact BitVec.eq_of_toNat_eq (by simp)
      exact congrArg (fun x => ({ r with open' := [], head := x } : HostRing)) hhead
    · rw [State.shep_pcount, State.cq_modCq]
  · have hfails := fun b => State.ringFault_spec (d := d) (g := g) (n := n) (q := q)
      (u := s.modTether fun t => { t with idleSince := (s.pad d).now }) hopen hwords hsame hn b
    have hcomes : ∀ x b, (x, b) ∈ [(RingAnswer.unsupported, AerBit.unsupported), (.abort, .abort), (.poisoned, .poisoned)] →
        ∃ u : State, exec (.hostRingCompletion q g x) s = .next u ∧ u.tether.pciStat = statusAfter t.pciStat t.cfg b ∧
          u.krovol = s.krovol ∧ u.pending = s.pending ∧ (u.tether.ring[q]).fault = true ∧ (u.tether.ring[q]).open' = [] ∧
          u.tether.aerSticky = putBit t.aerSticky b.no true ∧ (s.pad d).Filed (u.pad d) (s.tetherReport d 0x903 b.no) := by
      intro x b hx
      have hexec := exec_hostRingCompletion_failed hup hopen hx
      obtain ⟨u, hu, hkrovol, hpending, -⟩ := commandsKeepParametersQueueAndTime (.hostRingCompletion q g x) s
      obtain rfl := Host.Outcome.next.inj (hu.symm.trans hexec)
      obtain ⟨hstat, hfault, hopened, hsticky, hfiled⟩ := hfails b
      exact ⟨_, hexec, hstat, hkrovol, hpending, hfault, hopened, hsticky, hfiled⟩
    intro faulted
    refine ⟨hcomes .unsupported .unsupported (by simp), hcomes .abort .abort (by simp), hcomes .poisoned .poisoned (by simp),
      fun hoff => ?_, fun hon => ?_⟩
    · exact (exec_completionTimeout hup.1 hopen hn).trans (congrArg _ (if_pos hoff))
    · have hexec := (exec_completionTimeout hup.1 hopen hn).trans (congrArg _ (if_neg (by simpa [t] using hon)))
      obtain ⟨u, hu, hkrovol, hpending, -⟩ := commandsKeepParametersQueueAndTime (.completionTimeout q g) s
      obtain rfl := Host.Outcome.next.inj (hu.symm.trans hexec)
      obtain ⟨hstat, hfault, hopened, hsticky, hfiled⟩ := State.ringFault_spec (d := d) hopen hwords hsame hn .timeout
      exact ⟨_, hexec, hstat, hkrovol, hpending, hfault, hopened, hsticky, hfiled⟩
  · intro e note sent due
    obtain ⟨hdie, hlink, hperst⟩ := hup
    have hcheck := exec_msixVectorDue (q := q) hdie
    have hsend := exec_msixSend (q := q) hdie
    refine ⟨fun hno => hcheck.trans (congrArg _ (if_neg hno)), fun hdue hopen => ?_, fun hdue hbme => ?_, fun hpba hopen => ?_,
      fun hpba => ?_⟩
    · exact hcheck.trans (congrArg _ ((if_pos hdue).trans (if_pos (Tether.msixGo_of_open hlink hperst hopen))))
    · have hgo : (s.modTether fun t => { t with cond := putBit t.cond q.val (s.msixCond d q) }).tether.msixGo q = false :=
        Tether.msixGo_of_masked (.inr hbme)
      refine hcheck.trans (congrArg _ ((if_pos hdue).trans (if_neg ?_)))
      rw [hgo]
      exact Bool.false_ne_true
    · refine hsend.trans (congrArg _ (if_pos ?_))
      have hpba' : bitAt s.tether.pba q.val = true := hpba
      rw [hpba', Tether.msixGo_of_open hlink hperst hopen]
      rfl
    · refine hsend.trans (congrArg _ (if_neg ?_))
      have hpba' : bitAt s.tether.pba q.val = false := hpba
      rw [hpba', Bool.false_and]
      exact Bool.false_ne_true

end Sys2Proof.Machine
end

section
/-!
Inbound memory TLPs and the statement O51 (16 R433 to R438, R449).
-/

namespace Sys2Proof.Machine

/-! ### What becomes of a TLP before a BAR decodes it (16 R433, R434) -/

section
variable {t : Tether} {rom : Bool}

theorem Tether.tlpGate_silent (hup : t.linkUp = true) (hperst : t.perst = false) (h : ¬t.Takes) : t.tlpGate rom = .silent := by
  have hquiet : (t.noTlp || t.flr.isSome) = true := by
    by_cases hno : t.noTlp = true
    · rw [hno, Bool.true_or]
    · have hflr : t.flr ≠ none := fun hflr => h ⟨by simpa using hno, hflr⟩
      rw [Option.isSome_iff_ne_none.mpr hflr, Bool.or_true]
  simp only [Tether.tlpGate, hup, hperst, hquiet, Bool.not_true, Bool.or_self, Bool.false_eq_true, if_false, if_true]

theorem Tether.tlpGate_decodes (hup : t.linkUp = true) (hperst : t.perst = false) (h : t.Decodes) :
    t.tlpGate rom = if rom then .open' else .unsupported := by
  obtain ⟨⟨hno, hflr⟩, hmse, hd3⟩ := h
  cases rom <;>
    simp [Tether.tlpGate, hup, hperst, hno, hflr, hmse, hd3]

end

/-! ### The pieces of a TLP (16 R438) -/

theorem cutLines_one {a n : Nat} (k : Nat) (hn : 1 ≤ n) (hline : a % 64 + n ≤ 64) : cutLines a n (k + 2) = [(a, n)] := by
  have hmin : min n (64 - a % 64) = n := Nat.min_eq_left (by omega)
  simp only [cutLines, hmin, if_neg (show n ≠ 0 by omega), Nat.sub_self, if_true]

theorem readPieces_none (a : Addr) : readPieces a 0 = [] := rfl

theorem readPieces_one {a : Addr} {n : Nat} (hn : 1 ≤ n) (hline : a.toNat % 64 + n ≤ 64) :
    readPieces a n = [{ op := .getOnce, addr := a, len := n }] := by
  rw [readPieces, cutLines_one 64 hn hline]
  simp

theorem writePieces_line {a : Addr} {data : List Byte} (hlen : data.length = 64) (halign : a.toNat % 64 = 0) :
    writePieces a (data.map some) = [{ op := .pushFull, addr := a, len := 0, data := some (lineOfBytes 0 data, false) }] := by
  have hall : (data.map some).all Option.isSome = true := by simp
  have htake : (data.map some).take 64 = data.map some := List.take_of_length_le (by simp [hlen])
  have hdata : (data.map some).filterMap id = data := by simp [List.filterMap_map]
  simp only [writePieces, List.length_map, hlen, cutLines_one 64 (show 1 ≤ 64 by decide) (show a.toNat % 64 + 64 ≤ 64 by omega),
    List.flatMap_cons, List.flatMap_nil, Nat.sub_self, List.drop_zero, htake, hall, hdata, decide_true, Bool.and_self, if_true,
    BitVec.ofNat_toNat, BitVec.setWidth_eq, List.append_nil]

/-- The transaction that opens for a piece. -/
def WaitPiece.txn (w : WaitPiece) (r : Repl) (d : Die) (seq now : Nat) (x : TxId) : Txn :=
  let t : Txn := { stampTxn r { r.request (tetherAgent d) w.req.op w.req.addr w.req.len with txid := x } seq now (.tlp w.id) .normalWB with
    inOrder := !w.relaxed }
  match w.req.data with
  | some (b, q) => { t with data := b, haveData := true, dataPoison := q }
  | none => t

/-- What the transaction of a piece holds. -/
theorem WaitPiece.txn_spec (w : WaitPiece) (r : Repl) (d : Die) (seq now : Nat) (x : TxId) :
    let e := w.txn r d seq now x
    e.flit.op = w.req.op ∧ e.flit.addr = w.req.addr ∧ e.flit.txid = x ∧ e.flit.len = BitVec.ofNat 7 w.req.len ∧
      e.flit.tgt = r.home w.req.addr ∧ e.stamp = now ∧ e.purpose = .tlp w.id ∧ e.inOrder = !w.relaxed ∧
      ∀ b, w.req.data = some (b, false) → e.data = b ∧ e.haveData = true := by
  obtain ⟨id, relaxed, op, addr, len, data⟩ := w
  cases data with
  | none => exact ⟨rfl, rfl, rfl, rfl, rfl, rfl, rfl, rfl, fun b h => absurd h (by simp)⟩
  | some y =>
    refine ⟨rfl, rfl, rfl, rfl, rfl, rfl, rfl, rfl, fun b h => ?_⟩
    obtain rfl : y = (b, false) := Option.some.inj h
    exact ⟨rfl, rfl⟩

section
variable {s : State} {d : Die}

theorem State.openPieces_none (h : s.tether.waiting = []) : s.openPieces d = s := by
  rw [State.openPieces, h]
  rfl

theorem State.openPieces_full {w : WaitPiece} {l : List WaitPiece} (h : s.tether.waiting = w :: l)
    (hfull : 1024 ≤ s.tether.port.txns.length) : s.openPieces d = s := by
  rw [State.openPieces, h, List.length_cons, State.openWaiting]
  simp only [h, hfull, if_true]

/-- The counter of a piece's request. -/
def PieceReq.sel (p : PieceReq) : Nat := if p.op == .getOnce then 0x21 else if p.op == .pushIO then 0x22 else 0x23

/-- A port with a piece's transaction. -/
def ReqPort.opened (p : ReqPort) (t : Txn) : ReqPort := { p with txns := p.txns ++ [t], nextSeq := p.nextSeq + 1 }

theorem ReqPort.openTxn_piece {p : ReqPort} {x : TxId} (hfree : p.freeTxid = some x) (w : WaitPiece) (r : Repl) (now : Nat) :
    p.openTxn r (r.request (tetherAgent d) w.req.op w.req.addr w.req.len) now (.tlp w.id) w.req.data (!w.relaxed) =
      p.opened (w.txn r d p.nextSeq now x) := by
  obtain ⟨id, relaxed, op, addr, len, data⟩ := w
  unfold ReqPort.openTxn
  rw [hfree]
  cases data with
  | none => rfl
  | some b => rfl

/-- The piece that waits alone opens its transaction. -/
theorem State.openPieces_one {w : WaitPiece} {x : TxId} (h : s.tether.waiting = [w]) (hroom : s.tether.port.txns.length < 1024)
    (hfree : s.tether.port.freeTxid = some x)
    (hhome : (s.pad d).repl.absent (s.pad d).conf.unreach d ((s.pad d).repl.home w.req.addr) false = false) :
    s.openPieces d = (s.pcount d w.req.sel 0).modTether fun t => { t with
      waiting := [], port := t.port.opened (w.txn (s.pad d).repl d t.port.nextSeq (s.pad d).now x) } := by
  let u := s.modTether fun t => { t with waiting := [] }
  have hstep : s.openPieces d = u.openPiece d w.id w.relaxed w.req := by
    rw [State.openPieces, h, List.length_cons, List.length_nil, State.openWaiting]
    simp only [h, if_neg (Nat.not_le.mpr hroom), State.openWaiting]
    rfl
  have hopen : u.openPiece d w.id w.relaxed w.req = (u.pcount d w.req.sel 0).modTether fun t => { t with
      port := t.port.openTxn (s.pad d).repl ((s.pad d).repl.request (tetherAgent d) w.req.op w.req.addr w.req.len) (s.pad d).now
        (.tlp w.id) w.req.data (!w.relaxed) } := by
    refine if_neg ?_
    rw [Bool.not_eq_true]
    exact hhome
  rw [hstep, hopen]
  refine congrArg (fun p => ({ s.pcount d w.req.sel 0 with tether := { s.tether with waiting := [], port := p } } : State)) ?_
  exact ReqPort.openTxn_piece hfree w _ _

end

/-! ### A TLP in the aperture (16 R433, R437) -/

section
variable {s : State} {d : Die} {off bytes : Nat} {tag : Option (BitVec 10)} {relaxed : Bool} {cut : Addr → List PieceReq}

theorem State.now_pcount (u : State) (x y : Die) (sel unit : Nat) : ((u.pcount x sel unit).pad y).now = (u.pad y).now :=
  congrArg (fun a => a.tideFx / 2 ^ 24) (((State.Frame.refl (fun q => q.aon) u).modPad x (fun q => { q with census := padCount sel unit 16 q.census })
    fun _ => rfl).pads y)

theorem State.answerUr_pcount (u : State) (d x : Die) (sel unit : Nat) (tag : Option (BitVec 10)) :
    (u.pcount x sel unit).answerUr d tag = (u.answerUr d tag).pcount x sel unit := by
  cases tag with
  | none => rfl
  | some g =>
    simp only [State.answerUr, State.toHost, State.now_pcount]
    rfl

/-- An open gate before an offset that no BAR decodes. -/
theorem State.peerTlp_beyond (hup : s.TetherUp d) (hdec : s.tether.Decodes) (hbeyond : 2 ^ s.tether.aperLog2.toNat ≤ off) :
    s.peerTlp off bytes tag relaxed cut = (s.answerUr d tag).aer d .unsupported := by
  obtain ⟨hdie, hlink, hperst⟩ := hup
  simp only [State.peerTlp, hdie, Tether.tlpGate_decodes hlink hperst hdec, if_true, hbeyond]

theorem State.peerTlp_silent (hup : s.TetherUp d) (h : ¬s.tether.Takes) : s.peerTlp off bytes tag relaxed cut = s.answerUr d tag := by
  obtain ⟨hdie, hlink, hperst⟩ := hup
  simp only [State.peerTlp, hdie, Tether.tlpGate_silent hlink hperst h]

theorem State.peerTlp_outside (hup : s.TetherUp d) (hdec : s.tether.Decodes) (hlow : off < 2 ^ s.tether.aperLog2.toNat)
    (hwin : s.tether.window off bytes = none) : s.peerTlp off bytes tag relaxed cut =
      ((((s.answerUr d tag).pcount d 0x20 0).aerLog .unsupported).modTether fun t => { t with inbOut := t.inbOut + 1 }).tetherRep
        d 0x904 none AerBit.unsupported.no := by
  obtain ⟨hdie, hlink, hperst⟩ := hup
  simp only [State.peerTlp, hdie, Tether.tlpGate_decodes hlink hperst hdec, if_true, if_neg (Nat.not_le.mpr hlow), hwin,
    State.answerUr_pcount]

theorem State.pad_answerUr (u : State) (d x : Die) (tag : Option (BitVec 10)) : (u.answerUr d tag).pad x = u.pad x := by
  cases tag <;> rfl

/-- The report of an access outside every window. -/
theorem State.outside_pad (u : State) (d : Die) (tag : Option (BitVec 10)) :
    let v := (((u.answerUr d tag).pcount d 0x20 0).aerLog .unsupported).modTether fun t => { t with inbOut := t.inbOut + 1 }
    let w := v.modPad d fun q => q.receive (v.tetherReport d 0x904 20)
    (u.pad d).Filed (w.pad d) (u.tetherReport d 0x904 20) ∧ (w.pad d).stream = (u.pad d).stream := by
  intro v w
  have hv : v.pad d = { u.pad d with census := padCount 0x20 0 16 (u.pad d).census } := by
    rw [← State.pad_answerUr u d d tag]
    exact State.pad_pcount_same (u.answerUr d tag) d _ _
  have hnow : (v.pad d).now = (u.pad d).now :=
    (State.now_pcount (u.answerUr d tag) d d 0x20 0).trans (congrArg Paddock.now (State.pad_answerUr u d d tag))
  have hw : w.pad d = (v.pad d).receive (u.tetherReport d 0x904 20) := by
    refine (State.pad_modPad_same ..).trans ?_
    simp only [State.tetherReport, hnow]
  rw [hw, hv]
  exact ⟨rfl, rfl⟩

/-- The Tether with one piece of a TLP waiting. -/
def Tether.piece (t : Tether) (now : Nat) (tag : Option (BitVec 10)) (relaxed : Bool) (p : PieceReq) : Tether :=
  { t with
    nextTlp := t.nextTlp + 1, idleSince := now, lpm := 0
    waiting := t.waiting ++ [{ id := t.nextTlp, relaxed := relaxed, req := p }]
    tlps := match tag with
      | some g => t.tlps ++ [{ id := t.nextTlp, tag := g, pieces := [{ addr := p.addr, len := p.len }] }]
      | none => t.tlps }

/-- A TLP of one piece, in a window. -/
theorem State.peerTlp_one (hup : s.TetherUp d) (hdec : s.tether.Decodes) (hlow : off < 2 ^ s.tether.aperLog2.toNat) {a : Addr}
    (hwin : s.tether.window off bytes = some a) {p : PieceReq} (hcut : cut a = [p]) : s.peerTlp off bytes tag relaxed cut =
      ((s.pcount d 0x20 0).modTether fun t => t.piece (s.pad d).now tag relaxed p).openPieces d := by
  obtain ⟨hdie, hlink, hperst⟩ := hup
  simp only [State.peerTlp, hdie, Tether.tlpGate_decodes hlink hperst hdec, if_true, if_neg (Nat.not_le.mpr hlow), hwin, hcut,
    List.isEmpty_cons, Bool.and_false, Bool.false_eq_true, if_false, List.map_cons, List.map_nil, Tether.piece]
  rfl

/-- The piece of a TLP opens its transaction where nothing waited before it. -/
theorem State.piece_opens {p : PieceReq} {x : TxId} (hwait : s.tether.waiting = []) (hroom : s.tether.port.txns.length < 1024)
    (hfree : s.tether.port.freeTxid = some x)
    (hhome : (s.pad d).repl.absent (s.pad d).conf.unreach d ((s.pad d).repl.home p.addr) false = false) :
    ∃ sel, ((s.pcount d 0x20 0).modTether fun t => t.piece (s.pad d).now tag relaxed p).openPieces d =
      ((s.pcount d 0x20 0).pcount d sel 0).modTether fun t => { t.piece (s.pad d).now tag relaxed p with
        waiting := []
        port := t.port.opened (({ id := t.nextTlp, relaxed := relaxed, req := p } : WaitPiece).txn (s.pad d).repl d t.port.nextSeq
          (s.pad d).now x) } := by
  let v := (s.pcount d 0x20 0).modTether fun t => t.piece (s.pad d).now tag relaxed p
  have hv : v.pad d = { s.pad d with census := padCount 0x20 0 16 (s.pad d).census } := State.pad_pcount_same s d _ _
  have hw : v.tether.waiting = [{ id := s.tether.nextTlp, relaxed := relaxed, req := p }] := by
    show s.tether.waiting ++ _ = _
    rw [hwait, List.nil_append]
    rfl
  have hopens := State.openPieces_one (s := v) (d := d) (x := x) hw hroom hfree (by rw [hv]; exact hhome)
  have hnow : (v.pad d).now = (s.pad d).now := State.now_pcount s d d 0x20 0
  have hrepl : (v.pad d).repl = (s.pad d).repl := by rw [hv]
  rw [hrepl, hnow] at hopens
  exact ⟨_, hopens⟩

/-- A read of no byte, in a window. -/
theorem State.peerTlp_empty (hup : s.TetherUp d) (hdec : s.tether.Decodes) (hlow : off < 2 ^ s.tether.aperLog2.toNat) {a : Addr}
    (hwin : s.tether.window off bytes = some a) {g : BitVec 10} (hcut : cut a = []) (hwait : s.tether.waiting = []) :
    s.peerTlp off bytes (some g) relaxed cut = ((s.emptyRead d (some g)).pcount d 0x20 0).modTether fun t => { t with
      nextTlp := t.nextTlp + 1, idleSince := (s.pad d).now, lpm := 0 } := by
  obtain ⟨hdie, hlink, hperst⟩ := hup
  simp only [State.peerTlp, hdie, Tether.tlpGate_decodes hlink hperst hdec, if_true, if_neg (Nat.not_le.mpr hlow), hwin, hcut,
    List.isEmpty_nil, Option.isSome_some, Bool.and_self, List.map_nil]
  refine (State.openPieces_none ?_).trans ?_
  · show s.tether.waiting ++ [] = []
    rw [hwait, List.append_nil]
  · simp only [List.append_nil]
    rfl

end

/-- Settles O51. -/
theorem memoryTlpsBecomeRequests : Obligations.MemoryTlpsBecomeRequests := by
  unfold Obligations.MemoryTlpsBecomeRequests
  intro s d off hup t
  refine ⟨fun bytes tag hspan => ?_, fun data relaxed hlong htakes => ?_, fun data relaxed a x hline halign hdec hlow hwait hwin hin hroom hfree hhome => ?_⟩
  · have hexec : exec (.memoryReadTlp off bytes tag) s = .next (s.peerTlp off.toNat bytes.toNat (some tag) false fun a => readPieces a bytes.toNat) :=
      congrArg Host.Outcome.next (if_pos hspan)
    obtain ⟨u, hu, hkrovol, hpending, -⟩ := commandsKeepParametersQueueAndTime (.memoryReadTlp off bytes tag) s
    refine ⟨?_, fun hdec hbeyond => ?_, fun hdec hlow hwin => ?_, fun a hdec hlow hwin hzero hwait => ?_,
      fun a hdec hlow hwin hn hline hend hfull => ?_, fun a x hdec hlow hwin hn hline hend hwait hroom hfree hhome => ?_⟩
    · by_cases h : s.tether.Takes
      · exact .inl h
      · exact .inr (hexec.trans (congrArg _ (State.peerTlp_silent hup h)))
    · have hnext := hexec.trans (congrArg _ ((State.peerTlp_beyond hup hdec hbeyond).trans (State.aer_eq _ d _)))
      obtain rfl := Host.Outcome.next.inj (hu.symm.trans hnext)
      refine ⟨_, hnext, hkrovol, hpending, rfl, ?_, ?_⟩ <;>
      · rw [State.pad_modPad_same]
        rfl
    · have hnext := hexec.trans (congrArg _ ((State.peerTlp_outside hup hdec hlow hwin).trans (State.tetherRep_eq _ d _ _)))
      obtain rfl := Host.Outcome.next.inj (hu.symm.trans hnext)
      obtain ⟨hfiled, hstream⟩ := State.outside_pad s d (some tag)
      exact ⟨_, hnext, hkrovol, hpending, rfl, hfiled, hstream⟩
    · have hcut : readPieces a bytes.toNat = [] := by rw [hzero]; rfl
      have hnext := hexec.trans (congrArg _ (State.peerTlp_empty hup hdec hlow hwin hcut hwait))
      obtain rfl := Host.Outcome.next.inj (hu.symm.trans hnext)
      exact ⟨_, _, hnext, hkrovol, hpending, by simp, rfl, rfl, rfl⟩
    · have hone := State.peerTlp_one (tag := some tag) (relaxed := false) (cut := fun a => readPieces a bytes.toNat) hup hdec hlow hwin (readPieces_one hn hline)
      have hwaits : ∃ w l, ((s.pcount d 0x20 0).modTether fun t => t.piece (s.pad d).now (some tag) false
          { op := .getOnce, addr := a, len := bytes.toNat }).tether.waiting = w :: l := by
        cases hl : s.tether.waiting with
        | nil => exact ⟨_, _, congrArg (· ++ _) hl⟩
        | cons w l => exact ⟨w, _, congrArg (· ++ _) hl⟩
      obtain ⟨w, l, hw⟩ := hwaits
      have hnext := hexec.trans (congrArg _ (hone.trans (State.openPieces_full hw hfull)))
      obtain rfl := Host.Outcome.next.inj (hu.symm.trans hnext)
      exact ⟨_, hnext, hkrovol, hpending, rfl⟩
    · have hone := State.peerTlp_one (tag := some tag) (relaxed := false) (cut := fun a => readPieces a bytes.toNat) hup hdec hlow hwin
        (readPieces_one hn hline)
      obtain ⟨sel, hopens⟩ := State.piece_opens (tag := some tag) (relaxed := false)
        (p := { op := .getOnce, addr := a, len := bytes.toNat }) hwait hroom hfree hhome
      have hnext := hexec.trans (congrArg _ (hone.trans hopens))
      obtain rfl := Host.Outcome.next.inj (hu.symm.trans hnext)
      obtain ⟨hop, haddr, htxid, hlen, htgt, hstamp, hpurpose, -, -⟩ := WaitPiece.txn_spec
        ({ id := s.tether.nextTlp, relaxed := false, req := { op := .getOnce, addr := a, len := bytes.toNat } } : WaitPiece)
        (s.pad d).repl d s.tether.port.nextSeq (s.pad d).now x
      refine ⟨_, _, hnext, hkrovol, hpending, rfl, hop, haddr, htxid, ?_, htgt, hstamp, hpurpose, rfl, rfl, rfl⟩
      refine (congrArg BitVec.toNat hlen).trans ?_
      rw [BitVec.toNat_ofNat]
      exact Nat.mod_eq_of_lt (show bytes.toNat < 2 ^ 7 by omega)
  · have hlong' : decide (data.length ≤ s.tether.maxPayload) = false := decide_eq_false (Nat.not_le.mpr hlong)
    have hnext : exec (.memoryWriteTlp off data relaxed) s = .next _ := congrArg Host.Outcome.next
      ((if_neg (by simp [hlong'])).trans ((State.badTlp_of_open hup htakes).trans (State.aer_eq s d .malformed)))
    refine ⟨_, hnext, rfl, ?_, ?_⟩ <;>
    · rw [State.pad_modPad_same]
      rfl
  · have hlen : (data.map some).length = 64 := by simp [hline]
    have hspan : (tlpSpan off.toNat (data.map some).length && decide ((data.map some).length ≤ s.tether.maxPayload)) = true := by
      have hspan : tlpSpan off.toNat 64 = true := decide_eq_true (by omega)
      have hmax : 64 ≤ s.tether.maxPayload := Nat.le_trans (by decide : 64 ≤ 128 * 1) (Nat.mul_le_mul_left 128 (Nat.one_le_two_pow))
      rw [hlen, hspan, decide_eq_true hmax, Bool.and_self]
    have hone := State.peerTlp_one (tag := none) (relaxed := relaxed) (bytes := (data.map some).length)
      (cut := fun a => writePieces a (data.map some)) hup hdec hlow (by rw [hlen]; exact hwin) (writePieces_line hline hin)
    obtain ⟨sel, hopens⟩ := State.piece_opens (tag := none) (relaxed := relaxed)
      (p := { op := .pushFull, addr := a, len := 0, data := some (lineOfBytes 0 data, false) }) hwait hroom hfree hhome
    have hnext : exec (.memoryWriteTlp off (data.map some) relaxed) s = .next _ :=
      congrArg Host.Outcome.next ((if_pos hspan).trans (hone.trans hopens))
    obtain ⟨u, hu, hkrovol, hpending, -⟩ := commandsKeepParametersQueueAndTime (.memoryWriteTlp off (data.map some) relaxed) s
    obtain rfl := Host.Outcome.next.inj (hu.symm.trans hnext)
    obtain ⟨hop, haddr, htxid, -, -, -, -, horder, hdata⟩ := WaitPiece.txn_spec
      ({ id := s.tether.nextTlp, relaxed := relaxed
         req := { op := .pushFull, addr := a, len := 0, data := some (lineOfBytes 0 data, false) } } : WaitPiece)
      (s.pad d).repl d s.tether.port.nextSeq (s.pad d).now x
    obtain ⟨hline, hhave⟩ := hdata _ rfl
    exact ⟨_, _, hnext, hkrovol, hpending, rfl, hop, haddr, htxid, hline, hhave, horder, rfl, rfl⟩

end Sys2Proof.Machine
end

section
/-!
BAR0, the H4 alias, the Charter and configuration requests, and the statement O52 (16 R431, R433, R435, R436, 18 R479).
-/

namespace Sys2Proof.Machine

/-! ### Where an access goes, by the parts of a paddock that it reads (18 R474) -/

/-- The parts of a paddock that say where an access goes and whether it is answered. -/
def Paddock.accessView (q : Paddock) : Repl × Conf × Boot × Ebb × Shep := (q.repl, q.conf, q.boot, q.ebb, q.shep)

section
variable {s t : State} (hk : t.krovol = s.krovol) (h : ∀ x, (t.pad x).accessView = (s.pad x).accessView)
include hk h

theorem State.target_congr (via : Die) (a : RegAddr) : t.target via a = s.target via a := by
  simp only [Paddock.accessView, Prod.mk.injEq] at h
  unfold State.target
  simp only [State.portReaches, State.queueDie, State.inRange, State.reaches, State.member, State.leader, h, hk] <;> rfl

theorem State.denies_congr (w : Who) (a : RegAddr) (g : Target) (write : Bool) : t.denies w a g write = s.denies w a g write := by
  simp only [Paddock.accessView, Prod.mk.injEq] at h
  simp only [State.denies, h, hk]

omit hk in
theorem State.asleep_congr (w : Who) (g : Target) : t.asleep w g = s.asleep w g := by
  simp only [Paddock.accessView, Prod.mk.injEq] at h
  simp only [State.asleep, Paddock.domUp, Paddock.domOn, h] <;> rfl

end

section
variable {s : State} {d : Die}

theorem State.accessView_pcount (u : State) (x y : Die) (sel unit : Nat) :
    ((u.pcount x sel unit).pad y).accessView = (u.pad y).accessView :=
  ((State.Frame.refl Paddock.accessView u).pcount (fun _ _ => rfl) x sel unit).pads y

/-! ### Register accesses of a BAR0 TLP (18 R478, R479) -/

/-- A TLP that BAR0 takes. -/
def State.barTaken (s : State) (d : Die) : State :=
  (s.pcount d 0x20 0).modTether fun t => { t with idleSince := (s.pad d).now, lpm := 0 }

theorem State.barTlp_open (hup : s.TetherUp d) (hdec : s.tether.Decodes) (g : BitVec 10) :
    s.barTlp (some g) .abort = ((s.barTaken d).abortTlp d g).aer d .abort ∧
    (∀ n, s.barTlp (some g) (.zeros n) =
      (s.barTaken d).toHost d (.complD g ((List.range n).flatMap fun _ => wordBytes 0) false)) ∧
    (s.tether.bar0 = none → s.tether.barWait = [] → ∀ l, s.barTlp (some g) (.regs l) =
      ((s.barTaken d).modTether fun t => { t with bar0 := some { read := some g, todo := l } }).barRun d 4) := by
  obtain ⟨hdie, hlink, hperst⟩ := hup
  refine ⟨?_, fun n => ?_, fun hbar hwait l => ?_⟩
  · simp only [State.barTlp, hdie, Tether.tlpGate_decodes hlink hperst hdec, if_true]
    rfl
  · simp only [State.barTlp, hdie, Tether.tlpGate_decodes hlink hperst hdec, if_true]
    rfl
  · simp only [State.barTlp, hdie, Tether.tlpGate_decodes hlink hperst hdec, if_true]
    have hbar' : (s.barTaken d).tether.bar0.isSome = false := by
      show s.tether.bar0.isSome = false
      rw [hbar]
      rfl
    refine (if_neg (Bool.eq_false_iff.mp hbar')).trans ?_
    have hfuel : 4 + 3 * s.tether.barWait.length = 4 := by rw [hwait]; rfl
    exact congrArg (State.barRun _ d) hfuel

/-- One register is read and the TLP answered. -/
theorem State.barRun_read {v w : State} {g : BitVec 10} {a : RegAddr} {resp : BitVec 2} {data : Word}
    (hbar : v.tether.bar0 = some { read := some g, todo := [(a, none)] }) (hwait : v.tether.barWait = [])
    (hacc : v.access (hostWho d 15) a none = (w, .done resp data)) (hkeep : w.tether = v.tether) :
    v.barRun d 4 =
      (let u := w.modTether fun t => { t with bar0 := none, barWait := [] }
       if resp == 2 then (u.abortTlp d g).aer d .abort else u.toHost d (.complD g (wordBytes data) false)) := by
  have hstep : v.barRun d 4 = (w.modTether fun t => { t with
      bar0 := some { read := some g, todo := [], got := [data], denied := resp == 2, held := false } }).barRun d 3 := by
    rw [State.barRun]
    simp only [hbar, Bool.false_eq_true, if_false, Option.map_none, hacc]
    refine congrArg (fun x : State => x.barRun d 3) (State.modTether_congr ?_)
    rw [hkeep, hbar]
    rfl
  have hend : (w.modTether fun t => { t with
      bar0 := some { read := some g, todo := [], got := [data], denied := resp == 2, held := false } }).barRun d 3 =
        (w.modTether fun t => { t with
          bar0 := some { read := some g, todo := [], got := [data], denied := resp == 2, held := false } }).barEnd d
            { read := some g, todo := [], got := [data], denied := resp == 2, held := false } := by
    rw [State.barRun]
    rfl
  have hnone : ((w.modTether fun t => { t with
      bar0 := some { read := some g, todo := [], got := [data], denied := resp == 2, held := false } }).modTether fun t =>
        { t with bar0 := t.barWait.head?, barWait := t.barWait.tail }) = w.modTether fun t => { t with bar0 := none, barWait := [] } := by
    have hwait' : w.tether.barWait = [] := hkeep ▸ hwait
    simp only [State.modTether, hwait', List.head?_nil, List.tail_nil]
  rw [hstep, hend, State.barEnd, hnone]
  simp only [List.flatMap_cons, List.flatMap_nil, List.append_nil]

/-- The state in which BAR0 reads one register. -/
def State.barReads (s : State) (d : Die) (g : BitVec 10) (a : RegAddr) : State :=
  (s.barTaken d).modTether fun t => { t with bar0 := some { read := some g, todo := [(a, none)] } }

theorem State.barReads_view (g : BitVec 10) (a : RegAddr) (x : Die) :
    ((s.barReads d g a).pad x).accessView = (s.pad x).accessView := State.accessView_pcount s d x 0x20 0

/-- A read of a register that every tag may read, present and awake. -/
theorem State.barReads_okay {g : BitVec 10} {a : RegAddr} {off : Nat} (htarget : s.target d a = ⟨.repl, off, d, false⟩)
    (halign : a.toNat % 4 = 0) (hasleep : s.asleep (hostWho d 15) ⟨.repl, off, d, false⟩ = none)
    (hlaid : s.krovol.laid .repl off = true) (hoff : off ≠ 0x3000)
    (hpermits : (s.pad d).repl.permits (Block.repl.priv off) false 2 = true) :
    (s.barReads d g a).access (hostWho d 15) a none = (s.barReads d g a, .done respOkay ((s.barReads d g a).replRead d off)) := by
  have hview := State.barReads_view (s := s) (d := d) g a
  have hk : (s.barReads d g a).krovol = s.krovol := rfl
  have hallowed : s.denies (hostWho d 15) a ⟨.repl, off, d, false⟩ false = false := by
    rw [Bool.eq_false_iff, ne_eq, State.denies_iff]
    rintro (⟨h, -⟩ | h | ⟨-, h⟩)
    · exact absurd h Bool.false_ne_true
    · exact h halign
    · exact Bool.false_ne_true (h.symm.trans hpermits)
  have hlaid' : (s.barReads d g a).krovol.laid .repl off = true := hlaid
  have hvia : (hostWho d 15).via = d := rfl
  simp only [State.access, hvia, State.target_congr hk hview, htarget, State.denies_congr hk hview, Option.isSome_none, hallowed,
    Bool.false_eq_true, if_false, State.asleep_congr hview, hasleep, State.perform, hlaid', if_true]
  simp only [State.regRead, if_neg hoff]

/-- A read that its register's permissions refuse. -/
theorem State.barReads_denied {g : BitVec 10} {a : RegAddr} {r : Target} (htarget : s.target d a = r) (hsrv : r.srv = d)
    (hlaid : s.krovol.laid r.block r.off = true) (hpermits : (s.pad r.srv).repl.permits (r.block.priv r.off) false 2 = false) :
    (s.barReads d g a).access (hostWho d 15) a none =
      ((s.barReads d g a).modPad d fun q => { q with common := q.common.deny (hostWho d 15) a false }, .done respDenied 0) := by
  have hview := State.barReads_view (s := s) (d := d) g a
  have hk : (s.barReads d g a).krovol = s.krovol := rfl
  have hrefused : s.denies (hostWho d 15) a r false = true :=
    (State.denies_iff ..).mpr (.inr (.inr ⟨hlaid, hpermits⟩))
  have hvia : (hostWho d 15).via = d := rfl
  simp only [State.access, hvia, State.target_congr hk hview, htarget, State.denies_congr hk hview, Option.isSome_none, hrefused,
    if_true, hsrv]

end

/-! ### Configuration space (16 R431, R449) -/

theorem Tether.cfgRead_identity (t : Tether) (k : Krovol) : t.cfgRead k 0 = k.device ++ k.vendor := by
  have hones : (0xFFFFFFFF : Word) = BitVec.allOnes 32 := rfl
  simp only [Tether.cfgRead, Tether.cfgKnown, hones, BitVec.and_allOnes, BitVec.not_allOnes, BitVec.and_zero, BitVec.or_zero]

theorem strobeMask_all : strobeMask 15 = BitVec.allOnes 32 := by decide

theorem State.cfgWrite_bar0 (s : State) (d : Die) (v : Word) (hbar : s.tether.bar[0] = 0) :
    s.cfgWrite d 0x10 v 15 = s.modTether fun t => { t with bar := vset t.bar 0 (((0 : Word) ++ v) >>> 26 <<< 26) } := by
  unfold State.cfgWrite
  simp only [strobeMask_all, BitVec.and_allOnes, BitVec.not_allOnes, BitVec.and_zero, BitVec.or_zero]
  refine congrArg (fun b => ({ s with tether := { s.tether with bar := b } } : State)) ?_
  refine vmod_congr (v := s.tether.bar) (i := 0) (f := fun b => barPut b false v 26)
    (g := fun _ => ((0 : Word) ++ v) >>> 26 <<< 26) ?_
  have hbar' : s.tether.bar[(0 : Fin 3)] = 0 := hbar
  rw [hbar']
  rfl

section
variable {s : State} {d : Die} {tag : BitVec 10}

theorem exec_bar0Access_read {off : BitVec 26} {dws : BitVec 10} (be : BitVec 8)
    (hspan : tlpSpan (off.toNat / 4 * 4) (dwCount dws * 4) = true) :
    exec (.bar0Access off dws none be tag) s = .next (s.barTlp (some tag) (barTodo off (dwCount dws) none be)) := by
  refine congrArg Host.Outcome.next (if_pos ?_)
  rw [hspan]
  rfl

/-- The state once the one BAR0 read in progress is over. -/
def State.barOver (u : State) : State := u.modTether fun t => { t with bar0 := none, barWait := [] }

theorem exec_bar0Access_okay {g : BitVec 10} {off : BitVec 26} {a : RegAddr} {o : Nat} {v : Word} (be : BitVec 8) (hup : s.TetherUp d)
    (hdec : s.tether.Decodes) (hbar : s.tether.bar0 = none) (hwait : s.tether.barWait = [])
    (hspan : tlpSpan (off.toNat / 4 * 4) 4 = true) (ha : a = BitVec.ofNat 26 (off.toNat / 4 * 4)) (halign : a.toNat % 4 = 0)
    (htarget : s.target d a = ⟨.repl, o, d, false⟩) (hasleep : s.asleep (hostWho d 15) ⟨.repl, o, d, false⟩ = none)
    (hlaid : s.krovol.laid .repl o = true) (hoff : o ≠ 0x3000) (hpermits : (s.pad d).repl.permits (Block.repl.priv o) false 2 = true)
    (hv : (s.barReads d g a).replRead d o = v) :
    exec (.bar0Access off 1 none be g) s = .next ((s.barReads d g a).barOver.toHost d (.complD g (wordBytes v) false)) := by
  refine (exec_bar0Access_read be hspan).trans (congrArg _ ?_)
  have htodo : barTodo off (dwCount 1) none be = .regs [(a, none)] := by rw [ha]; rfl
  rw [htodo, (State.barTlp_open hup hdec g).2.2 hbar hwait]
  refine (State.barRun_read (v := s.barReads d g a) rfl hwait (State.barReads_okay htarget halign hasleep hlaid hoff hpermits) rfl).trans ?_
  rw [hv]
  rfl

theorem exec_bar0Access_denied {g : BitVec 10} {off : BitVec 26} {a : RegAddr} {r : Target} (be : BitVec 8) (hup : s.TetherUp d)
    (hdec : s.tether.Decodes) (hbar : s.tether.bar0 = none) (hwait : s.tether.barWait = [])
    (hspan : tlpSpan (off.toNat / 4 * 4) 4 = true) (ha : a = BitVec.ofNat 26 (off.toNat / 4 * 4)) (htarget : s.target d a = r)
    (hsrv : r.srv = d) (hlaid : s.krovol.laid r.block r.off = true)
    (hpermits : (s.pad r.srv).repl.permits (r.block.priv r.off) false 2 = false) :
    exec (.bar0Access off 1 none be g) s = .next (((((s.barReads d g a).modPad d fun q =>
      { q with common := q.common.deny (hostWho d 15) a false }).barOver).abortTlp d g).aer d .abort) := by
  refine (exec_bar0Access_read be hspan).trans (congrArg _ ?_)
  have htodo : barTodo off (dwCount 1) none be = .regs [(a, none)] := by rw [ha]; rfl
  rw [htodo, (State.barTlp_open hup hdec g).2.2 hbar hwait]
  exact State.barRun_read (v := s.barReads d g a) rfl hwait (State.barReads_denied htarget hsrv hlaid hpermits) rfl

/-- What Completer Abort leaves: AER's and the header's bits, and a report. -/
theorem State.aborts_spec (v : State) (d : Die) (g : BitVec 10) :
    let w := (v.abortTlp d g).aer d .abort
    w.tether.out = v.tether.out ++ [.complCA g] ∧ w.tether.pciStat = putBit v.tether.pciStat 11 true ∧
      w.tether.bar0 = v.tether.bar0 ∧ w.tether.barWait = v.tether.barWait ∧ (w.pad d).common = (v.pad d).common ∧
      (v.pad d).Filed (w.pad d) (v.tetherReport d 0x903 15) := by
  intro w
  have hw : w = _ := State.aer_eq (v.abortTlp d g) d .abort
  rw [hw, State.pad_modPad_same]
  exact ⟨rfl, rfl, rfl, rfl, rfl, rfl⟩

theorem State.pad_barTaken (s : State) (d : Die) :
    (s.barTaken d).pad d = { s.pad d with census := padCount 0x20 0 16 (s.pad d).census } := State.pad_pcount_same s d _ _

/-- What is filed about an aborted TLP of a paddock whose Bell and time are those of `s`. -/
theorem State.aborts_filed {v : State} {g : BitVec 10} (hbell : (v.pad d).bell = (s.pad d).bell) (hnow : (v.pad d).now = (s.pad d).now) :
    (s.pad d).Filed (((v.abortTlp d g).aer d .abort).pad d) (s.tetherReport d 0x903 15) := by
  have hfiled := (State.aborts_spec v d g).2.2.2.2.2
  simp only [Paddock.Filed, State.tetherReport, hbell, hnow] at hfiled ⊢
  exact hfiled

end

/-- Settles O52. -/
theorem registerTlpsAreAnswered : Obligations.RegisterTlpsAreAnswered := by
  unfold Obligations.RegisterTlpsAreAnswered
  intro s d tag hup t host base
  refine ⟨fun hdec hbar hwait => ⟨fun be htarget hasleep hpermits => ?_, fun off be hspan => ?_, fun off dws be hspan hlong => ?_,
    fun off x => ⟨fun hnone hdws hread => ?_, fun a hsome hspan hspan' => ?_⟩⟩, fun off dws hspan hdec => ⟨fun hrom => ?_, fun hrom => ?_⟩,
    fun h off wr => ?_, fun h => ⟨?_, fun v hbar => ?_⟩⟩
  · have hexec := exec_bar0Access_okay (v := 0x01080B00) be hup hdec hbar hwait (g := tag) (off := 0) (by decide) rfl (by decide) htarget
      hasleep rfl (by decide) hpermits rfl
    obtain ⟨u, hu, hkrovol, hpending, -⟩ := commandsKeepParametersQueueAndTime (.bar0Access 0 1 none be tag) s
    obtain rfl := Host.Outcome.next.inj (hu.symm.trans hexec)
    refine ⟨_, hexec, ⟨hkrovol, hpending, rfl, rfl⟩, rfl, ?_⟩
    show ((s.barTaken d).pad d).bell = (s.pad d).bell
    rw [State.pad_barTaken]
  · intro a g hpresent hasleep hlaid hpermits hsrv
    have hexec := exec_bar0Access_denied be hup hdec hbar hwait (g := tag) hspan rfl rfl hsrv hlaid hpermits
    obtain ⟨u, hu, hkrovol, hpending, -⟩ := commandsKeepParametersQueueAndTime (.bar0Access off 1 none be tag) s
    obtain rfl := Host.Outcome.next.inj (hu.symm.trans hexec)
    let v := ((s.barReads d tag a).modPad d fun q => { q with common := q.common.deny (hostWho d 15) a false }).barOver
    have hv : v.pad d = { s.pad d with
        census := padCount 0x20 0 16 (s.pad d).census, common := (s.pad d).common.deny (hostWho d 15) a false } := by
      refine (State.pad_modPad_same ..).trans ?_
      have hpad : (s.barReads d tag a).pad d = _ := State.pad_barTaken s d
      rw [hpad]
    obtain ⟨hout, hstat, hbar0, hbarWait, hcommon, -⟩ := State.aborts_spec v d tag
    refine ⟨_, hexec, ⟨hkrovol, hpending, hbar0, hbarWait⟩, hout, hstat, ?_, State.aborts_filed ?_ ?_⟩
    · rw [hcommon, hv]
      rfl
    · rw [hv]
    · rw [hv]
      simp only [Paddock.now]
  · have habort : barTodo off (dwCount dws) none be = .abort := by
      have hone : dwCount dws ≠ 1 := by omega
      have htwo : (decide (dwCount dws = 2) && (BitVec.ofNat 26 (off.toNat / 4 * 4)).toNat % 8 == 0) = false := by
        have hoff : (BitVec.ofNat 26 (off.toNat / 4 * 4)).toNat = off.toNat / 4 * 4 := by
          rw [BitVec.toNat_ofNat]
          omega
        rw [hoff]
        rcases hlong with h | ⟨-, h⟩
        · simp; omega
        · simp [h]
      simp only [barTodo, if_neg hone, htwo, Bool.false_eq_true, if_false]
    have hexec := (exec_bar0Access_read (tag := tag) (off := off) (dws := dws) be hspan).trans
      (congrArg _ ((congrArg (s.barTlp (some tag)) habort).trans (State.barTlp_open hup hdec tag).1))
    obtain ⟨u, hu, hkrovol, hpending, -⟩ := commandsKeepParametersQueueAndTime (.bar0Access off dws none be tag) s
    obtain rfl := Host.Outcome.next.inj (hu.symm.trans hexec)
    have hv := State.pad_barTaken s d
    obtain ⟨hout, hstat, hbar0, hbarWait, -, -⟩ := State.aborts_spec (s.barTaken d) d tag
    refine ⟨_, hexec, ⟨hkrovol, hpending, hbar0.trans hbar, hbarWait.trans hwait⟩, hout, hstat, State.aborts_filed ?_ ?_⟩
    · rw [hv]
    · rw [hv]
      simp only [Paddock.now]
  · have hdo : s.h4Do d off x = .zeros 1 := by
      simp only [State.h4Do, hnone, hdws, hread]
      rfl
    have hspan : tlpSpan (off.toNat / 4 * 4) (dwCount x.dws * 4) = true := by
      rw [hdws]
      exact decide_eq_true (by show off.toNat / 4 * 4 % 4096 + 1 * 4 ≤ 4096; omega)
    have hexec : exec (.h4AliasAccess off x tag) s =
        .next ((s.barTaken d).toHost d (.complD tag ((List.range 1).flatMap fun _ => wordBytes 0) false)) := by
      refine congrArg Host.Outcome.next ((if_pos (by rw [hspan, hread]; rfl)).trans ?_)
      simp only [hup.1, hdo, hread]
      exact (State.barTlp_open hup hdec tag).2.1 1
    obtain ⟨u, hu, hkrovol, hpending, -⟩ := commandsKeepParametersQueueAndTime (.h4AliasAccess off x tag) s
    obtain rfl := Host.Outcome.next.inj (hu.symm.trans hexec)
    exact ⟨_, hexec, ⟨hkrovol, hpending, hbar, hwait⟩, rfl⟩
  · have hdo : s.h4Do d off x = barTodo a (dwCount x.dws) x.write x.be := by simp only [State.h4Do, hsome]
    refine congrArg Host.Outcome.next ?_
    simp only [hspan, hspan', hup.1, hdo]
  · refine congrArg Host.Outcome.next ((if_pos hspan).trans ?_)
    obtain ⟨hdie, hlink, hperst⟩ := hup
    have hrom' : s.tether.romEn = true := hrom
    simp only [State.charterTlp, hdie, hrom', Tether.tlpGate_decodes hlink hperst hdec, if_true]
    rfl
  · have hexec : exec (.charterRead off dws tag) s = .next ((s.answerUr d (some tag)).aer d .unsupported) := by
      refine congrArg Host.Outcome.next ((if_pos hspan).trans ?_)
      obtain ⟨hdie, hlink, hperst⟩ := hup
      have hrom' : s.tether.romEn = false := hrom
      simp only [State.charterTlp, hdie, hrom', Tether.tlpGate_decodes hlink hperst hdec, Bool.false_eq_true, if_false]
    refine ⟨_, hexec.trans (congrArg _ (State.aer_eq _ d _)), rfl, ?_⟩
    rw [State.pad_modPad_same]
    rfl
  · obtain ⟨hdie, hlink, hperst⟩ := hup
    have hquiet : (s.tether.flr.isSome || s.tether.noTlp) = true := by
      by_cases hno : s.tether.noTlp = true
      · rw [hno, Bool.or_true]
      · have hflr : s.tether.flr ≠ none := fun hflr => h ⟨by simpa using hno, hflr⟩
        rw [Option.isSome_iff_ne_none.mpr hflr, Bool.true_or]
    refine congrArg Host.Outcome.next ?_
    simp only [State.cfgRequest, hdie, hlink, hperst, hquiet, Bool.not_true, Bool.or_self, Bool.false_eq_true, if_false, if_true]
    rfl
  · obtain ⟨hdie, hlink, hperst⟩ := hup
    obtain ⟨hno, hflr⟩ := h
    have hno' : s.tether.noTlp = false := hno
    have hflr' : s.tether.flr = none := hflr
    refine congrArg Host.Outcome.next ?_
    simp only [State.cfgRequest, hdie, hlink, hperst, hno', hflr', Option.isSome_none, Bool.not_true, Bool.or_self, Bool.false_eq_true,
      if_false]
    exact congrArg (fun w => s.toHost d (.complD tag (wordBytes w) false)) (Tether.cfgRead_identity ..)
  · obtain ⟨hdie, hlink, hperst⟩ := hup
    obtain ⟨hno, hflr⟩ := h
    have hno' : s.tether.noTlp = false := hno
    have hflr' : s.tether.flr = none := hflr
    refine congrArg Host.Outcome.next ?_
    simp only [State.cfgRequest, hdie, hlink, hperst, hno', hflr', Option.isSome_none, Bool.not_true, Bool.or_self, Bool.false_eq_true,
      if_false]
    exact State.cfgWrite_bar0 (s.toHost d (.compl tag)) d v hbar

end Sys2Proof.Machine
end

section
/-!
A fold's drain and wake, accesses that wait for a domain, and the statement O44 (14 R367, R369, R370, R386, 09 R250).
-/

namespace Sys2Proof.Machine

/-! ### Deferred commands where there are none -/

section
variable {s t : State}

theorem State.leaders_congr (h : ∀ x, (t.pad x).repl = (s.pad x).repl) : t.leaders = s.leaders := by
  simp only [State.leaders, State.inRange, State.leader, State.member, h]

theorem State.finishAll_idle (h : ∀ l ∈ s.leaders, (s.pad l).shep.deferred = []) (f : DefKind → Bool) (st : Status) :
    s.finishAll f st = s := by
  unfold State.finishAll
  generalize s.leaders = l at h
  induction l with
  | nil => rfl
  | cons x l ih =>
    rw [List.foldl_cons, h x (List.mem_cons_self ..)]
    exact ih fun y hy => h y (List.mem_cons_of_mem _ hy)

theorem State.findDef_idle (h : ∀ l ∈ s.leaders, (s.pad l).shep.deferred = []) (f : DefKind → Bool) : s.findDef f = none := by
  refine List.findSome?_eq_none_iff.mpr fun l hl => ?_
  rw [State.defAt, h l hl]
  rfl

end

/-! ### Fenced fords (09 R250) -/

/-- The paddock with a ford unfenced: it takes what its agents kept. -/
def Paddock.unfenced (q : Paddock) (k : Nat) : Paddock :=
  { q with
    ebb := { q.ebb with
      fenceReq := putBit q.ebb.fenceReq k false, fenceAck := putBit q.ebb.fenceAck k false
      culvertEn := putBit q.ebb.culvertEn k false }
    stream := { q.stream with
      inj := updateWhere (fun i : InjItem => i.pos == k && i.held) (fun i => { i with held := false, since := q.aon.hcycle }) q.stream.inj } }

theorem State.unfencePos_eq (s : State) (d : Die) (k : Nat) : s.unfencePos d k = s.modPad d fun q => q.unfenced k := by
  simp only [State.unfencePos, State.modEbb, State.modPad_modPad]
  rfl

section
variable {s : State} {d : Die} {p : PFold}

/-! ### Drains (14 R369) -/

theorem exec_foldDrainComplete (hstate : (s.power d p).state = .drain) (hdrain : ((s.pad d).folds[p]).drain = false) :
    exec (.foldDrainComplete d p) s = .next (
      if ((s.pad d).folds[p]).quiet = true ∧ ((s.power d p).target = .off → s.emptied d p (drainJob d p) = true) then
        s.modPad d fun q => { q with
          folds := vmod q.folds p fun y => { y with drain := true }
          ebb := { q.ebb with fenceReq := putBit q.ebb.fenceReq (fordOfFold p) true } }
      else s) := by
  refine congrArg Host.Outcome.next ?_
  unfold State.drained
  refine if_congr ?_ ?_ rfl
  · simp only [hstate, hdrain, beq_self_eq_true, Bool.not_false, Bool.true_and, Bool.and_eq_true, Bool.or_eq_true, bne_iff_ne, ne_eq,
      ← imp_iff_not_or]
  · simp only [State.fenceFold, State.fencePos, State.modEbb, State.modFold, State.modPad_modPad]

/-! ### Wakes (14 R367) -/

/-- The conditions of WAKE_COMPLETE. -/
abbrev State.WakeUp (s : State) (d : Die) (p : PFold) : Prop :=
  (s.power d p).waking.isSome = true ∧ (s.pad d).running = true ∧ (s.pad d).domOn (domFA p) = true ∧ (s.pad d).domOn (domFL p) = true ∧
    bitAt (s.pad d).boot.selfTested p.val = true ∧ bitAt (s.pad d).boot.arrayInit p.val = true

theorem State.wakeDone_early (h : ¬s.WakeUp d p) : s.wakeDone d p = s := by
  unfold State.wakeDone
  refine if_neg fun hup => h ?_
  simp only [Bool.and_eq_true] at hup
  obtain ⟨⟨⟨⟨⟨h1, h2⟩, h3⟩, h4⟩, h5⟩, h6⟩ := hup
  exact ⟨h1, h2, h3, h4, h5, h6⟩

/-- The paddock whose fold is in RUN again. -/
def Paddock.woke (q : Paddock) (p : PFold) : Paddock :=
  { (Paddock.unfenced { q with ebb := { q.ebb with fold := vmod q.ebb.fold p fun y => { y with state := .run, waking := none } } }
      (fordOfFold p)) with
    folds := vmod q.folds p fun y => { y with census := foldCount 0x39 8 y.census } }

theorem State.wakeDone_up (h : s.WakeUp d p) (hcarries : ((s.pad d).repl.carries d p).isSome = true)
    (hidle : ∀ l ∈ s.leaders, (s.pad l).shep.deferred = []) (htarget : (s.power d p).target = .run ∨ (s.power d p).target = .doze) :
    s.wakeDone d p = s.modPad d fun q => q.woke p := by
  obtain ⟨n, hn⟩ := Option.isSome_iff_exists.mp hcarries
  obtain ⟨h1, h2, h3, h4, h5, h6⟩ := h
  have hup : ((s.power d p).waking.isSome && (s.pad d).running && (s.pad d).domOn (domFA p) && (s.pad d).domOn (domFL p) &&
      bitAt (s.pad d).boot.selfTested p.val && bitAt (s.pad d).boot.arrayInit p.val) = true := by
    rw [h1, h2, h3, h4, h5, h6]; rfl
  have hstep : ((s.modPower d p fun x => { x with state := .run, waking := none }).unfenceFold d p).modFold d p
      (fun f => { f with census := foldCount 0x39 8 f.census }) = s.modPad d fun q => q.woke p := by
    simp only [State.unfenceFold, State.unfencePos_eq, State.modPower, State.modEbb, State.modFold, State.modPad_modPad]
    rfl
  have hidle' : ∀ l ∈ (s.modPad d fun q => q.woke p).leaders, ((s.modPad d fun q => q.woke p).pad l).shep.deferred = [] := by
    have hview := ((State.Frame.refl (fun q => (q.repl, q.shep)) s).modPad d (fun q => q.woke p) fun _ => rfl).pads
    simp only [Prod.mk.injEq] at hview
    rw [State.leaders_congr fun x => (hview x).1]
    intro l hl
    rw [(hview l).2]
    exact hidle l hl
  have hpark : ((s.power d p).target == .retain || (s.power d p).target == .off) = false := by
    rcases htarget with h | h <;> rw [h] <;> rfl
  unfold State.wakeDone
  simp only [hup, if_true, hn, hstep, State.finishAll_idle hidle', hpark, Bool.false_eq_true, if_false]

/-! ### Accesses that wait for a domain (14 R386) -/

theorem exec_registerRead_waits {w : Who} {a : RegAddr} {i : DomN} (hbar : w.bar0 = false) (hpor : (s.pad w.via).boot.poreset = false)
    (hbusy : (s.pad w.via).rp.busy = false) (halign : a.toNat % 4 = 0)
    (hpermits : (s.pad (s.target w.via a).srv).repl.permits (s.krovol.privOf (s.target w.via a)) false w.dom = true)
    (hpresent : (s.target w.via a).absent = false) (hasleep : s.asleep w (s.target w.via a) = some (d, i))
    (hwakes : (s.pad d).autoWakes d i = true) :
    exec (.registerRead w a) s = .next (((s.autoWake d i).modPad d fun q => { q with ebb := { q.ebb with
      autoAcc := q.ebb.autoAcc ++ [{ who := w, addr := a, write := none, dom := i, tide := (s.pad d).now }] } }).portWaits w.via) := by
  refine congrArg Host.Outcome.next ?_
  obtain ⟨via, dom, strb, bar0⟩ := w
  obtain rfl : bar0 = false := hbar
  have hallowed : s.denies ⟨via, dom, strb, false⟩ a (s.target via a) (none : Option Word).isSome = false := by
    simp [State.denies, halign, hpermits]
  have hacc : s.access ⟨via, dom, strb, false⟩ a none = ((s.autoWake d i).modPad d fun q => { q with ebb := { q.ebb with
      autoAcc := q.ebb.autoAcc ++ [{ who := ⟨via, dom, strb, false⟩, addr := a, write := none, dom := i, tide := (s.pad d).now }] } }, .held) := by
    simp only [State.access, hallowed, hpresent, hasleep, hwakes, Bool.false_eq_true, if_false, if_true]
    rfl
  simp only [State.portAccess, hpor, hbusy, Bool.or_self, Bool.false_eq_true, if_false, hacc]
  rfl

theorem State.autoWake_idle {i : DomN} (hnf : (s.pad d).ebb.nf = .idle) :
    s.autoWake d i = match flOf i with
      | some k => s.wakeFold d k 1
      | none => s := by
  have hno : ((s.pad d).ebb.nf != .idle && (s.pad d).wakeEn 1) = false := by rw [hnf]; rfl
  simp only [State.autoWake, hno, Bool.false_eq_true, if_false] <;> rfl

theorem exec_autowakeTimeout {w : Who} {a : RegAddr} {i : DomN} {wr : Option Word} {tide : Nat} (hbar : w.bar0 = false)
    (hacc : (s.pad d).ebb.autoAcc = [{ who := w, addr := a, write := wr, dom := i, tide := tide }]) :
    exec (.autowakeTimeout d) s = .next (
      if tide + 40000 ≤ (s.pad d).now then
        ((s.modPad d fun q => { q with ebb := { q.ebb with autoAcc := [] } }).modPad (s.target w.via a).srv fun q =>
          { q with ebb := { q.ebb with offAccess := q.ebb.offAccess + 1 } }).modPad w.via fun q =>
            if q.rp.busy then { q with rp := { rdata := 0xFFFFFFFF, resp := 1, ack := true } } else q
      else s) := by
  refine congrArg Host.Outcome.next ?_
  unfold State.autoTimeout
  simp only [hacc, takeFirst]
  by_cases hdue : tide + 40000 ≤ (s.pad d).now
  · simp only [decide_eq_true hdue, if_true, State.portEnds, hbar, Bool.false_eq_true, if_false, if_pos hdue]
    rfl
  · simp only [decide_eq_false hdue, Bool.false_eq_true, if_false, if_neg hdue]

end

/-- Settles O44. -/
theorem foldsDrainAndWake : Obligations.FoldsDrainAndWake := by
  unfold Obligations.FoldsDrainAndWake
  intro s d p q x f
  refine ⟨fun hstate hdrain => ?_, ?_, fun w a i hbar => ⟨?_, fun wr tide hacc => ⟨fun hearly => ?_, fun hdue hbusy => ?_⟩⟩⟩
  · intro done
    have hexec := exec_foldDrainComplete hstate hdrain
    exact ⟨fun hno => hexec.trans (congrArg _ (if_neg hno)), fun hyes => hexec.trans (congrArg _ (if_pos hyes))⟩
  · intro up
    refine ⟨fun hno => congrArg Host.Outcome.next (State.wakeDone_early hno), fun hup hcarries hidle htarget => ?_⟩
    refine congrArg Host.Outcome.next ((State.wakeDone_up hup hcarries hidle htarget).trans (State.modPad_congr ?_))
    simp only [Paddock.woke, Paddock.unfenced, updateWhere, Bool.and_eq_true, beq_iff_eq]
  · intro t hpor hbusy halign hpermits hpresent hasleep hwakes hnf u
    have hwake : s.autoWake d i = u := State.autoWake_idle hnf
    rw [← hwake]
    exact exec_registerRead_waits hbar hpor hbusy halign hpermits hpresent hasleep hwakes
  · exact (exec_autowakeTimeout hbar hacc).trans (congrArg _ (if_neg (Nat.not_le.mpr hearly)))
  · intro srv count
    refine (exec_autowakeTimeout hbar hacc).trans (congrArg _ ((if_pos hdue).trans (State.modPad_congr (if_pos ?_))))
    have hrp := (((State.Frame.refl (fun q => q.rp.busy) s).modPad d (fun q => { q with ebb := { q.ebb with autoAcc := [] } })
      fun _ => rfl).modPad srv (fun q => { q with ebb := count q.ebb }) fun _ => rfl).pads w.via
    exact hrp.trans hbusy

end Sys2Proof.Machine
end

section
/-!
Power switches and the statement O43 (14 R366, R367, R369, 09 R250).
-/

namespace Sys2Proof.Machine

/-! ### Several fords unfenced (09 R250) -/

/-- The paddock with the fords of a list unfenced. -/
def Paddock.unfenceAll (q : Paddock) (l : List Nat) : Paddock := l.foldl (fun q k => q.unfenced k) q

/-- What a ford that is unfenced takes of a queue. -/
def InjItem.taken (y : InjItem) (back : Nat → Bool) (since : Nat) : InjItem :=
  if back y.pos && y.held then { y with held := false, since := since } else y

/-- Only the fences of the fords change, and the flits kept for them. -/
theorem Paddock.unfenceAll_spec (l : List Nat) (q : Paddock) :
    let t := q.unfenceAll l
    t = { q with
      ebb := { q.ebb with fenceReq := t.ebb.fenceReq, fenceAck := t.ebb.fenceAck, culvertEn := t.ebb.culvertEn }
      stream := { q.stream with inj := q.stream.inj.map fun y => y.taken (fun k => l.contains k) q.aon.hcycle } } ∧
    ∀ k, bitAt t.ebb.fenceReq k = (bitAt q.ebb.fenceReq k && !l.contains k) ∧
      bitAt t.ebb.fenceAck k = (bitAt q.ebb.fenceAck k && !l.contains k) ∧
      bitAt t.ebb.culvertEn k = (bitAt q.ebb.culvertEn k && !l.contains k) := by
  induction l generalizing q with
  | nil =>
    refine ⟨?_, fun k => ?_⟩
    · have hid : (fun y : InjItem => y.taken (fun k => ([] : List Nat).contains k) q.aon.hcycle) = id := rfl
      rw [hid, List.map_id]
      rfl
    · simp only [Paddock.unfenceAll, List.foldl_nil, List.contains_nil, Bool.not_false, Bool.and_true, and_self]
  | cons a l ih =>
    intro t
    obtain ⟨hrest, hbits⟩ := ih (q.unfenced a)
    have ht : t = (q.unfenced a).unfenceAll l := rfl
    rw [← ht] at hrest hbits
    refine ⟨hrest.trans ?_, fun k => ?_⟩
    · have hinj : ((q.unfenced a).stream.inj.map fun y => y.taken (fun k => l.contains k) q.aon.hcycle) =
          q.stream.inj.map fun y => y.taken (fun k => (a :: l).contains k) q.aon.hcycle := by
        simp only [Paddock.unfenced, updateWhere, List.map_map]
        refine List.map_congr_left fun y _ => ?_
        simp only [InjItem.taken, Function.comp, List.contains_cons]
        cases hheld : y.held with
        | false => simp [hheld]
        | true => cases hpos : y.pos == a <;> simp [hpos, hheld]
      have haon : (q.unfenced a).aon.hcycle = q.aon.hcycle := rfl
      rw [haon, hinj]
      rfl
    · have hput : ∀ (v : BitVec 16), bitAt (putBit v a false) k = (bitAt v k && !(k == a)) := by
        intro v
        rw [bitAt_putBit]
        by_cases hk : a = k
        · subst hk
          by_cases hlt : a < 16
          · simp [hlt]
          · simp [hlt, bitAt, BitVec.getLsbD_of_ge v a (Nat.not_lt.mp hlt)]
        · simp [hk, Ne.symm hk]
      obtain ⟨hreq, hack, hen⟩ := hbits k
      have hcons : ∀ b : Bool, (b && !(k == a) && !l.contains k) = (b && !(a :: l).contains k) := by
        intro b
        rw [List.contains_cons, Bool.not_or, Bool.and_assoc]
      refine ⟨hreq.trans ?_, hack.trans ?_, hen.trans ?_⟩ <;>
      · rw [← hcons]
        exact congrArg (· && !l.contains k) (hput _)

theorem State.foldl_unfencePos (s : State) (d : Die) (l : List (Fin 16)) :
    l.foldl (fun s p => s.unfencePos d p.val) s = s.modPad d fun q => q.unfenceAll (l.map Fin.val) := by
  simp only [State.unfencePos_eq]
  rw [State.foldl_modPad_same]
  refine State.modPad_congr ?_
  rw [Paddock.unfenceAll, List.foldl_map]

/-! ### A switch acknowledges (14 R366) -/

section
variable {s : State} {d : Die} {i : DomN}

theorem exec_pswAck_not (level : Bool) (h : bitAt (s.pad d).ebb.pswReq i.val ≠ level ∨ bitAt (s.pad d).ebb.pswAck i.val = level) :
    exec (.pswAck d i level) s = .next s := by
  refine congrArg Host.Outcome.next (if_pos ?_)
  simpa using h

/-- The paddock whose only switch did what was asked. -/
def Paddock.switched (q : Paddock) (i : DomN) (level : Bool) : Paddock :=
  { q with
    ebb := { q.ebb with
      pswAck := putBit q.ebb.pswAck i.val level
      iso := if level then putBit q.ebb.iso i.val false else q.ebb.iso
      switching := [] }
    census := padCount 0x30 i.val 16 q.census }

theorem exec_pswAck {x : DomSwitch} {level : Bool} (hreq : bitAt (s.pad d).ebb.pswReq i.val = level)
    (hack : bitAt (s.pad d).ebb.pswAck i.val = !level) (hone : (s.pad d).ebb.switching = [x]) (hdom : x.dom = i) (hon : x.on = level) :
    exec (.pswAck d i level) s = .next (
      let u := s.modPad d fun q => q.switched i level
      if level then u.domUp d i else (((u.dropHeld d i).foldDomDown d i).nfDomDown d i).sampleGoes d) := by
  refine congrArg Host.Outcome.next ((if_neg ?_).trans ?_)
  · rw [hreq, hack]
    cases level <;> simp
  · have hnone : (s.pad d).ebb.switching.filter (fun x => x.dom != i || x.on != level) = [] := by
      rw [hone, List.filter_cons, hdom, hon]
      simp
    have hstep : ((s.modEbb d fun e => Ebb.raiseNext { e with
        pswAck := putBit e.pswAck i.val level
        iso := if level then putBit e.iso i.val false else e.iso
        switching := e.switching.filter fun x => x.dom != i || x.on != level } (s.pad d).ticks).pcount d 0x30 i.val) =
          s.modPad d fun q => q.switched i level := by
      simp only [State.modEbb, State.pcount, State.modPad_modPad]
      refine State.modPad_congr ?_
      rw [hnone]
      rfl
    rw [← hstep]

/-- The paddock whose fold's logic came on, where the domain is an FL. -/
def Paddock.flUp (q : Paddock) (i : DomN) : Paddock :=
  { q with folds := if i.val < 5 then vmod q.folds (Fin.ofNat 5 i.val) Fold.flReset else q.folds }

theorem domFL_iff (p : PFold) (i : DomN) : domFL p = i ↔ i.val < 5 ∧ Fin.ofNat 5 i.val = p := by
  revert p i
  decide

theorem domFA_iff (p : PFold) (i : DomN) : domFA p = i ↔ 5 ≤ i.val ∧ i.val < 10 ∧ Fin.ofNat 5 (i.val - 5) = p := by
  revert p i
  decide

theorem Paddock.folds_flUp (q : Paddock) (i : DomN) (p : PFold) :
    (q.flUp i).folds[p] = if domFL p = i then (q.folds[p]).flReset else q.folds[p] := by
  unfold Paddock.flUp
  by_cases hi : i.val < 5
  · by_cases hp : Fin.ofNat 5 i.val = p
    · rw [if_pos ((domFL_iff p i).mpr ⟨hi, hp⟩)]
      simp only [hi, if_true, hp, vmod_get_same]
    · rw [if_neg fun h => hp ((domFL_iff p i).mp h).2]
      simp only [hi, if_true]
      exact vmod_get_other _ _ _ _ fun h => hp h.symm
  · rw [if_neg fun h => hi ((domFL_iff p i).mp h).1]
    simp only [hi, if_false]

/-- A domain that comes on for no fold's wake. -/
theorem State.foldDomUp_quiet {u : State} (hfa : ∀ p : PFold, domFA p = i → (u.power d p).waking = none)
    (hfl : ∀ p : PFold, domFL p = i → (u.power d p).state = .retain → (u.power d p).waking ≠ none) :
    u.foldDomUp d i = u.modPad d fun q => q.flUp i := by
  unfold State.foldDomUp
  by_cases hi : i.val < 5
  · have hp := (domFL_iff (Fin.ofNat 5 i.val) i).mpr ⟨hi, rfl⟩
    have hstays : ((u.power d (Fin.ofNat 5 i.val)).state == .retain && (u.power d (Fin.ofNat 5 i.val)).waking.isNone) = false := by
      by_cases hr : (u.power d (Fin.ofNat 5 i.val)).state = .retain
      · have hw := hfl _ hp hr
        rw [Option.isNone_eq_false_iff.mpr (Option.isSome_iff_ne_none.mpr hw), Bool.and_false]
      · rw [beq_eq_false_iff_ne.mpr hr, Bool.false_and]
    simp only [hi, if_true, hstays, Bool.false_and, Bool.false_eq_true, if_false]
    exact State.modPad_congr (by simp only [Paddock.flUp, hi, if_true])
  · have hsame : (u.modPad d fun q => q.flUp i) = u := State.modPad_eq_self u d _ (by simp only [Paddock.flUp, hi, if_false])
    simp only [hi, if_false, hsame]
    by_cases hi10 : i.val < 10
    · have hp := (domFA_iff (Fin.ofNat 5 (i.val - 5)) i).mpr ⟨Nat.not_lt.mp hi, hi10, rfl⟩
      simp only [hi10, if_true, hfa _ hp, Option.isSome_none, Bool.false_eq_true, if_false]
    · simp only [hi10, if_false]

/-- The fords that come back with a domain. -/
def State.fordsBack (s : State) (d : Die) (i : DomN) : List Nat :=
  if i == domSH then [15] else if i == domSD then (s.sdFords d).map Fin.val else []

/-- A domain that comes on in a paddock that has started up and is in no Nightfold phase. -/
theorem State.domUp_settled {u : State} (hsettled : (u.pad d).Settled) (hsample : (u.pad d).ebb.sample = none)
    (hfa : ∀ p : PFold, domFA p = i → (u.power d p).waking = none)
    (hfl : ∀ p : PFold, domFL p = i → (u.power d p).state = .retain → (u.power d p).waking ≠ none) :
    u.domUp d i = u.modPad d fun q => (q.flUp i).unfenceAll (u.fordsBack d i) := by
  obtain ⟨hstep, hnf⟩ := hsettled
  have hfold := State.foldDomUp_quiet hfa hfl
  let w := u.modPad d fun q => (q.flUp i).unfenceAll (u.fordsBack d i)
  have hw : w.pad d = ((u.pad d).flUp i).unfenceAll (u.fordsBack d i) := State.pad_modPad_same ..
  obtain ⟨hparts, -⟩ := Paddock.unfenceAll_spec (u.fordsBack d i) ((u.pad d).flUp i)
  have hebb : (w.pad d).ebb.nf = .idle ∧ (w.pad d).ebb.sample = none ∧ (w.pad d).boot.step = 10 := by
    rw [hw, hparts]
    exact ⟨hnf, hsample, hstep⟩
  have hquiet : ((w.bootGo d).nfExit d).sampleGoes d = w := by
    obtain ⟨hnf', hsample', hstep'⟩ := hebb
    have hboot : w.bootGo d = w := by
      unfold State.bootGo
      simp only [hstep']
      exact ite_self _
    rw [hboot, State.nfExit]
    simp only [hnf', State.sampleGoes, hsample']
  have hback : (if i == domSH then (u.modPad d fun q => q.flUp i).unfencePos d 15
      else if i == domSD then ((u.modPad d fun q => q.flUp i).sdFords d).foldl (fun s p => s.unfencePos d p.val) (u.modPad d fun q => q.flUp i)
      else u.modPad d fun q => q.flUp i) = w := by
    by_cases hsh : i = domSH
    · have hlist : u.fordsBack d i = [15] := if_pos (beq_iff_eq.mpr hsh)
      rw [if_pos (beq_iff_eq.mpr hsh), State.unfencePos_eq, State.modPad_modPad]
      simp only [w, hlist]
      rfl
    · rw [if_neg (fun h => hsh (beq_iff_eq.mp h))]
      by_cases hsd : i = domSD
      · have hlist : u.fordsBack d i = (u.sdFords d).map Fin.val :=
          (if_neg (fun h => hsh (beq_iff_eq.mp h))).trans (if_pos (beq_iff_eq.mpr hsd))
        have hfords : (u.modPad d fun q => q.flUp i).sdFords d = u.sdFords d := rfl
        rw [if_pos (beq_iff_eq.mpr hsd), hfords, State.foldl_unfencePos, State.modPad_modPad]
        simp only [w, hlist]
      · have hlist : u.fordsBack d i = [] :=
          (if_neg (fun h => hsh (beq_iff_eq.mp h))).trans (if_neg (fun h => hsd (beq_iff_eq.mp h)))
        rw [if_neg (fun h => hsd (beq_iff_eq.mp h))]
        simp only [w, hlist]
        rfl
  have hnfFl : ((u.modPad d fun q => q.flUp i).pad d).ebb.nf = .idle := by
    rw [State.pad_modPad_same]
    exact hnf
  have hone : ∀ a : NfPhase, a ≠ .idle → ∀ b : Bool, (b && (NfPhase.idle == a)) = false := by
    intro a ha b
    rw [beq_eq_false_iff_ne.mpr ha.symm, Bool.and_false]
  unfold State.domUp
  simp only [hfold, hnfFl, hone .exit2 (by decide), hone .exit4 (by decide), Bool.false_eq_true, if_false]
  rw [hback, hquiet]

theorem State.fordsBack_contains (s : State) (d : Die) (i : DomN) (k : Nat) :
    (s.fordsBack d i).contains k = (i == domSH && k == 15 || i == domSD && (s.sdFords d).any fun y => y.val == k) := by
  have hmem : ((s.sdFords d).map Fin.val).contains k = (s.sdFords d).any fun y => y.val == k := by
    rw [List.contains_eq_any_beq, List.any_map]
    refine congrArg _ (funext fun y => ?_)
    show (k == y.val) = (y.val == k)
    rw [Bool.eq_iff_iff, beq_iff_eq, beq_iff_eq, eq_comm]
  unfold State.fordsBack
  by_cases hsh : i = domSH
  · subst hsh
    have hne : (domSH == domSD) = false := rfl
    simp only [beq_self_eq_true, if_true, hne, Bool.true_and, Bool.false_and, Bool.or_false, List.contains_cons, List.contains_nil]
  · rw [beq_eq_false_iff_ne.mpr hsh, if_neg Bool.false_ne_true, Bool.false_and, Bool.false_or]
    by_cases hsd : i = domSD
    · rw [beq_iff_eq.mpr hsd, if_pos rfl, hmem, Bool.true_and]
    · rw [beq_eq_false_iff_ne.mpr hsd, if_neg Bool.false_ne_true, Bool.false_and]
      rfl

/-- The paddock after a domain came on. -/
theorem exec_pswAck_on {x : DomSwitch} (hsettled : (s.pad d).Settled) (hsample : (s.pad d).ebb.sample = none)
    (hone : (s.pad d).ebb.switching = [x]) (hdom : x.dom = i) (hon : x.on = true) (hreq : bitAt (s.pad d).ebb.pswReq i.val = true)
    (hack : bitAt (s.pad d).ebb.pswAck i.val = false) (hfa : ∀ p : PFold, domFA p = i → (s.power d p).waking = none)
    (hfl : ∀ p : PFold, domFL p = i → (s.power d p).state = .retain → (s.power d p).waking ≠ none) :
    exec (.pswAck d i true) s = .next (s.modPad d fun q => ((q.switched i true).flUp i).unfenceAll (s.fordsBack d i)) := by
  let u := s.modPad d fun q => q.switched i true
  have hu : u.pad d = (s.pad d).switched i true := State.pad_modPad_same ..
  have hpower : ∀ p, u.power d p = s.power d p := by
    intro p
    simp only [State.power, hu]
    rfl
  have hup := State.domUp_settled (u := u) (d := d) (i := i) (by rw [hu]; exact hsettled) (by rw [hu]; exact hsample)
    (fun p h => by rw [hpower]; exact hfa p h) (fun p h => by rw [hpower]; exact hfl p h)
  refine (exec_pswAck hreq hack hone hdom hon).trans (congrArg _ ((if_pos rfl).trans (hup.trans ?_)))
  exact State.modPad_modPad ..

/-! ### A fold whose logic went off (14 R366, R367) -/

/-- The paddock whose fold's logic went off, what its agent kept for a fenced ford gone. -/
def Paddock.flDown (q : Paddock) (i : DomN) : Paddock :=
  { q.switched i false with
    stream := { q.stream with inj := q.stream.inj.filter fun x => !(x.held && posDom x.pos == i) } }

theorem State.nfDomDown_idle {u : State} (hnf : (u.pad d).ebb.nf = .idle) : u.nfDomDown d i = u := by
  unfold State.nfDomDown
  rw [hnf]
  rfl

theorem State.sampleGoes_none {u : State} (hsample : (u.pad d).ebb.sample = none) : u.sampleGoes d = u := by
  unfold State.sampleGoes
  rw [hsample]

section
variable {p : PFold} (hfl : domFL p = i) (hstate : (s.power d p).state = .drain)
include hfl hstate

theorem State.foldDomDown_fl {u : State} (hu : u = s.modPad d fun q => q.flDown i) :
    u.foldDomDown d i = if (s.power d p).target = .off then u.domOffReq d (domFA p) else u.parked d p := by
  obtain ⟨hlt, hp⟩ := (domFL_iff p i).mp hfl
  have hpower : u.power d p = s.power d p := by
    rw [hu, State.power, State.pad_modPad_same]
    rfl
  unfold State.foldDomDown
  simp only [hlt, if_true, hp, hpower, hstate]
  by_cases htarget : (s.power d p).target = .off
  · simp only [htarget, beq_self_eq_true, Bool.true_or, if_true]
  · have hno : ((s.power d p).target == .off || (FoldState.drain == .off && (s.power d p).waking.isNone)) = false := by
      rw [beq_eq_false_iff_ne.mpr htarget]
      rfl
    simp only [hno, Bool.false_eq_true, if_false, beq_self_eq_true, if_true, htarget]

/-- A switch acknowledges that a draining fold's logic is off. -/
theorem exec_pswAck_off {x : DomSwitch} (hsettled : (s.pad d).Settled) (hsample : (s.pad d).ebb.sample = none)
    (hone : (s.pad d).ebb.switching = [x]) (hdom : x.dom = i) (hon : x.on = false) (hreq : bitAt (s.pad d).ebb.pswReq i.val = false)
    (hack : bitAt (s.pad d).ebb.pswAck i.val = true) {g : Paddock → Paddock} (hnf : ∀ q, (g q).ebb.nf = q.ebb.nf)
    (hkeep : ∀ q, (g q).ebb.sample = q.ebb.sample)
    (hdown : let u := s.modPad d fun q => q.flDown i
      (if (s.power d p).target = .off then u.domOffReq d (domFA p) else u.parked d p) = u.modPad d g) :
    exec (.pswAck d i false) s = .next (s.modPad d fun q => g (q.flDown i)) := by
  let u := s.modPad d fun q => q.flDown i
  have hu : (s.modPad d fun q => q.switched i false).dropHeld d i = u := by
    simp only [State.dropHeld, State.modStream, State.modPad_modPad]
    rfl
  have hfall : u.foldDomDown d i = u.modPad d g := (State.foldDomDown_fl hfl hstate rfl).trans hdown
  have hpad : (u.modPad d g).pad d = g ((s.pad d).flDown i) := by rw [State.pad_modPad_same, State.pad_modPad_same]
  have hquiet : ((u.modPad d g).pad d).ebb.nf = .idle ∧ ((u.modPad d g).pad d).ebb.sample = none := by
    rw [hpad, hnf, hkeep]
    exact ⟨hsettled.2, hsample⟩
  refine (exec_pswAck hreq hack hone hdom hon).trans (congrArg _ ((if_neg Bool.false_ne_true).trans ?_))
  rw [hu, hfall, State.nfDomDown_idle hquiet.1, State.sampleGoes_none hquiet.2]
  exact State.modPad_modPad ..

end

/-- A fold that is drained towards RETAIN is there. -/
theorem State.parked_retain {u : State} {p : PFold} (hheld : (u.power d p).heldWake = false)
    (hidle : ∀ l ∈ u.leaders, (u.pad l).shep.deferred = [])
    (hsound : bitAt ((u.pad d).repl.foldmap[d]).failed p.val = false) :
    u.parked d p = u.modPad d fun q => { q with ebb := { q.ebb with
      fold := vmod q.ebb.fold p fun x => { x with state := x.target, heldWake := false } } } := by
  let f (q : Paddock) : Paddock := { q with ebb := { q.ebb with
      fold := vmod q.ebb.fold p fun x => { x with state := x.target, heldWake := false } } }
  let v := u.modPad d f
  have hstep : (u.modPower d p fun x => { x with state := x.target, heldWake := false }) = v := rfl
  have hview := ((State.Frame.refl (fun q => (q.repl, q.shep)) u).modPad d f fun _ => rfl).pads
  simp only [Prod.mk.injEq] at hview
  have hidle' : ∀ l ∈ v.leaders, (v.pad l).shep.deferred = [] := by
    rw [State.leaders_congr fun x => (hview x).1]
    intro l hl
    rw [(hview l).2]
    exact hidle l hl
  have hwake : ∀ n, v.wakeAsked d n = none := by
    intro n
    unfold State.wakeAsked
    rw [State.findDef_idle hidle']
  have hsound' : bitAt ((v.pad d).repl.foldmap[d]).failed p.val = false := by rw [(hview d).1]; exact hsound
  unfold State.parked
  simp only [hstep, hheld, Bool.false_eq_true, if_false]
  split
  · rfl
  · simp only [State.finishAll_idle hidle', hsound', hwake, Bool.false_eq_true, if_false]
    rfl

/-! ### A switch that is late (14 R366) -/

theorem exec_pswAckTimeout {x : DomSwitch} (hone : (s.pad d).ebb.switching = [x]) (hdom : x.dom = i) (hlate : x.late = false)
    (hreq : bitAt (s.pad d).ebb.pswReq i.val = x.on) :
    exec (.pswAckTimeout d i) s = .next (if x.tick + 100 ≤ (s.pad d).aon.ticks then (s.modPad d fun q => { q with
      ebb := { q.ebb with switching := [{ x with late := true }] } }).stick d 0 else s) := by
  refine congrArg Host.Outcome.next ?_
  have hlate' : (x.dom == i && !x.late && decide (x.tick + 100 ≤ (s.pad d).ticks) && bitAt (s.pad d).ebb.pswReq i.val == x.on) =
      decide (x.tick + 100 ≤ (s.pad d).aon.ticks) := by
    rw [hdom, hlate, hreq]
    simp
    rfl
  unfold State.pswLate
  simp only [hone, List.any_cons, List.any_nil, Bool.or_false, hlate', decide_eq_true_eq]
  refine if_ctx_congr Iff.rfl (fun hdue => ?_) fun _ => rfl
  refine congrArg (fun u : State => u.stick d 0) (State.modPad_congr ?_)
  simp only [hone, updateWhere, List.map_cons, List.map_nil, hlate', hdue, decide_true, if_true]

end

/-- Settles O43. -/
theorem domainsFollowTheirSwitches : Obligations.DomainsFollowTheirSwitches := by
  unfold Obligations.DomainsFollowTheirSwitches
  intro s d i q e
  refine ⟨fun level h => exec_pswAck_not level h, fun x hsettled hsample hone hdom => ⟨fun hon hreq hack hfa hfl => ?_,
    fun hon hreq hack p hfl hstate hheld => ⟨fun htarget hidle hsound => ?_, fun htarget => ?_⟩⟩,
    fun x hone hdom hlate hreq => exec_pswAckTimeout hone hdom hlate hreq⟩
  · have hexec := exec_pswAck_on hsettled hsample hone hdom hon hreq hack hfa hfl
    obtain ⟨hparts, hbits⟩ := Paddock.unfenceAll_spec (s.fordsBack d i) (((s.pad d).switched i true).flUp i)
    simp only [State.fordsBack_contains] at hparts hbits
    refine ⟨_, hexec, (State.OnlyPad.refl s d).modPad _, ?_⟩
    rw [State.pad_modPad_same]
    generalize (((s.pad d).switched i true).flUp i).unfenceAll (s.fordsBack d i) = t at hparts hbits
    refine ⟨?_, hbits, ?_, ?_, ?_, fun p => ?_⟩
    · rw [hparts]
      rfl
    · rw [hparts]
      rfl
    · rw [hparts]
      rfl
    · rw [hparts]
      rfl
    · rw [hparts]
      exact Paddock.folds_flUp _ i p
  · let g (q : Paddock) : Paddock := { q with ebb := { q.ebb with
      fold := vmod q.ebb.fold p fun x => { x with state := x.target, heldWake := false } } }
    have hview := ((State.Frame.refl (fun q => (q.repl, q.shep)) s).modPad d (fun q => q.flDown i) fun _ => rfl).pads
    simp only [Prod.mk.injEq] at hview
    have hpad : (s.modPad d fun q => q.flDown i).pad d = (s.pad d).flDown i := State.pad_modPad_same ..
    have hparked : (s.modPad d fun q => q.flDown i).parked d p = (s.modPad d fun q => q.flDown i).modPad d g := by
      refine State.parked_retain ?_ ?_ ?_
      · rw [State.power, hpad]
        exact hheld
      · rw [State.leaders_congr fun x => (hview x).1]
        intro l hl
        rw [(hview l).2]
        exact hidle l hl
      · rw [(hview d).1]
        exact hsound
    have hexec := exec_pswAck_off hfl hstate hsettled hsample hone hdom hon hreq hack (g := g) (fun _ => rfl) (fun _ => rfl)
      ((if_neg (by rw [htarget]; decide)).trans hparked)
    refine ⟨_, hexec, (State.OnlyPad.refl s d).modPad _, ?_, ?_⟩ <;> rw [State.pad_modPad_same]
    · rfl
    · have hfold : vmod (s.pad d).ebb.fold p (fun x => { x with state := x.target, heldWake := false }) =
          vset e.fold p { s.power d p with state := .retain } := by
        refine vmod_congr (g := fun _ => { s.power d p with state := .retain }) ?_
        have hx : (s.power d p) = (s.pad d).ebb.fold[p] := rfl
        rw [hx] at htarget hheld ⊢
        generalize (s.pad d).ebb.fold[p] = y at htarget hheld ⊢
        cases y
        cases htarget
        cases hheld
        rfl
      exact congrArg (fun z => ({ e with pswAck := putBit e.pswAck i.val false, switching := [], fold := z } : Ebb)) hfold
  · let g (q : Paddock) : Paddock := { q with ebb := q.ebb.domOff (domFA p) (s.pad d).aon.ticks }
    have hoff : (s.modPad d fun q => q.flDown i).domOffReq d (domFA p) = (s.modPad d fun q => q.flDown i).modPad d g := by
      have hpad : (s.modPad d fun q => q.flDown i).pad d = (s.pad d).flDown i := State.pad_modPad_same ..
      have hticks : ((s.modPad d fun q => q.flDown i).pad d).ticks = (s.pad d).aon.ticks := by
        rw [hpad]
        rfl
      unfold State.domOffReq
      rw [hticks]
      rfl
    have hexec := exec_pswAck_off hfl hstate hsettled hsample hone hdom hon hreq hack (g := g) (fun _ => rfl) (fun _ => rfl)
      ((if_pos htarget).trans hoff)
    refine ⟨_, hexec, (State.OnlyPad.refl s d).modPad _, ?_, ?_⟩ <;> rw [State.pad_modPad_same] <;> rfl

end Sys2Proof.Machine
end

section
/-!
Supplies, clocks and the operating-point switch, and the statement O45 (14 R372 to R374, 19 R493, 10 R261).
-/

namespace Sys2Proof.Machine

/-! ### Counting an event beside a wake -/

theorem State.eq_of_pads {s t : State} (hkrovol : s.krovol = t.krovol) (htether : s.tether = t.tether) (hfresh : s.fresh = t.fresh)
    (hpending : s.pending = t.pending) (hpads : ∀ x, s.pad x = t.pad x) : s = t := by
  obtain ⟨k, p, te, f, q⟩ := s
  obtain ⟨k', p', te', f', q'⟩ := t
  obtain rfl : k = k' := hkrovol
  obtain rfl : te = te' := htether
  obtain rfl : f = f' := hfresh
  obtain rfl : q = q' := hpending
  have hvec : p = p' := Vector.ext fun i hi => hpads ⟨i, hi⟩
  rw [hvec]

theorem State.modPads_modPad (s : State) (d : Die) {f : Die → Paddock → Paddock} {g : Paddock → Paddock}
    (h : ∀ q, f d (g q) = g (f d q)) : (s.modPad d g).modPads f = (s.modPads f).modPad d g := by
  refine State.eq_of_pads rfl rfl rfl rfl fun x => ?_
  rw [State.pad_modPads, State.pad_modPad, State.pad_modPad]
  by_cases hx : x = d
  · subst hx
    rw [if_pos rfl, if_pos rfl, State.pad_modPads, h]
  · rw [if_neg hx, if_neg hx, State.pad_modPads]

/-- What a wake of the package does to a paddock (14 R379, R380). -/
def Paddock.nfWoken (q : Paddock) (rails : Bool) : Paddock :=
  match q.ebb.nf with
  | .inside a =>
    if a = q.aon.ticks then
      { q with ebb := { q.ebb.supplyBack rails q.aon.ticks with nfAbort := true }, aon := q.aon.aborted 4 }
    else
      { q with
        ebb := q.ebb.supplyBack rails q.aon.ticks
        aon := { q.aon with sticky := if q.aon.islandOk then q.aon.sticky else putBit q.aon.sticky 6 true } }
  | _ => if q.ebb.entering then { q with ebb := { q.ebb with nfAbort := true } } else q

theorem State.nfWake_eq (s : State) : s.nfWake = s.modPads fun _ q => q.nfWoken s.krovol.rails := rfl

theorem Paddock.nfWoken_census (q : Paddock) (rails : Bool) (c : Census) :
    ({ q with census := c } : Paddock).nfWoken rails = { q.nfWoken rails with census := c } := by
  obtain ⟨aon, repl, boot, ebb, folds, gates, stiles, stream, conf, shep, bell, hurdle, census, common, rp⟩ := q
  simp only [Paddock.nfWoken]
  split
  · split <;> rfl
  · split <;> rfl

theorem State.nfWake_pcount (s : State) (d : Die) (sel unit : Nat) : (s.pcount d sel unit).nfWake = s.nfWake.pcount d sel unit := by
  have hk : (s.pcount d sel unit).krovol = s.krovol := rfl
  have hmod : ∀ (q : Paddock), Paddock.nfWoken { q with census := padCount sel unit 16 q.census } s.krovol.rails =
      { q.nfWoken s.krovol.rails with census := padCount sel unit 16 (q.nfWoken s.krovol.rails).census } := by
    intro q
    have hcensus : (q.nfWoken s.krovol.rails).census = q.census := by
      unfold Paddock.nfWoken
      split
      · split <;> rfl
      · split <;> rfl
    rw [hcensus, Paddock.nfWoken_census]
  rw [State.nfWake_eq, State.nfWake_eq, hk]
  exact State.modPads_modPad s d (f := fun _ q => q.nfWoken s.krovol.rails) hmod

theorem State.stick_pcount (s : State) (d : Die) (i sel unit : Nat) : (s.pcount d sel unit).stick d i = (s.stick d i).pcount d sel unit := by
  let f (p : Paddock) : Paddock := { p with aon := { p.aon with sticky := putBit p.aon.sticky i true } }
  have hset : (s.pcount d sel unit).modPad d f = (s.modPad d f).pcount d sel unit := by
    simp only [State.pcount, State.modPad_modPad]
    refine congrArg (State.modPad s d) (funext fun q => ?_)
    generalize padCount sel unit 16 = g
    rfl
  have hwake : ((s.modPad d f).pcount d sel unit).pad d = { (s.modPad d f).pad d with
      census := padCount sel unit 16 ((s.modPad d f).pad d).census } := State.pad_pcount_same ..
  have hen : (((s.modPad d f).pcount d sel unit).pad d).wakeEn 3 = ((s.modPad d f).pad d).wakeEn 3 := by
    rw [hwake]
    generalize padCount sel unit 16 = g
    rfl
  show (if decide (i < 7) && (((s.pcount d sel unit).modPad d f).pad d).wakeEn 3 then ((s.pcount d sel unit).modPad d f).nfWake
    else (s.pcount d sel unit).modPad d f) = (if decide (i < 7) && ((s.modPad d f).pad d).wakeEn 3 then (s.modPad d f).nfWake
    else s.modPad d f).pcount d sel unit
  rw [hset, hen, State.nfWake_pcount]
  split <;> rfl

/-! ### The regulator's answers (14 R372, R374) -/

section
variable {s : State} {d : Die} {rail : RailN}

theorem State.leadOf_congr_all {t : State} (h : ∀ x, (t.pad x).repl = (s.pad x).repl ∧ (t.pad x).conf = (s.pad x).conf) :
    t.leadOf d = s.leadOf d := by
  refine State.leadOf_congr ?_
  simp only [Paddock.way, h]

theorem State.defAt_congr {t : State} {l : Die} (h : (t.pad l).shep = (s.pad l).shep) (f : DefKind → Bool) : t.defAt l f = s.defAt l f := by
  rw [State.defAt, h, State.defAt]

theorem State.oppOp_congr {t : State} {l : Die} (h : (t.pad l).shep = (s.pad l).shep) : t.oppOp l = s.oppOp l := by
  simp only [State.oppOp, State.defAt_congr h]

/-- An acknowledgement that no OPPOINT_SET waits for. -/
theorem State.oppGoes_none (h : ∀ l, s.leadOf d = some l → s.oppOp l = none) : s.oppGoes d = s := by
  unfold State.oppGoes
  split
  next l hl => rw [State.oppAdvance, h l hl]
  next => rfl

theorem State.nfExit_not (h1 : (s.pad d).ebb.nf ≠ .exit1) (h2 : (s.pad d).ebb.nf ≠ .exit2) (h3 : (s.pad d).ebb.nf ≠ .exit3) :
    s.nfExit d = s := by
  have hmatch : ∀ ph : NfPhase, ph ≠ .exit1 → ph ≠ .exit2 → ph ≠ .exit3 → ∀ a b c e : State,
      (match ph with | .exit1 => a | .exit2 => b | .exit3 => c | _ => e) = e := by
    intro ph h1 h2 h3 a b c e
    cases ph with
    | exit1 => exact absurd rfl h1
    | exit2 => exact absurd rfl h2
    | exit3 => exact absurd rfl h3
    | _ => rfl
  exact hmatch _ h1 h2 h3 _ _ _ _

/-- The parts of a paddock that say what the Range is doing. -/
def Paddock.rangeView (q : Paddock) : Repl × Conf × Shep := (q.repl, q.conf, q.shep)

section
variable {t : State} (h : ∀ x, (t.pad x).rangeView = (s.pad x).rangeView)
include h

theorem State.leadOf_view : t.leadOf d = s.leadOf d := by
  simp only [Paddock.rangeView, Prod.mk.injEq] at h
  exact State.leadOf_congr_all fun x => ⟨(h x).1, (h x).2.1⟩

theorem State.defAt_view (l : Die) (f : DefKind → Bool) : t.defAt l f = s.defAt l f := by
  simp only [Paddock.rangeView, Prod.mk.injEq] at h
  exact State.defAt_congr (h l).2.2 f

theorem State.oppOp_view (l : Die) : t.oppOp l = s.oppOp l := by
  simp only [State.oppOp, State.defAt_view h]

theorem State.nfOp_view (l : Die) : t.nfOp l = s.nfOp l := State.defAt_view h l _

end

theorem exec_avsbus_none (h : (s.pad d).ebb.avs[rail] = none) :
    exec (.avsbusAck d rail) s = .next s ∧ exec (.avsbusRetry d rail) s = .next s := by
  refine ⟨congrArg Host.Outcome.next ?_, congrArg Host.Outcome.next ?_⟩
  · rw [State.avsAck, h]
  · rw [State.avsRetry, h]

theorem exec_avsbusAck {w : AvsWrite} (h : (s.pad d).ebb.avs[rail] = some w) (hopp : ∀ l, s.leadOf d = some l → s.oppOp l = none)
    (h1 : (s.pad d).ebb.nf ≠ .exit1) (h2 : (s.pad d).ebb.nf ≠ .exit2) (h3 : (s.pad d).ebb.nf ≠ .exit3)
    (hsample : (s.pad d).ebb.sample = none) :
    exec (.avsbusAck d rail) s = .next (s.modPad d fun q => { q with ebb := { q.ebb with
      avs := vset q.ebb.avs rail none, volt := vset q.ebb.volt rail w.mv } }) := by
  refine congrArg Host.Outcome.next ?_
  let f (q : Paddock) : Paddock := { q with ebb := { q.ebb with
      avs := vset q.ebb.avs rail none, volt := vset q.ebb.volt rail w.mv } }
  let u := s.modPad d f
  have hview := ((State.Frame.refl Paddock.rangeView s).modPad d f fun _ => rfl).pads
  have hu : u.pad d = f (s.pad d) := State.pad_modPad_same ..
  have hgoes : u.oppGoes d = u := State.oppGoes_none fun l hl => by
    rw [State.oppOp_view hview]
    exact hopp l ((State.leadOf_view hview).symm.trans hl)
  have hexit : u.nfExit d = u := State.nfExit_not (by rw [hu]; exact h1) (by rw [hu]; exact h2) (by rw [hu]; exact h3)
  have hgo : u.sampleGoes d = u := State.sampleGoes_none (by rw [hu]; exact hsample)
  rw [State.avsAck, h]
  show ((u.oppGoes d).nfExit d).sampleGoes d = u
  rw [hgoes, hexit, hgo]

/-- The paddock in which a write of a rail is issued again. -/
def Paddock.retried (q : Paddock) (rail : RailN) (w : AvsWrite) (k : Nat) : Paddock :=
  { q with
    ebb := { q.ebb with avs := vset q.ebb.avs rail (some { w with tick := q.aon.ticks, retries := k }) }
    census := padCount 0x32 0 16 q.census }

theorem exec_avsbusRetry {w : AvsWrite} (h : (s.pad d).ebb.avs[rail] = some w) :
    exec (.avsbusRetry d rail) s = .next (
      let put (k : Nat) : State := s.modPad d fun q => q.retried rail w k
      if (s.pad d).aon.ticks < w.tick + 500 then s
      else if w.retries < 3 then put (w.retries + 1)
      else if w.retries = 3 then ((put 4).stick d 1).supplyFails d
      else put 4) := by
  refine congrArg Host.Outcome.next ?_
  have hput : ∀ k, ((s.modEbb d fun e => { e with avs := vset e.avs rail (some { w with tick := (s.pad d).ticks, retries := k }) }).pcount
      d 0x32 0) = s.modPad d fun q => q.retried rail w k := by
    intro k
    simp only [State.modEbb, State.pcount, State.modPad_modPad]
    exact State.modPad_congr rfl
  rw [State.avsRetry, h]
  simp only [← State.stick_pcount, hput]
  rfl

theorem State.supplyFails_none (h : ∀ l, s.leadOf d = some l → s.oppOp l = none ∧ s.nfOp l = none) : s.supplyFails d = s := by
  unfold State.supplyFails
  split
  next l hl =>
    obtain ⟨hopp, hnf⟩ := h l hl
    have hfail : s.oppFail l = s := by rw [State.oppFail, hopp]
    rw [hfail, State.nfFail, hnf]
  next => rfl

/-! ### The clock source (19 R493) -/

/-- The paddock whose clock has the point asked for. -/
def Paddock.clocked (q : Paddock) (pt : Point) : Paddock :=
  { q with ebb := { q.ebb with hclkOpack := pt, point := pt }, census := padCount 0x33 0 16 q.census }

theorem exec_hclkOpack_not {pt : Point}
    (h : ¬((s.pad d).ebb.hclkAck = true ∧ pt = (s.pad d).ebb.hclkOp ∧ (s.pad d).ebb.hclkOpack ≠ pt)) :
    exec (.hclkOpack d pt) s = .next s := by
  refine congrArg Host.Outcome.next (if_neg fun hyes => h ?_)
  simpa [and_assoc] using hyes

theorem State.view_clocked (pt : Point) (x : Die) :
    ((s.modPad d fun q => q.clocked pt).pad x).rangeView = (s.pad x).rangeView :=
  ((State.Frame.refl Paddock.rangeView s).modPad d (fun q => q.clocked pt) fun _ => rfl).pads x

/-- A switch that no OPPOINT_SET waits for. -/
theorem exec_hclkOpack {pt : Point} (h : (s.pad d).ebb.hclkAck = true ∧ pt = (s.pad d).ebb.hclkOp ∧ (s.pad d).ebb.hclkOpack ≠ pt)
    (hopp : ∀ l, s.leadOf d = some l → s.oppOp l = none) :
    exec (.hclkOpack d pt) s = .next (
      let u := s.modPad d fun q => q.clocked pt
      if (s.leadOf d).any fun l => (s.oppOp l).isNone then u.loneSwitch d else u) := by
  have hyes : ((s.pad d).ebb.hclkAck && pt == (s.pad d).ebb.hclkOp && (s.pad d).ebb.hclkOpack != pt) = true := by
    simpa [and_assoc] using h
  have hview := State.view_clocked (s := s) (d := d) pt
  have hgoes : (s.modPad d fun q => q.clocked pt).oppGoes d = s.modPad d fun q => q.clocked pt := State.oppGoes_none fun l hl => by
    rw [State.oppOp_view hview]
    exact hopp l ((State.leadOf_view hview).symm.trans hl)
  have hstep : ((s.modEbb d fun e => { e with hclkOpack := pt, point := pt }).pcount d 0x33 0) = s.modPad d fun q => q.clocked pt := by
    simp only [State.modEbb, State.pcount, State.modPad_modPad]
    rfl
  refine congrArg Host.Outcome.next ((if_pos hyes).trans ?_)
  rw [hstep, hgoes]

theorem State.loneSwitch_some {u : State} {l : Die} (hl : u.leadOf d = some l) (hopp : u.oppOp l = none) :
    u.loneSwitch d = if u.allClocked l then u.writePaces (u.members l) (u.mhz l) else u := by
  simp only [State.loneSwitch, hl, hopp, Option.isNone_none, Bool.true_and]

theorem State.allClocked_clocked {pt : Point} (hpt : pt = (s.pad d).ebb.hclkOp) (l : Die) :
    (s.modPad d fun q => q.clocked pt).allClocked l = true ↔
      ∀ x ∈ s.members l, x ≠ d → (s.pad x).ebb.hclkOp = (s.pad x).ebb.hclkOpack := by
  have hmembers : (s.modPad d fun q => q.clocked pt).members l = s.members l := by
    have hview := State.view_clocked (s := s) (d := d) pt l
    simp only [Paddock.rangeView, Prod.mk.injEq] at hview
    simp only [State.members, hview.1]
  simp only [State.allClocked, hmembers, List.all_eq_true, beq_iff_eq]
  refine forall₂_congr fun x _ => ?_
  by_cases hx : x = d
  · subst hx
    rw [State.pad_modPad_same]
    exact ⟨fun _ h => absurd rfl h, fun _ => hpt.symm⟩
  · rw [State.pad_modPad_other _ _ _ _ hx]
    exact ⟨fun h _ => h, fun h => h hx⟩

end

/-! ### The operating-point switch (14 R373) -/

section
variable {s : State} {lead : Die} {o : OppOp}

theorem State.oppOp_some (h : s.oppOp lead = some o) :
    ∃ e, s.defAt lead DefKind.isOpp = some e ∧ e.id = o.id ∧ o.lead = lead ∧ e.kind = .oppoint o.pt o.old o.ph o.since := by
  unfold State.oppOp at h
  split at h
  next e he =>
    refine ⟨e, he, ?_⟩
    split at h
    next pt old ph t hkind =>
      obtain rfl := Option.some.inj h
      exact ⟨rfl, rfl, hkind⟩
    next => exact absurd h (by simp)
  next => exact absurd h (by simp)

/-- S has come where every clock has followed and 4,000 ns have passed. -/
theorem State.oppSwitchOf_armed (h : s.oppOp lead = some o) (hph : o.ph = .armed) :
    s.oppSwitchOf lead = if ∀ x ∈ s.members o.lead, o.since + 4000 ≤ (s.pad x).now ∧ (s.pad x).ebb.hclkOp = (s.pad x).ebb.hclkOpack then
      ((s.askPoint lead o.pt).oppPhase o .clock).oppAdvance lead else s := by
  obtain ⟨-, -, -, hlead, -⟩ := State.oppOp_some h
  unfold State.oppSwitchOf
  simp only [h, hph]
  refine if_congr ?_ rfl rfl
  simp only [State.allClocked, Bool.and_eq_true, List.all_eq_true, beq_iff_eq, decide_eq_true_eq, hlead]
  exact ⟨fun ⟨ha, hb⟩ x hx => ⟨hb x hx, ha x hx⟩, fun hall => ⟨fun x hx => (hall x hx).2, fun x hx => (hall x hx).1⟩⟩

/-- Every member's Ebb has asked its clock source for the point, and the operation waits for the clocks. -/
def State.switchAsked (s : State) (o : OppOp) : State := (s.askPoint o.lead o.pt).oppPhase o .clock

/-- What the switch leaves of each paddock: the point asked for in the members, and the leader's phase. -/
theorem State.pad_switchAsked (x : Die) :
    ((s.switchAsked o).pad x).ebb = (if x ∈ s.members o.lead then { (s.pad x).ebb with hclkOp := o.pt } else (s.pad x).ebb) ∧
      ((s.switchAsked o).pad x).repl = (s.pad x).repl ∧
      ((s.switchAsked o).pad x).shep.deferred = (if x = o.lead then
        updateWhere (fun e : Deferred => e.id == o.id) (fun e => { e with
          kind := .oppoint o.pt o.old .clock ((s.askPoint o.lead o.pt).pad o.lead).now }) (s.pad x).shep.deferred
        else (s.pad x).shep.deferred) := by
  let u := s.askPoint o.lead o.pt
  have hask : u.pad x = if x ∈ s.members o.lead then { s.pad x with ebb := { (s.pad x).ebb with hclkOp := o.pt } } else s.pad x :=
    State.pad_members s o.lead (fun q => { q with ebb := { q.ebb with hclkOp := o.pt } }) x
  have hparts : (u.pad x).ebb = (if x ∈ s.members o.lead then { (s.pad x).ebb with hclkOp := o.pt } else (s.pad x).ebb) ∧
      (u.pad x).repl = (s.pad x).repl ∧ (u.pad x).shep = (s.pad x).shep := by
    rw [hask]
    split <;> exact ⟨rfl, rfl, rfl⟩
  obtain ⟨hebb, hrepl, hshep⟩ := hparts
  have hdef : (s.switchAsked o).pad x = if x = o.lead then { u.pad x with shep := { (u.pad x).shep with
      deferred := updateWhere (fun e : Deferred => e.id == o.id) (fun e => { e with
        kind := .oppoint o.pt o.old .clock (u.pad o.lead).now }) (u.pad x).shep.deferred } } else u.pad x := by
    rw [State.switchAsked, State.oppPhase, State.modDef, State.modShep, State.pad_modPad]
    by_cases hx : x = o.lead
    · rw [if_pos hx, if_pos hx, ← hx]
      simp only [u, ← hx]
    · rw [if_neg hx, if_neg hx]
  rw [hdef]
  by_cases hx : x = o.lead
  · rw [if_pos hx, if_pos hx]
    refine ⟨hebb, hrepl, ?_⟩
    show updateWhere _ _ (u.pad x).shep.deferred = _
    rw [hshep]
  · rw [if_neg hx, if_neg hx]
    exact ⟨hebb, hrepl, congrArg Shep.deferred hshep⟩

/-- The command of a phase is still found once every entry of its number has another. -/
theorem find_updateWhere_isOpp {l : List Deferred} {e : Deferred} {kind : DefKind} (hkind : kind.isOpp = true)
    (h : l.find? (fun o => DefKind.isOpp o.kind) = some e) :
    ∃ e', (updateWhere (fun o : Deferred => o.id == e.id) (fun o => { o with kind := kind }) l).find? (fun o => DefKind.isOpp o.kind) =
      some e' ∧ e'.kind = kind := by
  induction l with
  | nil => exact absurd h (by simp)
  | cons a l ih =>
    simp only [updateWhere, List.map_cons, List.find?_cons] at h ⊢
    by_cases hid : (a.id == e.id) = true
    · simp only [hid, if_true, hkind]
      exact ⟨_, rfl, rfl⟩
    · simp only [hid, Bool.false_eq_true, if_false]
      cases ha : DefKind.isOpp a.kind with
      | true =>
        simp only [ha, Option.some.injEq] at h
        exact absurd (beq_iff_eq.mpr (congrArg Deferred.id h)) hid
      | false =>
        simp only [ha] at h
        exact ih h

/-- The clocks are still to follow, in a member at least. -/
theorem State.switchAsked_waits (h : s.oppOp lead = some o)
    (hlate : ∃ x ∈ s.members o.lead, (s.pad x).ebb.hclkOpack ≠ o.pt) : (s.switchAsked o).oppAdvance lead = s.switchAsked o := by
  obtain ⟨e, he, hid, hlead, -⟩ := State.oppOp_some h
  let t := s.switchAsked o
  have hpad := State.pad_switchAsked (s := s) (o := o)
  have hclocks : t.allClocked lead = false := by
    obtain ⟨x, hx, hne⟩ := hlate
    rw [Bool.eq_false_iff]
    intro hall
    have hmembers : t.members lead = s.members lead := by simp only [State.members, t, (hpad lead).2.1]
    simp only [State.allClocked, hmembers, List.all_eq_true, beq_iff_eq] at hall
    have hx' := hall x (hlead ▸ hx)
    rw [(hpad x).1, if_pos hx] at hx'
    exact hne hx'.symm
  obtain ⟨e', he', hkind'⟩ := find_updateWhere_isOpp
    (kind := .oppoint o.pt o.old .clock ((s.askPoint o.lead o.pt).pad o.lead).now) rfl he
  have hdef : t.defAt lead DefKind.isOpp = some e' := by
    rw [State.defAt, (hpad lead).2.2, if_pos hlead.symm, ← hid]
    exact he'
  have hopp : t.oppOp lead = some ⟨lead, e'.id, o.pt, o.old, .clock, ((s.askPoint o.lead o.pt).pad o.lead).now⟩ := by
    rw [State.oppOp, hdef]
    simp only [hkind']
  show t.oppAdvance lead = t
  rw [State.oppAdvance, hopp]
  simp only [hclocks, Bool.false_eq_true, if_false]

theorem exec_oppointSwitch_one (hlead : lead ∈ s.leaders) (hothers : ∀ l ∈ s.leaders, l ≠ lead → s.oppOp l = none)
    (hframe : ∀ l, l ≠ lead → ((s.oppSwitchOf lead).pad l).shep.deferred = (s.pad l).shep.deferred) :
    exec .oppointSwitch s = .next (s.oppSwitchOf lead) := by
  refine congrArg Host.Outcome.next (State.leaders_foldl_one _ hlead (fun u hu l hl hld => ?_) hframe)
  have hop : u.oppOp l = none := by
    have := hothers l hl hld
    simp only [State.oppOp, State.defAt] at this ⊢
    rw [hu l hld]
    exact this
  rw [State.oppSwitchOf, hop]

end

/-- Settles O45. -/
theorem suppliesAndClocksFollow : Obligations.SuppliesAndClocksFollow := by
  unfold Obligations.SuppliesAndClocksFollow
  intro s d e
  refine ⟨fun rail => ⟨exec_avsbus_none, fun w h => ⟨fun hopp h1 h2 h3 hsample => exec_avsbusAck h hopp h1 h2 h3 hsample,
    fun hearly => (exec_avsbusRetry h).trans (congrArg _ (if_pos hearly)), fun hdue => ?_⟩⟩, fun pt => ?_,
    fun lead o hlead hothers hopp hph => ?_⟩
  · intro put
    have hexec := (exec_avsbusRetry h).trans (congrArg _ (if_neg (Nat.not_lt.mpr hdue)))
    refine ⟨fun hfew => hexec.trans (congrArg _ (if_pos hfew)), fun hthree hnone => ?_, fun hmany => ?_⟩
    · refine hexec.trans (congrArg _ ((if_neg (by omega)).trans ((if_pos hthree).trans (State.supplyFails_none fun l hl => ?_))))
      have hview := (((State.Frame.refl Paddock.rangeView s).modPad d (fun q => q.retried rail w 4) fun _ => rfl).stick
        (fun _ _ => rfl) (fun _ _ => rfl) d 1).pads
      rw [State.oppOp_view hview, State.nfOp_view hview]
      exact hnone l ((State.leadOf_view hview).symm.trans hl)
    · exact hexec.trans (congrArg _ ((if_neg (by omega)).trans (if_neg (by omega))))
  · intro moves
    refine ⟨exec_hclkOpack_not, ?_⟩
    intro u
    refine ⟨fun hmoves hnone => ?_, fun hmoves l hl hnone => ?_⟩
    · refine (exec_hclkOpack hmoves fun l hl => ?_).trans ?_
      · rw [hnone] at hl
        exact absurd hl (by simp)
      · rw [hnone]
        rfl
    · have hlone : ((s.leadOf d).any fun l => (s.oppOp l).isNone) = true := by
        rw [hl]
        exact congrArg Option.isNone hnone
      have hexec := (exec_hclkOpack hmoves fun y hy => by
        obtain rfl : l = y := Option.some.inj (hl.symm.trans hy)
        exact hnone).trans (congrArg _ (if_pos hlone))
      have hview := State.view_clocked (s := s) (d := d) pt
      have hswitch := State.loneSwitch_some ((State.leadOf_view hview).trans hl) ((State.oppOp_view hview l).trans hnone)
      have hiff := State.allClocked_clocked hmoves.2.1 l
      refine ⟨fun ⟨x, hx, hxd, hne⟩ => hexec.trans (congrArg _ (hswitch.trans (if_neg fun hall => hne (hiff.mp hall x hx hxd)))),
        fun hall => hexec.trans (congrArg _ (hswitch.trans (if_pos (hiff.mpr hall))))⟩
  · intro due
    have harmed := State.oppSwitchOf_armed hopp hph
    refine ⟨fun hno => ?_, fun hdue hlate => ?_⟩
    · have hstays := harmed.trans (if_neg hno)
      exact (exec_oppointSwitch_one hlead hothers fun l _ => by rw [hstays]).trans (congrArg _ hstays)
    · obtain ⟨-, -, -, hlead', -⟩ := State.oppOp_some hopp
      have hswitch : s.oppSwitchOf lead = s.switchAsked o := by
        refine harmed.trans ((if_pos hdue).trans ?_)
        have hwaits := State.switchAsked_waits hopp hlate
        rw [State.switchAsked, hlead'] at hwaits
        rw [State.switchAsked, hlead']
        exact hwaits
      have hpad := State.pad_switchAsked (s := s) (o := o)
      have hexec := (exec_oppointSwitch_one hlead hothers fun l hl => by
        rw [hswitch, (hpad l).2.2, if_neg fun h => hl (h.trans hlead')]).trans (congrArg _ hswitch)
      obtain ⟨t, ht, hkrovol, hpending, -⟩ := commandsKeepParametersQueueAndTime .oppointSwitch s
      obtain rfl := Host.Outcome.next.inj (ht.symm.trans hexec)
      have htether : (s.switchAsked o).tether = s.tether :=
        (State.foldl_modPad_rest (fun q => { q with ebb := { q.ebb with hclkOp := o.pt } }) (s.members o.lead) s).2.1
      exact ⟨_, hexec, hkrovol, htether, hpending, fun x => (hpad x).1⟩

end Sys2Proof.Machine
end

section
/-!
What a fold at work leaves of the state, what a time limit brings at a fold, and the statement O27 (11 R290, R292, 14 R367).
-/

namespace Sys2Proof.Machine

/-! ### A fold at work that reports nothing to stop it, and nothing to another die -/

/-- What a fold at work leaves of its paddock: the fold, its flits at their ford, and its reports in the Bell. -/
def Paddock.worked (q : Paddock) (c : FC) : Paddock :=
  { Paddock.offer { q with folds := vset q.folds c.p c.f, aon := { q.aon with wayFails := c.fails } } c.out with
    bell := { q.bell with inbox := q.bell.inbox ++ c.reps } }

/-- A fold at work has nothing for Hurdle, and its reports go to its own Bell and do not halt it. -/
structure FC.Plain (c : FC) : Prop where
  acts : c.acts = []
  reps : ∀ r ∈ c.reps, dieOf r.subject = c.die ∧ codeClass r.code ≠ .ft

theorem State.ftReact_mild {s : State} {r : Report} (h : codeClass r.code ≠ .ft) : s.ftReact r = s := by
  cases hfold : r.fromFold with
  | none => simp only [State.ftReact, hfold]
  | some x => simp only [State.ftReact, hfold, beq_eq_false_iff_ne.2 h, Bool.false_and, if_neg Bool.false_ne_true]

theorem State.file_home {s : State} {d : Die} {r : Report} (hsubj : dieOf r.subject = d) (h : codeClass r.code ≠ .ft) :
    s.file d r = s.modPad d fun q => q.receive r := by
  rw [State.file, State.ftReact_mild h]
  simp [hsubj, Paddock.receive]

theorem State.fileAll_home {d : Die} {l : List Report} (s : State)
    (h : ∀ r ∈ l, dieOf r.subject = d ∧ codeClass r.code ≠ .ft) :
    s.fileAll d l = s.modPad d fun q => { q with bell := { q.bell with inbox := q.bell.inbox ++ l } } := by
  induction l generalizing s with
  | nil => simp only [State.fileAll, List.foldl_nil, List.append_nil]; exact (State.modPad_eq_self _ _ _ rfl).symm
  | cons r l ih =>
    obtain ⟨hsubj, hclass⟩ := h r (List.mem_cons_self ..)
    have htail := ih (s.file d r) fun x hx => h x (List.mem_cons_of_mem _ hx)
    simp only [State.fileAll, List.foldl_cons] at htail ⊢
    rw [htail, State.file_home hsubj hclass, State.modPad_modPad]
    exact State.modPad_congr (by simp [Paddock.receive])

theorem State.putFc_plain {s : State} {c : FC} (h : c.Plain) : s.putFc c = s.modPad c.die fun q => q.worked c := by
  simp only [State.putFc, h.acts, List.foldl_nil]
  rw [State.fileAll_home _ h.reps, State.modPad_modPad]
  rfl

theorem vset_get_other {α : Type} {n : Nat} (v : Vector α n) (i j : Fin n) (x : α) (h : j ≠ i) : (vset v i x)[j] = v[j] := by
  have : i.val ≠ j.val := fun e => h (Fin.ext e.symm)
  simp [vset, Vector.getElem_set_ne, this]

section
variable (q : Paddock) (c : FC)
@[simp] theorem Paddock.worked_fold : (q.worked c).folds[c.p] = c.f := vset_get_same _ _ _
theorem Paddock.worked_folds {k : PFold} (h : k ≠ c.p) : (q.worked c).folds[k] = q.folds[k] := vset_get_other _ _ _ _ h
@[simp] theorem Paddock.worked_inbox : (q.worked c).bell.inbox = q.bell.inbox ++ c.reps := rfl
@[simp] theorem Paddock.worked_inj : (q.worked c).stream.inj =
    q.stream.inj ++ c.out.map fun i => { i with held := bitAt q.ebb.fenceReq i.pos } := rfl
@[simp] theorem Paddock.worked_gates : (q.worked c).gates = q.gates := rfl
@[simp] theorem Paddock.worked_stiles : (q.worked c).stiles = q.stiles := rfl
theorem Paddock.worked_stream (h : c.out = []) : (q.worked c).stream = q.stream := by
  simp [Paddock.worked, Paddock.offer, h]
end

theorem FC.dieOf_agent (c : FC) : dieOf c.agent = c.die := by
  unfold FC.agent
  split
  · exact dieOf_foldAgent _ _
  · exact Sys2Proof.Machine.dieOf_agent _ (by decide)

/-- A fold event whose result is plain changes its own paddock as told. -/
theorem State.runFold_plain {s : State} {d : Die} {p : PFold} {g : FC → FC} {c : FC} (hg : g (s.fc d p) = c) (hdie : c.die = d)
    (h : c.Plain) : s.runFold d p g = s.modPad d fun q => q.worked c := by
  subst hdie
  rw [State.runFold, hg, State.putFc_plain h]

/-! ### Time limits (11 R290, R292) -/

/-- A fold at work that files one mild report about itself, and sends what it sends. -/
theorem FC.Plain.of_self {c : FC} {r : Report} (hacts : c.acts = []) (hreps : c.reps = [r]) (hsubj : dieOf r.subject = c.die)
    (code : BitVec 12) (hcode : r.code = code) (hclass : codeClass code ≠ .ft) : c.Plain := by
  refine ⟨hacts, fun x hx => ?_⟩
  rw [hreps, List.mem_singleton] at hx
  rw [hx]
  exact ⟨hsubj, hcode ▸ hclass⟩

/-- The entry of a table that holds one entry, changed. -/
theorem updateWhere_one {α : Type} {f : α → Bool} {g : α → α} {x : α} (h : f x = true) : updateWhere f g [x] = [g x] := by
  simp [updateWhere, h]

theorem FC.entry_one {c : FC} {e : TTEntry} (h : c.f.tt = [e]) : c.entry e.idx = some e := by
  simp [FC.entry, h]

/-- A fold whose one entry is beyond its share files 0xD03 about it, once. -/
theorem FC.shareMiss_due {c : FC} {e : TTEntry} (htt : c.f.tt = [e]) (hack : e.phase ≠ .ackwait) (horph : e.phase ≠ .orphan)
    (honce : e.shareMissed = false) (hdue : e.shareBy ≤ c.now) :
    c.shareMiss e.idx =
      ((c.repSelf 0xD03 (some (lineAddr e.line)) e.atype).ev 0x30).modEntry e.idx fun x => { x with shareMissed := true } := by
  simp [FC.shareMiss, FC.entry_one htt, hack, horph, honce, hdue]

theorem FC.missed_tt {c : FC} {e : TTEntry} {code : Nat} {a : Option Addr} {atype : BitVec 6} {sel : Nat} {g : TTEntry → TTEntry}
    (htt : c.f.tt = [e]) : (((c.repSelf code a atype).ev sel).modEntry e.idx g).f.tt = [g e] := by
  simp only [FC.modEntry, FC.ev, FC.repSelf, FC.rep, htt]
  exact updateWhere_one (beq_self_eq_true _)

theorem FC.shareMiss_early {c : FC} {e : TTEntry} (htt : c.f.tt = [e]) (hearly : c.now < e.shareBy) : c.shareMiss e.idx = c := by
  simp [FC.shareMiss, FC.entry_one htt, Nat.not_le.2 hearly]

theorem FC.atLimit_due {c : FC} {it : PenItem} (hpens : c.f.pens = [it]) (hdue : it.af ≤ c.now) :
    c.atLimit (.item it.flit.src it.flit.txid) = c.abandonItem it := by
  simp [FC.atLimit, hpens, hdue]

theorem FC.atLimit_early {c : FC} {it : PenItem} (hpens : c.f.pens = [it]) (hearly : c.now < it.af) :
    c.atLimit (.item it.flit.src it.flit.txid) = c := by
  simp [FC.atLimit, hpens, Nat.not_le.2 hearly]

/-- A fold event that does nothing changes nothing. -/
theorem State.putFc_fc (s : State) (d : Die) (p : PFold) : s.putFc (s.fc d p) = s := by
  rw [State.putFc_silent rfl rfl rfl rfl]
  exact State.modPad_eq_self _ _ _ (congrArg (fun v => { s.pad d with folds := v }) (vmod_eq_self _ _ _ rfl))

theorem State.foldShareExceeded_early {s : State} {d : Die} {p : PFold} {e : TTEntry} (htt : ((s.pad d).folds[p]).tt = [e])
    (hearly : (s.pad d).now < e.shareBy) : exec (.foldShareExceeded d p e.idx) s = .next s := by
  have hsame : (s.fc d p).shareMiss e.idx = s.fc d p := FC.shareMiss_early htt hearly
  have hrun : s.runFold d p (fun c => c.shareMiss e.idx) = s := by rw [State.runFold, hsame, State.putFc_fc]
  change Host.Outcome.next (if (s.pad d).foldRuns p then _ else _) = _
  rw [hrun, ite_self]

theorem State.transactionAbandoned_early {s : State} {d : Die} {p : PFold} {it : PenItem}
    (hpens : ((s.pad d).folds[p]).pens = [it]) (hearly : (s.pad d).now < it.af) :
    exec (.transactionAbandoned d p (.item it.flit.src it.flit.txid)) s = .next s := by
  have hsame : (s.fc d p).atLimit (.item it.flit.src it.flit.txid) = s.fc d p := FC.atLimit_early hpens hearly
  have hrun : s.runFold d p (fun c => c.atLimit (.item it.flit.src it.flit.txid)) = s := by
    rw [State.runFold, hsame, State.putFc_fc]
  change Host.Outcome.next (if (s.pad d).foldRuns p then _ else _) = _
  rw [hrun, ite_self]

theorem State.foldShareExceeded_due {s : State} {d : Die} {p : PFold} {e : TTEntry} (hruns : (s.pad d).foldRuns p = true)
    (htt : ((s.pad d).folds[p]).tt = [e]) (hack : e.phase ≠ .ackwait) (horph : e.phase ≠ .orphan)
    (honce : e.shareMissed = false) (hdue : e.shareBy ≤ (s.pad d).now) :
    ∃ t, exec (.foldShareExceeded d p e.idx) s = .next t ∧ s.OnlyPad t d ∧
      ((t.pad d).folds[p]).tt = [{ e with shareMissed := true }] ∧ (t.pad d).stream = (s.pad d).stream ∧
      (s.pad d).Filed (t.pad d) (s.foldReport d p 0xD03 (lineAddr e.line) e.atype) := by
  have hg : (s.fc d p).shareMiss e.idx = _ := FC.shareMiss_due htt hack horph honce hdue
  have hrun := State.runFold_plain (d := d) (g := fun c => c.shareMiss e.idx) hg rfl
    (.of_self (r := s.foldReport d p 0xD03 (lineAddr e.line) e.atype) rfl rfl (FC.dieOf_agent _) 0xD03 rfl (by decide))
  have hexec : exec (.foldShareExceeded d p e.idx) s = .next (s.runFold d p fun c => c.shareMiss e.idx) :=
    congrArg Host.Outcome.next (if_pos hruns)
  rw [hrun] at hexec
  refine ⟨_, hexec, (State.OnlyPad.refl s d).modPad _, ?_, ?_, ?_⟩
  · rw [State.pad_modPad_same]
    refine (congrArg Fold.tt (Paddock.worked_fold _ _)).trans ?_
    exact FC.missed_tt htt
  · rw [State.pad_modPad_same]
    exact Paddock.worked_stream _ _ rfl
  · rw [State.pad_modPad_same]
    rfl

/-- What is left of a fold's one pen item at its abandon limit (11 R292). -/
theorem FC.abandonItem_one {c : FC} {it : PenItem} (hpens : c.f.pens = [it]) :
    (c.abandonItem it).f.pens = [] ∧ (c.abandonItem it).f.tt = c.f.tt := by
  have : (c.takeItem it).f.pens = [] := by simp [FC.takeItem, hpens]
  exact ⟨this, rfl⟩

theorem State.transactionAbandoned_due {s : State} {d : Die} {p : PFold} {it : PenItem} (hruns : (s.pad d).foldRuns p = true)
    (hpens : ((s.pad d).folds[p]).pens = [it]) (hdue : it.af ≤ (s.pad d).now) :
    ∃ t, exec (.transactionAbandoned d p (.item it.flit.src it.flit.txid)) s = .next t ∧ s.OnlyPad t d ∧
      ((t.pad d).folds[p]).pens = [] ∧ ((t.pad d).folds[p]).tt = ((s.pad d).folds[p]).tt ∧
      (s.pad d).Filed (t.pad d) (s.foldReport d p 0xD02 it.flit.addr it.flit.op.code) ∧
      (t.pad d).stream.inj = (s.pad d).stream.inj ++ [s.foldAnswer d p it.flit
        { op := .err, src := (s.fc d p).agent, tgt := it.flit.src, txid := it.flit.txid, ecode := 2 }] ∧
      (∀ k, k ≠ p → (t.pad d).folds[k] = (s.pad d).folds[k]) := by
  have hg : (s.fc d p).atLimit (.item it.flit.src it.flit.txid) = (s.fc d p).abandonItem it := FC.atLimit_due hpens hdue
  have hrun := State.runFold_plain (d := d) (g := fun c => c.atLimit (.item it.flit.src it.flit.txid)) hg rfl
    (.of_self (r := s.foldReport d p 0xD02 it.flit.addr it.flit.op.code) rfl rfl (FC.dieOf_agent _) 0xD02 rfl (by decide))
  have hexec : exec (.transactionAbandoned d p (.item it.flit.src it.flit.txid)) s =
      .next (s.runFold d p fun c => c.atLimit (.item it.flit.src it.flit.txid)) :=
    congrArg Host.Outcome.next (if_pos hruns)
  rw [hrun] at hexec
  obtain ⟨hgone, htt⟩ := FC.abandonItem_one (c := s.fc d p) hpens
  refine ⟨_, hexec, (State.OnlyPad.refl s d).modPad _, ?_, ?_, ?_, ?_, fun k hk => ?_⟩ <;> rw [State.pad_modPad_same]
  · exact (congrArg Fold.pens (Paddock.worked_fold _ _)).trans hgone
  · exact (congrArg Fold.tt (Paddock.worked_fold _ _)).trans htt
  · rfl
  · rfl
  · exact Paddock.worked_folds _ _ hk

/-- Settles O27: each limit is one comparison of its event, and what follows is one fold event that files a report of its own. -/
theorem foldTimesRunOut : Obligations.FoldTimesRunOut := by
  intro s d p f x
  refine ⟨fun hrun htarget hstate hgated hbusy => ?_, rfl, fun hruns => ⟨fun e htt hack horph honce => ⟨?_, ?_⟩, fun it hpens => ⟨?_, ?_⟩⟩⟩
  · refine congrArg Host.Outcome.next ?_
    simp only [x] at htarget hstate hgated
    simp only [hrun, htarget, hstate, hgated, hbusy, beq_self_eq_true, Bool.not_false, Bool.and_true, Bool.true_and,
      decide_eq_true_eq]
    rfl
  · exact State.foldShareExceeded_early htt
  · exact State.foldShareExceeded_due hruns htt hack horph honce
  · exact State.transactionAbandoned_early hpens
  · exact State.transactionAbandoned_due hruns hpens

end Sys2Proof.Machine
end

section
/-!
What a Gate or Stile at work leaves of the state, and the statement O37: a target Stile serves its device (08 R212, R223,
19 R509).
-/

namespace Sys2Proof.Machine

/-! ### A Gate or Stile at work whose reports go to its own Bell -/

/-- What a Gate or Stile at work leaves of its paddock: its port, its flits at their ford, its reports in the Bell, and what
it counted. -/
def Paddock.ported (q : Paddock) (c : AC) : Paddock :=
  let u := (q.modAgent c.n fun _ => c.a).offer c.out
  { u with
    bell := { u.bell with inbox := u.bell.inbox ++ c.reps }
    census := c.counts.foldl (fun x k => padCount k.1 k.2 16 x) u.census }

theorem State.foldl_pcount (s : State) (d : Die) (l : List (Nat × Nat)) :
    l.foldl (fun s x => s.pcount d x.1 x.2) s =
      s.modPad d fun q => { q with census := l.foldl (fun x k => padCount k.1 k.2 16 x) q.census } := by
  induction l generalizing s with
  | nil => exact (State.modPad_eq_self _ _ _ rfl).symm
  | cons x l ih =>
    rw [List.foldl_cons, ih, State.pcount, State.modPad_modPad]
    simp only [List.foldl_cons]

theorem State.putAc_own {s : State} {c : AC} (h : ∀ r ∈ c.reps, dieOf r.subject = c.die ∧ codeClass r.code ≠ .ft) :
    s.putAc c = s.modPad c.die fun q => q.ported c := by
  rw [State.putAc, State.foldl_pcount, State.fileAll_home _ h, State.modPad_modPad, State.modPad_modPad]
  rfl

theorem Paddock.agent_modAgent (q : Paddock) (n : AgentN) (f : AgentPort → AgentPort) : (q.modAgent n f).agent n = f (q.agent n) := by
  unfold Paddock.agent Paddock.modAgent
  split <;> exact vmod_get_same _ _ _

theorem Paddock.modAgent_self (q : Paddock) (n : AgentN) : (q.modAgent n fun _ => q.agent n) = q := by
  unfold Paddock.agent Paddock.modAgent
  split
  · rw [vmod_eq_self _ _ _ rfl]
  · rw [vmod_eq_self _ _ _ rfl]

theorem Paddock.modAgent_rest (q : Paddock) (n : AgentN) (f : AgentPort → AgentPort) :
    (q.modAgent n f).stream = q.stream ∧ (q.modAgent n f).bell = q.bell ∧ (q.modAgent n f).folds = q.folds ∧
      (q.modAgent n f).ebb = q.ebb ∧ (q.modAgent n f).shep = q.shep := by
  unfold Paddock.modAgent
  split <;> exact ⟨rfl, rfl, rfl, rfl, rfl⟩

section
variable (q : Paddock) (c : AC)

theorem Paddock.ported_agent : (q.ported c).agent c.n = c.a := q.agent_modAgent c.n fun _ => c.a

theorem Paddock.ported_inbox : (q.ported c).bell.inbox = q.bell.inbox ++ c.reps :=
  congrArg (fun b : Bell => b.inbox ++ c.reps) (q.modAgent_rest c.n _).2.1

theorem Paddock.ported_folds : (q.ported c).folds = q.folds := (q.modAgent_rest c.n _).2.2.1

theorem Paddock.ported_shep : (q.ported c).shep = q.shep := (q.modAgent_rest c.n _).2.2.2.2

theorem Paddock.ported_inj : (q.ported c).stream.inj =
    q.stream.inj ++ c.out.map fun i => { i with held := bitAt q.ebb.fenceReq i.pos } := by
  obtain ⟨hstream, -, -, hebb, -⟩ := q.modAgent_rest c.n fun _ => c.a
  simp only [Paddock.ported, Paddock.offer, hstream, hebb]

theorem Paddock.ported_stream (h : c.out = []) : (q.ported c).stream = q.stream := by
  obtain ⟨hstream, -, -, -, -⟩ := q.modAgent_rest c.n fun _ => c.a
  simp only [Paddock.ported, Paddock.offer, hstream, h, List.map_nil, List.append_nil]
end

/-- An event of a Gate or Stile that files reports of its own at most. -/
theorem State.runAgent_own {s : State} {d : Die} {n : AgentN} {g : AC → AC} {c : AC} (hlive : s.agentLive d n = true)
    (hg : g (s.ac d n) = c) (hdie : c.die = d) (h : ∀ r ∈ c.reps, dieOf r.subject = d ∧ codeClass r.code ≠ .ft) :
    s.runAgent d n g = s.modPad d fun q => q.ported c := by
  subst hdie
  rw [State.runAgent, if_pos hlive, hg, State.putAc_own h]

/-- An event of a Gate or Stile that files and counts nothing. -/
theorem State.runAgent_calm {s : State} {d : Die} {n : AgentN} {g : AC → AC} {c : AC} (hlive : s.agentLive d n = true)
    (hg : g (s.ac d n) = c) (hdie : c.die = d) (hn : c.n = n) (hreps : c.reps = []) (hcounts : c.counts = []) :
    s.runAgent d n g = (s.withAgent d n c.a).sends d c.out := by
  rw [State.runAgent_own hlive hg hdie (by rw [hreps]; exact fun _ h => absurd h List.not_mem_nil), State.sends, State.withAgent,
    State.modAgent, State.modPad_modPad]
  refine State.modPad_congr ?_
  simp only [Paddock.ported, hn, hreps, hcounts, List.append_nil, List.foldl_nil]

/-- Whether a flit's ford is fenced is read when it is handed over (09 R250). -/
theorem State.sends_congr (s : State) (d : Die) {l m : List InjItem}
    (h : l.map (fun i => { i with held := bitAt (s.pad d).ebb.fenceReq i.pos }) =
      m.map fun i => { i with held := bitAt (s.pad d).ebb.fenceReq i.pos }) : s.sends d l = s.sends d m :=
  State.modPad_congr (by simp only [Paddock.offer, h])

theorem State.sends_nil (s : State) (d : Die) : s.sends d [] = s := State.modPad_eq_self _ _ _ (Paddock.offer_nil _)

/-- An event of a Gate or Stile that does not send either. -/
theorem State.runAgent_silent {s : State} {d : Die} {n : AgentN} {g : AC → AC} {c : AC} (hlive : s.agentLive d n = true)
    (hg : g (s.ac d n) = c) (hdie : c.die = d) (hn : c.n = n) (hreps : c.reps = []) (hcounts : c.counts = [])
    (hout : c.out = []) : s.runAgent d n g = s.withAgent d n c.a := by
  rw [State.runAgent_calm hlive hg hdie hn hreps hcounts, hout, State.sends_nil]

theorem localOf_portAgent_lt (n : AgentN) : (if n.val < 4 then n.val else n.val + 4) < 128 := by
  have := n.isLt
  split <;> omega

theorem dieOf_portAgent (d : Die) (n : AgentN) : dieOf (portAgent d n) = d :=
  Sys2Proof.Machine.dieOf_agent _ (localOf_portAgent_lt n)

/-- What follows an event of a Gate or Stile that files one report about itself and sends what it sends. -/
theorem State.runAgent_reports {s : State} {d : Die} {n : AgentN} {g : AC → AC} {c : AC} {r : Report}
    (hlive : s.agentLive d n = true) (hg : g (s.ac d n) = c) (hdie : c.die = d) (hn : c.n = n) (hreps : c.reps = [r])
    (hsubj : r.subject = portAgent d n) (hclass : codeClass r.code ≠ .ft) :
    let t := s.runAgent d n g
    s.OnlyPad t d ∧ (t.pad d).agent n = c.a ∧ (s.pad d).Filed (t.pad d) r ∧
      (t.pad d).stream.inj = (s.pad d).stream.inj ++ c.out.map (fun i => { i with held := bitAt (s.pad d).ebb.fenceReq i.pos }) ∧
      (c.out = [] → (t.pad d).stream = (s.pad d).stream) := by
  intro t
  have hmild : ∀ x ∈ c.reps, dieOf x.subject = d ∧ codeClass x.code ≠ .ft := by
    rw [hreps]
    intro x hx
    rw [List.mem_singleton.1 hx, hsubj]
    exact ⟨dieOf_portAgent d n, hclass⟩
  have ht : t = s.modPad d fun q => q.ported c := State.runAgent_own hlive hg hdie hmild
  have hpad : t.pad d = (s.pad d).ported c := by rw [ht, State.pad_modPad_same]
  refine ⟨ht ▸ (State.OnlyPad.refl s d).modPad _, ?_, ?_, ?_, fun hout => ?_⟩ <;> rw [hpad]
  · rw [← hn]; exact Paddock.ported_agent _ _
  · rw [Paddock.Filed, Paddock.ported_inbox, hreps]
  · exact Paddock.ported_inj _ _
  · exact Paddock.ported_stream _ _ hout

/-! ### The device of a target Stile -/

theorem takeFirst_one {α : Type} {f : α → Bool} {x : α} (h : f x = true) : takeFirst f [x] = some (x, []) := by
  simp [takeFirst, h]

theorem takeFirst_none {α : Type} {f : α → Bool} {x : α} (h : f x = false) : takeFirst f [x] = none := by
  simp [takeFirst, h]

section
variable {s : State} {d : Die} {n : StileN} {a : AgentPort} {i : DevAcc}

theorem State.stileDeviceAccess_issues {rest : List DevAcc} {tag : BitVec 5} (hat : s.AgentIs d (stileAgent n) a)
    (hq : a.devQ = i :: rest) (htag : a.freeDevTag = some tag) (hroom : a.devOpen.length < 32)
    (hdata : i.flit.op = .devWrite → i.data.isSome = true) :
    exec (.stileDeviceAccess d n) s = .next (s.withAgent d (stileAgent n) { a with
      devQ := rest, devOpen := a.devOpen ++ [(tag, i)]
      dq := a.dq ++ [{ tag := tag, write := i.flit.op == .devWrite, addr := i.flit.addr, len := i.flit.len
                       data := match i.data with
                         | some x => x.1
                         | none => 0 }] }) := by
  obtain ⟨hlive, ha⟩ := hat
  have hgo : (decide (32 ≤ a.devOpen.length) || (i.flit.op == .devWrite && i.data.isNone)) = false := by
    have : ¬(i.flit.op = .devWrite ∧ i.data.isNone = true) := fun ⟨hop, hnone⟩ => by
      simp [Option.isNone_iff_eq_none.1 hnone] at hdata; exact hdata hop
    simp only [Bool.or_eq_false_iff, decide_eq_false_iff_not, not_le, hroom, true_and]
    by_contra hx
    simp only [Bool.not_eq_false, Bool.and_eq_true, beq_iff_eq] at hx
    exact this hx
  have hg : (s.ac d (stileAgent n)).devIssue = { s.ac d (stileAgent n) with a := { a with
      devQ := rest, devOpen := a.devOpen ++ [(tag, i)]
      dq := a.dq ++ [{ tag := tag, write := i.flit.op == .devWrite, addr := i.flit.addr, len := i.flit.len
                       data := match i.data with
                         | some x => x.1
                         | none => 0 }] } } := by
    have hac : (s.ac d (stileAgent n)).a = a := ha
    simp only [AC.devIssue, hac, hq, htag, hgo, Bool.false_eq_true, if_false] <;> rfl
  exact congrArg Host.Outcome.next (State.runAgent_silent hlive hg rfl rfl rfl rfl rfl)

/-- What the port is to a Stile at work. -/
theorem State.ac_agent {n : AgentN} (hat : s.AgentIs d n a) : (s.ac d n).a = a := hat.2

theorem State.dr_answers {tag : BitVec 5} {data : LineData} (hat : s.AgentIs d (stileAgent n) a) (hopen : a.devOpen = [(tag, i)])
    (hdead : a.devDead = []) :
    exec (.dr d n tag false data) s = .next ((s.withAgent d (stileAgent n) { a with devOpen := [] }).sends d
      ((if i.flit.op = .devRead then [s.agentSends d (stileAgent n) .dat i.flit.cls (.dat
            { op := .dataToReq, src := portAgent d (stileAgent n), tgt := i.flit.src, txid := i.flit.txid
              payload := keepBytes data (offOf i.flit.addr) i.flit.len.toNat })] else []) ++
        [s.agentSends d (stileAgent n) .rsp i.flit.cls (.rsp
          { op := .comp, src := portAgent d (stileAgent n), tgt := i.flit.src, txid := i.flit.txid
            data := decide (i.flit.op = .devRead) })])) := by
  have hac := State.ac_agent hat
  have hfound : takeFirst (fun x : BitVec 5 × DevAcc => x.1 == tag) a.devOpen = some ((tag, i), []) := by
    rw [hopen]; exact takeFirst_one (beq_self_eq_true _)
  have hnone : takeFirst (fun x : BitVec 5 × DevAcc => x.1 == tag) a.devDead = none := by rw [hdead]; rfl
  refine congrArg Host.Outcome.next ?_
  by_cases hop : i.flit.op = .devRead
  · have hg : (s.ac d (stileAgent n)).devAnswer tag false data =
        (AC.send { s.ac d (stileAgent n) with a := { a with devOpen := [] } } .dat i.flit.cls (.dat
          { op := .dataToReq, src := portAgent d (stileAgent n), tgt := i.flit.src, txid := i.flit.txid
            payload := keepBytes data (offOf i.flit.addr) i.flit.len.toNat })).send .rsp i.flit.cls (.rsp
          { op := .comp, src := portAgent d (stileAgent n), tgt := i.flit.src, txid := i.flit.txid, data := true }) := by
      simp only [AC.devAnswer, hac, hfound, hnone, hop, beq_self_eq_true, if_true, Bool.false_eq_true, if_false]
      rfl
    rw [State.runAgent_calm hat.1 hg rfl rfl rfl rfl, if_pos hop]
    refine State.sends_congr _ _ ?_
    simp only [hop, decide_true]
    rfl
  · have hg : (s.ac d (stileAgent n)).devAnswer tag false data =
        AC.send { s.ac d (stileAgent n) with a := { a with devOpen := [] } } .rsp i.flit.cls (.rsp
          { op := .comp, src := portAgent d (stileAgent n), tgt := i.flit.src, txid := i.flit.txid, data := false }) := by
      simp only [AC.devAnswer, hac, hfound, hnone, beq_eq_false_iff_ne.2 hop, Bool.false_eq_true, if_false]
      rfl
    rw [State.runAgent_calm hat.1 hg rfl rfl rfl rfl, if_neg hop]
    refine State.sends_congr _ _ ?_
    simp only [hop, decide_false]
    rfl

/-- A report of a Stile about itself and the address of an access (13 R344). -/
def State.stileReport (s : State) (d : Die) (n : StileN) (i : DevAcc) (code : BitVec 12) : Report :=
  { code := code, reporter := portAgent d (stileAgent n), subject := portAgent d (stileAgent n), addr := some i.flit.addr
    atype := i.flit.op.code, t := (s.pad d).now, detail := 0 }

/-- An Err of a Stile for the requester of an access. -/
def State.stileErr (s : State) (d : Die) (n : StileN) (i : DevAcc) (ecode : BitVec 4) : InjItem :=
  s.agentSends d (stileAgent n) .rsp i.flit.cls
    (.rsp { op := .err, src := portAgent d (stileAgent n), tgt := i.flit.src, txid := i.flit.txid, ecode := ecode })

theorem State.dr_fails {tag : BitVec 5} {data : LineData} (hat : s.AgentIs d (stileAgent n) a) (hopen : a.devOpen = [(tag, i)])
    (hdead : a.devDead = []) :
    ∃ t, exec (.dr d n tag true data) s = .next t ∧ s.OnlyPad t d ∧
      (t.pad d).agent (stileAgent n) = { a with devOpen := [] } ∧ (s.pad d).Filed (t.pad d) (s.stileReport d n i 0x611) ∧
      (t.pad d).stream.inj = (s.pad d).stream.inj ++ [s.stileErr d n i 3] := by
  have hac := State.ac_agent hat
  have hfound : takeFirst (fun x : BitVec 5 × DevAcc => x.1 == tag) a.devOpen = some ((tag, i), []) := by
    rw [hopen]; exact takeFirst_one (beq_self_eq_true _)
  have hnone : takeFirst (fun x : BitVec 5 × DevAcc => x.1 == tag) a.devDead = none := by rw [hdead]; rfl
  have hg : (s.ac d (stileAgent n)).devAnswer tag true data =
      (AC.devErr { s.ac d (stileAgent n) with a := { a with devOpen := [] } } i.flit 3).rep 0x611 (portAgent d (stileAgent n))
        (some i.flit.addr) i.flit.op.code := by
    simp only [AC.devAnswer, hac, hfound, hnone, if_true]
    rfl
  obtain ⟨honly, hagent, hfiled, hinj, -⟩ :=
    State.runAgent_reports (g := fun c => c.devAnswer tag true data) (r := s.stileReport d n i 0x611) hat.1 hg rfl rfl rfl rfl
      (show codeClass 0x611 ≠ .ft by decide)
  exact ⟨_, rfl, honly, hagent, hfiled, hinj⟩

theorem State.stileAbandon_early {tag : BitVec 5} (hat : s.AgentIs d (stileAgent n) a) (hopen : a.devOpen = [(tag, i)])
    (hq : a.devQ = []) (hearly : (s.pad d).now < i.limit) : exec (.stileAbandon d n i.flit.src i.flit.txid) s = .next s := by
  have hac := State.ac_agent hat
  have hnow : (s.ac d (stileAgent n)).now = (s.pad d).now := rfl
  have hg : (s.ac d (stileAgent n)).devAbandon i.flit.src i.flit.txid = s.ac d (stileAgent n) := by
    simp only [AC.devAbandon, hac, hq, hopen, takeFirst, hnow, Nat.not_le.2 hearly, decide_false, Bool.and_false,
      Bool.false_eq_true, if_false]
  refine congrArg Host.Outcome.next ((State.runAgent_silent hat.1 hg rfl rfl rfl rfl rfl).trans ?_)
  refine State.modPad_eq_self _ _ _ ?_
  rw [show (s.ac d (stileAgent n)).a = (s.pad d).agent (stileAgent n) from rfl]
  exact Paddock.modAgent_self _ _

theorem State.stileAbandon_due {tag : BitVec 5} (hat : s.AgentIs d (stileAgent n) a) (hopen : a.devOpen = [(tag, i)])
    (hq : a.devQ = []) (hdue : i.limit ≤ (s.pad d).now) :
    ∃ t, exec (.stileAbandon d n i.flit.src i.flit.txid) s = .next t ∧ s.OnlyPad t d ∧
      (t.pad d).agent (stileAgent n) = { a with devOpen := [], devDead := a.devDead ++ [(tag, i)] } ∧
      (s.pad d).Filed (t.pad d) (s.stileReport d n i 0xD02) ∧
      (t.pad d).stream.inj = (s.pad d).stream.inj ++ [s.stileErr d n i 2] := by
  have hac := State.ac_agent hat
  have hnow : (s.ac d (stileAgent n)).now = (s.pad d).now := rfl
  have hg : (s.ac d (stileAgent n)).devAbandon i.flit.src i.flit.txid =
      (AC.devErr { s.ac d (stileAgent n) with a := { a with devOpen := [], devDead := a.devDead ++ [(tag, i)] } } i.flit 2).rep
        0xD02 (portAgent d (stileAgent n)) (some i.flit.addr) i.flit.op.code := by
    have hmine : (i.flit.src == i.flit.src && i.flit.txid == i.flit.txid && decide (i.limit ≤ (s.pad d).now)) = true := by
      simp [hdue]
    simp only [AC.devAbandon, hac, hq, hopen, takeFirst, hnow, hmine, if_true]
    rfl
  obtain ⟨honly, hagent, hfiled, hinj, -⟩ :=
    State.runAgent_reports (g := fun c => c.devAbandon i.flit.src i.flit.txid) (r := s.stileReport d n i 0xD02) hat.1 hg rfl rfl
      rfl rfl (show codeClass 0xD02 ≠ .ft by decide)
  exact ⟨_, rfl, honly, hagent, hfiled, hinj⟩

theorem State.dr_late {tag : BitVec 5} {err : Bool} {data : LineData} (hat : s.AgentIs d (stileAgent n) a)
    (hdead : a.devDead = [(tag, i)]) :
    ∃ t, exec (.dr d n tag err data) s = .next t ∧ s.OnlyPad t d ∧
      (t.pad d).agent (stileAgent n) = { a with devDead := [], late := a.late + 1 } ∧
      (s.pad d).Filed (t.pad d) (s.stileReport d n i 0x612) ∧ (t.pad d).stream = (s.pad d).stream := by
  have hac := State.ac_agent hat
  have hfound : takeFirst (fun x : BitVec 5 × DevAcc => x.1 == tag) a.devDead = some ((tag, i), []) := by
    rw [hdead]; exact takeFirst_one (beq_self_eq_true _)
  have hg : (s.ac d (stileAgent n)).devAnswer tag err data =
      AC.rep { s.ac d (stileAgent n) with a := { a with devDead := [], late := a.late + 1 } } 0x612 (portAgent d (stileAgent n))
        (some i.flit.addr) i.flit.op.code := by
    simp only [AC.devAnswer, hac, hfound]
    rfl
  obtain ⟨honly, hagent, hfiled, -, hstream⟩ :=
    State.runAgent_reports (g := fun c => c.devAnswer tag err data) (r := s.stileReport d n i 0x612) hat.1 hg rfl rfl rfl rfl
      (show codeClass 0x612 ≠ .ft by decide)
  exact ⟨_, rfl, honly, hagent, hfiled, hstream rfl⟩
end

/-- Settles O37: each event is one lookup in the Stile's device queue or among its open and dead tags. -/
theorem stileServesItsDevice : Obligations.StileServesItsDevice := by
  intro s d n a i hat me rep sends
  refine ⟨fun rest tag => State.stileDeviceAccess_issues hat, fun tag err data hopen hdead => ⟨?_, ?_⟩,
    fun tag hopen hq => ⟨State.stileAbandon_early hat hopen hq, State.stileAbandon_due hat hopen hq⟩,
    fun tag err data => State.dr_late hat⟩
  · rintro rfl
    exact State.dr_answers hat hopen hdead
  · rintro rfl
    exact State.dr_fails hat hopen hdead

end Sys2Proof.Machine
end

section
/-!
A Gate or Stile with nothing that waits, and the statement O35: what an agent sends goes out through its port (02 R57, R65,
R67, 19 R503 to R505).
-/

namespace Sys2Proof.Machine

/-! ### Nothing that waits goes nowhere -/

/-- A port whose combining buffer, reorder buffer, barriers and waiting stores are empty has nothing to let go. -/
theorem AC.settle_quiet {c : AC} (hcb : c.a.cb = []) (hrob : c.a.rob = []) (hbars : c.a.bars = []) (hstores : c.a.stores = []) :
    c.settle = c := by
  have hdrain : c.waitDrain = c := by simp [AC.waitDrain, hcb]
  have hone : c.robDrain 1 = c := by simp [AC.robDrain, AC.robOne, hrob]
  have hfuel : 2 * c.a.stores.length + c.a.bars.length + 65 * c.a.cb.length + c.a.rob.length + 2 = 2 := by
    simp [hcb, hrob, hbars, hstores]
  rw [AC.settle, hfuel, AC.settleN, hdrain]
  simp [hcb, hstores, hbars, hrob, hone]

theorem AC.matchEarly_none {c : AC} (h : c.a.dataIn = []) : c.matchEarly = c := by
  simp [AC.matchEarly, h]

theorem AgentPort.Quiet.settle {c : AC} (h : c.a.Quiet) : c.settle = c := by
  obtain ⟨hcb, hrob, hbars, hstores, -⟩ := h
  exact AC.settle_quiet hcb hrob hbars hstores

section
variable {s : State} {d : Die} {n : AgentN} {a : AgentPort}

/-! ### Snoop answers -/

/-- An item with the snoop's STAG that was not answered yet. -/
theorem SnpIn.find_one {i : SnpIn} (h : i.acked = none) :
    [i].find? (fun s => s.stag == i.stag && s.acked.isNone) = some i := by
  simp [h]

theorem State.snpAck_plain {i : SnpIn} {st : CacheState} (hat : s.AgentIs d n a) (hin : a.snpIn = [i]) (hfree : i.acked = none) :
    exec (.c2gRsp d n (.snpAck i.stag st false)) s = .next ((s.withAgent d n { a with snpIn := [] }).sends d
      [s.agentSends d n .rsp 0 (.rsp { op := .snpAck, src := portAgent d n, tgt := i.flit.src, txid := i.flit.txid
                                       state := st })]) := by
  have hg : (s.ac d n).rspItem (.snpAck i.stag st false) =
      AC.send { s.ac d n with a := { a with snpIn := [] } } .rsp 0 (.rsp
        { op := .snpAck, src := portAgent d n, tgt := i.flit.src, txid := i.flit.txid, state := st }) := by
    simp only [AC.rspItem, State.ac_agent hat, hin, SnpIn.find_one hfree, Bool.false_eq_true, if_false, AC.send]
    simp [AC.me, State.ac]
  refine congrArg Host.Outcome.next ((State.runAgent_calm hat.1 hg rfl rfl rfl rfl).trans ?_)
  exact State.sends_congr _ _ rfl

theorem State.snpAckWB_plain {i : SnpIn} {st : CacheState} (hat : s.AgentIs d n a) (hin : a.snpIn = [i]) (hfree : i.acked = none) :
    exec (.c2gRsp d n (.snpAckWB i.stag st)) s = .next ((s.withAgent d n { a with snpIn := [] }).sends d
      [s.agentSends d n .rsp 0 (.rsp { op := .snpAckWB, src := portAgent d n, tgt := i.flit.src, txid := i.flit.txid
                                       state := st })]) := by
  have hg : (s.ac d n).rspItem (.snpAckWB i.stag st) =
      AC.send { s.ac d n with a := { a with snpIn := [] } } .rsp 0 (.rsp
        { op := .snpAckWB, src := portAgent d n, tgt := i.flit.src, txid := i.flit.txid, state := st }) := by
    simp only [AC.rspItem, State.ac_agent hat, hin, SnpIn.find_one hfree, Bool.false_eq_true, if_false, AC.send]
    simp [AC.me, State.ac]
  refine congrArg Host.Outcome.next ((State.runAgent_calm hat.1 hg rfl rfl rfl rfl).trans ?_)
  exact State.sends_congr _ _ rfl

/-- An answer whose data is to follow keeps its inbox item. -/
theorem State.snpAck_data {i : SnpIn} {st : CacheState} (hat : s.AgentIs d n a) (hq : a.Quiet) (hin : a.snpIn = [i])
    (hfree : i.acked = none) :
    exec (.c2gRsp d n (.snpAck i.stag st true)) s = .next ((s.withAgent d n { a with snpIn := [{ i with acked := some st }] }).sends d
      [s.agentSends d n .rsp 0 (.rsp { op := .snpAck, src := portAgent d n, tgt := i.flit.src, txid := i.flit.txid
                                       state := st, data := true })]) := by
  obtain ⟨-, -, -, -, hearly⟩ := hq
  have hmark : updateWhere (fun y : SnpIn => y.stag == i.stag) (fun y => { y with acked := some st }) [i] =
      [{ i with acked := some st }] := updateWhere_one (beq_self_eq_true _)
  have hg : (s.ac d n).rspItem (.snpAck i.stag st true) =
      AC.send { s.ac d n with a := { a with snpIn := [{ i with acked := some st }] } } .rsp 0 (.rsp
        { op := .snpAck, src := portAgent d n, tgt := i.flit.src, txid := i.flit.txid, state := st, data := true }) := by
    simp only [AC.rspItem, State.ac_agent hat, hin, SnpIn.find_one hfree, if_true, AC.send, hmark]
    exact AC.matchEarly_none hearly
  refine congrArg Host.Outcome.next ((State.runAgent_calm hat.1 hg rfl rfl rfl rfl).trans ?_)
  exact State.sends_congr _ _ rfl

/-! ### CompAck, the data of a request, and home queries -/

theorem ReqPort.close_one {p : ReqPort} {t : Txn} (h : p.txns = [t]) : p.close t.flit.txid = { p with txns := [] } := by
  simp [ReqPort.close, h]

theorem ReqPort.modTxn_one {p : ReqPort} {t : Txn} {f : Txn → Txn} (h : p.txns = [t]) :
    p.modTxn t.flit.txid f = { p with txns := [f t] } := by
  have hone : updateWhere (fun u : Txn => u.flit.txid == t.flit.txid) f [t] = [f t] := updateWhere_one (beq_self_eq_true _)
  rw [ReqPort.modTxn, h, hone]

theorem State.compAck_closes {t : Txn} {r : RspFlit} {g : BitVec 8} {core : Option Core} (hat : s.AgentIs d n a) (hq : a.Quiet)
    (htxns : a.port.txns = [t]) (hpurpose : t.purpose = .agent g core) (hcomp : t.comp = some r) (hack : r.ackreq = true)
    (hans : t.answered = true) :
    exec (.c2gRsp d n (.compAck g)) s = .next ((s.withAgent d n { a with port := { a.port with txns := [] } }).sends d
      [s.agentSends d n .rsp t.flit.cls (.rsp { op := .compAck, src := portAgent d n, tgt := t.flit.tgt, txid := r.aux })]) := by
  have hfind : [t].find? (fun t => t.purpose.ctag == some g && t.answered) = some t := by
    simp [hpurpose, Purpose.ctag, hans]
  have hg : (s.ac d n).rspItem (.compAck g) =
      AC.send { s.ac d n with a := { a with port := { a.port with txns := [] } } } .rsp t.flit.cls (.rsp
        { op := .compAck, src := portAgent d n, tgt := t.flit.tgt, txid := r.aux }) := by
    simp only [AC.rspItem, State.ac_agent hat, htxns, hfind, hcomp, hack, if_true, AC.modPort, AC.send,
      ReqPort.close_one htxns]
    exact AgentPort.Quiet.settle hq
  refine congrArg Host.Outcome.next ((State.runAgent_calm hat.1 hg rfl rfl rfl rfl).trans ?_)
  exact State.sends_congr _ _ rfl

/-- The transaction with the data of its request there. -/
def Txn.given (t : Txn) (data : LineData) (poison : Bool) : Txn :=
  { t with data := t.flit.payload data, haveData := true, dataPoison := poison }

/-- The data of a request, as a port sends it. -/
def Txn.datFlit (t : Txn) (me : AgentId) (data : LineData) (poison : Bool) : DatFlit :=
  { op := if t.flit.op.isPut then .putData else .pushData, src := me, tgt := t.flit.tgt, txid := t.flit.txid
    payload := t.flit.payload data, poison := poison }

/-- The data of a port's only transaction is handed to it. -/
theorem AC.datItem_one {c : AC} {t : Txn} {g : BitVec 8} {core : Option Core} {data : LineData} {be : LineMask} {poison : Bool}
    (hq : c.a.Quiet) (htxns : c.a.port.txns = [t]) (hpurpose : t.purpose = .agent g core)
    (hcarries : t.flit.op.carriesData = true) (hnone : t.haveData = false) :
    c.datItem (.pushData g data be poison) =
      let u := { c with a := { c.a with port := { c.a.port with txns := [t.given data poison] } } }
      if t.phase == .injected then u.send .dat t.flit.cls (.dat (t.datFlit c.me data poison)) else u := by
  have hstores : c.a.stores = [] := hq.2.2.2.1
  have hwaits : [t].filter (fun t => t.purpose.ctag == some g && t.flit.op.carriesData && !t.haveData) = [t] := by
    simp [hpurpose, Purpose.ctag, hcarries, hnone]
  have hgive : c.giveData t data poison =
      let u := { c with a := { c.a with port := { c.a.port with txns := [t.given data poison] } } }
      if t.phase == .injected then u.send .dat t.flit.cls (.dat (t.datFlit c.me data poison)) else u := by
    simp only [AC.giveData, AC.modPort, ReqPort.modTxn_one htxns]
    rfl
  have hmatch : c.match' (.pushData g data be poison) = some (c.giveData t data poison) := by
    simp only [AC.match', hstores, List.any_nil, Bool.false_eq_true, if_false, htxns, hwaits, List.foldl_cons, List.foldl_nil]
  rw [AC.datItem, hmatch, hgive]
  by_cases hphase : t.phase = .injected
  · simp only [hphase, beq_self_eq_true, if_true]
    exact AgentPort.Quiet.settle hq
  · simp only [beq_eq_false_iff_ne.2 hphase, Bool.false_eq_true, if_false]
    exact AgentPort.Quiet.settle hq

theorem State.pushData_kept {t : Txn} {g : BitVec 8} {core : Option Core} {data : LineData} {be : LineMask} {poison : Bool}
    (hat : s.AgentIs d n a) (hq : a.Quiet) (htxns : a.port.txns = [t]) (hpurpose : t.purpose = .agent g core)
    (hcarries : t.flit.op.carriesData = true) (hnone : t.haveData = false) (hphase : t.phase ≠ .injected) :
    exec (.c2gDat d n (.pushData g data be poison)) s =
      .next (s.withAgent d n { a with port := { a.port with txns := [t.given data poison] } }) := by
  obtain ⟨hlive, rfl⟩ := hat
  have hg := AC.datItem_one (c := s.ac d n) (be := be) (data := data) (poison := poison) hq htxns hpurpose hcarries hnone
  simp only [beq_eq_false_iff_ne.2 hphase, Bool.false_eq_true, if_false] at hg
  exact congrArg Host.Outcome.next ((State.runAgent_silent hlive hg rfl rfl rfl rfl rfl).trans rfl)

theorem State.pushData_sent {t : Txn} {g : BitVec 8} {core : Option Core} {data : LineData} {be : LineMask} {poison : Bool}
    (hat : s.AgentIs d n a) (hq : a.Quiet) (htxns : a.port.txns = [t]) (hpurpose : t.purpose = .agent g core)
    (hcarries : t.flit.op.carriesData = true) (hnone : t.haveData = false) (hphase : t.phase = .injected) :
    exec (.c2gDat d n (.pushData g data be poison)) s =
      .next ((s.withAgent d n { a with port := { a.port with txns := [t.given data poison] } }).sends d
        [s.agentSends d n .dat t.flit.cls (.dat (t.datFlit (portAgent d n) data poison))]) := by
  obtain ⟨hlive, rfl⟩ := hat
  have hg := AC.datItem_one (c := s.ac d n) (be := be) (data := data) (poison := poison) hq htxns hpurpose hcarries hnone
  simp only [hphase, beq_self_eq_true, if_true] at hg
  refine congrArg Host.Outcome.next ((State.runAgent_calm hlive hg rfl rfl rfl rfl).trans ?_)
  exact State.sends_congr _ _ rfl

theorem State.homeQuery_answers (hat : s.AgentIs d n a) (page : BitVec 40) :
    exec (.homeQuery d n page) s = .next (s.withAgent d n { a with
      hq := some (BitVec.ofNat 5 (pkgFold ((s.pad d).repl.home (BitVec.ofNat 52 (page.toNat * 4096)))).val) }) := by
  obtain ⟨hlive, rfl⟩ := hat
  exact congrArg Host.Outcome.next (State.runAgent_silent hlive rfl rfl rfl rfl rfl rfl)
end

/-- Settles O35: each item finds the snoop or transaction that it belongs to, and a quiet port has nothing else to let go. -/
theorem agentsAnswerThroughTheirPorts : Obligations.AgentsAnswerThroughTheirPorts := by
  intro s d n a hat hq
  refine ⟨fun i st hin hfree => ⟨State.snpAck_plain hat hin hfree, State.snpAckWB_plain hat hin hfree,
      State.snpAck_data hat hq hin hfree⟩,
    fun t r g core htxns hpurpose hcomp hack hans => State.compAck_closes hat hq htxns hpurpose hcomp hack hans,
    fun t g core data be poison htxns hpurpose hcarries hnone => ?_, State.homeQuery_answers hat⟩
  exact ⟨State.pushData_kept hat hq htxns hpurpose hcarries hnone, State.pushData_sent hat hq htxns hpurpose hcarries hnone⟩

end Sys2Proof.Machine
end

section
/-!
The statement O36: combining-buffer entries drain by age, barriers answer or wait, a split access cancels its upper half
(08 R207, R209 to R211, R214).
-/

namespace Sys2Proof.Machine

section
variable {s : State} {d : Die} {g : GateN} {a : AgentPort}

/-! ### The combining buffer by age (08 R207) -/

theorem State.withAgent_self {n : AgentN} (hat : (s.pad d).agent n = a) : s.withAgent d n a = s := by
  subst hat
  exact State.modPad_eq_self _ _ _ (Paddock.modAgent_self _ _)

theorem State.combiningBufferAge_early {e : CbEntry} (hat : s.AgentIs d (gateAgent g) a) (hcb : a.cb = [e])
    (hearly : (s.pad d).aon.hcycle < e.alloc + 512) : exec (.combiningBufferAge d g e.line) s = .next s := by
  have hg : (s.ac d (gateAgent g)).ageOut e.line = s.ac d (gateAgent g) := by
    have hcyc : (s.ac d (gateAgent g)).cyc = (s.pad d).aon.hcycle := rfl
    simp only [AC.ageOut, State.ac_agent hat, hcb, List.any_cons, List.any_nil, hcyc, Nat.not_le.2 hearly, decide_false,
      Bool.and_false, Bool.or_false, Bool.false_eq_true, if_false]
  refine congrArg Host.Outcome.next ((State.runAgent_silent hat.1 hg rfl rfl rfl rfl rfl).trans ?_)
  exact State.withAgent_self rfl

theorem ReqPort.freeTxid_congr {p q : ReqPort} (h : p.txns = q.txns) : p.freeTxid = q.freeTxid := by
  simp only [ReqPort.freeTxid, h]

/-- The drain of an entry that is the only one of the combining buffer. -/
theorem AC.startDrain_one {c : AC} {e : CbEntry} (hcb : c.a.cb = [e]) (hidle : e.draining = false) (sel : Nat) :
    c.startDrain e.line sel =
      (AC.ev { c with a := { c.a with cb := [{ e with draining := true, drainSeq := c.nextSeq }] } } sel).useSeq 1 := by
  have hany : (c.a.cb.any fun x => x.line == e.line && !x.draining) = true := by simp [hcb, hidle]
  have hmark : updateWhere (fun x : CbEntry => x.line == e.line)
      (fun x => { x with draining := true, drainSeq := c.nextSeq }) c.a.cb =
      [{ e with draining := true, drainSeq := c.nextSeq }] := by
    rw [hcb]; exact updateWhere_one (f := fun x : CbEntry => x.line == e.line) (beq_self_eq_true _)
  rw [AC.startDrain, if_pos hany]
  simp only [hmark]

theorem firstRun_full : firstRun (BitVec.allOnes 64) 0 64 = some (0, 64) := by decide

theorem runMask_full : BitVec.allOnes 64 &&& ~~~(runMask 0 64) = 0 := by decide

/-- The request that a full entry drains to: its line, stamped now, with its data and a data credit. -/
def AC.drained (c : AC) (e : CbEntry) (z : TxId) : Txn :=
  { stampTxn c.repl { c.flit .pushFull (lineAddr e.line) 0 with txid := z } e.drainSeq c.now (.drain e.line e.cores) .normalNC with
    data := e.data, haveData := true, dataPoison := e.poison, credit := true }

theorem AC.drainEntry_full {c : AC} {e : CbEntry} {z : TxId} (hcb : c.a.cb = [e]) (hdraining : e.draining = true)
    (hfull : e.be = BitVec.allOnes 64) (hfree : c.a.port.freeTxid = some z)
    (hthere : c.repl.absent c.unreach c.die (c.repl.home (lineAddr e.line)) false = false)
    (hcredit : c.a.port.credits[pkgFold (c.repl.home (lineAddr e.line))] ≠ 0) :
    c.drainEntry e.line 65 = { c with a := { c.a with
      cb := []
      port := { c.a.port with
        txns := c.a.port.txns ++ [c.drained e z]
        credits := vmod c.a.port.credits (pkgFold (c.repl.home (lineAddr e.line))) fun n => n - 1 } } } := by
  have hfind : c.a.cb.find? (fun x => x.line == e.line && x.draining) = some e := by simp [hcb, hdraining]
  have htgt : (c.flit .pushFull (lineAddr e.line) 0).tgt = c.repl.home (lineAddr e.line) := rfl
  have hone : c.drainOne e.line 0 64 e.data e.poison e.cores e.drainSeq = some (c.modPort fun p => { p with
      txns := p.txns ++ [c.drained e z]
      credits := vmod p.credits (pkgFold (c.repl.home (lineAddr e.line))) fun n => n - 1 }) := by
    simp only [AC.drainOne, if_true, htgt, hthere, Bool.false_eq_true, if_false, hcredit, hfree]
    rfl
  have herase : c.a.cb.erase e = [] := by simp [hcb]
  rw [AC.drainEntry, hfind]
  simp only [hfull, firstRun_full, hone, runMask_full, beq_self_eq_true, if_true]
  simp only [AC.modPort, herase, AC.drainEntry, List.find?_nil]

theorem portAgent_gate (d : Die) (g : GateN) : portAgent d (gateAgent g) = agent d g.val := by
  have hval : (gateAgent g).val = g.val := Nat.mod_eq_of_lt (by omega)
  rw [portAgent, hval, if_pos g.isLt]

/-- A request to an ordinary line carries its port's stamp. -/
theorem AC.drained_stamped (c : AC) (e : CbEntry) (z : TxId) :
    (c.drained e z).Stamped c.repl c.now .pushFull c.me (lineAddr e.line) :=
  ⟨rfl, rfl, rfl, rfl, rfl, rfl, rfl, rfl, rfl, rfl⟩

theorem State.combiningBufferAge_due {e : CbEntry} {z : TxId} (hat : s.AgentIs d (gateAgent g) a) (hcb : a.cb = [e])
    (hrob : a.rob = []) (hbars : a.bars = []) (hstores : a.stores = []) (hidle : e.draining = false)
    (hdue : e.alloc + 512 ≤ (s.pad d).aon.hcycle) (hfull : e.be = BitVec.allOnes 64) (hfree : a.port.freeTxid = some z)
    (hthere : (s.pad d).repl.absent (s.pad d).conf.unreach d ((s.pad d).repl.home (lineAddr e.line)) false = false)
    (hcredit : 0 < a.port.credits[pkgFold ((s.pad d).repl.home (lineAddr e.line))]) :
    ∃ t x, exec (.combiningBufferAge d g e.line) s = .next t ∧ s.OnlyPad t d ∧
      ((t.pad d).agent (gateAgent g)).cb = [] ∧ ((t.pad d).agent (gateAgent g)).port.txns = a.port.txns ++ [x] ∧
      x.Stamped (s.pad d).repl (s.pad d).now .pushFull (agent d g.val) (lineAddr e.line) ∧ x.data = e.data ∧
      x.haveData = true ∧ x.credit = true ∧ x.purpose = .drain e.line e.cores ∧
      ((t.pad d).agent (gateAgent g)).port.credits =
        vmod a.port.credits (pkgFold ((s.pad d).repl.home (lineAddr e.line))) fun k => k - 1 := by
  obtain ⟨hlive, rfl⟩ := hat
  let c := s.ac d (gateAgent g)
  let f : CbEntry := { e with draining := true, drainSeq := c.nextSeq }
  let u := (AC.ev { c with a := { c.a with cb := [f] } } 0x05).useSeq 1
  let v : AC := { u with a := { u.a with
    cb := []
    port := { u.a.port with
      txns := u.a.port.txns ++ [u.drained f z]
      credits := vmod u.a.port.credits (pkgFold (u.repl.home (lineAddr f.line))) fun n => n - 1 } } }
  have hany : (c.a.cb.any fun x => x.line == e.line && decide (x.alloc + 512 ≤ c.cyc)) = true := by
    have hcyc : c.cyc = (s.pad d).aon.hcycle := rfl
    have hcb' : c.a.cb = [e] := hcb
    simp [hcb', hcyc, hdue]
  have hdrain : u.drainEntry f.line 65 = v :=
    AC.drainEntry_full rfl rfl hfull ((ReqPort.freeTxid_congr rfl).trans hfree) hthere (Nat.pos_iff_ne_zero.1 hcredit)
  have hsettle : v.settle = v := AC.settle_quiet rfl hrob hbars hstores
  have hg : c.ageOut e.line = v := by
    rw [AC.ageOut, if_pos hany, AC.startDrain_one hcb hidle, hdrain, hsettle]
  have hrun := State.runAgent_own (g := fun c => c.ageOut e.line) hlive hg rfl fun _ h => absurd h List.not_mem_nil
  have hpad : ((s.runAgent d (gateAgent g) fun c => c.ageOut e.line).pad d).agent (gateAgent g) = v.a := by
    rw [hrun, State.pad_modPad_same]
    exact Paddock.ported_agent _ _
  refine ⟨_, u.drained f z, rfl, ?_, ?_, ?_, ?_, rfl, rfl, rfl, rfl, ?_⟩
  · rw [hrun]; exact (State.OnlyPad.refl s d).modPad _
  · exact congrArg AgentPort.cb hpad
  · exact congrArg (fun a : AgentPort => a.port.txns) hpad
  · rw [← portAgent_gate]
    exact AC.drained_stamped u f z
  · exact congrArg (fun a : AgentPort => a.port.credits) hpad

/-! ### Barriers (08 R209 to R211) -/

/-- A port with one barrier that can be answered, and nothing else that waits, answers it. -/
theorem AC.settle_barrier {c : AC} {b : BarWait} (hcb : c.a.cb = []) (hrob : c.a.rob = []) (hstores : c.a.stores = [])
    (hbars : c.a.bars = [b]) : c.settle = if c.barDone b then c.barAnswer b else c := by
  have hdrain : c.waitDrain = c := by simp [AC.waitDrain, hcb]
  have hone : c.robDrain 1 = c := by simp [AC.robDrain, AC.robOne, hrob]
  have hfuel : 2 * c.a.stores.length + c.a.bars.length + 65 * c.a.cb.length + c.a.rob.length + 2 = 3 := by
    simp [hcb, hrob, hbars, hstores]
  rw [AC.settle, hfuel, AC.settleN, hdrain]
  by_cases hdone : c.barDone b = true
  · have hgone : (c.barAnswer b).a.bars = [] ∧ (c.barAnswer b).a.cb = [] ∧ (c.barAnswer b).a.rob = [] ∧
        (c.barAnswer b).a.stores = [] := by
      unfold AC.barAnswer
      simp only [AC.drive, AC.modCore]
      split <;> simp [hbars, hcb, hrob, hstores]
    obtain ⟨hb, hc, hr, hw⟩ := hgone
    have hagain : (c.barAnswer b).settleN 2 = c.barAnswer b := by
      have := AC.settle_quiet hc hr hb hw
      rwa [AC.settle, hb, hc, hr, hw] at this
    simp only [hcb, hstores, hrob, List.foldl_nil, List.length_nil, Nat.zero_add, hone, hbars, List.find?_cons, hdone,
      if_true, hb, List.length_cons, hagain]
    simp
  · have hno : c.barDone b = false := by simpa using hdone
    simp [hcb, hstores, hrob, hone, hbars, hno]

/-- A barrier that reaches a Gate. -/
def AC.bar (c : AC) (core : Core) (kind : BKind) (scope : BScope) (ctag : BitVec 8) : BarWait :=
  { core := core, kind := kind, scope := scope, ctag := ctag, seq := c.nextSeq }

/-- A Gate that has taken a barrier and not looked at it yet. -/
def AC.barTaken (c : AC) (core : Core) (kind : BKind) (scope : BScope) (ctag : BitVec 8) : AC :=
  let u := (c.useSeq 1).ev (if scope == .cluster then 0x01 else 0x02)
  { u with a := { u.a with bars := [c.bar core kind scope ctag] } }

theorem AC.barrierIn_quiet {c : AC} (hq : c.a.Quiet) (core : Core) (kind : BKind) (scope : BScope) (ctag : BitVec 8) :
    c.barrierIn core kind scope ctag =
      let u := c.barTaken core kind scope ctag
      if u.barDone (c.bar core kind scope ctag) then u.barAnswer (c.bar core kind scope ctag) else u := by
  obtain ⟨hcb, hrob, hbars, hstores, -⟩ := hq
  have htaken : c.barrierIn core kind scope ctag = (c.barTaken core kind scope ctag).settle := by
    simp only [AC.barrierIn, AC.barTaken, AC.bar]
    congr 2
    simp [AC.ev, AC.useSeq, AC.modPort, hbars]
  rw [htaken]
  exact AC.settle_barrier hcb hrob hstores rfl

/-- With no transaction open a barrier can be answered. -/
theorem AC.barDone_idle {c : AC} {b : BarWait} (hcb : c.a.cb = []) (hrob : c.a.rob = []) (hstores : c.a.stores = [])
    (htxns : c.a.port.txns = []) : c.barDone b = true := by
  have hload : c.loadOpen b = false := by simp [AC.loadOpen, hrob, htxns]
  have hstore : c.storeOpen b = false := by simp [AC.storeOpen, hcb, hstores, htxns]
  unfold AC.barDone
  split <;> simp [hload, hstore]

/-- An earlier PushIO of the core, neither ordered nor complete, holds a STORE or FULL barrier. -/
theorem AC.barDone_store {c : AC} {b : BarWait} {x : Txn} (hx : x ∈ c.a.port.txns) (hcore : x.purpose.core = some b.core)
    (hseq : x.seq < b.seq) (hkind : b.kind ≠ .load) (hop : x.flit.op = .pushIO) (hcomp : x.comp = none)
    (hord : x.ordered = false) : c.barDone b = false := by
  have hopen : c.storeOpen b = true := by
    have hany : c.a.port.txns.any (fun t => t.purpose.core == some b.core && decide (t.seq < b.seq) && t.flit.op.isStore &&
        (if t.flit.op == .atomicOp then !t.atomicDone else t.comp.isNone) &&
        !(t.ordered && (t.flit.op == .pushIO || t.flit.op == .pushFull))) = true :=
      List.any_eq_true.2 ⟨x, hx, by simp [hcore, hseq, hop, hcomp, hord, ReqOp.isStore]⟩
    simp only [AC.storeOpen, hany, Bool.true_or]
  unfold AC.barDone
  split
  case h_1 h => exact absurd h hkind
  case h_2 => simp [hopen]
  case h_3 => simp [hopen]

/-- A STORE or FULL barrier carries the error of an earlier write of its core (08 R211). -/
def AC.barErr (c : AC) (b : BarWait) : Bool := b.kind != .load && (c.a.core[b.core]).errPending

/-- What a port is once it answered its only barrier. -/
theorem AC.barAnswer_one {c : AC} {b : BarWait} (hbars : c.a.bars = [b]) :
    c.barAnswer b = { c with a := { c.a with
      bars := []
      core := if c.barErr b then vmod c.a.core b.core fun x => { x with errPending := false, barrierErr := true } else c.a.core
      out := c.a.out ++ [.barrier b.ctag b.core (c.barErr b)] } } := by
  have hfilter : c.a.bars.filter (fun x => x.seq != b.seq) = [] := by simp [hbars]
  by_cases herr : c.barErr b = true
  · have hif : (b.kind != .load && (c.a.core[b.core]).errPending) = true := herr
    simp only [AC.barAnswer, hfilter, hif, herr, if_true, AC.modCore, AC.drive]
  · have hno : c.barErr b = false := by simpa using herr
    have hif : (b.kind != .load && (c.a.core[b.core]).errPending) = false := hno
    simp only [AC.barAnswer, hfilter, hif, hno, Bool.false_eq_true, if_false, AC.drive]

theorem BKind.ne_load (k : BKind) : (k != .load) = decide (k ≠ .load) := by cases k <;> rfl

/-- An event of a port that files no report and sends nothing changes the port alone. -/
theorem State.runAgent_inside {n : AgentN} {f : AC → AC} {c : AC} (hlive : s.agentLive d n = true) (hg : f (s.ac d n) = c)
    (hdie : c.die = d) (hn : c.n = n) (hreps : c.reps = []) (hout : c.out = []) :
    s.OnlyPad (s.runAgent d n f) d ∧ ((s.runAgent d n f).pad d).agent n = c.a ∧
      ((s.runAgent d n f).pad d).stream = (s.pad d).stream ∧ ((s.runAgent d n f).pad d).folds = (s.pad d).folds := by
  rw [State.runAgent_own hlive hg hdie (by rw [hreps]; exact fun _ h => absurd h List.not_mem_nil), State.pad_modPad_same]
  refine ⟨(State.OnlyPad.refl s d).modPad _, ?_, Paddock.ported_stream _ _ hout, Paddock.ported_folds _ _⟩
  rw [← hn]
  exact Paddock.ported_agent _ _

theorem State.barrier_answers {core : Core} {kind : BKind} {scope : BScope} {ctag : BitVec 8}
    (hat : s.AgentIs d (gateAgent g) a) (hq : a.Quiet) (htxns : a.port.txns = []) :
    let err := decide (kind ≠ .load) && (a.core[core]).errPending
    ∃ t, exec (.barrier d g core kind scope ctag) s = .next t ∧ s.OnlyPad t d ∧
      ((t.pad d).agent (gateAgent g)).out = a.out ++ [.barrier ctag core err] ∧
      ((t.pad d).agent (gateAgent g)).bars = [] ∧
      ((t.pad d).agent (gateAgent g)).core = (if err then vmod a.core core fun x => { x with
        errPending := false, barrierErr := true } else a.core) ∧
      (t.pad d).stream = (s.pad d).stream ∧ (t.pad d).folds = (s.pad d).folds := by
  obtain ⟨hlive, rfl⟩ := hat
  intro err
  obtain ⟨hcb, hrob, -, hstores, -⟩ := id hq
  let c := s.ac d (gateAgent g)
  have hdone : (c.barTaken core kind scope ctag).barDone (c.bar core kind scope ctag) = true :=
    AC.barDone_idle hcb hrob hstores htxns
  have herr : (c.barTaken core kind scope ctag).barErr (c.bar core kind scope ctag) = err :=
    congrArg (· && _) (BKind.ne_load kind)
  have hg : c.barrierIn core kind scope ctag = _ :=
    (AC.barrierIn_quiet hq core kind scope ctag).trans ((if_pos hdone).trans (AC.barAnswer_one rfl))
  rw [herr] at hg
  obtain ⟨honly, hagent, hstream, hfolds⟩ :=
    State.runAgent_inside (f := fun c => c.barrierIn core kind scope ctag) hlive hg rfl rfl rfl rfl
  exact ⟨_, rfl, honly, congrArg AgentPort.out hagent, congrArg AgentPort.bars hagent, congrArg AgentPort.core hagent, hstream, hfolds⟩

theorem State.barrier_waits {core : Core} {kind : BKind} {scope : BScope} {ctag : BitVec 8} {x : Txn}
    (hat : s.AgentIs d (gateAgent g) a) (hq : a.Quiet) (hx : x ∈ a.port.txns.filter fun t => t.purpose.core == some core)
    (hseq : x.seq < a.port.nextSeq) (hkind : kind ≠ .load) (hop : x.flit.op = .pushIO) (hcomp : x.comp = none)
    (hord : x.ordered = false) :
    ∃ t, exec (.barrier d g core kind scope ctag) s = .next t ∧ s.OnlyPad t d ∧
      ((t.pad d).agent (gateAgent g)).out = a.out ∧
      ((t.pad d).agent (gateAgent g)).bars = [{ core := core, kind := kind, scope := scope, ctag := ctag
                                                seq := a.port.nextSeq }] := by
  obtain ⟨hlive, rfl⟩ := hat
  obtain ⟨hmem, hcore⟩ := List.mem_filter.1 hx
  let c := s.ac d (gateAgent g)
  have hdone : (c.barTaken core kind scope ctag).barDone (c.bar core kind scope ctag) = false :=
    AC.barDone_store hmem (eq_of_beq hcore) hseq hkind hop hcomp hord
  have hg : c.barrierIn core kind scope ctag = c.barTaken core kind scope ctag :=
    (AC.barrierIn_quiet hq core kind scope ctag).trans (if_neg (by rw [hdone]; exact Bool.false_ne_true))
  obtain ⟨honly, hagent, -, -⟩ :=
    State.runAgent_inside (f := fun c => c.barrierIn core kind scope ctag) hlive hg rfl rfl rfl rfl
  exact ⟨_, rfl, honly, (congrArg AgentPort.out hagent).trans rfl, (congrArg AgentPort.bars hagent).trans rfl⟩

/-! ### Split accesses (08 R214) -/

theorem AC.loneLower_one {c : AC} {lo : Txn} {ctag : BitVec 8} {core : Option Core} (hrob : c.a.rob = [])
    (htxns : c.a.port.txns = [lo]) (hlo : lo.purpose = .half ctag core false) :
    c.loneLower ctag = { c with a := { c.a with port := { c.a.port with
      txns := [{ lo with purpose := .lowerOnly ctag core }] } } } := by
  have hempty : updateWhere (fun e : RobEntry => e.ctag == ctag && e.half == some false)
      (fun e => { e with half := none, lower := true }) c.a.rob = c.a.rob := by rw [hrob]; rfl
  unfold AC.loneLower
  simp only [hempty, htxns, List.find?_cons, hlo, Purpose.ctag, beq_self_eq_true, Bool.and_true]
  simp only [AC.modPort, Purpose.core, ReqPort.modTxn_one htxns]

theorem State.splitCancel_lower {lo up : Txn} {ctag : BitVec 8} {core : Option Core} (hat : s.AgentIs d (gateAgent g) a)
    (hq : a.Quiet) (htxns : a.port.txns = [lo, up]) (hne : lo.flit.txid ≠ up.flit.txid) (hlo : lo.purpose = .half ctag core false)
    (hup : up.purpose = .half ctag core true) (hwait : up.phase = .waiting) :
    exec (.splitCancel d g ctag) s = .next (s.withAgent d (gateAgent g) { a with port := { a.port with
      txns := [{ lo with purpose := .lowerOnly ctag core }] } }) := by
  obtain ⟨hlive, rfl⟩ := hat
  obtain ⟨-, hrob, -, -, -⟩ := id hq
  let c := s.ac d (gateAgent g)
  let u := c.modPort fun p => { p with txns := [lo] }
  have htx : c.a.port.txns = [lo, up] := htxns
  have hclose : c.a.port.close up.flit.txid = { c.a.port with txns := [lo] } := by
    simp [ReqPort.close, htx, hne]
  have hlone : u.loneLower ctag = _ := AC.loneLower_one hrob rfl hlo
  have hg : c.splitCancel ctag = u.loneLower ctag := by
    have hu : (c.modPort fun p => p.close up.flit.txid) = u := by simp only [AC.modPort, hclose, u]
    have hquiet : (u.loneLower ctag).settle = u.loneLower ctag := by
      rw [hlone]
      exact AgentPort.Quiet.settle (c := { u with a := { u.a with port := { u.a.port with
        txns := [{ lo with purpose := .lowerOnly ctag core }] } } }) hq
    unfold AC.splitCancel
    simp only [htx, List.find?_cons, hlo, hup, Purpose.ctag, hwait, beq_self_eq_true, Bool.and_true, Bool.false_and, hu, hquiet]
  rw [hlone] at hg
  exact congrArg Host.Outcome.next ((State.runAgent_silent hlive hg rfl rfl rfl rfl rfl).trans rfl)
end

/-- Settles O36: a full entry drains in one request; a barrier is answered as soon as nothing of its core is open. -/
theorem gateBuffersBarriersAndCancels : Obligations.GateBuffersBarriersAndCancels := by
  intro s d g a hat tgt
  refine ⟨fun e hcb hrob hbars hstores _ hidle => ⟨State.combiningBufferAge_early hat hcb, fun z hdue hfull hfree hthere hcredit =>
      State.combiningBufferAge_due hat hcb hrob hbars hstores hidle hdue hfull hfree hthere hcredit⟩,
    fun hq core kind scope ctag => ?_,
    fun hq lo up ctag core htxns hne hlo hup hwait => State.splitCancel_lower hat hq htxns hne hlo hup hwait⟩
  intro mine
  exact ⟨fun htxns => State.barrier_answers hat hq htxns, fun x hx hseq hkind hop hcomp hord =>
    State.barrier_waits hat hq hx hseq hkind hop hcomp hord⟩

end Sys2Proof.Machine
end

section
/-!
The statement O34: a Gate opens stamped transactions, in halves across a line, keeps a store for its data, and refuses a
device window (01 R28, 08 R206, R213, R215, 11 R287).
-/

namespace Sys2Proof.Machine

/-! ### Opening a transaction -/

/-- A request for an address's own home is answered by a die that is there. -/
theorem Repl.absent_there {r : Repl} {unreach : BitVec 8} {d : Die} {x : Addr} (hformed : r.formed = true)
    (hmember : bitAt r.present d.val = true) (hleaving : r.leaving = 0)
    (hhome : bitAt r.present (dieOf (r.home x)).val = true) (hreach : bitAt unreach (dieOf (r.home x)).val = false)
    (hfold : (r.pfoldOf (dieOf (r.home x)) (lfoldOf (r.home x))).isSome = true) : r.absent unreach d (r.home x) false = false := by
  have hzero (k : Nat) : bitAt (0 : BitVec 8) k = false := by simp [bitAt]
  have hcarried : (r.pfoldOf (dieOf (r.home x)) (lfoldOf (r.home x))).isNone = false := by simpa using hfold
  simp only [Repl.absent, hformed, hmember, hleaving, hhome, hreach, hzero, hcarried, Bool.and_true, Bool.and_false, Bool.not_true,
    Bool.or_false, Bool.false_and]

/-- What a port opens for a request: the request stamped now, under a TXID (11 R287). -/
def AC.opens (c : AC) (f : ReqFlit) (seq : Nat) (p : Purpose) (mt : MemType) (z : TxId) : Txn :=
  { stampTxn c.repl { f with txid := z } seq c.now p mt with inOrder := !c.gate && c.a.writeOrder && f.op.stileWrite }

theorem AC.openTxn_there {c : AC} {f : ReqFlit} {seq : Nat} {p : Purpose} {mt : MemType} {z : TxId}
    (hfree : c.a.port.freeTxid = some z) (hthere : c.repl.absent c.unreach c.die f.tgt f.op.isPut = false) :
    c.openTxn f seq c.now p mt none = c.modPort fun q => { q with txns := q.txns ++ [c.opens f seq p mt z] } := by
  unfold AC.openTxn
  split
  next h => rw [h] at hfree; cases hfree
  next x h =>
    obtain rfl : x = z := Option.some.inj (h.symm.trans hfree)
    exact if_neg (by rw [hthere]; exact Bool.false_ne_true)

/-- The request of a load of ordinary memory. -/
theorem AC.opens_stamped (c : AC) (x : Addr) (len seq : Nat) (p : Purpose) (mt : MemType) (z : TxId) :
    (c.opens (c.flit .getOnce x len) seq p mt z).Stamped c.repl c.now .getOnce c.me x :=
  ⟨rfl, rfl, rfl, rfl, rfl, rfl, rfl, rfl, rfl, rfl⟩

/-! ### Free TXIDs -/

theorem ReqPort.freeTxid_unused {p : ReqPort} {z : TxId} (h : p.freeTxid = some z) : ∀ y ∈ p.txns, y.flit.txid ≠ z := by
  obtain ⟨i, hfind, rfl⟩ := Option.map_eq_some_iff.1 h
  have hlt : i < 4096 := List.mem_range.1 (List.mem_of_find?_eq_some hfind)
  have hno := List.find?_some hfind
  intro y hy heq
  have hused : (p.txns.any fun t => t.flit.txid.toNat == i) = true := by
    refine List.any_eq_true.2 ⟨y, hy, ?_⟩
    rw [heq, BitVec.toNat_ofNat, Nat.mod_eq_of_lt (by omega)]
    exact beq_self_eq_true i
  rw [hused] at hno
  exact absurd hno (by decide)

/-- A port with at most one transaction has a TXID to spare. -/
theorem ReqPort.freeTxid_few {p : ReqPort} (h : p.txns = [] ∨ ∃ x, p.txns = [x]) : ∃ z, p.freeTxid = some z := by
  have hfind : ∃ i ∈ List.range 4096, (!(p.txns.any fun t => t.flit.txid.toNat == i)) = true := by
    obtain h | ⟨x, h⟩ := h
    · exact ⟨0, List.mem_range.2 (by omega), by simp [h]⟩
    · by_cases hx : x.flit.txid.toNat = 0
      · exact ⟨1, List.mem_range.2 (by omega), by simp [h, hx]⟩
      · exact ⟨0, List.mem_range.2 (by omega), by simp [h, hx]⟩
  obtain ⟨i, hi⟩ := Option.isSome_iff_exists.1 (List.find?_isSome.2 hfind)
  exact ⟨_, by rw [ReqPort.freeTxid, hi]; rfl⟩

/-! ### A Gate takes an access -/

theorem AC.conflict_none {c : AC} (hcb : c.a.cb = []) (l : Line) : c.conflict l = c := by
  simp [AC.conflict, AC.startDrain, AC.drainEntry, hcb]

section
variable {c : AC} {it : ReqItem}

theorem AC.refuses_load (hwin : c.k.devwinOf it.addr = none) (hkind : it.kind = .ncLoad) : c.refuses it = false := by
  obtain ⟨kind, addr, len, mtype, core, ctag, vway, vv, vd, atop, asize⟩ := it
  subst hkind
  simp only at hwin
  simp [AC.refuses, hwin]

/-- A load and a store of ordinary memory are served as what they are. -/
theorem ReqItem.gateKind_same (hkind : it.kind = .ncLoad ∨ it.kind = .ntStore) : it.gateKind = it.kind := by
  obtain h | h := hkind <;> rw [ReqItem.gateKind, h]

/-- What the transaction of a load is for. -/
def loadPurpose (it : ReqItem) (half : Option Bool) : Purpose :=
  match half with
  | some u => .half it.ctag it.core u
  | none => .agent it.ctag it.core

/-- The port with the transaction of a load, or of one half of it. -/
def AC.loads (c : AC) (it : ReqItem) (seq : Nat) (x : Addr) (len : Nat) (half : Option Bool) (z : TxId) : AC :=
  c.modPort fun q => { q with txns := q.txns ++ [c.opens (c.flit .getOnce x len) seq (loadPurpose it half) it.mtype z] }

theorem AC.access_load {seq len : Nat} {x : Addr} {half : Option Bool} {z : TxId} (hkind : it.kind = .ncLoad)
    (hfree : c.a.port.freeTxid = some z) (hthere : c.repl.absent c.unreach c.die (c.repl.home x) false = false) :
    c.access it seq x len half = c.loads it seq x len half z := by
  unfold AC.access
  simp only [hkind]
  cases half with
  | none => exact AC.openTxn_there hfree hthere
  | some u => exact AC.openTxn_there hfree hthere

/-- A load is no writeback, and drains the entry of its line; with an empty combining buffer that is nothing. -/
theorem AC.gateReq_load (hq : c.a.Quiet) (hwin : c.k.devwinOf it.addr = none) (hkind : it.kind = .ncLoad)
    (hline : offOf it.addr + it.len.toNat ≤ 64) :
    c.gateReq it = ((c.useSeq 1).access it c.nextSeq it.addr it.len.toNat none).settle := by
  have hgate : it.gateKind = .ncLoad := (ReqItem.gateKind_same (.inl hkind)).trans hkind
  have hsame : ({ it with kind := .ncLoad } : ReqItem) = it := by rw [← hkind]
  have hcut : decide (64 < offOf it.addr + it.len.toNat) = false := decide_eq_false (by omega)
  rw [AC.gateReq]
  simp only [hgate, hsame, AC.refuses_load hwin hkind, hcut, Bool.and_false, Bool.false_eq_true, if_false,
    AC.conflict_none hq.1]

theorem AC.gateReq_split (hq : c.a.Quiet) (hwin : c.k.devwinOf it.addr = none) (hkind : it.kind = .ncLoad)
    (hline : 64 < offOf it.addr + it.len.toNat) :
    c.gateReq it = ((((c.ev 0x07).useSeq 2).access it c.nextSeq it.addr (64 - offOf it.addr) (some false)).access it
      (c.nextSeq + 1) (lineAddr (lineOf it.addr + 1)) (it.len.toNat - (64 - offOf it.addr)) (some true)).settle := by
  have hgate : it.gateKind = .ncLoad := (ReqItem.gateKind_same (.inl hkind)).trans hkind
  have hsame : ({ it with kind := .ncLoad } : ReqItem) = it := by rw [← hkind]
  have hcut : decide (64 < offOf it.addr + it.len.toNat) = true := decide_eq_true hline
  have hnone (l : Line) : (c.ev 0x07).conflict l = c.ev 0x07 := AC.conflict_none (c := c.ev 0x07) hq.1 l
  rw [AC.gateReq]
  simp only [hgate, hsame, AC.refuses_load hwin hkind, hcut, Bool.and_true, Bool.false_eq_true, if_false, if_true, hnone]
  rfl

theorem AC.loads_quiet {seq len : Nat} {x : Addr} {half : Option Bool} {z : TxId} (hq : c.a.Quiet) :
    (c.loads it seq x len half z).a.Quiet := hq

/-- A quiet Gate that took an item lets nothing more go. -/
theorem AC.reqItem_quiet (hgate : c.gate = true) (hq : (c.gateReq it).a.Quiet) : c.reqItem it = c.gateReq it := by
  rw [AC.reqItem, if_pos hgate, AC.matchEarly_none hq.2.2.2.2, hq.settle]
end

section
variable {s : State} {d : Die} {g : GateN} {a : AgentPort} {it : ReqItem}

theorem State.ac_gate (s : State) (d : Die) (g : GateN) : (s.ac d (gateAgent g)).gate = true := by
  have hval : (gateAgent g).val = g.val := Nat.mod_eq_of_lt (by omega)
  exact decide_eq_true (hval ▸ g.isLt)

theorem State.c2gReq_load {z : TxId} (hat : s.AgentIs d (gateAgent g) a) (hq : a.Quiet)
    (hwin : s.krovol.devwinOf it.addr = none) (hkind : it.kind = .ncLoad) (hfree : a.port.freeTxid = some z)
    (hline : offOf it.addr + it.len.toNat ≤ 64)
    (hthere : (s.pad d).repl.absent (s.pad d).conf.unreach d ((s.pad d).repl.home it.addr) false = false) :
    ∃ t x, exec (.c2gReq d (gateAgent g) it) s = .next t ∧ s.OnlyPad t d ∧
      ((t.pad d).agent (gateAgent g)).port.txns = a.port.txns ++ [x] ∧
      x.Stamped (s.pad d).repl (s.pad d).now .getOnce (agent d g.val) it.addr ∧ x.flit.len = it.len ∧
      x.purpose = .agent it.ctag it.core ∧ x.flit.txid = z ∧ (∀ y ∈ a.port.txns, y.flit.txid ≠ z) ∧
      (t.pad d).stream = (s.pad d).stream ∧ (t.pad d).folds = (s.pad d).folds := by
  obtain ⟨hlive, rfl⟩ := hat
  let c := s.ac d (gateAgent g)
  let u := c.useSeq 1
  have hload : c.gateReq it = u.loads it c.nextSeq it.addr it.len.toNat none z := by
    rw [AC.gateReq_load hq hwin hkind hline,
      AC.access_load (c := u) hkind ((ReqPort.freeTxid_congr rfl).trans hfree) hthere]
    exact (AC.loads_quiet (c := u) hq).settle
  have hg : c.reqItem it = u.loads it c.nextSeq it.addr it.len.toNat none z :=
    (AC.reqItem_quiet (State.ac_gate s d g) (hload ▸ AC.loads_quiet (c := u) hq)).trans hload
  obtain ⟨honly, hagent, hstream, hfolds⟩ := State.runAgent_inside (f := fun c => c.reqItem it) hlive hg rfl rfl rfl rfl
  refine ⟨_, u.opens (u.flit .getOnce it.addr it.len.toNat) c.nextSeq (loadPurpose it none) it.mtype z, rfl, honly,
    congrArg (fun a : AgentPort => a.port.txns) hagent, ?_, ?_, rfl, rfl, ReqPort.freeTxid_unused hfree, hstream, hfolds⟩
  · rw [← portAgent_gate]
    exact AC.opens_stamped u _ _ _ _ _ _
  · exact BitVec.ofNat_toNat 7 it.len

theorem State.c2gReq_split (hat : s.AgentIs d (gateAgent g) a) (hq : a.Quiet) (hwin : s.krovol.devwinOf it.addr = none)
    (hkind : it.kind = .ncLoad) (htxns : a.port.txns = []) (hline : 64 < offOf it.addr + it.len.toNat)
    (hthere : (s.pad d).repl.absent (s.pad d).conf.unreach d ((s.pad d).repl.home it.addr) false = false)
    (hup : (s.pad d).repl.absent (s.pad d).conf.unreach d ((s.pad d).repl.home (lineAddr (lineOf it.addr + 1))) false = false) :
    ∃ t x y, exec (.c2gReq d (gateAgent g) it) s = .next t ∧ s.OnlyPad t d ∧
      ((t.pad d).agent (gateAgent g)).port.txns = [x, y] ∧
      x.Stamped (s.pad d).repl (s.pad d).now .getOnce (agent d g.val) it.addr ∧
      y.Stamped (s.pad d).repl (s.pad d).now .getOnce (agent d g.val) (lineAddr (lineOf it.addr + 1)) ∧
      x.flit.len.toNat = 64 - offOf it.addr ∧ x.flit.len.toNat + y.flit.len.toNat = it.len.toNat ∧
      x.purpose = .half it.ctag it.core false ∧ y.purpose = .half it.ctag it.core true ∧ x.seq < y.seq := by
  obtain ⟨hlive, rfl⟩ := hat
  let c := s.ac d (gateAgent g)
  let u := (c.ev 0x07).useSeq 2
  obtain ⟨z, hz⟩ := ReqPort.freeTxid_few (p := u.a.port) (.inl htxns)
  let v := u.loads it c.nextSeq it.addr (64 - offOf it.addr) (some false) z
  have hv : v.a.port.txns = [u.opens (u.flit .getOnce it.addr (64 - offOf it.addr)) c.nextSeq (loadPurpose it (some false)) it.mtype z] := by
    change u.a.port.txns ++ _ = _
    rw [show u.a.port.txns = [] from htxns]
    rfl
  obtain ⟨w, hw⟩ := ReqPort.freeTxid_few (p := v.a.port) (.inr ⟨_, hv⟩)
  let up := lineAddr (lineOf it.addr + 1)
  let x := u.opens (u.flit .getOnce it.addr (64 - offOf it.addr)) c.nextSeq (loadPurpose it (some false)) it.mtype z
  let y := v.opens (v.flit .getOnce up (it.len.toNat - (64 - offOf it.addr))) (c.nextSeq + 1) (loadPurpose it (some true)) it.mtype w
  let r := v.loads it (c.nextSeq + 1) up (it.len.toNat - (64 - offOf it.addr)) (some true) w
  have hload : c.gateReq it = r := by
    rw [AC.gateReq_split hq hwin hkind hline, AC.access_load (c := u) hkind hz hthere, AC.access_load (c := v) hkind hw hup]
    exact (AC.loads_quiet (c := v) hq).settle
  have hg : c.reqItem it = r :=
    (AC.reqItem_quiet (State.ac_gate s d g) (hload ▸ AC.loads_quiet (c := v) hq)).trans hload
  obtain ⟨honly, hagent, -, -⟩ := State.runAgent_inside (f := fun c => c.reqItem it) hlive hg rfl rfl rfl rfl
  have hoff : offOf it.addr < 64 := Nat.mod_lt _ (by omega)
  have hlen := it.len.isLt
  have hx : x.flit.len.toNat = 64 - offOf it.addr := (BitVec.toNat_ofNat _ _).trans (Nat.mod_eq_of_lt (by omega))
  have hy : y.flit.len.toNat = it.len.toNat - (64 - offOf it.addr) :=
    (BitVec.toNat_ofNat _ _).trans (Nat.mod_eq_of_lt (by omega))
  refine ⟨_, x, y, rfl, honly, ?_, ?_, ?_, hx, by omega, rfl, rfl, Nat.lt_succ_self _⟩
  · refine (congrArg (fun a : AgentPort => a.port.txns) hagent).trans ?_
    change v.a.port.txns ++ [y] = [x, y]
    rw [hv]
    rfl
  · rw [← portAgent_gate]
    exact AC.opens_stamped u _ _ _ _ _ _
  · rw [← portAgent_gate]
    exact AC.opens_stamped v _ _ _ _ _ _

/-! ### Stores, and what a Gate refuses -/

/-- A waiting store that has no data yet. -/
def waitingStore (it : ReqItem) (seq : Nat) : StoreWait :=
  { seq := seq, ctag := it.ctag, core := it.core, line := lineOf it.addr, off := offOf it.addr, len := it.len.toNat }

/-- A port with nothing that waits but a store without its data has nothing to let go. -/
theorem AC.settle_store {c : AC} {w : StoreWait} (hcb : c.a.cb = []) (hrob : c.a.rob = []) (hbars : c.a.bars = [])
    (hstores : c.a.stores = [w]) (hdata : w.data = none) : c.settle = c := by
  have hdrain : c.waitDrain = c := by simp [AC.waitDrain, hcb]
  have hone : c.robDrain 1 = c := by simp [AC.robDrain, AC.robOne, hrob]
  have hstay : c.storeGo w = c := by rw [AC.storeGo, hdata]
  have hfuel : 2 * c.a.stores.length + c.a.bars.length + 65 * c.a.cb.length + c.a.rob.length + 2 = 4 := by
    simp [hcb, hrob, hbars, hstores]
  rw [AC.settle, hfuel, AC.settleN, hdrain]
  simp [hcb, hstores, hbars, hrob, hone, hstay]

theorem State.c2gReq_store (hat : s.AgentIs d (gateAgent g) a) (hq : a.Quiet) (hwin : s.krovol.devwinOf it.addr = none)
    (hkind : it.kind = .ntStore) (hline : offOf it.addr + it.len.toNat ≤ 64) :
    exec (.c2gReq d (gateAgent g) it) s = .next (s.withAgent d (gateAgent g) { a with
      port := { a.port with nextSeq := a.port.nextSeq + 1 }
      stores := [waitingStore it a.port.nextSeq] }) := by
  obtain ⟨hlive, rfl⟩ := hat
  obtain ⟨hcb, hrob, hbars, hstores, hearly⟩ := id hq
  let c := s.ac d (gateAgent g)
  let v : AC := { c with a := { c.a with
    port := { c.a.port with nextSeq := c.a.port.nextSeq + 1 }, stores := [waitingStore it c.nextSeq] } }
  have hsettle : v.settle = v := AC.settle_store hcb hrob hbars rfl rfl
  have hgate : it.gateKind = .ntStore := (ReqItem.gateKind_same (.inr hkind)).trans hkind
  have hsame : ({ it with kind := .ntStore } : ReqItem) = it := by rw [← hkind]
  have hcut : decide (64 < offOf it.addr + it.len.toNat) = false := decide_eq_false (by omega)
  have hno : c.refuses it = false := by
    have hwin' : c.k.devwinOf it.addr = none := hwin
    simp [AC.refuses, hkind, hwin']
  have hadd : (c.useSeq 1).addStore it c.nextSeq it.addr it.len.toNat false = v := by
    have hempty : (c.useSeq 1).a.stores = [] := hstores
    simp only [AC.addStore, hempty, List.nil_append]
    rfl
  have hreq : c.gateReq it = v := by
    rw [AC.gateReq]
    simp only [hgate, hsame, hno, hcut, Bool.and_false, Bool.false_eq_true, if_false, if_true]
    rw [hadd, hsettle]
  have hg : c.reqItem it = v := by
    rw [AC.reqItem, if_pos (State.ac_gate s d g), hreq, AC.matchEarly_none (c := v) hearly, hsettle]
  have hrun := State.runAgent_silent (g := fun c => c.reqItem it) hlive hg rfl rfl rfl rfl rfl
  exact congrArg Host.Outcome.next hrun

theorem State.c2gReq_refused (hat : s.AgentIs d (gateAgent g) a) (hq : a.Quiet)
    (hwin : (s.krovol.devwinOf it.addr).isSome = true) (hkind : it.kind = .ncLoad ∨ it.kind = .ntStore) :
    ∃ t, exec (.c2gReq d (gateAgent g) it) s = .next t ∧ s.OnlyPad t d ∧
      (t.pad d).agent (gateAgent g) = { a with out := a.out ++ [.refused it.ctag it.core] } ∧
      (s.pad d).Filed (t.pad d) { code := 0x601, reporter := agent d g.val, subject := agent d g.val
                                  addr := some it.addr, atype := if it.kind = .ncLoad then 3 else 12
                                  t := (s.pad d).now, detail := 0 } := by
  obtain ⟨hlive, rfl⟩ := hat
  let c := s.ac d (gateAgent g)
  let v := (c.drive (.refused it.ctag it.core)).rep 0x601 c.me (some it.addr) it.atype
  have hgate := ReqItem.gateKind_same hkind
  have hrefuses : c.refuses it = true := by
    have hwin' : (c.k.devwinOf it.addr).isSome = true := hwin
    obtain h | h := hkind <;> simp [AC.refuses, h, hwin']
  have hreq : c.gateReq it = v := by
    rw [AC.gateReq]
    simp only [hgate, hrefuses, if_true]
    rfl
  have hvq : v.a.Quiet := hq
  have hg : c.reqItem it = v := (AC.reqItem_quiet (State.ac_gate s d g) (hreq ▸ hvq)).trans hreq
  have hatype : it.atype = if it.kind = .ncLoad then 3 else 12 := by
    obtain h | h := hkind <;> simp [ReqItem.atype, h]
  rw [← portAgent_gate, ← hatype]
  obtain ⟨honly, hagent, hfiled, -, -⟩ :=
    State.runAgent_reports (g := fun c => c.reqItem it) hlive hg rfl rfl rfl rfl (show codeClass 0x601 ≠ .ft by decide)
  exact ⟨_, rfl, honly, hagent, hfiled⟩
end

/-- Settles O34: a quiet Gate only opens, keeps or refuses what came; a request is stamped as it opens. -/
theorem gateOpensStampedTransactions : Obligations.GateOpensStampedTransactions := by
  intro s d g it a hat hq hformed hmember hleaving r up there
  have habsent (x : Addr) (hx : there x) : r.absent (s.pad d).conf.unreach d (r.home x) false = false :=
    Repl.absent_there hformed hmember hleaving hx.1 hx.2.1 hx.2.2
  refine ⟨fun hwin hkind hthere => ⟨fun z hfree hline => ?_, fun htxns hline hup => ?_⟩,
    fun hwin hkind hline => State.c2gReq_store hat hq hwin hkind hline,
    fun hwin hkind => State.c2gReq_refused hat hq hwin hkind⟩
  · exact State.c2gReq_load hat hq hwin hkind hfree hline (habsent _ hthere)
  · exact State.c2gReq_split hat hq hwin hkind htxns hline (habsent _ hthere) (habsent _ hup)

end Sys2Proof.Machine
end

section
/-!
Deadlines and answers at a port, and the statement O38 (00 R4, 02 R60, R61, R66, R67, 11 R288, R292).
-/

namespace Sys2Proof.Machine

/-! ### The port of a Gate or Stile, by its agent -/

section
variable (s : State) (d : Die) (n : AgentN)

theorem localOf_portAgent : localOf (portAgent d n) = if n.val < 4 then n.val else n.val + 4 :=
  localOf_agent d (localOf_portAgent_lt n)

theorem sluiceOf_portAgent : sluiceOf (portAgent d n) = n.val := by
  have hlt := n.isLt
  unfold sluiceOf
  rw [localOf_portAgent]
  by_cases hn : n.val < 4
  · simp [hn]
  · have h1 : ¬n.val + 4 < 4 := by omega
    have h2 : n.val + 4 < 32 := by omega
    simp [hn, h1, h2]

theorem fin28_ofNat : Fin.ofNat 28 n.val = n := Fin.ext (Nat.mod_eq_of_lt n.isLt)

theorem fin30_val : (Fin.ofNat 30 n.val).val = n.val := Nat.mod_eq_of_lt (by omega)

theorem sluiceAgent_agent : sluiceAgent d (Fin.ofNat 30 n.val) = portAgent d n := by
  have hlt := n.isLt
  unfold sluiceAgent portAgent
  rw [fin30_val]
  by_cases hn : n.val < 4
  · simp [hn]
  · simp [hn, hlt]

theorem State.portOf_agent : s.portOf d (portAgent d n) = ((s.pad d).agent n).port := by
  have hlt := n.isLt
  simp only [State.portOf, Paddock.agent, localOf_portAgent]
  by_cases hn : n.val < 4
  · simp only [hn, if_true]
  · have h1 : ¬n.val + 4 < 4 := by omega
    have h2 : (decide (8 ≤ n.val + 4) && decide (n.val + 4 < 32)) = true := by simp; omega
    have h3 : n.val + 4 - 8 = n.val - 4 := by omega
    simp only [hn, h1, h2, h3, if_true, if_false]

theorem State.modPortOf_agent (f : ReqPort → ReqPort) :
    s.modPortOf d (portAgent d n) f = s.modAgent d n fun g => { g with port := f g.port } := by
  have hlt := n.isLt
  unfold State.modPortOf State.modAgent Paddock.modAgent
  rw [localOf_portAgent]
  by_cases hn : n.val < 4
  · simp only [hn, if_true]
  · have h1 : ¬n.val + 4 < 4 := by omega
    have h2 : (decide (8 ≤ n.val + 4) && decide (n.val + 4 < 32)) = true := by simp; omega
    have h3 : n.val + 4 - 8 = n.val - 4 := by omega
    simp only [hn, h1, h2, h3, if_true, if_false]

theorem State.sluiceLive_agent : s.sluiceLive d (Fin.ofNat 30 n.val) = s.agentLive d n := by
  unfold State.sluiceLive
  rw [fin30_val, if_pos n.isLt, fin28_ofNat]
end

/-! ### A missed deadline (11 R288) -/

/-- The report of a deadline missed by a transaction of an agent. -/
def State.missReport (s : State) (d : Die) (who : AgentId) (t : Txn) (code : BitVec 12) : Report :=
  { code := code, reporter := who, subject := t.flit.tgt, addr := some t.flit.addr, atype := t.flit.op.code
    t := (s.pad d).now }

theorem ReqPort.txn_one {p : ReqPort} {t : Txn} (h : p.txns = [t]) : p.txn t.flit.txid = some t := by
  simp [ReqPort.txn, h]

section
variable {s : State} {d : Die} {n : AgentN} {a : AgentPort} {t : Txn}

/-- A deadline that has passed for a transaction that is neither answered nor reported. -/
def Txn.late (t : Txn) (now : Nat) : Prop := t.missed = false ∧ t.answered = false ∧ t.deadline ≤ now

theorem State.now_withAgent (s : State) (d : Die) (n : AgentN) (b : AgentPort) : ((s.withAgent d n b).pad d).now = (s.pad d).now := by
  rw [State.withAgent, State.modAgent, State.pad_modPad_same]
  simp only [Paddock.now, Paddock.modAgent_aon]

theorem State.missedAt_agent_early (hat : s.AgentIs d n a) (htxns : a.port.txns = [t]) (hearly : ¬t.late (s.pad d).now) :
    s.missedAt d (Fin.ofNat 30 n.val) t.flit.txid = s := by
  obtain ⟨hlive, rfl⟩ := hat
  have hport : (s.portOf d (portAgent d n)).txn t.flit.txid = some t := by
    rw [State.portOf_agent, ReqPort.txn_one htxns]
  simp only [State.missedAt, sluiceAgent_agent, hport, State.sluiceLive_agent, hlive, Bool.true_and]
  refine if_neg fun h => hearly ?_
  simp only [Bool.and_eq_true, decide_eq_true_eq, Bool.not_eq_true'] at h
  exact ⟨h.1.2, h.2, h.1.1⟩

theorem State.missedAt_agent_late (hat : s.AgentIs d n a) (htxns : a.port.txns = [t]) (hhome : dieOf t.flit.tgt = d)
    (hlate : t.late (s.pad d).now) :
    s.missedAt d (Fin.ofNat 30 n.val) t.flit.txid =
      ((s.withAgent d n { a with port := { a.port with txns := [{ t with missed := true }] } }).modPad d fun q =>
        q.receive (s.missReport d (portAgent d n) t 0xD01)).pcount d (0x0A + t.flit.cls.val) n.val := by
  obtain ⟨hlive, rfl⟩ := hat
  obtain ⟨hmissed, hans, hdue⟩ := hlate
  have hport : (s.portOf d (portAgent d n)).txn t.flit.txid = some t := by
    rw [State.portOf_agent, ReqPort.txn_one htxns]
  have hmod : (s.modAgent d n fun g => { g with port := g.port.modTxn t.flit.txid fun u => { u with missed := true } }) =
      s.withAgent d n { (s.pad d).agent n with port := { ((s.pad d).agent n).port with txns := [{ t with missed := true }] } } := by
    refine State.modPad_congr ?_
    rw [← ReqPort.modTxn_one htxns (f := fun u => { u with missed := true })]
    unfold Paddock.modAgent Paddock.agent
    split <;> rfl
  simp only [State.missedAt, sluiceAgent_agent, hport, State.sluiceLive_agent, hlive, hmissed, hans, hdue, decide_true,
    Bool.not_false, Bool.and_true, if_true, State.modPortOf_agent, hmod, fin30_val]
  rw [State.file_own hhome rfl]
  simp only [State.now_withAgent, State.missReport]

/-- What reports of the port and its counting leave alone. -/
structure State.MissedAt (s u : State) (d : Die) (n : AgentN) (a : AgentPort) (t : Txn) : Prop where
  only : s.OnlyPad u d
  live : u.agentLive d n = true
  stream : (u.pad d).stream = (s.pad d).stream
  folds : (u.pad d).folds = (s.pad d).folds
  shep : (u.pad d).shep = (s.pad d).shep
  early : ¬t.late (s.pad d).now → (u.pad d).agent n = a ∧ (u.pad d).bell.inbox = (s.pad d).bell.inbox
  late : t.late (s.pad d).now → (u.pad d).agent n = { a with port := { a.port with txns := [{ t with missed := true }] } } ∧
    (s.pad d).Filed (u.pad d) (s.missReport d (portAgent d n) t 0xD01)

theorem State.agentLive_congr {s u : State} (hk : u.krovol = s.krovol) (hboot : (u.pad d).boot = (s.pad d).boot)
    (hebb : (u.pad d).ebb = (s.pad d).ebb) : u.agentLive d n = s.agentLive d n := by
  simp only [State.agentLive, Paddock.running, Paddock.domOn, hk, hboot, hebb]

theorem Paddock.modAgent_power (q : Paddock) (n : AgentN) (f : AgentPort → AgentPort) :
    (q.modAgent n f).boot = q.boot ∧ (q.modAgent n f).ebb = q.ebb := by
  unfold Paddock.modAgent
  split <;> exact ⟨rfl, rfl⟩

theorem State.missedAt_agent (hat : s.AgentIs d n a) (htxns : a.port.txns = [t]) (hhome : dieOf t.flit.tgt = d) :
    s.MissedAt (s.missedAt d (Fin.ofNat 30 n.val) t.flit.txid) d n a t := by
  by_cases hlate : t.late (s.pad d).now
  · let b : AgentPort := { a with port := { a.port with txns := [{ t with missed := true }] } }
    let r := s.missReport d (portAgent d n) t 0xD01
    let q := (s.pad d).modAgent n fun _ => b
    have hpad : ((s.missedAt d (Fin.ofNat 30 n.val) t.flit.txid).pad d) =
        { q.receive r with census := padCount (0x0A + t.flit.cls.val) n.val 16 (q.receive r).census } := by
      rw [State.missedAt_agent_late hat htxns hhome hlate, State.pcount, State.pad_modPad_same, State.pad_modPad_same,
        State.withAgent, State.modAgent, State.pad_modPad_same]
    have honly : s.OnlyPad (s.missedAt d (Fin.ofNat 30 n.val) t.flit.txid) d := by
      rw [State.missedAt_agent_late hat htxns hhome hlate]
      exact (((State.OnlyPad.refl s d).modPad _).modPad _).modPad _
    obtain ⟨hstream, hbell, hfolds, -, hshep⟩ := (s.pad d).modAgent_rest n fun _ => b
    obtain ⟨hboot, hebb⟩ := (s.pad d).modAgent_power n fun _ => b
    refine ⟨honly, ?_, ?_, ?_, ?_, fun h => absurd hlate h, fun _ => ⟨?_, ?_⟩⟩
    · refine (State.agentLive_congr honly.krovol ?_ ?_).trans hat.1
      · rw [hpad]; exact hboot
      · rw [hpad]; exact hebb
    · rw [hpad]; exact hstream
    · rw [hpad]; exact hfolds
    · rw [hpad]; exact hshep
    · rw [hpad]; exact Paddock.agent_modAgent _ _ _
    · rw [hpad]; exact congrArg (fun x : Bell => x.inbox ++ [r]) hbell
  · rw [State.missedAt_agent_early hat htxns hlate]
    exact ⟨.refl s d, hat.1, rfl, rfl, rfl, fun _ => ⟨hat.2, rfl⟩, fun h => absurd h hlate⟩
end

/-! ### What a quiet port makes of an answer (02 R60, R61, R66, R67) -/

section
variable {c : AC} {u : Txn} {g : BitVec 8} {core : Option Core}

theorem ReqPort.uncredit_none {p : ReqPort} (h : u.credit = false) : p.uncredit u = p := by
  simp [ReqPort.uncredit, h]

theorem AC.rspIn_comp {r : RspFlit} (hq : c.a.Quiet) (htxns : c.a.port.txns = [u]) (hpurpose : u.purpose = .agent g core)
    (hrob : u.rob = false) (hcredit : u.credit = false) (hop : r.op = .comp) (htxid : r.txid = u.flit.txid)
    (hdat : u.dat = none) :
    c.rspIn r = { c with a := { c.a with
      port := { c.a.port with
        txns := if r.data = false ∧ r.ackreq = false then [] else [{ u with comp := some r, credit := false }] }
      out := c.a.out ++ [.comp g r.state r.data core u.datPoison] } } := by
  let w : Txn := { u with comp := some r, credit := false }
  let b : AC := { c with a := { c.a with
    port := { c.a.port with txns := [w] }, out := c.a.out ++ [.comp g r.state r.data core u.datPoison] } }
  have hfound : c.a.port.txn r.txid = some u := htxid ▸ ReqPort.txn_one htxns
  have hmod : (c.a.port.uncredit u).modTxn r.txid (fun u => { u with comp := some r, credit := false }) =
      { c.a.port with txns := [w] } := by
    rw [ReqPort.uncredit_none hcredit, htxid, ReqPort.modTxn_one htxns]
  have hb : c.rspIn r = b.maybeDone r.txid := by
    simp only [AC.rspIn, hfound, hop, AC.modPort, hmod, hpurpose, hrob, Bool.false_eq_true, if_false, AC.drive]
    rfl
  have hw : b.a.port.txn r.txid = some w := htxid ▸ ReqPort.txn_one (p := b.a.port) (t := w) rfl
  have hans : w.answered = !r.data := by
    have : w.dat = none := hdat
    simp [Txn.answered, w, hdat]
  have hbq : b.settle = b := AgentPort.Quiet.settle (c := b) hq
  rw [hb, AC.maybeDone, hw]
  by_cases hdata : r.data = true
  · have hno : w.answered = false := by rw [hans, hdata]; rfl
    rw [if_neg (by simp [hdata])]
    simp only [hno, Bool.false_eq_true, if_false]
    exact hbq
  · have hnod : r.data = false := by simpa using hdata
    have hyes : w.answered = true := by rw [hans, hnod]; rfl
    simp only [hyes, if_true]
    by_cases hack : r.ackreq = true
    · have hstay : b.answeredNow w = b := by
        simp [AC.answeredNow, w, hack, hrob]
      rw [if_neg (by simp [hack]), hstay]
      exact hbq
    · have hnoa : r.ackreq = false := by simpa using hack
      have hclose : b.answeredNow w = { b with a := { b.a with port := { b.a.port with txns := [] } } } := by
        have hone : b.a.port.close w.flit.txid = { b.a.port with txns := [] } := ReqPort.close_one rfl
        simp only [AC.answeredNow, w, hnoa, hrob, Bool.false_eq_true, if_false, AC.modPort]
        exact congrArg (fun x => ({ b with a := { b.a with port := x } } : AC)) hone
      rw [hclose, if_pos ⟨hnod, hnoa⟩]
      exact AgentPort.Quiet.settle (c := { b with a := { b.a with port := { b.a.port with txns := [] } } }) hq

theorem AC.rspIn_ordered {r : RspFlit} (hq : c.a.Quiet) (htxns : c.a.port.txns = [u]) (hpurpose : u.purpose = .agent g core)
    (hop : r.op = .ordered) (htxid : r.txid = u.flit.txid) :
    c.rspIn r = { c with a := { c.a with
      port := { c.a.port with txns := [{ u with ordered := true }] }, out := c.a.out ++ [.ordered g core] } } := by
  let w : Txn := { u with ordered := true }
  let b : AC := { c with a := { c.a with
    port := { c.a.port with txns := [w] }, out := c.a.out ++ [.ordered g core] } }
  have hfound : c.a.port.txn r.txid = some u := htxid ▸ ReqPort.txn_one htxns
  have hmod : c.a.port.modTxn r.txid (fun u => { u with ordered := true }) =
      { c.a.port with txns := [w] } := by
    rw [htxid, ReqPort.modTxn_one htxns]
  have hb : c.rspIn r = b.settle := by
    simp only [AC.rspIn, hfound, hop, AC.modPort, hmod, hpurpose, AC.drive]
    rfl
  exact hb.trans (AgentPort.Quiet.settle (c := b) hq)

theorem AC.datIn_one {x : DatFlit} (hq : c.a.Quiet) (htxns : c.a.port.txns = [u]) (hpurpose : u.purpose = .agent g core)
    (hrob : u.rob = false) (htxid : x.txid = u.flit.txid) (hclean : x.poison = false) (hcomp : u.comp = none) :
    c.datIn x = { c with a := { c.a with
      port := { c.a.port with txns := [{ u with dat := some (x.payload, x.poison) }] }
      out := c.a.out ++ [.data g x.payload x.poison] } } := by
  let w : Txn := { u with dat := some (x.payload, x.poison) }
  let b : AC := { c with a := { c.a with
    port := { c.a.port with txns := [w] }, out := c.a.out ++ [.data g x.payload x.poison] } }
  have hfound : c.a.port.txn x.txid = some u := htxid ▸ ReqPort.txn_one htxns
  have hmod : c.a.port.modTxn x.txid (fun u => { u with dat := some (x.payload, x.poison) }) =
      { c.a.port with txns := [w] } := by
    rw [htxid, ReqPort.modTxn_one htxns]
  have hseen : c.poisonSeen u x.poison = c := by
    unfold AC.poisonSeen
    rw [hclean]
    split
    · contradiction
    · rfl
  have hb : c.datIn x = b.maybeDone x.txid := by
    simp only [AC.datIn, hfound, hseen, AC.modPort, hmod, hpurpose, hrob, Bool.false_eq_true, if_false, AC.drive]
    rfl
  have hw : b.a.port.txn x.txid = some w := htxid ▸ ReqPort.txn_one (p := b.a.port) (t := w) rfl
  have hno : w.answered = false := by simp [Txn.answered, w, hcomp]
  rw [hb, AC.maybeDone, hw]
  simp only [hno, Bool.false_eq_true, if_false]
  exact AgentPort.Quiet.settle (c := b) hq

/-- The core has an error that is alone in its reorder buffer at once (08 R205). -/
theorem AC.settle_err {e : RobEntry} {k : BitVec 4} (hcb : c.a.cb = []) (hrob : c.a.rob = [e]) (hbars : c.a.bars = [])
    (hstores : c.a.stores = []) (htxns : c.a.port.txns = []) (hhalf : e.half = none) (hlower : e.lower = false)
    (hres : e.res = some { ecode := k }) (hk : k ≠ 0) :
    c.settle = { c with a := { c.a with rob := [], out := c.a.out ++ [.err e.ctag k e.core] } } := by
  let b : AC := { c with a := { c.a with rob := [], out := c.a.out ++ [.err e.ctag k e.core] } }
  have hdrain : c.waitDrain = c := by simp [AC.waitDrain, hcb]
  have hready : c.robReady e = true := by
    simp [AC.robReady, AC.earlierLoad, AC.earlierDev, hres, htxns, hrob]
  have hfirst : c.robFirst e = true := by simp [AC.robFirst, hrob]
  have hupper : c.upperOf e = none := by simp [AC.upperOf, hrob, hhalf]
  have hdeliver : AC.deliverOne { c with a := { c.a with rob := [] } } e = b := by
    simp only [AC.deliverOne, hres, hlower, Option.getD_some, Bool.false_and, Bool.false_eq_true, if_false, AC.deliver,
      bne_iff_ne.2 hk, if_true]
    rfl
  have hone : c.robOne = b := by
    simp only [AC.robOne, hrob, List.find?_cons, hready, hfirst, hhalf, Bool.and_true, hupper, List.erase_cons_head]
    exact hdeliver
  have hrest : b.robDrain 1 = b := by simp [AC.robDrain, AC.robOne, b]
  have hrobs : c.robDrain 2 = b := by
    rw [AC.robDrain, hone, hrob, hrest]
    simp [b]
  have hfuel : 2 * c.a.stores.length + c.a.bars.length + 65 * c.a.cb.length + c.a.rob.length + 2 = 3 := by
    simp [hcb, hrob, hbars, hstores]
  have hsame : b.a.bars = [] ∧ b.a.stores = [] ∧ b.a.cb = [] ∧ b.a.port = c.a.port := ⟨hbars, hstores, hcb, rfl⟩
  obtain ⟨hb, hw, hc, hp⟩ := hsame
  rw [AC.settle, hfuel]
  change c.settleN 3 = b
  rw [AC.settleN, hdrain]
  simp [hcb, hstores, hrob, hrobs, hbars, hb, hw, hc, hp, AC.nextSeq]

/-- An Err closes the transaction, and its core has it, through the reorder buffer or not. -/
theorem AC.rspIn_err {r : RspFlit} (hq : c.a.Quiet) (htxns : c.a.port.txns = [u]) (hpurpose : u.purpose = .agent g core)
    (hrob : u.rob = false) (hcredit : u.credit = false) (hstore : u.flit.op.isStore = false) (hop : r.op = .err)
    (htxid : r.txid = u.flit.txid) (hcode : r.ecode ≠ 0) :
    c.rspIn r = { c with
      a := { c.a with port := { c.a.port with txns := [] }, out := c.a.out ++ [.err g r.ecode core] }
      counts := c.counts ++ [(0x0E, c.n.val)] } := by
  obtain ⟨hcb, hempty, hbars, hstores, -⟩ := id hq
  let b : AC := { c with a := { c.a with port := { c.a.port with txns := [] } } }
  have hfound : c.a.port.txn r.txid = some u := htxid ▸ ReqPort.txn_one htxns
  have hclose : (c.a.port.uncredit u).close u.flit.txid = { c.a.port with txns := [] } := by
    rw [ReqPort.uncredit_none hcredit, ReqPort.close_one htxns]
  have hb : (c.modPort fun p => (p.uncredit u).close u.flit.txid) = b :=
    congrArg (fun x => ({ c with a := { c.a with port := x } } : AC)) hclose
  have hwriters : u.writers = [] := by
    unfold Txn.writers
    rw [hpurpose]
    simp [hstore]
  have hctag : u.purpose.ctag = some g := by rw [hpurpose]; rfl
  have hcore : u.purpose.core = core := by rw [hpurpose]; rfl
  have hin : c.rspIn r = ((c.endErr u r.ecode).ev 0x0E).settle := by simp only [AC.rspIn, hfound, hop]
  let k : RobEntry := { u.robEntry with slot := false, res := some { ecode := r.ecode } }
  by_cases hheld : (c.needsRob u && (r.ecode != 1 || u.purpose matches .half _ _ _)) = true
  · have hend : c.endErr u r.ecode = { b with a := { b.a with rob := [k] } } := by
      have hnil : b.a.rob = [] := hempty
      simp only [AC.endErr, hb, hwriters, List.foldl_nil, hrob, Bool.false_eq_true, if_false, hnil, List.nil_append]
      exact if_pos hheld
    have hhalf : k.half = none := by simp [k, Txn.robEntry, hpurpose]
    have hlower : k.lower = false := by simp [k, Txn.robEntry, hpurpose]
    have hk : k.ctag = g ∧ k.core = core := ⟨by simp [k, Txn.robEntry, hctag], hcore⟩
    have hsettle := AC.settle_err (c := AC.ev { b with a := { b.a with rob := [k] } } 0x0E) (e := k) hcb rfl hbars hstores rfl
      hhalf hlower rfl hcode
    rw [hin, hend, hsettle, hk.1, hk.2]
    exact congrArg (fun x => ({ c with
      a := { c.a with port := { c.a.port with txns := [] }, rob := x, out := c.a.out ++ [.err g r.ecode core] }
      counts := c.counts ++ [(0x0E, c.n.val)] } : AC)) hempty.symm
  · have hend : c.endErr u r.ecode = b.drive (.err g r.ecode core) := by
      simp only [AC.endErr, hb, hwriters, List.foldl_nil, hrob, Bool.false_eq_true, if_false]
      refine (if_neg hheld).trans ?_
      simp only [hctag, hcore]
    rw [hin, hend]
    exact AgentPort.Quiet.settle (c := AC.ev (b.drive (.err g r.ecode core)) 0x0E) hq
end

/-! ### An answer leaves the Stream at its requester -/

section
variable {s : State} {d : Die} {n : AgentN} {a : AgentPort} {t : Txn} {f : AC → AC} {l : Txn → List Txn} {o : List OutItem}

/-- What an answer makes of a port's only transaction. -/
def AgentPort.answeredWith (a : AgentPort) (l : List Txn) (o : List OutItem) : AgentPort :=
  { a with port := { a.port with txns := l }, out := a.out ++ o }

/-- An event of a quiet port makes `l u` of its only transaction u, and drives `o` to the agent. -/
def AC.Makes (f : AC → AC) (u : Txn) (l : List Txn) (o : List OutItem) : Prop :=
  ∀ c : AC, c.a.Quiet → c.a.port.txns = [u] → ∃ k, f c = { c with a := c.a.answeredWith l o, counts := k }

theorem AC.makes_comp {u : Txn} {g : BitVec 8} {core : Option Core} {r : RspFlit} (hpurpose : u.purpose = .agent g core)
    (hrob : u.rob = false) (hcredit : u.credit = false) (hop : r.op = .comp) (htxid : r.txid = u.flit.txid)
    (hdat : u.dat = none) :
    AC.Makes (fun c => c.rspIn r) u
      (if r.data = false ∧ r.ackreq = false then [] else [{ u with comp := some r, credit := false }])
      [.comp g r.state r.data core u.datPoison] :=
  fun c hq htxns => ⟨c.counts, AC.rspIn_comp hq htxns hpurpose hrob hcredit hop htxid hdat⟩

theorem AC.makes_ordered {u : Txn} {g : BitVec 8} {core : Option Core} {r : RspFlit} (hpurpose : u.purpose = .agent g core)
    (hop : r.op = .ordered) (htxid : r.txid = u.flit.txid) :
    AC.Makes (fun c => c.rspIn r) u [{ u with ordered := true }] [.ordered g core] :=
  fun c hq htxns => ⟨c.counts, AC.rspIn_ordered hq htxns hpurpose hop htxid⟩

theorem AC.makes_err {u : Txn} {g : BitVec 8} {core : Option Core} {r : RspFlit} (hpurpose : u.purpose = .agent g core)
    (hrob : u.rob = false) (hcredit : u.credit = false) (hstore : u.flit.op.isStore = false) (hop : r.op = .err)
    (htxid : r.txid = u.flit.txid) (hcode : r.ecode ≠ 0) :
    AC.Makes (fun c => c.rspIn r) u [] [.err g r.ecode core] :=
  fun c hq htxns => ⟨_, AC.rspIn_err hq htxns hpurpose hrob hcredit hstore hop htxid hcode⟩

theorem AC.makes_data {u : Txn} {g : BitVec 8} {core : Option Core} {x : DatFlit} (hpurpose : u.purpose = .agent g core)
    (hrob : u.rob = false) (htxid : x.txid = u.flit.txid) (hclean : x.poison = false) (hcomp : u.comp = none) :
    AC.Makes (fun c => c.datIn x) u [{ u with dat := some (x.payload, x.poison) }] [.data g x.payload x.poison] :=
  fun c hq htxns => ⟨c.counts, AC.datIn_one hq htxns hpurpose hrob htxid hclean hcomp⟩

theorem State.runAgent_makes {b : AgentPort} {u : Txn} (hat : s.AgentIs d n b) (hq : b.Quiet) (htxns : b.port.txns = [u])
    (hf : AC.Makes f u (l u) o) :
    s.OnlyPad (s.runAgent d n f) d ∧ ((s.runAgent d n f).pad d).agent n = b.answeredWith (l u) o ∧
      ((s.runAgent d n f).pad d).stream = (s.pad d).stream ∧ ((s.runAgent d n f).pad d).folds = (s.pad d).folds ∧
      ((s.runAgent d n f).pad d).shep = (s.pad d).shep ∧
      ((s.runAgent d n f).pad d).bell.inbox = (s.pad d).bell.inbox := by
  obtain ⟨hlive, rfl⟩ := hat
  obtain ⟨k, hg⟩ := hf (s.ac d n) hq htxns
  rw [State.runAgent_own hlive hg rfl fun _ h => absurd h List.not_mem_nil, State.pad_modPad_same]
  exact ⟨(State.OnlyPad.refl s d).modPad _, Paddock.ported_agent _ _, Paddock.ported_stream _ _ rfl, Paddock.ported_folds _ _,
    Paddock.ported_shep _ _, (Paddock.ported_inbox _ _).trans (List.append_nil _)⟩

theorem State.AgentIs.took (hat : s.AgentIs d n a) (net : Net) (p : Spot) :
    (s.modStream d fun x => x.take net p).AgentIs d n a := by
  have hpad : (s.modStream d fun x => x.take net p).pad d = (s.pad d).took net p := State.pad_modPad_same _ _ _
  have hlive : (s.modStream d fun x => x.take net p).agentLive d n = s.agentLive d n :=
    State.agentLive_congr rfl (by rw [hpad]; rfl) (by rw [hpad]; rfl)
  exact ⟨hlive.trans hat.1, hpad ▸ hat.2⟩

/-- An answer taken off the Stream, after the miss that it may be (00 R4). -/
theorem State.answer_taken {net : Net} {p : Spot} (hat : s.AgentIs d n a) (hq : a.Quiet) (htxns : a.port.txns = [t])
    (hhome : dieOf t.flit.tgt = d) (hf : AC.Makes f t (l t) o)
    (hmiss : AC.Makes f { t with missed := true } (l { t with missed := true }) o) :
    let v := ((s.modStream d fun x => x.take net p).missedAt d (Fin.ofNat 30 n.val) t.flit.txid).runAgent d n f
    s.OnlyPad v d ∧ (v.pad d).stream = (s.pad d).stream.take net p ∧ (v.pad d).folds = (s.pad d).folds ∧
      (v.pad d).shep = (s.pad d).shep ∧
      (¬t.late (s.pad d).now → (v.pad d).agent n = a.answeredWith (l t) o ∧ (v.pad d).bell.inbox = (s.pad d).bell.inbox) ∧
      (t.late (s.pad d).now → (v.pad d).agent n = a.answeredWith (l { t with missed := true }) o ∧
        (s.pad d).Filed (v.pad d) (s.missReport d (portAgent d n) t 0xD01)) := by
  let s1 := s.modStream d fun x => x.take net p
  let s2 := s1.missedAt d (Fin.ofNat 30 n.val) t.flit.txid
  intro v
  have hpad1 : s1.pad d = (s.pad d).took net p := State.pad_modPad_same _ _ _
  have hnow1 : (s1.pad d).now = (s.pad d).now := by rw [hpad1]; simp only [Paddock.now, Paddock.took]
  have hrep1 : s1.missReport d (portAgent d n) t 0xD01 = s.missReport d (portAgent d n) t 0xD01 := by
    simp only [State.missReport, hnow1]
  have honly1 : s.OnlyPad s1 d := (State.OnlyPad.refl s d).modPad _
  obtain ⟨honly2, hlive2, hstream2, hfolds2, hshep2, hearly, hlate⟩ :=
    State.missedAt_agent (hat.took net p) htxns hhome
  rw [hnow1] at hearly hlate
  have hbase : (s1.pad d).stream = (s.pad d).stream.take net p ∧ (s1.pad d).folds = (s.pad d).folds ∧
      (s1.pad d).shep = (s.pad d).shep ∧ (s1.pad d).bell.inbox = (s.pad d).bell.inbox := by
    rw [hpad1]; exact ⟨rfl, rfl, rfl, rfl⟩
  obtain ⟨hstream1, hfolds1, hshep1, hinbox1⟩ := hbase
  by_cases h : t.late (s.pad d).now
  · obtain ⟨hagent, hfiled⟩ := hlate h
    obtain ⟨honly, hav, hsv, hfv, hhv, hiv⟩ :=
      State.runAgent_makes (s := s2) (b := { a with port := { a.port with txns := [{ t with missed := true }] } })
        ⟨hlive2, hagent⟩ hq rfl hmiss
    refine ⟨(honly1.trans honly2).trans honly, hsv.trans (hstream2.trans hstream1), hfv.trans (hfolds2.trans hfolds1),
      hhv.trans (hshep2.trans hshep1), fun hno => absurd h hno, fun _ => ⟨hav, ?_⟩⟩
    rw [Paddock.Filed, hiv, hfiled, hinbox1, hrep1]
  · obtain ⟨hagent, hinbox⟩ := hearly h
    obtain ⟨honly, hav, hsv, hfv, hhv, hiv⟩ := State.runAgent_makes (s := s2) ⟨hlive2, hagent⟩ hq htxns hf
    exact ⟨(honly1.trans honly2).trans honly, hsv.trans (hstream2.trans hstream1), hfv.trans (hfolds2.trans hfolds1),
      hhv.trans (hshep2.trans hshep1), fun _ => ⟨hav, hiv.trans (hinbox.trans hinbox1)⟩, fun hyes => absurd hyes h⟩

/-! ### The requester is a Gate or Stile -/

theorem portAgent_local (d : Die) (n : AgentN) :
    (decide (localOf (portAgent d n) < 4) || (decide (8 ≤ localOf (portAgent d n)) && decide (localOf (portAgent d n) < 32))) =
      true := by
  have hlt := n.isLt
  rw [localOf_portAgent]
  by_cases hn : n.val < 4
  · simp [hn]
  · simp [hn]; omega

theorem State.rspTo_agent {r : RspFlit} (htgt : r.tgt = portAgent d n) :
    s.rspTo d r = (s.missedAt d (Fin.ofNat 30 n.val) r.txid).runAgent d n fun c => c.rspIn r := by
  simp only [State.rspTo, htgt, sluiceOf_portAgent, portAgent_local, if_true, fin28_ofNat]

theorem State.datTo_agent {x : DatFlit} (htgt : x.tgt = portAgent d n) :
    s.datTo d x = (s.missedAt d (Fin.ofNat 30 n.val) x.txid).runAgent d n fun c => c.datIn x := by
  simp only [State.datTo, htgt, sluiceOf_portAgent, portAgent_local, if_true, fin28_ofNat]

theorem State.rspAt_agent {r : RspFlit} {p : Spot} (hstands : s.Stands d .rsp p (.rsp r)) (htgt : r.tgt = portAgent d n)
    (op : RspOp) (hop : r.op = op) :
    s.rspAt d p true op = ((s.modStream d fun x => x.take .rsp p).missedAt d (Fin.ofNat 30 n.val) r.txid).runAgent d n
      fun c => c.rspIn r := by
  have hstands' : s.arrived d .rsp p true = .flit (.rsp r) := hstands
  rw [State.rspAt, hstands']
  simp only [beq_iff_eq.2 hop, if_true]
  exact State.rspTo_agent htgt

theorem State.dataToReqAt_agent {x : DatFlit} {p : Spot} (hstands : s.Stands d .dat p (.dat x)) (hop : x.op = .dataToReq)
    (htgt : x.tgt = portAgent d n) :
    s.dataToReqAt d p true = ((s.modStream d fun y => y.take .dat p).missedAt d (Fin.ofNat 30 n.val) x.txid).runAgent d n
      fun c => c.datIn x := by
  have hstands' : s.arrived d .dat p true = .flit (.dat x) := hstands
  rw [State.dataToReqAt, hstands']
  simp only [beq_iff_eq.2 hop, if_true]
  exact State.datTo_agent htgt
end

/-! ### A Shepherd's deadlines (11 R288, R292) -/

section
variable {s : State} {d : Die} {t : Txn}

theorem sluiceAgent_shepherd (d : Die) : sluiceAgent d 29 = agent d 127 := rfl

theorem State.shepherd_txn (htxns : (s.pad d).shep.port.txns = [t]) :
    (s.portOf d (agent d 127)).txn t.flit.txid = some t := by
  rw [State.portOf_shepherd, ReqPort.txn_one htxns]

theorem State.sluiceLive_shepherd (hrun : (s.pad d).running = true) (hsh : (s.pad d).domOn domSH = true) :
    s.sluiceLive d 29 = true := by
  have h1 : ¬((29 : SluiceN).val < 28) := by decide
  have h2 : ¬((29 : SluiceN).val = 28) := by decide
  rw [State.sluiceLive, if_neg h1, if_neg h2, hrun, hsh]
  rfl

theorem State.missedAt_shepherd_early (htxns : (s.pad d).shep.port.txns = [t]) (hearly : ¬t.late (s.pad d).now) :
    s.missedAt d 29 t.flit.txid = s := by
  simp only [State.missedAt, sluiceAgent_shepherd, State.shepherd_txn htxns]
  refine if_neg fun h => hearly ?_
  simp only [Bool.and_eq_true, decide_eq_true_eq, Bool.not_eq_true'] at h
  exact ⟨h.1.2, h.2, h.1.1.2⟩

/-- The paddock whose Shepherd's only transaction is `u`. -/
def Paddock.asks (q : Paddock) (l : List Txn) : Paddock :=
  { q with shep := { q.shep with port := { q.shep.port with txns := l } } }

theorem State.missedAt_shepherd_late (hrun : (s.pad d).running = true) (hsh : (s.pad d).domOn domSH = true)
    (htxns : (s.pad d).shep.port.txns = [t]) (hhome : dieOf t.flit.tgt = d) (hlate : t.late (s.pad d).now) :
    s.missedAt d 29 t.flit.txid =
      (s.modPad d fun q => (q.asks [{ t with missed := true }]).receive (s.missReport d (agent d 127) t 0xD01)).pcount d
        (0x0A + t.flit.cls.val) 29 := by
  obtain ⟨hmissed, hans, hdue⟩ := hlate
  have hmod : (s.modPad d fun q => { q with shep := { q.shep with
      port := q.shep.port.modTxn t.flit.txid (fun u => { u with missed := true }) } }) = s.modPad d fun q => q.asks [{ t with missed := true }] :=
    State.modPad_congr (by rw [ReqPort.modTxn_one htxns]; rfl)
  have hnow : ((s.modPad d fun q => q.asks [{ t with missed := true }]).pad d).now = (s.pad d).now := by
    rw [State.pad_modPad_same]; simp only [Paddock.now, Paddock.asks]
  simp only [State.missedAt, sluiceAgent_shepherd, State.shepherd_txn htxns, State.sluiceLive_shepherd hrun hsh, hmissed, hans,
    hdue, decide_true, Bool.not_false, Bool.and_true, if_true, State.modPortOf_shepherd, hmod]
  rw [State.file_own hhome rfl, State.modPad_modPad]
  simp only [hnow, State.missReport]
  rfl

/-- What a deadline missed at a Shepherd leaves of the state. -/
theorem State.missedAt_shepherd (hrun : (s.pad d).running = true) (hsh : (s.pad d).domOn domSH = true)
    (htxns : (s.pad d).shep.port.txns = [t]) (hhome : dieOf t.flit.tgt = d) (hlate : t.late (s.pad d).now) :
    let u := s.missedAt d 29 t.flit.txid
    s.OnlyPad u d ∧
      (u.pad d).shep = { (s.pad d).shep with port := { (s.pad d).shep.port with txns := [{ t with missed := true }] } } ∧
      (s.pad d).Filed (u.pad d) (s.missReport d (agent d 127) t 0xD01) ∧ (u.pad d).stream = (s.pad d).stream ∧
      (u.pad d).aon = (s.pad d).aon ∧ (u.pad d).boot = (s.pad d).boot ∧ (u.pad d).ebb = (s.pad d).ebb := by
  intro u
  have hu : u = _ := State.missedAt_shepherd_late hrun hsh htxns hhome hlate
  have hpad : u.pad d = { (((s.pad d).asks [{ t with missed := true }]).receive (s.missReport d (agent d 127) t 0xD01)) with
      census := padCount (0x0A + t.flit.cls.val) 29 16 (s.pad d).census } := by
    rw [hu, State.pcount, State.pad_modPad_same, State.pad_modPad_same]
    rfl
  refine ⟨hu ▸ ((State.OnlyPad.refl s d).modPad _).modPad _, ?_, ?_, ?_, ?_, ?_, ?_⟩ <;> rw [hpad] <;> rfl

/-- The Shepherd's request leaves the injection queue. -/
def Stream.withoutReq (q : Stream) (d : Die) (x : TxId) : List InjItem :=
  q.inj.filter fun i => match i.flit with
    | .req f => !(i.agent == agent d 127 && f.src == agent d 127 && f.txid == x)
    | _ => true

theorem Stream.unqueue_inj (q : Stream) (d : Die) (x : TxId) : (q.unqueue (agent d 127) x).inj = q.withoutReq d x := by
  unfold Stream.unqueue Stream.withoutReq
  refine congrArg (fun p => q.inj.filter p) (funext fun ⟨net, pos, agent, cls, flit, since, held⟩ => ?_)
  cases flit <;> rfl

/-- What an abandoned request of the Shepherd leaves of the paddock. -/
def Paddock.abandoned (q : Paddock) (d : Die) (x : TxId) (r : Report) : Paddock :=
  ({ q.asks [] with stream := q.stream.unqueue (shepAgent d) x } : Paddock).receive r

/-- A transaction of a walk over lines that is not the Shepherd's own MAINT_RANGE counts nothing (06 R167). -/
theorem State.shepEnd_walk {ecode : BitVec 4} (hpurpose : ∃ k, t.purpose = .job (2 * k + 1)) :
    s.shepEnd d (.err t ecode) = s := by
  obtain ⟨k, hk⟩ := hpurpose
  have hodd : ¬(2 * k + 1) % 2 = 0 := by omega
  simp only [State.shepEnd, hk, State.jobCount, hodd, if_false]
  split <;> rfl

theorem State.portErr_shepherd {ecode : BitVec 4} (htxns : (s.pad d).shep.port.txns = [t]) (hcredit : t.credit = false)
    (hpurpose : ∃ k, t.purpose = .job (2 * k + 1)) : s.portErr d 29 t ecode = s.modPad d fun q => q.asks [] := by
  have h1 : ¬((29 : SluiceN).val < 28) := by decide
  have h2 : ¬((29 : SluiceN).val = 28) := by decide
  rw [State.portErr, if_neg h1, sluiceAgent_shepherd, State.modPortOf_shepherd]
  simp only [h2, if_false]
  rw [State.shepEnd_walk hpurpose]
  refine State.modPad_congr ?_
  rw [ReqPort.uncredit_none hcredit, ReqPort.close_one htxns]
  rfl

theorem State.abandonAt_shepherd {u : State} (hmiss : s.missedAt d 29 t.flit.txid = u) {w : Txn}
    (hid : w.flit.txid = t.flit.txid) (htxns : (u.pad d).shep.port.txns = [w]) :
    s.abandonAt d 29 t.flit.txid =
      if u.sluiceLive d 29 && decide (w.abandon ≤ (u.pad d).now) && w.phase != .injected then
        ((u.modStream d fun q => q.unqueue (agent d 127) t.flit.txid).portErr d 29 w 2).file d
          ((u.modStream d fun q => q.unqueue (agent d 127) t.flit.txid).missReport d (agent d 127) w 0xD02)
      else u := by
  have hfound : (u.portOf d (agent d 127)).txn t.flit.txid = some w := hid ▸ State.shepherd_txn htxns
  simp only [State.abandonAt, hmiss, sluiceAgent_shepherd, hfound]
  rfl

theorem State.abandonAt_due {u : State} (hmiss : s.missedAt d 29 t.flit.txid = u) {w : Txn}
    (hid : w.flit.txid = t.flit.txid) (htxns : (u.pad d).shep.port.txns = [w]) (hcredit : w.credit = false)
    (hrun : (u.pad d).running = true) (hsh : (u.pad d).domOn domSH = true) (hhome : dieOf w.flit.tgt = d)
    (hphase : w.phase ≠ .injected) (hpurpose : ∃ k, w.purpose = .job (2 * k + 1)) (hdue : w.abandon ≤ (u.pad d).now) :
    s.abandonAt d 29 t.flit.txid =
      u.modPad d fun q => q.abandoned d t.flit.txid (u.missReport d (agent d 127) w 0xD02) := by
  let v := u.modStream d fun q => q.unqueue (agent d 127) t.flit.txid
  have hpad : v.pad d = { u.pad d with stream := (u.pad d).stream.unqueue (agent d 127) t.flit.txid } :=
    State.pad_modPad_same _ _ _
  have hv : (v.pad d).shep.port.txns = [w] := by rw [hpad]; exact htxns
  have hnow : (v.pad d).now = (u.pad d).now := by rw [hpad]; simp only [Paddock.now]
  rw [State.abandonAt_shepherd hmiss hid htxns, if_pos (by
    rw [State.sluiceLive_shepherd hrun hsh, decide_eq_true hdue, bne_iff_ne.2 hphase]; rfl)]
  have hrep : v.missReport d (agent d 127) w 0xD02 = u.missReport d (agent d 127) w 0xD02 := by
    simp only [State.missReport, hnow]
  rw [State.portErr_shepherd hv hcredit hpurpose, hrep, State.file_own hhome rfl, State.modPad_modPad]
  exact State.modPad_modPad _ _ _ _
end

theorem exec_comp_quiet (s : State) (d : Die) (p : Spot) : exec (.comp d p 0) s = .next (s.rspAt d p true .comp) := by
  change execComp d p 0 s = _
  simp only [execComp, State.wire_quiet]

theorem exec_ordered_quiet (s : State) (d : Die) (p : Spot) : exec (.ordered d p 0) s = .next (s.rspAt d p true .ordered) := by
  change execOrdered d p 0 s = _
  simp only [execOrdered, State.wire_quiet]

theorem exec_err_quiet (s : State) (d : Die) (p : Spot) : exec (.err d p 0) s = .next (s.rspAt d p true .err) := by
  change execErr d p 0 s = _
  simp only [execErr, State.wire_quiet]

theorem exec_dataToReq_quiet (s : State) (d : Die) (p : Spot) : exec (.dataToReq d p 0) s = .next (s.dataToReqAt d p true) := by
  change execDataToReq d p 0 s = _
  simp only [execDataToReq, State.wire_quiet]

/-- What follows the abandon limit of the Shepherd's one request, its miss reported or not. -/
theorem State.abandon_shepherd {s : State} {d : Die} {t : Txn} (hrun : (s.pad d).running = true)
    (hsh : (s.pad d).domOn domSH = true) (hasks : (s.pad d).shep.Asks t) (hhome : dieOf t.flit.tgt = d)
    (hphase : t.phase ≠ .injected) (hpurpose : ∃ k, t.purpose = .job (2 * k + 1)) (hdue : t.abandon ≤ (s.pad d).now) :
    ∃ u, exec (.abandonBeforeInjection d 29 t.flit.txid) s = .next u ∧ s.OnlyPad u d ∧
      (u.pad d).shep = { (s.pad d).shep with port := { (s.pad d).shep.port with txns := [] } } ∧
      (¬t.late (s.pad d).now → (s.pad d).Filed (u.pad d) (s.missReport d (agent d 127) t 0xD02)) ∧
      (t.late (s.pad d).now → (u.pad d).bell.inbox = (s.pad d).bell.inbox ++
        [s.missReport d (agent d 127) t 0xD01, s.missReport d (agent d 127) t 0xD02]) ∧
      (u.pad d).stream.inj = (s.pad d).stream.withoutReq d t.flit.txid := by
  obtain ⟨htxns, hcredit⟩ := hasks
  by_cases hlate : t.late (s.pad d).now
  · let v := s.missedAt d 29 t.flit.txid
    obtain ⟨honly, hshep, hfiled, hstream, haon, hboot, hebb⟩ := State.missedAt_shepherd hrun hsh htxns hhome hlate
    have hnow : (v.pad d).now = (s.pad d).now := by simp only [Paddock.now]; rw [haon]
    have hv : (v.pad d).shep.port.txns = [{ t with missed := true }] := by rw [hshep]
    have hrunv : (v.pad d).running = true := by simp only [Paddock.running]; rw [hboot, hebb]; exact hrun
    have hshv : (v.pad d).domOn domSH = true := by simp only [Paddock.domOn]; rw [hebb]; exact hsh
    have hrep : v.missReport d (agent d 127) { t with missed := true } 0xD02 = s.missReport d (agent d 127) t 0xD02 := by
      simp only [State.missReport, hnow]
    have habandon := State.abandonAt_due (u := v) rfl (w := { t with missed := true }) rfl hv hcredit hrunv hshv hhome hphase
      hpurpose (hnow.symm ▸ hdue)
    rw [hrep] at habandon
    refine ⟨_, congrArg Host.Outcome.next habandon, honly.trans ((State.OnlyPad.refl v d).modPad _), ?_,
      fun h => absurd hlate h, fun _ => ?_, ?_⟩ <;> rw [State.pad_modPad_same]
    · change ({ (v.pad d).shep with port := { (v.pad d).shep.port with txns := [] } } : Shep) = _
      rw [hshep]
    · change (v.pad d).bell.inbox ++ [_] = _
      rw [hfiled, List.append_assoc]
      rfl
    · exact (Stream.unqueue_inj _ _ _).trans (by rw [hstream])
  · have hmiss : s.missedAt d 29 t.flit.txid = s := State.missedAt_shepherd_early htxns hlate
    have habandon := State.abandonAt_due hmiss rfl htxns hcredit hrun hsh hhome hphase hpurpose hdue
    refine ⟨_, congrArg Host.Outcome.next habandon, (State.OnlyPad.refl s d).modPad _, ?_, fun _ => ?_,
      fun h => absurd h hlate, ?_⟩ <;> rw [State.pad_modPad_same]
    · rfl
    · rfl
    · exact Stream.unqueue_inj _ _ _

theorem State.abandon_shepherd_early {s : State} {d : Die} {t : Txn} (htxns : (s.pad d).shep.port.txns = [t])
    (hlate : ¬t.late (s.pad d).now) (hearly : (s.pad d).now < t.abandon) :
    exec (.abandonBeforeInjection d 29 t.flit.txid) s = .next s := by
  refine congrArg Host.Outcome.next ((State.abandonAt_shepherd (State.missedAt_shepherd_early htxns hlate) rfl htxns).trans ?_)
  refine if_neg fun h => ?_
  simp only [Bool.and_eq_true, decide_eq_true_eq] at h
  omega

/-- A deadline is late just where none of its three answers holds. -/
theorem Txn.not_late_iff (t : Txn) (now : Nat) : ¬t.late now ↔ t.missed = true ∨ t.answered = true ∨ now < t.deadline := by
  unfold Txn.late
  cases t.missed <;> cases t.answered <;> simp

/-- Settles O38: an answer is a miss first where its deadline has passed; then it closes or changes the one transaction, and
its agent has it. -/
theorem portsTakeAnswersAndKeepTimes : Obligations.PortsTakeAnswersAndKeepTimes := by
  refine ⟨?_, ?_⟩
  · intro s d p n a t g core hat hq htxns hpurpose hrob hcredit hhome late with' takes
    have htake {net : Net} {f : AC → AC} {l : Txn → List Txn} {o : List OutItem} (c : Instr)
        (hexec : exec c s = .next (((s.modStream d fun x => x.take net p).missedAt d (Fin.ofNat 30 n.val) t.flit.txid).runAgent d n f))
        (hf : AC.Makes f t (l t) o) (hmiss : AC.Makes f { t with missed := true } (l { t with missed := true }) o) :
        takes c net l o :=
      ⟨_, hexec, State.answer_taken hat hq htxns hhome hf hmiss⟩
    refine ⟨fun r hstands htgt htxid => ⟨fun hop hdat => ?_, fun hop => ?_, fun hop hcode hstore => ?_⟩,
      fun x hstands hop htgt htxid hclean hcomp => ?_⟩
    · have hexec : exec (.comp d p 0) s = _ :=
        (exec_comp_quiet s d p).trans (congrArg Host.Outcome.next (State.rspAt_agent hstands htgt .comp hop))
      rw [htxid] at hexec
      exact htake (l := fun u => if r.data = false ∧ r.ackreq = false then [] else [{ u with comp := some r, credit := false }])
        _ hexec (AC.makes_comp hpurpose hrob hcredit hop htxid hdat)
        (AC.makes_comp (u := { t with missed := true }) hpurpose hrob hcredit hop htxid hdat)
    · have hexec : exec (.ordered d p 0) s = _ :=
        (exec_ordered_quiet s d p).trans (congrArg Host.Outcome.next (State.rspAt_agent hstands htgt .ordered hop))
      rw [htxid] at hexec
      exact htake (l := fun u => [{ u with ordered := true }]) _ hexec (AC.makes_ordered hpurpose hop htxid)
        (AC.makes_ordered (u := { t with missed := true }) hpurpose hop htxid)
    · have hexec : exec (.err d p 0) s = _ :=
        (exec_err_quiet s d p).trans (congrArg Host.Outcome.next (State.rspAt_agent hstands htgt .err hop))
      rw [htxid] at hexec
      exact htake (l := fun _ => []) _ hexec (AC.makes_err hpurpose hrob hcredit hstore hop htxid hcode)
        (AC.makes_err (u := { t with missed := true }) hpurpose hrob hcredit hstore hop htxid hcode)
    · have hexec : exec (.dataToReq d p 0) s = _ :=
        (exec_dataToReq_quiet s d p).trans (congrArg Host.Outcome.next (State.dataToReqAt_agent hstands hop htgt))
      rw [htxid] at hexec
      exact htake (l := fun u => [{ u with dat := some (x.payload, x.poison) }]) _ hexec
        (AC.makes_data hpurpose hrob htxid hclean hcomp)
        (AC.makes_data (u := { t with missed := true }) hpurpose hrob htxid hclean hcomp)
  · intro s d t hrun hsh hasks rep hhome
    obtain ⟨htxns, hcredit⟩ := hasks
    refine ⟨fun hmissed hans => ⟨fun hearly => ?_, fun hdue => ?_⟩, fun hphase hpurpose => ?_⟩
    · exact congrArg Host.Outcome.next (State.missedAt_shepherd_early htxns fun h => absurd h.2.2 (Nat.not_le.2 hearly))
    · obtain ⟨honly, hshep, hfiled, hstream, -⟩ := State.missedAt_shepherd hrun hsh htxns hhome ⟨hmissed, hans, hdue⟩
      exact ⟨_, rfl, honly, hshep, hfiled, hstream⟩
    · refine ⟨fun hknown hearly => State.abandon_shepherd_early htxns ((t.not_late_iff _).2 hknown) hearly, fun hdue => ?_⟩
      obtain ⟨u, hexec, honly, hshep, hknown, hunknown, hinj⟩ :=
        State.abandon_shepherd hrun hsh ⟨htxns, hcredit⟩ hhome hphase hpurpose hdue
      refine ⟨u, hexec, honly, hshep, fun h => hknown ((t.not_late_iff _).2 h), fun h => hunknown ?_, hinj⟩
      exact not_not.1 fun hno => h ((t.not_late_iff _).1 hno)

end Sys2Proof.Machine
end

section
/-!
A fold that holds no line and no record: what its lookups find, and what it opens (03 R84, R86, 04, 06).
-/

namespace Sys2Proof.Machine

/-! ### A fold without lines -/

/-- A fold whose Earmark holds nothing, every way usable. -/
abbrev Fold.NoEarmark (f : Fold) : Prop := f.em = [] ∧ f.emDropped = 0 ∧ f.emReserved = []

/-- A fold whose Pool holds nothing. -/
abbrev Fold.NoPool (f : Fold) : Prop := f.poolTag = [] ∧ f.poolSet = []

/-- A fold that holds no line in Earmark, the Pool, the Eddy or a miss register. -/
abbrev Fold.NoLines (f : Fold) : Prop := f.NoEarmark ∧ f.NoPool ∧ f.mrs = [] ∧ f.eddy = []

/-- A fold that records no holder and predicts nothing. -/
abbrev Fold.NoRecords (f : Fold) : Prop :=
  f.tally = [] ∧ f.unsure = [] ∧ f.shadow = [] ∧ f.emSuspect = [] ∧ f.pred = []

theorem foldl_same {α β : Type} (f : α → β → α) (a : α) (l : List β) (h : ∀ x ∈ l, f a x = a) : l.foldl f a = a := by
  induction l with
  | nil => rfl
  | cons x l ih =>
    rw [List.foldl_cons, h x (List.mem_cons_self ..)]
    exact ih fun y hy => h y (List.mem_cons_of_mem _ hy)

section
variable {c : FC}

theorem Fold.emAt_empty {f : Fold} (hem : f.em = []) (set w : Nat) : (f.emAt set w).pay = 0 := by
  unfold Fold.emAt
  split
  · rw [hem]; rfl
  · rfl

theorem FC.emFind_none (h : c.f.NoEarmark) (l : Line) : c.emFind l = none := by
  simp [FC.emFind, Fold.emAt_empty h.1]

theorem FC.emCheckWay_none (h : c.f.NoEarmark) (set w : Nat) : c.emCheckWay set w = c := by
  unfold FC.emCheckWay
  split
  · rfl
  · simp [FC.emTagCheck, FC.emPayCheck, h.1, smFind]

theorem FC.emCheck_none (h : c.f.NoEarmark) (set : Nat) : c.emCheck set = c := by
  refine foldl_same _ _ _ fun ph _ => ?_
  split
  · exact FC.emCheckWay_none h _ _
  · rfl

theorem FC.poolCheckWay_none (h : c.f.NoPool) (set ph : Nat) : c.poolCheckWay set ph = c := by
  simp [FC.poolCheckWay, h.1, smFind]

theorem poolSetDflt_ok : poolSetDflt.ok = true := beq_self_eq_true _

theorem FC.poolSetCheck_none (h : c.f.NoPool) (set : Nat) : c.poolSetCheck set = c := by
  have hok : (c.f.pset set).ok = true := by rw [Fold.pset, h.2]; exact poolSetDflt_ok
  simp [FC.poolSetCheck, hok]

theorem FC.poolCheck_none (h : c.f.NoPool) (set : Nat) : c.poolCheck set = c := by
  rw [FC.poolCheck, FC.poolCheckBut, FC.poolSetCheck_none h]
  exact foldl_same _ _ _ fun ph _ => by simp [FC.poolCheckWay_none h]

theorem Fold.ptag_empty {f : Fold} (h : f.poolTag = []) (set ph : Nat) : f.ptag set ph = poolTagDflt := by
  rw [Fold.ptag, h]; rfl

theorem FC.poolFind_none (h : c.f.NoPool) (l : Line) : c.poolFind l = none := by
  refine List.findSome?_eq_none_iff.2 fun w _ => ?_
  split
  · have hvalid : poolTagDflt.valid = false := rfl
    simp [Fold.ptag_empty h.1, hvalid]
  · rfl

theorem FC.eddyRead_none (h : c.f.eddy = []) (l : Line) : c.eddyRead l = none := by
  simp [FC.eddyRead, FC.eddyNth, h]

theorem FC.msLook_none (hpool : c.f.NoPool) (heddy : c.f.eddy = []) (l : Line) : c.msLook l none = (c, .miss false) := by
  simp only [FC.msLook, FC.poolFind_none hpool, FC.eddyRead_none heddy]

theorem FC.emPresent_none (h : c.f.NoEarmark) (l : Line) : c.emPresent l = c := by
  simp only [FC.emPresent, FC.emFind_none h]

/-! ### An Earmark way is free -/

/-- One of two logical Earmark ways is not being copied. -/
theorem Fold.emPhysAt_some {f : Fold} (hdrop : f.emDropped = 0) (set : Nat) :
    ∃ w ∈ List.range 16, (f.emPhysAt set w).isSome = true := by
  have hbit (w : Nat) : bitAt f.emDropped w = false := by rw [hdrop]; simp [bitAt]
  cases hcopy : f.emCopy.head? with
  | none => exact ⟨0, by simp, by simp [Fold.emPhysAt, hbit, hcopy]⟩
  | some x =>
    by_cases hx : x.way = 0
    · exact ⟨1, by simp, by simp [Fold.emPhysAt, hbit, hcopy, hx]⟩
    · exact ⟨0, by simp, by simp [Fold.emPhysAt, hbit, hcopy, hx]⟩

theorem FC.emChoose_free (h : c.f.NoEarmark) (set : Nat) : ∃ w, c.emChoose set = (.free w, c) := by
  obtain ⟨hem, hdrop, hres⟩ := h
  obtain ⟨w, hw, hphys⟩ := Fold.emPhysAt_some hdrop set
  let p (w : Nat) : Bool := ((c.f.emPhysAt set w).isSome && !(c.f.emAt set w).dead && (c.f.emReservedBy set w).isNone) &&
    !decide ((c.f.emAt set w).pay.toNat % 4 ≠ 0)
  have husable : p w = true := by
    obtain ⟨ph, hph⟩ := Option.isSome_iff_exists.1 hphys
    simp [p, hph, Fold.emAt, Fold.emKey, hem, smGet, smFind, Fold.emReservedBy, hres, emDflt, emRec]
  obtain ⟨x, hx⟩ := Option.isSome_iff_exists.1 (List.find?_isSome.2 ⟨w, hw, husable⟩)
  refine ⟨x, ?_⟩
  unfold FC.emChoose
  simp only
  rw [hx]

theorem FC.chooseWay_free (h : c.f.NoEarmark) (e : TTEntry) :
    ∃ w, c.chooseWay e = (c.emReserve (emSet e.line) w e.idx).modEntry e.idx fun x => { x with wayNeed := .ready w } := by
  obtain ⟨w, hw⟩ := FC.emChoose_free h (emSet e.line)
  exact ⟨w, by simp only [FC.chooseWay, FC.emCheck_none h, hw]⟩

/-! ### A fold without records -/

/-- What the records show of a line that nothing records. -/
def Look.blank : Look :=
  { own := none, others := [], unsure := [], shadow := [], probes := [], em := none, mus := none, suspect := false }

theorem FC.tallyHits_none (h : c.f.NoRecords) (l : Line) : c.tallyHits l = [] := by
  simp [FC.tallyHits, h.1, smFind]

theorem FC.tallyBad_none (h : c.f.NoRecords) (l : Line) : c.tallyBad l = [] := by
  simp [FC.tallyBad, h.1, smFind]

theorem FC.tallyRepair_none (h : c.f.NoRecords) (row : Nat) : c.tallyRepair row = c := by
  refine foldl_same _ _ _ fun e _ => ?_
  simp [h.1, smFind]

theorem FC.lookCheck_none (hl : c.f.NoLines) (hr : c.f.NoRecords) (l : Line) : c.lookCheck l = c := by
  obtain ⟨htally, hunsure, hshadow, hsuspect, hpred⟩ := id hr
  obtain ⟨hem, hpool, -⟩ := hl
  have hsh : c.shadowCheck = c := by simp [FC.shadowCheck, hshadow]
  have hfail (row : Nat) : c.tallyFail row [] = c := by
    have hnil : (List.range 17).flatMap (fun _ => ([] : List Nat)) = [] := List.flatMap_eq_nil_iff.2 fun _ _ => rfl
    simp [FC.tallyFail, hnil]
  have hgates : (c.f.shadowGates l).isEmpty = true := by simp [Fold.shadowGates, hshadow]
  unfold FC.lookCheck
  simp only [hsh, FC.tallyRepair_none hr, FC.tallyBad_none hr, hfail, FC.emCheck_none hem, FC.emPresent_none hem]
  cases c.repl.mpSlot (lineAddr l) with
  | none => simp [FC.poolCheck_none hpool, FC.emFind_none hem, hgates, hsuspect]
  | some m => simp [FC.poolCheck_none hpool, FC.emFind_none hem, hgates, hsuspect]

theorem FC.view_none (hem : c.f.NoEarmark) (hr : c.f.NoRecords) (f : ReqFlit) (l : Line) (skip : Option Nat) :
    c.view f l skip = .blank := by
  obtain ⟨htally, hunsure, hshadow, hsuspect, hpred⟩ := id hr
  have hgates : c.f.shadowGates l = [] := by simp [Fold.shadowGates, hshadow]
  have hnow : c.unsureNow = [] := by simp [FC.unsureNow, hunsure]
  simp [FC.view, FC.emFind_none hem, FC.tallyHits_none hr, FC.badProbes, FC.tallyBad_none hr, hgates, hnow, hsuspect,
    Look.blank]

theorem FC.targets_blank (r : Row) (req : AgentId) : c.targets .blank r req = [] := by
  simp [FC.targets, Look.owners, Look.sharers, Look.blank]

theorem tallyDflt_ok : tallyDflt.ok = true := beq_self_eq_true _

theorem FC.victim_none (h : c.f.NoRecords) (f : ReqFlit) (l : Line) : c.victim f l = .nothing := by
  have hrec : c.victimRec f l = tallyDflt := by rw [FC.victimRec, h.1]; rfl
  have hst : tallyDflt.st = 0 := rfl
  simp [FC.victim, hrec, tallyDflt_ok, hst]

theorem FC.strayWays_none (h : c.f.NoRecords) (f : ReqFlit) (l : Line) : c.strayWays f l = [] := by
  simp [FC.strayWays, FC.tallyHits_none h]

theorem FC.shadowNeed_none (h : c.f.NoRecords) (f : ReqFlit) (l : Line) (near : Bool) : c.shadowNeed f l near = 0 := by
  simp [FC.shadowNeed, FC.victim_none h, FC.strayWays_none h]

theorem FC.moveVictim_none (h : c.f.NoRecords) (f : ReqFlit) (l : Line) (near : Bool) : c.moveVictim f l near = c := by
  simp [FC.moveVictim, FC.victim_none h, FC.strayWays_none h]

theorem predDflt_ok : predDflt.ok = true := beq_self_eq_true _

theorem FC.predRead_none (h : c.f.NoRecords) (i : Nat) (atype : BitVec 6) : c.predRead i atype = (c, predDflt) := by
  obtain ⟨-, -, -, -, hpred⟩ := h
  have hget : smGet c.f.pred predDflt i = predDflt := by rw [hpred]; rfl
  simp [FC.predRead, hget, predDflt_ok]
end

end Sys2Proof.Machine
end

section
/-!
A pulled request takes an entry of the transaction table (03 R78).
-/

namespace Sys2Proof.Machine

/-! ### Stage 2: the entry -/

section
variable {c : FC} {it : PenItem} {i : TTIdx}

/-- The fold as it pulls an item: it pulls no more in this cycle, and an aged item is counted. -/
def FC.pulled (c : FC) (it : PenItem) : FC :=
  { c with
    atype := it.flit.op.code
    f := { c.f with
      pullFrom := c.cyc + 1
      census := if decide (it.arrive + 2048 ≤ c.cyc) then foldCount 0x0F 8 c.f.census else c.f.census } }

/-- The entry that a request takes, with the attributes of its address (01 R28). -/
def FC.newEntry (c : FC) (it : PenItem) (i : TTIdx) : TTEntry :=
  let a := c.repl.attrOf it.flit.addr
  { idx := i, flit := it.flit, line := lineOf it.flit.addr, seq := c.f.ttSeq, arrive := it.arrive, port := it.port
    wpolicy := a.wpolicy, prefetch := a.prefetch, bwMode := a.bwMode, mpAlias := a.mpAlias
    mpSlot := c.repl.mpSlot it.flit.addr, allocCycle := c.cyc + 1, af := it.af
    shareBy := c.now + c.repl.share[it.flit.cls] }

/-- The Census counters of a fold that took a request into an entry. -/
@[irreducible]
def FC.freshCensus (c : FC) (it : PenItem) : FoldCensus := foldCount 0x08 8 (c.pulled it).f.census

/-- The fold with the entry of a pulled request. -/
def FC.fresh (c : FC) (it : PenItem) (i : TTIdx) : FC :=
  { c with
    atype := it.flit.op.code
    f := { c.f with
      pullFrom := c.cyc + 1, tt := c.f.tt ++ [c.newEntry it i], ttSeq := c.f.ttSeq + 1, ttHead := c.f.ttHead.next
      census := c.freshCensus it } }

theorem PtrPair.next_same {p : PtrPair} (h : p.same = true) : p.next.same = true := by
  rw [PtrPair.same, beq_iff_eq] at h
  rw [PtrPair.same, PtrPair.next, beq_iff_eq, h]

theorem FC.ttCompare_same (hhead : c.f.ttHead.same = true) (htail : c.f.ttTail.same = true) : c.ttCompare = c := by
  rw [FC.ttCompare, hhead, htail]
  rfl

theorem FC.alloc_pulled (hfree : freeIdx c.f = some i) (hhead : c.f.ttHead.same = true) (htail : c.f.ttTail.same = true) :
    (c.pulled it).alloc it.flit it.af it.arrive it.port = (c.fresh it i, some (c.newEntry it i)) := by
  unfold FC.alloc
  split
  next h => exact absurd (h.symm.trans hfree) (by simp)
  next j h =>
    obtain rfl : j = i := Option.some.inj (h.symm.trans hfree)
    simp only
    rw [FC.ttCompare_same]
    · unfold FC.fresh FC.freshCensus
      rfl
    · exact PtrPair.next_same hhead
    · exact htail

/-- A pulled item that finds nothing in its way is served in its entry, by its row. -/
theorem FC.serve_fresh (hcross : (c.pulled it).crossing it.flit = none)
    (hblock : it.flit.op.isDev = true ∨ (c.pulled it).blocked (lineOf it.flit.addr) = false) (hroom : c.ttRoom it.flit = true)
    (hfree : freeIdx c.f = some i) (hhead : c.f.ttHead.same = true) (htail : c.f.ttTail.same = true) :
    c.serve it = if it.flit.op.isDev then (c.fresh it i).serveDev it (c.newEntry it i)
      else if it.flit.op.isPut then (c.fresh it i).servePut it (c.newEntry it i)
      else (c.fresh it i).serveReq it (c.newEntry it i) := by
  have hpulled : (if decide (it.arrive + 2048 ≤ c.cyc) then
      FC.ev { c with atype := it.flit.op.code, f := { c.f with pullFrom := c.cyc + 1 } } 0x0F
      else { c with atype := it.flit.op.code, f := { c.f with pullFrom := c.cyc + 1 } }) = c.pulled it := by
    unfold FC.pulled
    split <;> rfl
  have hgo : (!it.flit.op.isDev && (c.pulled it).blocked (lineOf it.flit.addr)) = false := by
    obtain h | h := hblock <;> simp [h]
  have hroom' : (!(c.pulled it).ttRoom it.flit) = false := by
    rw [show (c.pulled it).ttRoom it.flit = c.ttRoom it.flit from rfl, hroom]; rfl
  unfold FC.serve
  simp only [hpulled, hcross, hgo, hroom', Bool.false_eq_true, if_false, FC.alloc_pulled hfree hhead htail]

/-- A request that is no Put crosses no snoop. -/
theorem FC.crossing_none (hput : it.flit.op ≠ .putDirty ∧ it.flit.op ≠ .putCopy) : c.crossing it.flit = none := by
  simp [FC.crossing, hput.1, hput.2]

theorem FC.crossing_idle (htt : c.f.tt = []) (f : ReqFlit) : c.crossing f = none := by
  simp [FC.crossing, FC.blocker, htt]

theorem FC.blocked_idle (htt : c.f.tt = []) (l : Line) : c.blocked l = false := by
  simp [FC.blocked, FC.blocker, htt]

/-! ### Entries by index -/

theorem freeIdx_unused {f : Fold} (h : freeIdx f = some i) : ∀ e ∈ f.tt, (e.idx == i) = false := by
  have hno := List.find?_some h
  simp only [Bool.and_eq_true, Bool.not_eq_true'] at hno
  intro e he
  by_contra hcon
  rw [Bool.not_eq_false] at hcon
  have : (f.tt.any fun e => e.idx == i) = true := List.any_eq_true.2 ⟨e, he, hcon⟩
  rw [this] at hno
  exact absurd hno.1 (by decide)

theorem updateWhere_append_one {α : Type} {f : α → Bool} {g : α → α} {l : List α} {x : α} (hl : ∀ y ∈ l, f y = false)
    (hx : f x = true) : updateWhere f g (l ++ [x]) = l ++ [g x] := by
  have hsame : l.map (fun y => if f y then g y else y) = l := by
    conv_rhs => rw [← List.map_id l]
    exact List.map_congr_left fun y hy => by simp [hl y hy]
  simp [updateWhere, hsame, hx]

/-! ### The release of an entry -/

/-- A fold with no entry has nothing to let go. -/
theorem FC.pump_idle (htt : c.f.tt = []) : c.pump = c := by
  have h : c.pumpN 1 = c := by simp [FC.pumpN, htt]
  rw [FC.pump, htt, List.length_nil, Nat.zero_add, h]

/-- What the release of a fold's only entry leaves: the entry and its reservations are gone, its line unblocks in this
cycle (03 R80). -/
theorem FC.free_one {e : TTEntry} (htt : c.f.tt = [e]) (hhead : c.f.ttHead.same = true) (htail : c.f.ttTail.same = true) :
    ∃ mrs res un, c.free e.idx = { c with f := { c.f with
      tt := [], ttTail := c.f.ttTail.next, mrs := mrs, emReserved := res, unblocked := un, unblockedAt := c.cyc } } ∧
      (c.f.mrs = [] → mrs = []) := by
  have hfilter : ((c.detach e.idx).f.tt.filter fun x => decide (x.idx ≠ e.idx)) = [] := by
    have hforget : (e.forget e.idx).idx = e.idx := by unfold TTEntry.forget; split <;> rfl
    simp [FC.detach, FC.emUnreserve, htt, hforget]
  simp only [FC.free, FC.entry_one htt, hfilter]
  rw [FC.ttCompare_same]
  · exact ⟨_, _, _, rfl, fun hmrs => by
      change List.map _ c.f.mrs = []
      rw [hmrs]; rfl⟩
  · exact hhead
  · exact PtrPair.next_same htail
end

end Sys2Proof.Machine
end

section
/-!
A pulled device request goes to the memory queue, and the statement O24 (03 R94, 06 R173).
-/

namespace Sys2Proof.Machine

/-- The pull of an item that the command wants. -/
theorem State.pullOf_some {s : State} {d : Die} {p : PFold} {want : ReqOp → Bool} {it : PenItem}
    (hrun : (s.pad d).foldRuns p = true) (hcarry : ((s.pad d).repl.carries d p).isSome = true)
    (hpull : (s.fc d p).pull = some it) (hwant : want it.flit.op = true) :
    s.pullOf d p want = s.runFold d p fun c => c.serve it := by
  have hcarried : (s.fc d p).carried = true := hcarry
  simp [State.pullOf, State.runFold, hrun, hcarried, hpull, hwant]

section
variable {c : FC} {it : PenItem} {i : TTIdx}

/-! ### Device requests -/

/-- The entry of a device request, whose access is out at the memory port. -/
def FC.devEntry (c : FC) (it : PenItem) (i : TTIdx) : TTEntry :=
  { c.newEntry it i with phase := .data, devOut := true }

/-- The access of a device request, with the bytes of its data (06 R173). -/
def FC.devAccess (c : FC) (it : PenItem) (i : TTIdx) : MemReq :=
  { op := if it.flit.op == .devRead then .devRead else .devWrite
    cls := it.flit.cls, line := lineOf it.flit.addr, off := BitVec.ofNat 6 (offOf it.flit.addr), len := it.flit.len
    data := match c.f.datOf it.flit with
      | some d => keepBytes d.payload (offOf it.flit.addr) it.flit.len.toNat
      | none => 0
    poison := match c.f.datOf it.flit with
      | some d => d.poison
      | none => false
    purpose := .dev i }

/-- A device request leaves its pen for the memory queue; its entry waits for the answer. -/
theorem FC.serveDev_sound (hbad : it.flit.bad = false) (hmp : c.repl.mpSlot it.flit.addr = none) (e : TTEntry) :
    c.serveDev it e = { c with f := { c.f with
      pens := c.f.pens.erase it, inbox := (c.takeItem it).f.inbox
      tt := updateWhere (fun x => x.idx == e.idx) (fun x => { x with phase := .data, devOut := true }) c.f.tt
      memQ := c.f.memQ ++ [c.devAccess it e.idx], slotNow := some 0 } } := by
  simp only [FC.serveDev, hbad, hmp, Option.isSome_none, Bool.false_eq_true, if_false, FC.takeItem, FC.modEntry, FC.memPush,
    FC.slot, FC.devAccess] <;> rfl
end

/-! ### The statement -/

/-- A device request at the front of the pull leaves its pen for the memory queue. -/
theorem State.pull_dev {s : State} {d : Die} {p : PFold} {it : PenItem} {i : TTIdx} {want : ReqOp → Bool}
    (hrun : (s.pad d).foldRuns p = true) (hcarry : ((s.pad d).repl.carries d p).isSome = true)
    (hpull : (s.fc d p).pull = some it) (hbad : it.flit.bad = false) (hmp : (s.pad d).repl.mpSlot it.flit.addr = none)
    (hroom : (s.fc d p).ttRoom it.flit = true) (hfree : freeIdx ((s.pad d).folds[p]) = some i)
    (hhead : ((s.pad d).folds[p]).ttHead.same = true) (htail : ((s.pad d).folds[p]).ttTail.same = true)
    (hop : it.flit.op = .devRead ∨ it.flit.op = .devWrite) (hwant : want it.flit.op = true) :
    ∃ t e, s.pullOf d p want = t ∧ s.OnlyPad t d ∧ ((t.pad d).folds[p]).pens = ((s.pad d).folds[p]).pens.erase it ∧
      ((t.pad d).folds[p]).tt = ((s.pad d).folds[p]).tt ++ [e] ∧ e.idx = i ∧ e.flit = it.flit ∧ e.phase = .data ∧
      e.devOut = true ∧ e.blocks = false ∧
      ((t.pad d).folds[p]).memQ = ((s.pad d).folds[p]).memQ ++ [(s.fc d p).devAccess it i] ∧
      ∀ n, n ≠ p → (t.pad d).folds[n] = (s.pad d).folds[n] := by
  have hdev : it.flit.op.isDev = true := by obtain h | h := hop <;> rw [h] <;> rfl
  have hcross : ((s.fc d p).pulled it).crossing it.flit = none := FC.crossing_none (by obtain h | h := hop <;> simp [h])
  have htt : updateWhere (fun x => x.idx == i) (fun x => { x with phase := .data, devOut := true })
      (((s.fc d p).fresh it i).f.tt) = ((s.pad d).folds[p]).tt ++ [(s.fc d p).devEntry it i] :=
    updateWhere_append_one (freeIdx_unused hfree) (beq_self_eq_true i)
  have hserve := FC.serve_fresh (c := s.fc d p) hcross (.inl hdev) hroom hfree hhead htail
  rw [if_pos hdev, FC.serveDev_sound hbad (c := (s.fc d p).fresh it i) hmp] at hserve
  have hexec := (State.pullOf_some hrun hcarry hpull hwant).trans (State.runFold_plain hserve rfl ⟨rfl, fun r hr => nomatch hr⟩)
  refine ⟨_, (s.fc d p).devEntry it i, hexec, (State.OnlyPad.refl s d).modPad _, ?_⟩
  rw [State.pad_modPad_same]
  have hblocks : ((s.fc d p).devEntry it i).blocks = false := congrArg (!·) hdev
  refine ⟨?_, ?_, rfl, rfl, rfl, rfl, hblocks, ?_, fun n hn => Paddock.worked_folds _ _ hn⟩
  · exact congrArg Fold.pens (Paddock.worked_fold (s.pad d) _)
  · exact (congrArg Fold.tt (Paddock.worked_fold (s.pad d) _)).trans htt
  · exact congrArg Fold.memQ (Paddock.worked_fold (s.pad d) _)

/-- A DevRead in its pen. -/
def strayRead : PenItem :=
  { pen := 0, flit := { op := .devRead, src := shepAgent 0, tgt := foldAgent 0 0, txid := 0, cls := 1, dl := 0, addr := 0, len := 4 }
    port := 0, arrive := 0, df := 0, af := 0 }

/-- A data flit with the source and TXID of `strayRead`, which carries no data. -/
def strayData : DatFlit :=
  { op := .pushData, src := shepAgent 0, tgt := foldAgent 0 0, txid := 0, payload := 1 }

/-- Both wait at fold 0. -/
def State.strayed : State := State.oneDie.modPad 0 fun q => { q with
  folds := vmod q.folds 0 fun f => { f with pens := [strayRead], inbox := [strayData] } }

/-- Refutes O24: the access of a DevRead takes along the data of a flit that stands in the inbox under its source and TXID,
where the statement's access carries none. -/
theorem not_deviceAndMalformedRequests : ¬ Obligations.DeviceAndMalformedRequests := by
  unfold Obligations.DeviceAndMalformedRequests
  intro h
  have hrun : (State.strayed.pad 0).foldRuns 0 = true := by decide +kernel
  have hcarry : ((State.strayed.pad 0).repl.carries 0 0).isSome = true := by decide +kernel
  have hpull : (State.strayed.fc 0 0).pull = some strayRead := by decide +kernel
  have hbad : strayRead.flit.bad = false := by decide +kernel
  have hmp : (State.strayed.pad 0).repl.mpSlot strayRead.flit.addr = none := by decide +kernel
  have hroom : (State.strayed.fc 0 0).ttRoom strayRead.flit = true := by decide +kernel
  have hfree : freeIdx ((State.strayed.pad 0).folds[(0 : PFold)]) = some 0 := by decide +kernel
  have hhead : ((State.strayed.pad 0).folds[(0 : PFold)]).ttHead.same = true := by decide +kernel
  have htail : ((State.strayed.pad 0).folds[(0 : PFold)]).ttTail.same = true := by decide +kernel
  obtain ⟨t, e, hexec, -, -, -, -, -, -, -, -, hmem, -⟩ :=
    (h.1 State.strayed 0 0 strayRead 0 hrun hcarry hpull hbad hmp hroom hfree hhead htail).1 rfl
  obtain ⟨u, -, hpulled, -, -, -, -, -, -, -, -, hmem', -⟩ :=
    State.pull_dev hrun hcarry hpull hbad hmp hroom hfree hhead htail (.inl rfl) (want := (· == .devRead)) rfl
  obtain rfl : t = u := (Host.Outcome.next.inj hexec).symm.trans hpulled
  have hsame := List.append_cancel_left (hmem'.symm.trans hmem)
  exact absurd (congrArg (List.map MemReq.data) hsame) (by decide +kernel)

end Sys2Proof.Machine
end

section
/-!
A request served in a fold that holds nothing else (03 R78 to R93): what opens, and what stays as it was.
-/

namespace Sys2Proof.Machine

/-! ### The pull -/

theorem freeIdx_zero {f : Fold} (htt : f.tt = []) (hfix : f.fixes = []) : freeIdx f = some 0 := by
  rw [freeIdx, List.finRange_succ, htt, hfix]
  rfl

section
variable {s : State} {d : Die} {p : PFold} {it : PenItem}

/-- A fold with no entry pulls the one item of its pens. -/
theorem FC.pull_one {c : FC} (hbare : c.f.Bare it) (hout : c.outHeld = false)
    (hdue : it.notBefore ≤ c.cyc ∧ c.f.shadowFrom ≤ c.cyc ∧ c.f.pullFrom ≤ c.cyc)
    (hdata : it.flit.op.carriesData = true → (c.f.datOf it.flit).isSome = true) : c.pull = some it := by
  obtain ⟨hpens, ⟨hdrain, hhalt, hstop, -, -⟩, ⟨htt, -, -, hmemQ, -, -, -, hun⟩, ⟨-, -, hsh, -⟩, -, hfree⟩ := hbare
  obtain ⟨hdue, hshadow, hpull⟩ := hdue
  have hheld : c.held = false := by simp [FC.held, hout, hmemQ, queueFull, List.countP_nil]
  have hdat : (!it.flit.op.carriesData || (c.f.datOf it.flit).isSome) = true := by
    cases hx : it.flit.op.carriesData with
    | false => rfl
    | true => rw [hdata hx]; rfl
  have hroom : c.arbRoom it.flit = true := by simp [FC.arbRoom, ReqFlit.mayTake, htt]
  have hseen (l : Line) : c.seenBlocked l = false := by simp [FC.seenBlocked, FC.blocker, htt, hun]
  have helig : c.eligible [] it = true := by
    simp [FC.eligible, FC.eligibleIf, FC.crossing_idle htt, hseen, hdat, hroom, hstop, hfree, hdue, hsh, hshadow]
  simp [FC.pull, hdrain, hhalt, hpull, hheld, hpens, FC.best, helig]

/-- The one item of a bare fold is pulled. -/
theorem State.Serves.pull (h : s.Serves d p it) : (s.fc d p).pull = some it :=
  FC.pull_one h.bare h.queues h.due h.data

/-- What the bare fold serves it as. -/
theorem State.Serves.serve (h : s.Serves d p it) :
    (s.fc d p).serve it = if it.flit.op.isDev then ((s.fc d p).fresh it 0).serveDev it ((s.fc d p).newEntry it 0)
      else if it.flit.op.isPut then ((s.fc d p).fresh it 0).servePut it ((s.fc d p).newEntry it 0)
      else ((s.fc d p).fresh it 0).serveReq it ((s.fc d p).newEntry it 0) := by
  obtain ⟨-, ⟨-, -, -, hhead, htail⟩, ⟨htt, -, -, -, -, -, hfix, -⟩, -⟩ := h.bare
  have hroom : (s.fc d p).ttRoom it.flit = true := by
    have htt' : (s.fc d p).f.tt = [] := htt
    simp [FC.ttRoom, ReqFlit.mayTake, htt']
  exact FC.serve_fresh (FC.crossing_idle htt _) (.inr (FC.blocked_idle htt _)) hroom (freeIdx_zero htt hfix) hhead htail
end

/-! ### Entries that no snoop holds up -/

/-- An entry past its lookup that waits for no snoop, no rider and no choice of a way. -/
structure TTEntry.Clear (e : TTEntry) : Prop where
  phase : e.phase = .data
  plain : e.isBinv = false ∧ e.devOut = false ∧ e.riding = false ∧ e.dirty = false ∧ e.mus = false
  settled : e.settled = true
  ms : e.ms = .unneeded ∨ e.ms = .waiting
  way : e.wayNeed = .none ∨ ∃ w, e.wayNeed = .ready w

section
variable {c : FC} {e : TTEntry}

theorem FC.leaveSnoop_clear (htt : c.f.tt = [e]) (he : e.Clear) : c.leaveSnoop e.idx = c := by
  have : updateWhere (fun x => x.idx == e.idx)
      (fun e => if e.phase == .snoop && e.settled then { e with phase := .data } else e) c.f.tt = c.f.tt := by
    rw [htt, updateWhere_one (by simp)]
    simp [he.phase]
  rw [FC.leaveSnoop, FC.modEntry, this]

/-- A clear entry goes as far as it can: to its end, to the choice of a way, or nowhere. -/
theorem FC.advance_clear (htt : c.f.tt = [e]) (he : e.Clear) : c.advance e.idx =
    let c : FC := { c with atype := e.atype }
    if c.canEnd e then
      if c.wantsWay e (c.endState e e.granting false) then
        if e.wayNeed = .none then c.chooseWay e else c.endRow e
      else c.endRow e
    else c := by
  have hentry : FC.entry { c with atype := e.atype } e.idx = some e := FC.entry_one htt
  obtain ⟨hphase, ⟨hbinv, hdev, -⟩, -, hms, hway⟩ := id he
  have hretry : FC.retry { c with atype := e.atype } e = { c with atype := e.atype } := by
    obtain hms | hms := hms <;> obtain hway | ⟨w, hway⟩ := hway <;> simp [FC.retry, hms, hway]
  have hearly : FC.earlyData { c with atype := e.atype } e = { c with atype := e.atype } := by
    obtain hms | hms := hms <;> simp only [FC.earlyData, hms]
  unfold FC.advance
  simp only [FC.leaveSnoop_clear htt he, FC.entry_one htt, hphase, hdev, hbinv, hretry, hentry, hearly]
  obtain hway | ⟨w, hway⟩ := hway <;> simp [hway]
/-- One round of the pump in a fold with one entry that stays put. -/
theorem FC.pump_stays (htt : c.f.tt = [e]) (hadv : c.advance e.idx = { c with atype := e.atype })
    (hagain : FC.advance { c with atype := e.atype } e.idx = { c with atype := e.atype }) : c.pump = c := by
  have hround : c.pumpN 2 = { c with atype := e.atype } := by
    simp [FC.pumpN, htt, hadv, hagain]
  rw [FC.pump, htt, List.length_singleton, hround]

/-- A clear entry that cannot end yet stays as it is. -/
theorem FC.pump_waits (htt : c.f.tt = [e]) (he : e.Clear) (hcan : c.canEnd e = false) : c.pump = c := by
  have hcan' (a : BitVec 6) : FC.canEnd { c with atype := a } e = false := hcan
  have hadv (c' : FC) (htt : c'.f.tt = [e]) (hcan : ∀ a, FC.canEnd { c' with atype := a } e = false) :
      c'.advance e.idx = { c' with atype := e.atype } := by
    rw [FC.advance_clear htt he]
    simp only [hcan, Bool.false_eq_true, if_false]
  exact FC.pump_stays htt (hadv c htt hcan') (hadv _ htt hcan')

/-- An entry that ends and leaves the table. -/
theorem FC.pump_frees (htt : c.f.tt = [e]) {c' : FC} (hadv : c.advance e.idx = c') (hfree : c'.f.tt = []) :
    c.pump = { c' with atype := c.atype } := by
  have hround : c.pumpN 2 = c' := by
    simp [FC.pumpN, htt, hadv, hfree]
  rw [FC.pump, htt, List.length_singleton, hround]
/-- An entry that is granted and waits for its CompAck. -/
theorem FC.pump_grants (htt : c.f.tt = [e]) {c' : FC} {g : TTEntry} (hadv : c.advance e.idx = c') (hg : c'.f.tt = [g])
    (hphase : g.phase = .ackwait) (hseq : c'.f.ttSeq = c.f.ttSeq) : c.pump = { c' with atype := c.atype } := by
  have hleave : c'.leaveSnoop g.idx = c' := by
    have : updateWhere (fun x => x.idx == g.idx)
        (fun e => if e.phase == .snoop && e.settled then { e with phase := .data } else e) c'.f.tt = c'.f.tt := by
      rw [hg, updateWhere_one (by simp)]
      simp [hphase]
    rw [FC.leaveSnoop, FC.modEntry, this]
  have hagain : c'.advance g.idx = { c' with atype := g.atype } := by
    unfold FC.advance
    simp [hleave, FC.entry_one hg, hphase]
  have hround : ∃ a, c.pumpN 2 = { c' with atype := a } := by
    cases hready : g.wayNeed with
    | ready w => exact ⟨g.atype, by simp [FC.pumpN, htt, hadv, hg, hready, hagain, hseq]⟩
    | none => exact ⟨c'.atype, by simp [FC.pumpN, htt, hadv, hg, hready, hseq]⟩
    | choose => exact ⟨c'.atype, by simp [FC.pumpN, htt, hadv, hg, hready, hseq]⟩
    | binv => exact ⟨c'.atype, by simp [FC.pumpN, htt, hadv, hg, hready, hseq]⟩
  obtain ⟨a, ha⟩ := hround
  rw [FC.pump, htt, List.length_singleton, ha]

/-- An entry that first chooses a way, then ends and leaves the table. -/
theorem FC.pump_chooses (htt : c.f.tt = [e]) {c₁ c₂ : FC} {g : TTEntry} {w : Nat} (hadv : c.advance e.idx = c₁)
    (hg : c₁.f.tt = [g]) (hway : g.wayNeed = .ready w) (hend : c₁.advance g.idx = c₂) (hfree : c₂.f.tt = []) :
    c.pump = { c₂ with atype := c.atype } := by
  have hround : c.pumpN 2 = c₂ := by
    simp [FC.pumpN, htt, hadv, hg, hway, hend, hfree]
  rw [FC.pump, htt, List.length_singleton, hround]
end

/-! ### The one entry -/

/-- The fold `c` differs from `c₀` in its fold's state alone: it sent and reported nothing. -/
def FC.Work (c₀ c : FC) : Prop := c = { c₀ with f := c.f, atype := c.atype }

theorem FC.Work.set {c₀ c : FC} (h : FC.Work c₀ c) (f : Fold) : FC.Work c₀ { c with f := f } := by
  have heq : c = { c₀ with f := c.f, atype := c.atype } := h
  exact congrArg (fun x : FC => ({ x with f := f } : FC)) heq

/-- A fold with nothing open but entry `e`: it holds no line, and its memory queue is empty. -/
structure FC.Alone (c₀ c : FC) (e : TTEntry) : Prop where
  work : FC.Work c₀ c
  pens : c.f.pens = []
  lines : c.f.NoLines
  data : c.f.poolData = []
  tt : c.f.tt = [e]
  memQ : c.f.memQ = []
  pointers : c.f.ttHead.same = true ∧ c.f.ttTail.same = true

/-- The entry of a served request that snoops nobody. -/
def FC.rowEntry (c : FC) (it : PenItem) (far : Bool) (e : TTEntry) : TTEntry :=
  { e with
    phase := .data, far := far, fetch := it.flit.op == .upgrade, snpOp := (it.flit.row far).snp, waits := [], sent := []
    couldDirty := false, mus := false, suspect := false, musDies := 0, remain := false
    push := match c.f.datOf it.flit with
      | some d => d.payload
      | none => 0
    pushPoison := match c.f.datOf it.flit with
      | some d => d.poison
      | none => false }

/-- The entry's look at the memory side, or a maintenance request's at the miss registers (03 R86, 05 R137). -/
def FC.lookAside (c : FC) (it : PenItem) (i : TTIdx) : FC :=
  match c.entry i with
  | some x =>
    let c := if x.needsData then c.msStart x else c
    if it.flit.op.isMaint && x.mpSlot.isNone then c.ride x else c
  | none => c

/-- The choice of an Earmark way by an entry whose row may need one (03 R84). -/
def FC.wayFor (c : FC) (i : TTIdx) (r : Row) : FC :=
  match c.entry i with
  | some x => if c.wantsWay x (c.endState x x.granting false) && r.grants then c.chooseWay x else c
  | none => c

section
variable {c₀ c : FC} {e : TTEntry} {it : PenItem}

/-- The fold `c'` differs from `c` in predictor, Census, Tally and the slot of the cycle at most. -/
def FC.Noted (c c' : FC) : Prop :=
  ∃ pred census tally slot, c' = { c with f := { c.f with pred := pred, census := census, tally := tally, slotNow := slot } }

theorem FC.Noted.refl (c : FC) : c.Noted c := ⟨_, _, _, _, rfl⟩

theorem FC.Noted.trans {a b c : FC} (hab : a.Noted b) (hbc : b.Noted c) : a.Noted c := by
  obtain ⟨_, _, _, _, rfl⟩ := hab
  obtain ⟨_, _, _, _, rfl⟩ := hbc
  exact ⟨_, _, _, _, rfl⟩

theorem FC.Noted.ite {c a b : FC} {p : Prop} [Decidable p] (ha : c.Noted a) (hb : c.Noted b) : c.Noted (if p then a else b) := by
  split
  · exact ha
  · exact hb

theorem FC.Noted.ev (c : FC) (sel : Nat) : c.Noted (c.ev sel) := ⟨_, _, _, _, rfl⟩

theorem FC.Noted.slot (c : FC) (k : Fin 4) : c.Noted (c.slot k) := ⟨_, _, _, _, rfl⟩

theorem FC.Noted.put (c : FC) (pred : SMap PredRec) : c.Noted { c with f := { c.f with pred := pred } } := ⟨_, _, _, _, rfl⟩

theorem FC.Noted.tally (c : FC) (g : GateN) (row w : Nat) (tag : BitVec 35) (st : BitVec 2) :
    c.Noted { c with f := c.f.tallyWrite g row w tag st } := ⟨_, _, _, _, rfl⟩

theorem FC.predUpdate_noted (c : FC) (f : ReqFlit) (l : Line) (far : Bool) (ts : List SnpTarget) :
    c.Noted (c.predUpdate f l far ts) := by
  unfold FC.predUpdate
  simp only
  split
  · exact (FC.Noted.ite (.ev _ _) (.ite (.ev _ _) (.refl _))).trans (.put _ _)
  · exact .ite ((FC.Noted.ite (.ev _ _) (.refl _)).trans (.put _ _)) (.refl _)
  · exact .ite ((FC.Noted.ite (.ev _ _) (.refl _)).trans (.put _ _)) (.refl _)
  · exact .ite ((FC.Noted.ite (.ev _ _) (.refl _)).trans (.put _ _)) (.refl _)
  · exact .refl _

theorem FC.writeVictim_noted (c : FC) (f : ReqFlit) (l : Line) (near : Bool) : c.Noted (c.writeVictim f l near) := by
  unfold FC.writeVictim
  exact .ite (.tally ..) (.ite (.refl _) (.tally ..))

/-- What is noted leaves the entry alone. -/
theorem FC.Alone.noted (h : FC.Alone c₀ c e) {c' : FC} (hn : c.Noted c') : FC.Alone c₀ c' e := by
  obtain ⟨hwork, hpens, hlines, hdata, htt, hmemQ, hptr⟩ := h
  obtain ⟨_, _, _, _, rfl⟩ := hn
  exact ⟨hwork.set _, hpens, hlines, hdata, htt, hmemQ, hptr⟩

theorem FC.Alone.modEntry (h : FC.Alone c₀ c e) (g : TTEntry → TTEntry) : FC.Alone c₀ (c.modEntry e.idx g) (g e) := by
  obtain ⟨hwork, hpens, hlines, hdata, htt, hmemQ, hptr⟩ := h
  have htt' : (c.modEntry e.idx g).f.tt = [g e] := (congrArg (updateWhere _ g) htt).trans (updateWhere_one (by simp))
  exact ⟨hwork.set _, hpens, hlines, hdata, htt', hmemQ, hptr⟩

/-- The fold of a served request before its entry is filled in: predictor, Census and Tally noted. -/
def FC.rowPrep (c : FC) (it : PenItem) (far : Bool) : FC :=
  let f := it.flit
  let c := c.takeItem it
  let c := if f.op == .atomicOp then c.ev (if far then 0x29 else 0x28) else c
  let c := if f.op == .upgrade then c.ev 0x0D else c
  let c := c.predUpdate f (lineOf f.addr) far []
  if c.namesWay f then c.writeVictim f (lineOf f.addr) (f.row far).grants else c

theorem FC.rowPrep_noted (c : FC) (it : PenItem) (far : Bool) : (c.takeItem it).Noted (c.rowPrep it far) := by
  unfold FC.rowPrep
  exact ((FC.Noted.ite (.ev _ _) (.refl _)).trans (.ite (.ev _ _) (.refl _))).trans
    ((FC.predUpdate_noted ..).trans (.ite (FC.writeVictim_noted ..) (.refl _)))

theorem Look.fetches_blank (a : AgentId) : Look.fetches .blank a = true := rfl

theorem Look.staysShared_blank (d : Die) (a : AgentId) : Look.staysShared .blank d a = false := rfl

theorem Look.dirtyFrom_none (k : Look) (d : Die) (a : AgentId) (r : Row) : k.dirtyFrom d a r [] = false := by
  simp [Look.dirtyFrom]

/-- A request that snoops nobody: its entry is filled in, looks at the memory side, and goes on. -/
theorem FC.serveRow_blank (c : FC) (it : PenItem) (e : TTEntry) (far : Bool) :
    c.serveRow it e far .blank [] =
      ((((((c.rowPrep it far).modEntry e.idx fun y => c.rowEntry it far y).lookAside it e.idx).wayFor e.idx
        (it.flit.row far)).slot 0).pump.orderPush e) := by
  unfold FC.serveRow
  simp only [Look.fetches_blank, Look.staysShared_blank, Look.dirtyFrom_none, Bool.and_true, Bool.and_false]
  rfl
end

end Sys2Proof.Machine
end

section
/-!
Requests in a fold that holds nothing else, and the statement O21 (03 R78, R80, R84 to R90, 06 R149).
-/

namespace Sys2Proof.Machine

/-! ### Where a served request stands -/

section
variable {c₀ c : FC} {e : TTEntry} {it : PenItem}

/-- A fold that reads memory for its one entry. -/
structure FC.Reads (c₀ c : FC) (e : TTEntry) : Prop where
  work : FC.Work c₀ c
  pens : c.f.pens = []
  tt : c.f.tt = [e]
  first : c.f.memQ.head? = some { op := .lineRead, cls := e.flit.cls, line := e.line, purpose := .mr 0 }

/-- An event counts, and changes nothing else. -/
theorem FC.ev_shape (c : FC) (sel : Nat) : ∃ census, c.ev sel = { c with f := { c.f with census := census } } := by
  unfold FC.ev
  exact ⟨_, rfl⟩

theorem freeMr_nil : freeMr [] = some 0 := by
  rw [freeMr, List.range_succ_eq_map]
  rfl

/-- A prefetch opens a miss register behind what the queue holds, or does nothing. -/
theorem FC.prefetch_shape (hpool : c.f.NoPool) (l : Line) (wpolicy : BitVec 2) (cls : Cls) :
    ∃ mrs q census, c.prefetch l wpolicy cls = { c with f := { c.f with mrs := mrs, memQ := c.f.memQ ++ q, census := census } } := by
  have hsame : ∃ mrs q census, c = { c with f := { c.f with mrs := mrs, memQ := c.f.memQ ++ q, census := census } } :=
    ⟨c.f.mrs, [], c.f.census, by simp⟩
  unfold FC.prefetch
  split
  · exact hsame
  · simp only [FC.poolCheck_none hpool, ite_self]
    split
    · exact hsame
    · split
      · exact hsame
      · obtain ⟨k, hk⟩ := FC.ev_shape c 0x12
        rw [hk]
        exact ⟨_, _, _, rfl⟩

/-- An entry that needs data opens miss register 0, whose read goes to the memory queue first (03 R86, 06 R149). -/
theorem FC.Alone.msStart (h : FC.Alone c₀ c e) (hmp : e.mpSlot = none) :
    FC.Reads c₀ (c.msStart e) { e with ms := .waiting, mr := some 0 } ∧ (c.msStart e).f.NoEarmark := by
  obtain ⟨hwork, hpens, ⟨hem, hpool, hmrs, heddy⟩, -, htt, hmemQ, -⟩ := h
  obtain ⟨k, hk⟩ := FC.ev_shape c 0x11
  have hlook : c.msStart e = FC.openMr { c with f := { c.f with census := k } } e false := by
    simp only [FC.msStart, hmp, FC.msLook_none hpool heddy, hk]
  have hfree : freeMr c.f.mrs = some 0 := by rw [hmrs, freeMr_nil]
  have hset (f : TTEntry → TTEntry) : updateWhere (fun x => x.idx == e.idx) f c.f.tt = [f e] := by
    rw [htt]
    exact updateWhere_one (by simp)
  let m : MissReg := { idx := 0, line := e.line, cls := e.flit.cls, wpolicy := e.wpolicy, opener := some e.idx, atts := [e.idx] }
  let r : MemReq := { op := .lineRead, cls := e.flit.cls, line := e.line, purpose := .mr 0 }
  let c₁ : FC := { c with f := { c.f with
    census := k, mrs := [m], memQ := [r], tt := [{ e with ms := .waiting, mr := some 0 }] } }
  have hopen : c.msStart e = if e.prefetch then c₁.prefetch e.line e.wpolicy e.flit.cls else c₁ := by
    rw [hlook]
    unfold FC.openMr
    simp only [hmrs, List.find?_nil, freeMr_nil, FC.modEntry, FC.memPush, hset, hmemQ, List.nil_append]
    rfl
  rw [hopen]
  obtain ⟨mrs, q, census, hpre⟩ := FC.prefetch_shape (c := c₁) hpool e.line e.wpolicy e.flit.cls
  rw [hpre]
  split
  · exact ⟨⟨hwork.set _, hpens, rfl, rfl⟩, hem⟩
  · exact ⟨⟨hwork.set _, hpens, rfl, rfl⟩, hem⟩

/-- An entry that needs no way, or whose row grants none, chooses none. -/
theorem FC.wayFor_skips {r : Row} (htt : c.f.tt = [e])
    (h : (c.wantsWay e (c.endState e e.granting false) && r.grants) = false) : c.wayFor e.idx r = c := by
  unfold FC.wayFor
  rw [FC.entry_one htt]
  simp [h]

/-- The one entry of a fold finds a way free in an empty Earmark (03 R84). -/
theorem FC.chooseWay_one (htt : c.f.tt = [e]) (hem : c.f.NoEarmark) :
    ∃ w res, c.chooseWay e = { c with f := { c.f with emReserved := res, tt := [{ e with wayNeed := .ready w }] } } := by
  obtain ⟨w, hw⟩ := FC.chooseWay_free hem e
  refine ⟨w, c.f.emReserved ++ [(emSet e.line, w, e.idx)], ?_⟩
  have htt' : updateWhere (fun x => x.idx == e.idx) (fun x => { x with wayNeed := .ready w }) c.f.tt =
      [{ e with wayNeed := .ready w }] := by
    rw [htt]
    exact updateWhere_one (by simp)
  rw [hw, ← htt']
  rfl

theorem FC.wayFor_chooses {r : Row} (htt : c.f.tt = [e]) (hem : c.f.NoEarmark)
    (h : (c.wantsWay e (c.endState e e.granting false) && r.grants) = true) :
    ∃ w res, c.wayFor e.idx r = { c with f := { c.f with emReserved := res, tt := [{ e with wayNeed := .ready w }] } } := by
  obtain ⟨w, res, hw⟩ := FC.chooseWay_one htt hem
  refine ⟨w, res, ?_⟩
  unfold FC.wayFor
  rw [FC.entry_one htt]
  simp only [h, if_true]
  exact hw

/-- Either way the entry is one that reads memory. -/
theorem FC.Reads.wayFor {r : Row} (h : FC.Reads c₀ c e) (hem : c.f.NoEarmark) (hway : e.wayNeed = .none) :
    ∃ need, FC.Reads c₀ (c.wayFor e.idx r) { e with wayNeed := need } ∧ (need = .none ∨ ∃ w, need = .ready w) := by
  cases hw : (c.wantsWay e (c.endState e e.granting false) && r.grants) with
  | false =>
    rw [FC.wayFor_skips h.tt hw]
    refine ⟨.none, ?_, .inl rfl⟩
    rw [← hway]
    exact h
  | true =>
    obtain ⟨w, res, hchoose⟩ := FC.wayFor_chooses h.tt hem hw
    rw [hchoose]
    exact ⟨.ready w, ⟨h.work.set _, h.pens, rfl, h.first⟩, .inr ⟨w, rfl⟩⟩

theorem FC.orderPush_shape (c : FC) (e : TTEntry) : ∃ out, c.orderPush e = { c with out := out } := by
  unfold FC.orderPush
  split
  · split
    · split
      · exact ⟨_, rfl⟩
      · exact ⟨_, rfl⟩
    · exact ⟨_, rfl⟩
  · exact ⟨_, rfl⟩

/-- An entry that waits for its data cannot end. -/
theorem FC.canEnd_waiting (hneeds : e.needsData = true) (hdirty : e.dirty = false) (hms : e.ms = .waiting) :
    c.canEnd e = false := by
  have hcopy : e.copy = none := by simp only [TTEntry.copy, hdirty, hms, Bool.false_eq_true, if_false]
  simp [FC.canEnd, hneeds, hcopy]
end

/-! ### A request for data -/

/-- A bare fold whose one request is of ordinary memory and well formed, its data there. -/
structure FC.Serving (c : FC) (it : PenItem) : Prop where
  bare : c.f.Bare it
  wellFormed : it.flit.bad = false
  ordinary : c.repl.mpSlot it.flit.addr = none
  way : c.namesWay it.flit = true → it.flit.vway.toNat < c.k.ways
  data : it.flit.op.carriesData = true → (c.f.datOf it.flit).isSome = true

section
variable {c : FC} {it : PenItem} (h : c.Serving it)
include h

theorem FC.Serving.lines : c.f.NoLines ∧ c.f.NoRecords := by
  obtain ⟨-, -, ⟨-, hmrs, heddy, -, -, hres, -⟩, ⟨htally, hunsure, hsh, hem, hsus, hdrop, hpred⟩, ⟨htag, -, hset, -⟩, -⟩ := h.bare
  exact ⟨⟨⟨hem, hdrop, hres⟩, ⟨htag, hset⟩, hmrs, heddy⟩, htally, hunsure, hsh, hsus, hpred⟩

/-- The fold has nothing open but the request's entry. -/
theorem FC.Serving.alone : FC.Alone c ((c.fresh it 0).takeItem it) (c.newEntry it 0) := by
  obtain ⟨hlines, -⟩ := h.lines
  obtain ⟨hpens, ⟨-, -, -, hhead, htail⟩, ⟨htt, -, -, hmemQ, -⟩, -, ⟨-, hdata, -⟩, -⟩ := h.bare
  refine ⟨rfl, ?_, hlines, hdata, ?_, hmemQ, PtrPair.next_same hhead, htail⟩
  · change c.f.pens.erase it = []
    rw [hpens]
    simp
  · change c.f.tt ++ [c.newEntry it 0] = [c.newEntry it 0]
    rw [htt]
    rfl

/-- It looks up nothing, and is served by its row. -/
theorem FC.Serving.serveReq : ∃ far, (it.flit.op ≠ .atomicOp → far = false) ∧
    (c.fresh it 0).serveReq it (c.newEntry it 0) = (c.fresh it 0).serveRow it (c.newEntry it 0) far .blank [] := by
  obtain ⟨hlines, hrec⟩ := h.lines
  generalize hu : c.fresh it 0 = u
  have hl : u.f.NoLines := by rw [← hu]; exact hlines
  have hr : u.f.NoRecords := by rw [← hu]; exact hrec
  have hnames : (u.namesWay it.flit && decide (u.k.ways ≤ it.flit.vway.toNat)) = false := by
    rw [← hu]
    cases hn : c.namesWay it.flit with
    | false => exact congrArg (· && _) hn
    | true =>
      have hlt : decide (c.k.ways ≤ it.flit.vway.toNat) = false := decide_eq_false (not_le.2 (h.way hn))
      exact (congrArg (_ && ·) hlt).trans (Bool.and_false _)
  have hshadow : u.f.shadow = [] := hr.2.2.1
  refine ⟨it.flit.op == .atomicOp && u.chooseFar it.flit (u.repl.attrOf it.flit.addr).bwMode
    (smGet u.f.pred predDflt (predIdx (lineOf it.flit.addr))).ctr, fun hop => ?_, ?_⟩
  · simp [beq_eq_false_iff_ne.2 hop]
  · simp only [FC.serveReq, h.wellFormed, hnames, FC.lookCheck_none hl hr, FC.predRead_none hr, ite_self, FC.shadowNeed_none hr,
      FC.moveVictim_none hr, FC.view_none hl.1 hr, FC.targets_blank, FC.cutOff, List.any_nil, hshadow, List.length_nil,
      Bool.false_eq_true, if_false, Nat.add_zero, Nat.not_lt_zero, decide_false, Bool.and_false]
/-- Its entry takes what its row says (03 R78), and goes on. -/
theorem FC.Serving.serveRow : ∃ far u, (it.flit.op ≠ .atomicOp → far = false) ∧
    FC.Alone c u ((c.fresh it 0).rowEntry it far (c.newEntry it 0)) ∧
    (c.fresh it 0).serveReq it (c.newEntry it 0) =
      (((u.lookAside it 0).wayFor 0 (it.flit.row far)).slot 0).pump.orderPush (c.newEntry it 0) := by
  obtain ⟨far, hfar, hserve⟩ := h.serveReq
  refine ⟨far, ((c.fresh it 0).rowPrep it far).modEntry 0 fun y => (c.fresh it 0).rowEntry it far y, hfar,
    (h.alone.noted (FC.rowPrep_noted ..)).modEntry _, ?_⟩
  rw [hserve, FC.serveRow_blank]
  rfl

/-- A request that needs data opens a read of its line and waits for it (03 R86, R90, 06 R149). -/
theorem FC.Serving.reads (hop : it.flit.op ∈ [ReqOp.getShared, .getOwned, .getOnce, .upgrade, .pushIO, .atomicOp]) :
    ∃ c' e out, (c.fresh it 0).serveReq it (c.newEntry it 0) = { c' with out := out } ∧ FC.Reads c c' e ∧
      e.flit = it.flit ∧ e.line = lineOf it.flit.addr ∧ e.phase = .data ∧ e.sent = [] ∧ e.ms = .waiting := by
  obtain ⟨far, u, -, halone, hserve⟩ := h.serveRow
  let x := (c.fresh it 0).rowEntry it far (c.newEntry it 0)
  have hneeds : x.needsData = true := by
    simp only [List.mem_cons, List.not_mem_nil, or_false] at hop
    change (match it.flit.op with
      | .getShared | .getOwned | .getOnce | .pushIO | .atomicOp => !false
      | .upgrade => it.flit.op == .upgrade
      | _ => false) = true
    obtain hop | hop | hop | hop | hop | hop := hop <;> rw [hop] <;> rfl
  have hmaint : it.flit.op.isMaint = false := by
    simp only [List.mem_cons, List.not_mem_nil, or_false] at hop
    obtain hop | hop | hop | hop | hop | hop := hop <;> rw [hop] <;> rfl
  obtain ⟨hreads, hem⟩ := halone.msStart (e := x) h.ordinary
  have hlook : u.lookAside it 0 = u.msStart x := by
    have hentry : u.entry 0 = some x := FC.entry_one halone.tt
    simp only [FC.lookAside, hentry, hneeds, hmaint, if_true, Bool.false_and, Bool.false_eq_true, if_false]
  obtain ⟨need, hway, hneed⟩ := hreads.wayFor (r := it.flit.row far) hem rfl
  have hslot : FC.Reads c (((u.msStart x).wayFor 0 (it.flit.row far)).slot 0)
      { x with ms := .waiting, mr := some 0, wayNeed := need } := ⟨hway.work.set _, hway.pens, hway.tt, hway.first⟩
  have hpump := FC.pump_waits hslot.tt ⟨rfl, ⟨rfl, rfl, rfl, rfl, rfl⟩, rfl, .inr rfl, hneed⟩
    (FC.canEnd_waiting hneeds rfl rfl)
  obtain ⟨out, hpush⟩ := FC.orderPush_shape (((u.msStart x).wayFor 0 (it.flit.row far)).slot 0) (c.newEntry it 0)
  refine ⟨_, _, out, ?_, hslot, rfl, rfl, rfl, rfl, rfl⟩
  rw [hserve, ← hpush, hlook, hpump]
end

end Sys2Proof.Machine
end

section
/-!
A Claim that nobody stands against, and the statement O21 (03 R80, R84 to R90).
-/

namespace Sys2Proof.Machine

section
variable {c : FC} {e : TTEntry}

/-- A write of Earmark changes Earmark alone. -/
theorem Fold.emPut_shape (f : Fold) (set w : Nat) (r : EmRec) : ∃ em, f.emPut set w r = { f with em := em } := by
  unfold Fold.emPut
  split <;> exact ⟨_, rfl⟩

theorem Fold.emWrite_shape (f : Fold) (set w : Nat) (tag : BitVec 31) (x : EmState) :
    ∃ em, f.emWrite set w tag x = { f with em := em } := by
  unfold Fold.emWrite
  cases x <;> exact Fold.emPut_shape ..

theorem FC.emSetState_shape (c : FC) (l : Line) (w : Nat) (x : EmState) :
    ∃ em, c.emSetState l w x = { c with f := { c.f with em := em } } := by
  obtain ⟨em, hem⟩ := Fold.emWrite_shape c.f (emSet l) w (emTag l) x
  exact ⟨em, by rw [FC.emSetState, hem]⟩

/-- The end of an entry records its state in Earmark and lets its reservations go. -/
theorem FC.endRecord_shape (c : FC) (e : TTEntry) (x : EmState) :
    ∃ em res, c.endRecord e x = { c with f := { c.f with em := em, emReserved := res } } := by
  have hset (c' : FC) (h : ∃ em, c' = { c with f := { c.f with em := em } }) :
      ∃ em res, c'.emUnreserve e.idx = { c with f := { c.f with em := em, emReserved := res } } := by
    obtain ⟨em, rfl⟩ := h
    exact ⟨_, _, rfl⟩
  refine hset _ ?_
  split
  · split
    · exact ⟨_, rfl⟩
    · exact FC.emSetState_shape ..
  · split
    · exact ⟨_, rfl⟩
    · exact FC.emSetState_shape ..
    · exact ⟨_, rfl⟩

theorem FC.tallyNamed_shape (c : FC) (p : Prop) [Decidable p] (g : GateN) (row w : Nat) (tag : BitVec 35) (st : BitVec 2) :
    ∃ tally, (if p then { c with f := c.f.tallyWrite g row w tag st } else c) = { c with f := { c.f with tally := tally } } := by
  split
  · exact ⟨_, rfl⟩
  · exact ⟨_, rfl⟩

/-- A grant of E without data records the requester, answers Comp, and waits for the CompAck (03 R80, R89). -/
theorem FC.endGrant_shape (htt : c.f.tt = [e]) (hneeds : e.needsData = false) :
    ∃ em res tally, c.endGrant e (some true) =
      { c.comp e .e false with f := { c.f with
        em := em, emReserved := res, tally := tally, tt := [{ e with phase := .ackwait, grant := .e, dataSent := true }] } } := by
  obtain ⟨em, res, hrecord⟩ := FC.endRecord_shape c e (c.endState e (some true) false)
  have htt' : updateWhere (fun x => x.idx == e.idx) (fun x => { x with phase := .ackwait, grant := .e, dataSent := true })
      c.f.tt = [{ e with phase := .ackwait, grant := .e, dataSent := true }] := by
    rw [htt]
    exact updateWhere_one (by simp)
  let u : FC := { c with f := { c.f with em := em, emReserved := res } }
  obtain ⟨tally, htally⟩ := FC.tallyNamed_shape u (u.namesWay e.flit) (gateOf e.flit.src) (u.k.rowOfLine e.line)
    e.flit.vway.toNat (tallyTag e.line) CacheState.e.tally
  refine ⟨em, res, tally, ?_⟩
  unfold FC.endGrant
  simp only [hneeds, hrecord, Bool.false_and]
  rw [← htt']
  change FC.modEntry (FC.comp (if u.namesWay e.flit then _ else u) e .e false) e.idx _ = _
  rw [htally]
  rfl

/-- A clear entry that can end, and has its way where it needs one, ends. -/
theorem FC.advance_ends (htt : c.f.tt = [e]) (he : e.Clear) (hcan : c.canEnd e = true)
    (hway : c.wantsWay e (c.endState e e.granting false) = true → e.wayNeed ≠ .none) :
    c.advance e.idx = FC.endRow { c with atype := e.atype } e := by
  rw [FC.advance_clear htt he]
  have hcan' : FC.canEnd { c with atype := e.atype } e = true := hcan
  simp only [hcan', if_true]
  split
  next hw => rw [if_neg (hway hw)]
  · rfl

/-- An entry on its way to the end, its fold with nothing else open: where its row grants, it has its way (03 R84). -/
theorem FC.Alone.wayed {c₀ : FC} {r : Row} (h : FC.Alone c₀ c e) (he : e.Clear) (hnone : e.wayNeed = .none) :
    ∃ need v, (c.wayFor e.idx r).slot 0 = v ∧ FC.Work c₀ v ∧ v.f.pens = [] ∧ v.f.memQ = [] ∧
      v.f.tt = [{ e with wayNeed := need }] ∧ { e with wayNeed := need }.Clear ∧ v.f.ttSeq = c.f.ttSeq ∧
      (r.grants = true → v.wantsWay e (v.endState e e.granting false) = true → need ≠ .none) := by
  obtain ⟨hphase, hplain, hsettled, hms, -⟩ := he
  cases hw : (c.wantsWay e (c.endState e e.granting false) && r.grants) with
  | false =>
    refine ⟨.none, _, rfl, ?_⟩
    rw [FC.wayFor_skips h.tt hw]
    refine ⟨h.work.set _, h.pens, h.memQ, ?_, ⟨hphase, hplain, hsettled, hms, .inl rfl⟩, rfl, fun hg hwant => ?_⟩
    · rw [← hnone]
      exact h.tt
    · rw [hg, Bool.and_true] at hw
      exact absurd (hw.symm.trans hwant) (by decide)
  | true =>
    obtain ⟨w, res, hchoose⟩ := FC.wayFor_chooses h.tt h.lines.1 hw
    refine ⟨.ready w, _, rfl, ?_⟩
    rw [hchoose]
    exact ⟨h.work.set _, h.pens, h.memQ, rfl, ⟨hphase, hplain, hsettled, hms, .inr ⟨w, rfl⟩⟩, rfl, fun _ _ => by simp⟩
end

section
variable {c : FC} {it : PenItem} (h : c.Serving it)
include h

/-- A Claim is granted E at once, without data: Comp goes out, and the entry waits for its CompAck (03 R80, R89). -/
theorem FC.Serving.claims (hop : it.flit.op = .claim) :
    ∃ v e, (c.fresh it 0).serveReq it (c.newEntry it 0) = v.comp (c.newEntry it 0) .e false ∧ FC.Work c v ∧
      v.f.pens = [] ∧ v.f.memQ = [] ∧ v.f.tt = [e] ∧ e.flit = it.flit ∧ e.phase = .ackwait ∧ e.grant = .e := by
  obtain ⟨far, u, -, halone, hserve⟩ := h.serveRow
  let x := (c.fresh it 0).rowEntry it far (c.newEntry it 0)
  have hneeds : x.needsData = false := by
    change (match it.flit.op with
      | .getShared | .getOwned | .getOnce | .pushIO | .atomicOp => !false
      | .upgrade => it.flit.op == .upgrade
      | _ => false) = false
    rw [hop]
  have hrow : x.row = .own := by
    change it.flit.row far = .own
    rw [ReqFlit.row, hop]
  have hlook : u.lookAside it 0 = u := by
    have hentry : u.entry 0 = some x := FC.entry_one halone.tt
    have hmaint : it.flit.op.isMaint = false := by rw [hop]; rfl
    simp only [FC.lookAside, hentry, hneeds, hmaint, Bool.false_and, Bool.false_eq_true, if_false]
  have hclear : x.Clear := ⟨rfl, ⟨rfl, rfl, rfl, rfl, rfl⟩, rfl, .inl rfl, .inl rfl⟩
  obtain ⟨need, v, hv, hwork, hpens, hmemQ, htt, hyclear, hseq, hway⟩ := halone.wayed (r := it.flit.row far) hclear rfl
  let y : TTEntry := { x with wayNeed := need }
  have hcan : v.canEnd y = true := by
    have hneeds' : y.needsData = false := hneeds
    have hrow' : y.row = .own := hrow
    have hset : y.settled = true := hyclear.settled
    have hride : y.riding = false := hyclear.plain.2.2.1
    simp [FC.canEnd, hneeds', hrow', hset, hride]
  have hend := FC.advance_ends htt hyclear hcan fun hw => hway (by rw [← show x.row = it.flit.row far from rfl, hrow]; rfl) hw
  have hrowEnd : FC.endRow { v with atype := y.atype } y = FC.endGrant { v with atype := y.atype } y (some true) := by
    have hneeds' : y.needsData = false := hneeds
    have hrow' : y.row = .own := hrow
    simp only [FC.endRow, hrow', hneeds', Bool.false_and, Bool.false_eq_true, if_false]
  obtain ⟨em, res, tally, hgrant⟩ := FC.endGrant_shape (c := { v with atype := y.atype }) htt hneeds
  have hpump := FC.pump_grants htt (hend.trans (hrowEnd.trans hgrant)) rfl rfl rfl
  let g : TTEntry := { y with phase := .ackwait, grant := .e, dataSent := true }
  refine ⟨{ v with f := { v.f with em := em, emReserved := res, tally := tally, tt := [g] } }, g, ?_, hwork.set _, hpens, hmemQ,
    rfl, rfl, rfl, rfl⟩
  have hquiet (z : FC) : z.orderPush (c.newEntry it 0) = z := by
    have hop' : (c.newEntry it 0).flit.op = .claim := hop
    simp [FC.orderPush, hop']
  have hv' : (u.wayFor 0 (it.flit.row far)).slot 0 = v := hv
  rw [hserve, hlook, hv', hpump, hquiet]
  rfl
end

/-! ### The statement -/

section
variable {s : State} {d : Die} {p : PFold} {it : PenItem}

theorem State.Serves.serving (h : s.Serves d p it) : (s.fc d p).Serving it :=
  ⟨h.bare, h.wellFormed, h.ordinary, h.way, h.data⟩

/-- A pull whose work reports nothing changes its fold, and offers what it sends. -/
theorem State.Serves.pulls (h : s.Serves d p it) {want : ReqOp → Bool} (hwant : want it.flit.op = true) {c v : FC}
    {out : List InjItem} (hserve : (s.fc d p).serve it = c) (hwork : FC.Work (s.fc d p) v) (hc : c = { v with out := out }) :
    ∃ t, s.pullOf d p want = t ∧ s.OnlyPad t d ∧ (t.pad d).folds[p] = v.f ∧
      (t.pad d).stream.inj = (s.pad d).stream.inj ++ out.map (fun i => { i with held := bitAt (s.pad d).ebb.fenceReq i.pos }) ∧
      (∀ n, n ≠ p → (t.pad d).folds[n] = (s.pad d).folds[n]) ∧ (t.pad d).gates = (s.pad d).gates ∧
      (t.pad d).stiles = (s.pad d).stiles := by
  subst hc
  have hdie : v.die = d := by rw [hwork]; rfl
  have hp : v.p = p := by rw [hwork]; rfl
  have hreps : v.reps = [] := by rw [hwork]; rfl
  have hacts : v.acts = [] := by rw [hwork]; rfl
  have hplain : FC.Plain { v with out := out } := ⟨hacts, fun r hr => by
    have hr' : r ∈ v.reps := hr
    simp [hreps] at hr'⟩
  have hexec := (State.pullOf_some h.runs h.carries h.pull hwant).trans (State.runFold_plain hserve hdie hplain)
  refine ⟨_, hexec, (State.OnlyPad.refl s d).modPad _, ?_⟩
  rw [State.pad_modPad_same]
  subst hp
  exact ⟨Paddock.worked_fold _ _, rfl, fun n hn => Paddock.worked_folds _ _ hn, rfl, rfl⟩

/-- A request that is neither a device's nor a Put is served by its row. -/
theorem State.Serves.served {o : ReqOp} (h : s.Serves d p it) (hop : it.flit.op = o) (hdev : o.isDev = false)
    (hput : o.isPut = false) :
    (s.fc d p).serve it = ((s.fc d p).fresh it 0).serveReq it ((s.fc d p).newEntry it 0) := by
  rw [h.serve, hop, hdev, hput]
  rfl

/-- A request for data that a pull serves reads memory. -/
theorem State.Serves.fetches (h : s.Serves d p it) {want : ReqOp → Bool} (hwant : want it.flit.op = true)
    (hop : it.flit.op ∈ [ReqOp.getShared, .getOwned, .getOnce, .upgrade, .pushIO, .atomicOp]) :
    ∃ t e, s.pullOf d p want = t ∧ s.OnlyPad t d ∧ ((t.pad d).folds[p]).pens = [] ∧ ((t.pad d).folds[p]).tt = [e] ∧
      e.flit = it.flit ∧ e.line = lineOf it.flit.addr ∧ e.phase = .data ∧ e.sent = [] ∧ e.ms = .waiting ∧
      ((t.pad d).folds[p]).memQ.head? =
        some { op := .lineRead, cls := it.flit.cls, line := lineOf it.flit.addr, purpose := .mr 0 } ∧
      (∀ n, n ≠ p → (t.pad d).folds[n] = (s.pad d).folds[n]) ∧
      (t.pad d).gates = (s.pad d).gates ∧ (t.pad d).stiles = (s.pad d).stiles := by
  obtain ⟨v, e, out, hreq, hreads, hflit, hline, hphase, hsent, hms⟩ := h.serving.reads hop
  have hserve : (s.fc d p).serve it = ((s.fc d p).fresh it 0).serveReq it ((s.fc d p).newEntry it 0) := by
    simp only [List.mem_cons, List.not_mem_nil, or_false] at hop
    obtain hop | hop | hop | hop | hop | hop := hop <;> exact h.served hop rfl rfl
  obtain ⟨t, ht, honly, hfold, -, hfolds, hgates, hstiles⟩ := h.pulls hwant hserve hreads.work hreq
  refine ⟨t, e, ht, honly, ?_, ?_, hflit, hline, hphase, hsent, hms, ?_, hfolds, hgates, hstiles⟩
  · rw [hfold, hreads.pens]
  · rw [hfold, hreads.tt]
  · rw [hfold, hreads.first, hflit, hline]

/-- Settles O21: a request for data opens its read, and a Claim its grant. -/
theorem fetchesReadMemoryAndClaimGrants : Obligations.FetchesReadMemoryAndClaimGrants := by
  unfold Obligations.FetchesReadMemoryAndClaimGrants
  refine ⟨fun s d p it h c hc hop => ?_, fun s d p it h hop => ?_⟩
  · have hmem : it.flit.op ∈ [ReqOp.getShared, .getOwned, .getOnce, .upgrade, .pushIO, .atomicOp] := by
      simp only [List.mem_cons, List.not_mem_nil, or_false] at hc
      rw [hop]
      obtain rfl | rfl | rfl | rfl | rfl | rfl := hc <;> simp
    obtain ⟨t, e, ht, hrest⟩ := h.fetches (want := (· == c.1)) (by simp [hop]) hmem
    refine ⟨t, e, ?_, hrest⟩
    simp only [List.mem_cons, List.not_mem_nil, or_false] at hc
    obtain rfl | rfl | rfl | rfl | rfl | rfl := hc <;> exact congrArg Host.Outcome.next ht
  · obtain ⟨v, e, hreq, hwork, hpens, hmemQ, htt, hflit, hphase, hgrant⟩ := h.serving.claims hop
    have hserve := h.served hop rfl rfl
    obtain ⟨t, ht, honly, hfold, hinj, hfolds, -⟩ := h.pulls (want := (· == .claim)) (by simp [hop]) hserve hwork hreq
    refine ⟨t, e, congrArg Host.Outcome.next ht, honly, ?_, ?_, hflit, hphase, hgrant, ?_, ?_, hfolds⟩
    · rw [hfold, hpens]
    · rw [hfold, htt]
    · rw [hinj, hwork]
      rfl
    · rw [hfold, hmemQ]
end

end Sys2Proof.Machine
end

section
/-!
The bytes of a far AtomicOp (07 R181 to R183).
-/

namespace Sys2Proof.Machine

/-! ### The bits of bytes and operands -/

theorem getLsbD_byteMask (off len i : Nat) :
    (byteMask off len).getLsbD i = (decide (i < 512) && decide (8 * off ≤ i) && decide (i - 8 * off < 8 * len)) := by
  rw [byteMask, BitVec.getLsbD_ofNat, Nat.testBit_mul_two_pow, Nat.testBit_two_pow_sub_one, Bool.and_assoc]

theorem getLsbD_placeAt (v off i : Nat) :
    (placeAt v off).getLsbD i = (decide (i < 512) && decide (8 * off ≤ i) && v.testBit (i - 8 * off)) := by
  rw [placeAt, BitVec.getLsbD_ofNat, Nat.testBit_mul_two_pow, Bool.and_assoc]

theorem testBit_operandAt (d : LineData) (off n j : Nat) :
    (operandAt d off n).testBit j = (decide (j < 8 * n) && d.getLsbD (8 * off + j)) := by
  rw [operandAt, Nat.testBit_mod_two_pow, Nat.testBit_div_two_pow, Nat.add_comm]
  rfl

theorem operandAt_lt (d : LineData) (off n : Nat) : operandAt d off n < 2 ^ (8 * n) :=
  Nat.mod_lt _ (Nat.two_pow_pos _)

theorem getLsbD_byteOf (d : LineData) (i j : Nat) : (byteOf d i).getLsbD j = (decide (j < 8) && d.getLsbD (8 * i + j)) :=
  BitVec.getLsbD_extractLsb' ..

theorem getLsbD_mergeBytes (old new : LineData) (off len i : Nat) :
    (mergeBytes old new off len).getLsbD i =
      if 8 * off ≤ i ∧ i < 8 * (off + len) then new.getLsbD i else old.getLsbD i := by
  simp only [mergeBytes, BitVec.getLsbD_or, BitVec.getLsbD_and, BitVec.getLsbD_not, getLsbD_byteMask]
  by_cases hi : i < 512
  · split
    next h => simp [hi, h.1, show i - 8 * off < 8 * len by omega]
    next h =>
      by_cases hoff : 8 * off ≤ i
      · simp [hi, hoff, show ¬i - 8 * off < 8 * len by omega]
      · simp [hi, hoff]
  · simp [BitVec.getLsbD_of_ge _ _ (not_lt.1 hi)]

/-- Outside the merged bytes a line keeps its own. -/
theorem byteOf_mergeBytes_outside {old new : LineData} {off len i : Nat} (h : ¬(off ≤ i ∧ i < off + len)) :
    byteOf (mergeBytes old new off len) i = byteOf old i := by
  refine BitVec.eq_of_getLsbD_eq fun j hj => ?_
  rw [getLsbD_byteOf, getLsbD_byteOf, getLsbD_mergeBytes, if_neg (by omega)]

/-- A value of `n` bytes fills its own place. -/
theorem byteOf_placeAt_outside {v off n i : Nat} (hv : v < 2 ^ (8 * n)) (h : ¬(off ≤ i ∧ i < off + n)) :
    byteOf (placeAt v off) i = 0 := by
  refine BitVec.eq_of_getLsbD_eq fun j hj => ?_
  rw [getLsbD_byteOf, getLsbD_placeAt]
  by_cases hoff : 8 * off ≤ 8 * i + j
  · have hhigh : v.testBit (8 * i + j - 8 * off) = false :=
      Nat.testBit_lt_two_pow (lt_of_lt_of_le hv (Nat.pow_le_pow_right (by decide) (by omega)))
    simp [hhigh]
  · simp [hoff]

/-- An operand put back where it stood shows its bytes. -/
theorem byteOf_placeAt_operandAt {d : LineData} {off n i : Nat} (hlo : off ≤ i) (hhi : i < off + n) (hi : i < 64) :
    byteOf (placeAt (operandAt d off n) off) i = byteOf d i := by
  refine BitVec.eq_of_getLsbD_eq fun j hj => ?_
  rw [getLsbD_byteOf, getLsbD_byteOf, getLsbD_placeAt, testBit_operandAt]
  have h1 : 8 * i + j < 512 := by omega
  have h2 : 8 * off ≤ 8 * i + j := by omega
  have h3 : 8 * i + j - 8 * off < 8 * n := by omega
  simp [h1, h2, h3]

/-- A value merged at its place is the operand there. -/
theorem operandAt_mergeBytes {line : LineData} {v off n : Nat} (hv : v < 2 ^ (8 * n)) (hfit : off + n ≤ 64) :
    operandAt (mergeBytes line (placeAt v off) off n) off n = v := by
  refine Nat.eq_of_testBit_eq fun j => ?_
  rw [testBit_operandAt, getLsbD_mergeBytes, getLsbD_placeAt]
  by_cases hj : j < 8 * n
  · have h1 : 8 * off + j < 512 := by omega
    have h2 : 8 * off + j < 8 * (off + n) := by omega
    simp [hj, h1, h2]
  · have hhigh : v.testBit j = false :=
      Nat.testBit_lt_two_pow (lt_of_lt_of_le hv (Nat.pow_le_pow_right (by decide) (by omega)))
    simp [hj, hhigh]

/-- The new value of an operation on operands of `n` bytes has `n` bytes. -/
theorem atomicNew_lt {atop : BitVec 4} {n old op cmp : Nat} (hold : old < 2 ^ (8 * n)) (hop : op < 2 ^ (8 * n)) :
    atomicNew atop n old op cmp < 2 ^ (8 * n) := by
  unfold atomicNew
  simp only
  split
  · exact Nat.mod_lt _ (Nat.two_pow_pos _)
  · exact lt_of_le_of_lt Nat.and_le_left hold
  · exact Nat.or_lt_two_pow hold hop
  · exact Nat.xor_lt_two_pow hold hop
  · exact hop
  · split <;> assumption
  · split <;> assumption
  · split <;> assumption
  · exact lt_of_le_of_lt (min_le_left _ _) hold
  · exact max_lt hold hop
  · exact hold

/-- A well-formed AtomicOp's operand lies in its line. -/
theorem atomic_fits {f : ReqFlit} {n : Nat} (hop : f.op = .atomicOp) (hbad : f.bad = false) (hsize : asizeBytes f.asize = some n) :
    offOf f.addr + n ≤ 64 := by
  have haligned : offOf f.addr % n = 0 := by
    simp only [ReqFlit.bad, hop, hsize, Bool.or_eq_false_iff, decide_eq_false_iff_not, not_not] at hbad
    exact hbad.2
  have hoff : offOf f.addr < 64 := Nat.mod_lt _ (by decide)
  have hpow : n ∣ 64 := by
    unfold asizeBytes at hsize
    split at hsize
    next h =>
      obtain rfl := Option.some.inj hsize
      exact Nat.pow_dvd_pow 2 (show f.asize.toNat ≤ 6 by omega)
    · exact absurd hsize (by simp)
  obtain ⟨k, hk⟩ := hpow
  obtain ⟨m, hm⟩ := Nat.dvd_of_mod_eq_zero haligned
  have hlt : m < k := by
    by_contra hle
    have : n * k ≤ n * m := Nat.mul_le_mul_left n (not_lt.1 hle)
    omega
  calc offOf f.addr + n = n * (m + 1) := by rw [hm]; ring
    _ ≤ n * k := Nat.mul_le_mul_left n hlt
    _ = 64 := hk.symm

/-- A far AtomicOp changes the bytes of its operand alone, and answers their old value (07 R183). -/
theorem atomicLine_spec {f : ReqFlit} {n : Nat} (line push : LineData) (hop : f.op = .atomicOp) (hbad : f.bad = false)
    (hsize : asizeBytes f.asize = some n) :
    (∀ i : Fin 64, ¬(offOf f.addr ≤ i.val ∧ i.val < offOf f.addr + n) →
      byteOf (atomicLine f line push).1 i.val = byteOf line i.val ∧ byteOf (atomicLine f line push).2 i.val = 0) ∧
    (∀ i : Fin 64, offOf f.addr ≤ i.val → i.val < offOf f.addr + n →
      byteOf (atomicLine f line push).2 i.val = byteOf line i.val) ∧
    operandAt (atomicLine f line push).1 (offOf f.addr) n =
      atomicNew f.atop n (operandAt line (offOf f.addr) n) (operandAt push (offOf f.addr) n)
        (operandAt push (offOf f.addr ^^^ 32) n) := by
  have hsize' : (asizeBytes f.asize).getD 1 = n := by rw [hsize]; rfl
  simp only [atomicLine, hsize']
  exact ⟨fun i hi => ⟨byteOf_mergeBytes_outside hi, byteOf_placeAt_outside (operandAt_lt ..) hi⟩,
    fun i hlo hhi => byteOf_placeAt_operandAt hlo hhi i.isLt,
    operandAt_mergeBytes (atomicNew_lt (operandAt_lt ..) (operandAt_lt ..)) (atomic_fits hop hbad hsize)⟩

end Sys2Proof.Machine
end

section
/-!
Data written back to a fold that holds nothing else: where it is found (06 R148).
-/

namespace Sys2Proof.Machine

/-! ### A line in the Pool -/

/-- Pool way `w` of the line's set, at `ph`, holds the line, sound; it is the set's one valid way. -/
def Fold.HoldsAt (f : Fold) (l : Line) (d : LineData) (poison : Bool) (w : Fin 16) (ph : Nat) : Prop :=
  let set := Machine.poolSet l
  f.poolPhysAt set w = some ph ∧ f.isCacheWay set w = true ∧ f.pdata set ph = d ∧
    f.ptag set ph = PoolTagRec.seal ⟨Machine.poolTag l, true, (f.ptag set ph).dirty, false, poison, dataCrc d, 0⟩ ∧
    ∀ ph', (f.ptag set ph').valid = true → ph' = ph

/-- The fold holds the line in a Pool way. -/
def Fold.Holds (f : Fold) (l : Line) (d : LineData) (poison : Bool) : Prop := ∃ w ph, f.HoldsAt l d poison w ph

section
variable {c : FC} {l : Line} {d : LineData} {poison : Bool}

/-- A lookup of the memory side finds it there. -/
theorem FC.msLook_holds (h : c.f.Holds l d poison) : (c.msLook l none).2 = .data d poison := by
  obtain ⟨w, ph, hphys, hcache, hdata, htag, hone⟩ := h
  generalize hr : c.f.ptag (poolSet l) ph = r at htag
  have hvalid : r.valid = true := congrArg PoolTagRec.valid htag
  have htag' : r.tag = poolTag l := congrArg PoolTagRec.tag htag
  have hsus : r.suspect = false := congrArg PoolTagRec.suspect htag
  have hpoison : r.poison = poison := congrArg PoolTagRec.poison htag
  have hcrc : r.dcrc = dataCrc d := by rw [htag, PoolTagRec.seal]
  obtain ⟨x, hfind⟩ : ∃ x, c.poolFind l = some (x, ph) := by
    have hsome : (c.poolFind l).isSome = true := by
      rw [FC.poolFind, List.findSome?_isSome_iff]
      exact ⟨w, List.mem_finRange w, by simp [hphys, hcache, hr, hvalid, htag']⟩
    obtain ⟨⟨x, ph'⟩, hx⟩ := Option.isSome_iff_exists.1 hsome
    obtain ⟨y, -, hy⟩ := List.exists_of_findSome?_eq_some hx
    cases hy' : c.f.poolPhysAt (poolSet l) y with
    | none => simp [hy'] at hy
    | some ph'' =>
      simp only [hy', Option.ite_none_right_eq_some, Bool.and_eq_true, Option.some.injEq, Prod.mk.injEq] at hy
      obtain ⟨⟨⟨-, hvalid'⟩, -⟩, -, rfl⟩ := hy
      exact ⟨x, by rw [hx, hone _ hvalid']⟩
  simp only [FC.msLook, hfind, FC.wayRead, hr, hsus, hpoison, hdata, hcrc, beq_self_eq_true, Bool.false_eq_true, if_false, if_true]
  cases poison <;> rfl

theorem smGet_smSet_nil {α : Type} [DecidableEq α] (d v : α) (k i : Nat) :
    smGet (smSet [] d k v) d i = if i = k then v else d := by
  by_cases hv : v = d
  · simp [smSet, hv, smGet, smFind]
  · by_cases hi : i = k <;> simp [smSet, hv, smGet, smFind, hi]

/-- A line put into an empty Pool is held there, and the Pool's arrays alone change. -/
theorem Fold.pline_empty {f : Fold} (htag : f.poolTag = []) (hdata : f.poolData = []) (set ph : Nat) (tag : BitVec 32)
    (d : LineData) (dirty poison : Bool) :
    ∃ pset, f.pline set ph tag d dirty poison = { f with
      poolTag := smSet [] poolTagDflt (set * 17 + ph) (PoolTagRec.seal ⟨tag, true, dirty, false, poison, dataCrc d, 0⟩)
      poolData := smSet [] 0 (set * 17 + ph) d, poolSet := pset } := by
  unfold Fold.pline Fold.ptagPut
  simp only [htag, hdata]
  split
  · exact ⟨_, rfl⟩
  · exact ⟨_, rfl⟩
/-! ### The commit -/

theorem updateWhere_never {α : Type} {p : α → Bool} {g : α → α} {l : List α} (h : ∀ x ∈ l, p x = false) : updateWhere p g l = l := by
  rw [updateWhere]
  conv_rhs => rw [← List.map_id l]
  exact List.map_congr_left fun y hy => by simp [h y hy]

/-- A commit with no miss register open makes nothing stale. -/
theorem FC.markStale_none (hmrs : c.f.mrs = []) (l : Line) : c.markStale l = c := by
  have htt : updateWhere (fun e : TTEntry => ([] : List TTIdx).contains e.idx && e.ms == MemSide.waiting)
      (fun e => { e with ms := .unneeded, mr := none }) c.f.tt = c.f.tt := updateWhere_never fun _ _ => rfl
  have hm : updateWhere (fun m : MissReg => m.line == l) (fun m => { m with stale := true, atts := [] }) c.f.mrs = c.f.mrs := by
    rw [hmrs]
    rfl
  have hmine : (c.f.mrs.filter fun m => m.line == l && !m.stale && !m.scrub) = [] := by
    rw [hmrs]
    rfl
  simp only [FC.markStale, hmine, List.flatMap_nil, htt, hm]
  rfl

/-- A way that may take a line has one physical way, and is no Millpond's. -/
theorem FC.poolElig_spec {set : Nat} {w : Fin 16} (h : c.poolElig set w = true) :
    ∃ ph, c.f.poolPhysAt set w = some ph ∧ c.f.isCacheWay set w = true := by
  unfold FC.poolElig at h
  split at h
  · exact absurd h (by decide)
  next ph hph =>
    simp only [Bool.and_eq_true, Bool.not_eq_true'] at h
    obtain ⟨⟨⟨⟨⟨hmill, hconv⟩, -⟩, -⟩, -⟩, -⟩ := h
    exact ⟨ph, hph, by simp [Fold.isCacheWay, Fold.converted, hmill, hconv]⟩

/-- In an empty Pool the way chosen is one that may take a line. -/
theorem FC.poolChoose_spec (hpool : c.f.NoPool) {set : Nat} {w : Fin 16} (h : c.poolChoose set = some w) :
    c.poolElig set w = true := by
  have hinvalid (ph : Nat) : (c.f.ptag set ph).valid = false := by rw [Fold.ptag_empty hpool.1]; rfl
  unfold FC.poolChoose at h
  simp only at h
  split at h
  next x hx =>
    obtain rfl := Option.some.inj h
    have := List.find?_some hx
    simp only [Bool.and_eq_true] at this
    exact this.1
  next hnone =>
    split at h
    next hany =>
      obtain ⟨i, -, hi⟩ := List.any_eq_true.1 hany
      split at hi
      next hlt =>
        obtain ⟨ph, hph, -⟩ := FC.poolElig_spec hi
        have := List.find?_eq_none.1 hnone ⟨i, hlt⟩ (List.mem_finRange _)
        simp [hi, hph, hinvalid] at this
      · exact absurd hi (by decide)
    · exact absurd h (by simp)

/-- A way of an empty Pool takes a line. -/
theorem FC.poolAlloc_shape (hpool : c.f.NoPool) (hdata : c.f.poolData = []) {w : Fin 16} (helig : c.poolElig (poolSet l) w = true)
    (cls : Cls) (dirty touch : Bool) :
    ∃ tag data pset, c.poolAlloc cls l w d dirty poison touch =
        { c with f := { c.f with poolTag := tag, poolData := data, poolSet := pset } } ∧
      Fold.Holds { c.f with poolTag := tag, poolData := data, poolSet := pset } l d poison := by
  obtain ⟨ph, hphys, hcache⟩ := FC.poolElig_spec helig
  have hinvalid : (c.f.ptag (poolSet l) ph).valid = false := by rw [Fold.ptag_empty hpool.1]; rfl
  have hevict : c.poolEvict cls (poolSet l) ph = c := by
    have hone : c.poolCheckOne (poolSet l) ph = c := by
      rw [FC.poolCheckOne, FC.poolSetCheck_none hpool, FC.poolCheckWay_none hpool]
    have hdirty : c.dirtyCheck (poolSet l) ph = c := by simp [FC.dirtyCheck, hinvalid]
    simp [FC.poolEvict, hone, hdirty, hinvalid]
  obtain ⟨pset, hline⟩ := Fold.pline_empty hpool.1 hdata (poolSet l) ph (poolTag l) d dirty poison
  let tag := smSet [] poolTagDflt (poolSet l * 17 + ph) (PoolTagRec.seal ⟨poolTag l, true, dirty, false, poison, dataCrc d, 0⟩)
  let data := smSet [] 0 (poolSet l * 17 + ph) d
  have hholds (ps : SMap PoolSetRec) : Fold.Holds { c.f with poolTag := tag, poolData := data, poolSet := ps } l d poison := by
    have hget (ph' : Nat) : Fold.ptag { c.f with poolTag := tag, poolData := data, poolSet := ps } (poolSet l) ph' =
        if ph' = ph then PoolTagRec.seal ⟨poolTag l, true, dirty, false, poison, dataCrc d, 0⟩ else poolTagDflt := by
      refine (smGet_smSet_nil ..).trans ?_
      congr 1
      exact propext (by omega)
    refine ⟨w, ph, hphys, hcache, (smGet_smSet_nil ..).trans (if_pos rfl), ?_, fun ph' hvalid => ?_⟩
    · rw [hget ph, if_pos rfl]
      rfl
    · by_contra hne
      rw [hget ph', if_neg hne] at hvalid
      exact absurd hvalid (by decide)
  unfold FC.poolAlloc
  simp only [hphys, hevict, hline]
  cases touch with
  | false => exact ⟨_, _, _, rfl, hholds _⟩
  | true => exact ⟨_, _, _, rfl, hholds _⟩

/-- Data committed to an empty Pool is held there, or its write joins the memory queue (06 R148). -/
theorem FC.commit_shape (hpool : c.f.NoPool) (hdata : c.f.poolData = []) (hmrs : c.f.mrs = []) (wpolicy : BitVec 2) (cls : Cls) :
    ∃ census tag data pset q, c.commit l d poison wpolicy cls none =
        { c with f := { c.f with census := census, poolTag := tag, poolData := data, poolSet := pset, memQ := c.f.memQ ++ q } } ∧
      (Fold.Holds { c.f with poolTag := tag, poolData := data, poolSet := pset } l d poison ∨
        q = [{ op := .lineWrite, cls := cls, line := l, data := d, poison := poison, purpose := .commit }]) := by
  obtain ⟨k, hk⟩ := FC.ev_shape c 0x1A
  let u : FC := { c with f := { c.f with census := k } }
  have hstale : (c.ev 0x1A).markStale l = u := by
    rw [hk]
    exact FC.markStale_none (c := u) hmrs l
  have hmem (tag : SMap PoolTagRec) (data : SMap LineData) (pset : SMap PoolSetRec) :
      FC.memWrite { u with f := { u.f with poolTag := tag, poolData := data, poolSet := pset } } cls l d poison .commit =
      { c with f := { c.f with
        census := k, poolTag := tag, poolData := data, poolSet := pset
        memQ := c.f.memQ ++ [{ op := .lineWrite, cls := cls, line := l, data := d, poison := poison, purpose := .commit }] } } := rfl
  have hsame : ({ c.f with poolTag := c.f.poolTag, poolData := c.f.poolData, poolSet := c.f.poolSet } : Fold) = c.f := rfl
  unfold FC.commit
  simp only [hstale, FC.poolCheck_none (c := u) hpool, FC.poolFind_none (c := u) hpool]
  split
  · exact ⟨_, _, _, _, _, hmem c.f.poolTag c.f.poolData c.f.poolSet, .inr rfl⟩
  · split
    · exact ⟨_, _, _, _, _, hmem c.f.poolTag c.f.poolData c.f.poolSet, .inr rfl⟩
    next w hw =>
      obtain ⟨tag, data, pset, halloc, hholds⟩ := FC.poolAlloc_shape (c := u) (poison := poison) (d := d) hpool hdata
        (FC.poolChoose_spec hpool hw) cls (wpolicy == 0) true
      rw [halloc]
      split
      · exact ⟨k, tag, data, pset, [], by rw [List.append_nil], .inl hholds⟩
      · exact ⟨_, _, _, _, _, hmem tag data pset, .inl hholds⟩
end

end Sys2Proof.Machine
end

section
/-!
Pushes and Puts in a fold that holds nothing else, and the statement O22 (03 R90, R93, 06 R148, 07 R181 to R183).
-/

namespace Sys2Proof.Machine

/-! ### The end without a grant -/

theorem FC.Work.setType {c₀ c : FC} (h : FC.Work c₀ c) (a : BitVec 6) : FC.Work c₀ { c with atype := a } := by
  have heq : c = { c₀ with f := c.f, atype := c.atype } := h
  exact congrArg (fun x : FC => ({ x with atype := a } : FC)) heq

/-- A fold with one entry, which is to end. -/
structure FC.Ending (c₀ c : FC) (e : TTEntry) : Prop where
  work : FC.Work c₀ c
  pens : c.f.pens = []
  tt : c.f.tt = [e]
  pointers : c.f.ttHead.same = true ∧ c.f.ttTail.same = true

section
variable {c₀ c : FC} {e : TTEntry}

theorem FC.Alone.ending (h : FC.Alone c₀ c e) : FC.Ending c₀ c e := ⟨h.work, h.pens, h.tt, h.pointers⟩

/-- What is left of a fold whose entry ended: its table and pens are empty, its lines and its memory queue as they were. -/
structure FC.Ended (c₀ c v : FC) : Prop where
  work : FC.Work c₀ v
  pens : v.f.pens = []
  tt : v.f.tt = []
  memQ : v.f.memQ = c.f.memQ
  poolTag : v.f.poolTag = c.f.poolTag
  holds : ∀ l d p, c.f.Holds l d p → v.f.Holds l d p

theorem FC.Ended.since {c' v : FC} (h : FC.Ended c₀ c' v) (a : BitVec 6) (hmemQ : c'.f.memQ = c.f.memQ)
    (htag : c'.f.poolTag = c.f.poolTag) (hholds : ∀ l d p, c.f.Holds l d p → c'.f.Holds l d p) :
    FC.Ended c₀ c { v with atype := a } :=
  ⟨h.work.setType a, h.pens, h.tt, h.memQ.trans hmemQ, h.poolTag.trans htag, fun l d p hx => h.holds l d p (hholds l d p hx)⟩

/-- Comp goes out and the entry is free again (03 R80). -/
theorem FC.Ending.comp_free (h : FC.Ending c₀ c e) : ∃ v, (c.comp e .i false).free e.idx = v.comp e .i false ∧ FC.Ended c₀ c v := by
  obtain ⟨hwork, hpens, htt, hhead, htail⟩ := h
  obtain ⟨mrs, res, un, hfree, -⟩ := FC.free_one (c := c.comp e .i false) htt hhead htail
  refine ⟨_, hfree.trans (?_ : _ = FC.comp { c with f := { c.f with
      tt := [], ttTail := c.f.ttTail.next, mrs := mrs, emReserved := res, unblocked := un, unblockedAt := c.cyc } } e .i false), ?_⟩
  · rfl
  · exact ⟨hwork.set _, hpens, rfl, rfl, rfl, fun _ _ _ h => h⟩

/-- An entry of row Put: its state in Earmark is noted, Comp goes out, and it is free. -/
theorem FC.Ending.endRow_put (h : FC.Ending c₀ c e) (hrow : e.row = .put) :
    ∃ v, c.endRow e = v.comp e .i false ∧ FC.Ended c₀ c v := by
  obtain ⟨em, res, hrecord⟩ := FC.endRecord_shape c e (c.endState e none false)
  let u : FC := { c with f := { c.f with em := em, emReserved := res } }
  have hu : FC.Ending c₀ u e := ⟨h.work.set _, h.pens, h.tt, h.pointers⟩
  obtain ⟨v, hv, hwork, hpens, htt, hmemQ, htag, hholds⟩ := hu.comp_free
  refine ⟨v, ?_, hwork, hpens, htt, hmemQ, htag, hholds⟩
  rw [← hv]
  simp only [FC.endRow, hrow, hrecord]
  rfl

/-- A clear entry of row Put ends, after the choice of an Earmark way where a PutCopy of another die makes it the holder
(03 R84, R93). -/
theorem FC.Ending.pump_put (h : FC.Ending c₀ c e) (hem : c.f.NoEarmark) (he : e.Clear) (hrow : e.row = .put)
    (hneeds : e.needsData = false) (hway : e.wayNeed = .none) :
    ∃ v, c.pump = v.comp e .i false ∧ FC.Ended c₀ c v := by
  have hcan (a : BitVec 6) : FC.canEnd { c with atype := a } e = true := by
    simp [FC.canEnd, hneeds, hrow, he.settled, he.plain.2.2.1]
  have hadv := FC.advance_clear h.tt he
  simp only [hcan, if_true, hway] at hadv
  split at hadv
  next hwant =>
    obtain ⟨w, res, hw⟩ := FC.chooseWay_one (c := { c with atype := e.atype }) h.tt hem
    let y : TTEntry := { e with wayNeed := .ready w }
    let u : FC := { c with atype := e.atype, f := { c.f with emReserved := res, tt := [y] } }
    have hy : y.Clear := ⟨he.phase, he.plain, he.settled, he.ms, .inr ⟨w, rfl⟩⟩
    have hend : FC.Ending c₀ { u with atype := y.atype } y := ⟨(h.work.setType _).set _, h.pens, rfl, h.pointers⟩
    obtain ⟨v, hv, hended⟩ := hend.endRow_put (e := y) hrow
    have hends := (FC.advance_ends (c := u) rfl hy (hcan _) fun _ => by simp [y]).trans hv
    have hpump := FC.pump_chooses h.tt (hadv.trans hw) rfl (rfl : y.wayNeed = .ready w) hends hended.tt
    exact ⟨{ v with atype := c.atype }, hpump, hended.since _ rfl rfl fun _ _ _ hx => hx⟩
  next hno =>
    have hend : FC.Ending c₀ { c with atype := e.atype } e := ⟨h.work.setType _, h.pens, h.tt, h.pointers⟩
    obtain ⟨v, hv, hended⟩ := hend.endRow_put hrow
    exact ⟨{ v with atype := c.atype }, FC.pump_frees h.tt (hadv.trans hv) hended.tt, hended.since _ rfl rfl fun _ _ _ hx => hx⟩
end

/-! ### A full push -/

/-- The write of a request's data. -/
def pushWrite (it : PenItem) (x : DatFlit) : MemReq :=
  { op := .lineWrite, cls := it.flit.cls, line := lineOf it.flit.addr, data := x.payload, poison := x.poison, purpose := .commit }

/-- The fold keeps the request's data in its Pool, or its write is all that the memory queue holds. -/
def Fold.Stored (f : Fold) (it : PenItem) (x : DatFlit) : Prop :=
  f.Holds (lineOf it.flit.addr) x.payload x.poison ∨ f.memQ = [pushWrite it x]

section
variable {c : FC} {it : PenItem} (h : c.Serving it)
include h

/-- A full push commits its data, is answered Comp, and leaves no entry (03 R90, 06 R148). -/
theorem FC.Serving.pushes {x : DatFlit} (hdat : c.f.datOf it.flit = some x) (hop : it.flit.op = .pushFull) :
    ∃ v, (c.fresh it 0).serveReq it (c.newEntry it 0) = v.comp (c.newEntry it 0) .i false ∧ FC.Work c v ∧
      v.f.pens = [] ∧ v.f.tt = [] ∧ v.f.Stored it x := by
  obtain ⟨far, u, -, halone, hserve⟩ := h.serveRow
  let y := (c.fresh it 0).rowEntry it far (c.newEntry it 0)
  have hopy : y.flit.op = .pushFull := hop
  have hneeds : y.needsData = false := by simp only [TTEntry.needsData, hopy]
  have hrow : y.row = .pushFull := by
    change it.flit.row far = .pushFull
    rw [ReqFlit.row, hop]
  have hclear : y.Clear := ⟨rfl, ⟨rfl, rfl, rfl, rfl, rfl⟩, rfl, .inl rfl, .inl rfl⟩
  have hlook : u.lookAside it 0 = u := by
    have hentry : u.entry 0 = some y := FC.entry_one halone.tt
    have hmaint : it.flit.op.isMaint = false := by rw [hop]; rfl
    simp only [FC.lookAside, hentry, hneeds, hmaint, Bool.false_and, Bool.false_eq_true, if_false]
  have hway : u.wayFor 0 (it.flit.row far) = u := FC.wayFor_skips (e := y) halone.tt (by
    rw [show it.flit.row far = .pushFull from hrow]
    exact Bool.and_false _)
  have hv := halone.noted (FC.Noted.slot u 0)
  have hcan : (u.slot 0).canEnd y = true := by simp [FC.canEnd, hneeds, hrow, hclear.settled, hclear.plain.2.2.1]
  have hwant : (u.slot 0).wantsWay y ((u.slot 0).endState y y.granting false) = false := by
    have hgrant : y.granting = none := by simp only [TTEntry.granting, hrow]
    have hstate : (u.slot 0).endState y none false = .unt := by
      simp [FC.endState, hrow, FC.emFind_none hv.lines.1, hclear.plain.2.2.2.2]
    rw [hgrant, hstate]
    rfl
  let w : FC := { u.slot 0 with atype := y.atype }
  obtain ⟨em, res, hrecord⟩ := FC.endRecord_shape w y (w.endState y none false)
  obtain ⟨census, tag, data, pset, q, hcommit, hstored⟩ := FC.commit_shape (c := { w with f := { w.f with em := em, emReserved := res } })
    (l := y.line) (d := y.push) (poison := y.pushPoison) hv.lines.2.1 hv.data hv.lines.2.2.1 y.wpolicy y.flit.cls
  let z : FC := { w with f := { w.f with
    em := em, emReserved := res, census := census, poolTag := tag, poolData := data, poolSet := pset, memQ := w.f.memQ ++ q } }
  have hz : FC.Ending c z y := ⟨(hv.work.setType _).set _, hv.pens, hv.tt, hv.pointers⟩
  obtain ⟨v, hfree, hended⟩ := hz.comp_free
  have hrowEnd : w.endRow y = v.comp y .i false := by
    have hmp : y.mpSlot = none := h.ordinary
    rw [← hfree]
    simp only [FC.endRow, hrow, hrecord, hmp]
    exact congrArg (fun a : FC => (a.comp y .i false).free y.idx) hcommit
  have hend := FC.advance_ends hv.tt hclear hcan fun hw => absurd (hw.symm.trans hwant) (by decide)
  have hpump := FC.pump_frees hv.tt (hend.trans hrowEnd) hended.tt
  refine ⟨{ v with atype := (u.slot 0).atype }, ?_, hended.work.setType _, hended.pens, hended.tt, ?_⟩
  · have hquiet (a : FC) (htt : a.f.tt = []) : a.orderPush (c.newEntry it 0) = a := by
      have hnone : a.entry (c.newEntry it 0).idx = none := by rw [FC.entry, htt]; rfl
      simp [FC.orderPush, hnone]
    rw [hserve, hlook, hway, hpump]
    exact hquiet _ hended.tt
  · have hpush : y.push = x.payload := by
      have hdat' : (c.fresh it 0).f.datOf it.flit = some x := hdat
      simp only [y, FC.rowEntry, hdat']
    have hpoison : y.pushPoison = x.poison := by
      have hdat' : (c.fresh it 0).f.datOf it.flit = some x := hdat
      simp only [y, FC.rowEntry, hdat']
    rw [hpush, hpoison] at hstored
    obtain hholds | hq := hstored
    · exact .inl (hended.holds _ _ _ hholds)
    · refine .inr (hended.memQ.trans ?_)
      change w.f.memQ ++ q = _
      rw [show w.f.memQ = [] from hv.memQ, hq]
      rfl
end
/-! ### A Put -/

section
variable {c₀ c : FC} {e : TTEntry}

/-- An entry that waits for snoop answers stays as it is. -/
theorem FC.pump_snoops (htt : c.f.tt = [e]) (hphase : e.phase = .snoop) (hwaits : e.waits ≠ [])
    (hplain : e.isBinv = false ∧ e.devOut = false ∧ (e.ms = .unneeded ∨ e.ms = .waiting ∨ (∃ x p, e.ms = .held x p) ∧ e.couldDirty = true) ∧
      e.wayNeed = .none) : c.pump = c := by
  obtain ⟨hbinv, hdev, hms, hway⟩ := hplain
  have hset : e.settled = false := by simp [TTEntry.settled, hwaits]
  have hadv (u : FC) (htt : u.f.tt = [e]) : u.advance e.idx = { u with atype := e.atype } := by
    have hleave : u.leaveSnoop e.idx = u := by
      have : updateWhere (fun x => x.idx == e.idx)
          (fun e => if e.phase == .snoop && e.settled then { e with phase := .data } else e) u.f.tt = u.f.tt := by
        rw [htt, updateWhere_one (by simp)]
        simp [hset]
      rw [FC.leaveSnoop, FC.modEntry, this]
    have hentry : FC.entry { u with atype := e.atype } e.idx = some e := FC.entry_one htt
    have hretry : FC.retry { u with atype := e.atype } e = { u with atype := e.atype } := by
      obtain hms | hms | ⟨⟨x, p, hms⟩, -⟩ := hms <;> simp [FC.retry, hms, hway]
    have hearly : FC.earlyData { u with atype := e.atype } e = { u with atype := e.atype } := by
      obtain hms | hms | ⟨⟨x, p, hms⟩, hdirty⟩ := hms
      · simp only [FC.earlyData, hms]
      · simp only [FC.earlyData, hms]
      · simp [FC.earlyData, hms, hdirty]
    have hcan : FC.canEnd { u with atype := e.atype } e = false := by simp [FC.canEnd, hset]
    unfold FC.advance
    simp only [hleave, FC.entry_one htt, hphase, hdev, hbinv, hretry, hentry, hearly, hcan]
    rfl
  exact FC.pump_stays htt (hadv c htt) (hadv { c with atype := e.atype } htt)

theorem FC.sendSnoops_shape (c : FC) (cls : Cls) (op : SnpOp) (i : TTIdx) (l : Line) (ts : List SnpTarget) :
    ∃ out census, ts.foldl (fun c x => c.sendSnoop cls op i l x) c =
      { c with out := out, f := { c.f with census := census } } := by
  induction ts generalizing c with
  | nil => exact ⟨_, _, rfl⟩
  | cons x ts ih =>
    obtain ⟨out, census, hx⟩ : ∃ out census, c.sendSnoop cls op i l x = { c with out := out, f := { c.f with census := census } } := by
      unfold FC.sendSnoop
      cases x with
      | agent a =>
        obtain ⟨k, hk⟩ := FC.ev_shape (c.send .snp cls (.snp ⟨op, c.agent, a, BitVec.ofNat 12 i.val, l, false, 0⟩)) 0x20
        exact ⟨_, k, hk⟩
      | muster d skip =>
        obtain ⟨k, hk⟩ := FC.ev_shape
          (c.send .snp cls (.snp ⟨op, c.agent, Machine.agent d skip.toNat, BitVec.ofNat 12 i.val, l, true, 0⟩)) 0x21
        exact ⟨_, k, hk⟩
      | probe g w =>
        obtain ⟨k, hk⟩ := FC.ev_shape (c.send .snp cls (.snp ⟨.wayProbe, c.agent, Machine.agent c.die g.val,
          BitVec.ofNat 12 i.val + 512, BitVec.ofNat 46 (c.k.setOfLine l + w * 8192), false, 0⟩)) 0x26
        exact ⟨_, k, hk⟩
    rw [List.foldl_cons, hx]
    obtain ⟨out', census', hrest⟩ := ih { c with out := out, f := { c.f with census := census } }
    exact ⟨out', census', hrest⟩

theorem FC.putFrom_blank (hsh : c.f.shadow = []) (f : ReqFlit) : c.putFrom f .blank = .stranger := by
  have hshadow (g : GateN) (l : Line) (op : ReqOp) : c.f.shadowHas g l op = false := by simp [Fold.shadowHas, hsh]
  simp [FC.putFrom, hshadow, Look.blank]

theorem FC.tallySetState_none (ht : c.f.tally = []) (l : Line) (g : GateN) (st : BitVec 2) : c.tallySetState l g st = c := by
  have : c.tallyHits l = [] := by simp [FC.tallyHits, ht, smFind]
  simp [FC.tallySetState, this]

theorem FC.emDropPtr_none (hem : c.f.NoEarmark) (l : Line) (a : AgentId) : c.emDropPtr l a = c := by
  simp only [FC.emDropPtr, FC.emFind_none hem]
end

/-- The entry of a Put of a line that nothing records: a PutCopy of a local Gate asks for the ways of its agent (05 R136). -/
def putEntry (it : PenItem) (dat : Bool) (ts : List SnpTarget) (e : TTEntry) : TTEntry :=
  { e with
    phase := if ts.isEmpty then .data else .snoop, commit := dat, waits := ts, sent := ts
    grant := if it.flit.op == .putCopy then .e else .i }

section
variable {c : FC} {it : PenItem} (h : c.Serving it)
include h

/-- A Put of a line that nothing records leaves its pen, commits its data, and goes on in its entry. -/
theorem FC.Serving.servePut {b : FC} (hem : b.f.NoEarmark) (htally : b.f.tally = [])
    (hb : it.flit.op = .putClean ∧ b = (c.fresh it 0).takeItem it ∨ ∃ x, it.flit.op ≠ .putClean ∧ c.f.datOf it.flit = some x ∧
      b = ((c.fresh it 0).takeItem it).commit (lineOf it.flit.addr) x.payload x.poison (c.newEntry it 0).wpolicy it.flit.cls none) :
    ∃ ts, (ts ≠ [] → it.flit.op = .putCopy) ∧ (c.fresh it 0).servePut it (c.newEntry it 0) =
      ((ts.foldl (fun c x => c.sendSnoop it.flit.cls .wayProbe 0 (lineOf it.flit.addr) x)
        (b.modEntry 0 (putEntry it (c.f.datOf it.flit).isSome ts))).slot 0).pump := by
  obtain ⟨hlines, hrec⟩ := h.lines
  have hmp : (c.newEntry it 0).mpSlot = none := h.ordinary
  generalize hu : c.fresh it 0 = u at *
  have hl : u.f.NoLines := by rw [← hu]; exact hlines
  have hr : u.f.NoRecords := by rw [← hu]; exact hrec
  have hdat : u.f.datOf it.flit = c.f.datOf it.flit := by rw [← hu]; rfl
  have hrecords : (if it.flit.op == ReqOp.putCopy then b
      else if b.localGate it.flit.src then b.tallySetState (lineOf it.flit.addr) (gateOf it.flit.src) 0
      else b.emDropPtr (lineOf it.flit.addr) it.flit.src) = b := by
    simp only [FC.tallySetState_none htally, FC.emDropPtr_none hem, ite_self]
  let all := it.flit.op == .putCopy && b.localGate it.flit.src
  let ts : List SnpTarget := if all then ((List.range b.k.ways).map fun w => (gateOf it.flit.src, w)).map fun x => .probe x.1 x.2 else []
  refine ⟨ts, fun hts => ?_, ?_⟩
  · by_contra hop
    have hall : all = false := by simp [all, hop]
    exact hts (if_neg (by simp [hall]))
  · have hother : (PutFrom.stranger == PutFrom.sharer || PutFrom.stranger == PutFrom.wrong) = false := rfl
    have hstranger : (PutFrom.stranger == PutFrom.stranger) = true := rfl
    have hprobes : ((if all then ((List.range b.k.ways).map fun w => (gateOf it.flit.src, w)) ++
        (Look.blank.probes.filter fun x => x.1 != gateOf it.flit.src) else Look.blank.probes).map
        fun x => SnpTarget.probe x.1 x.2) = ts := by
      cases hall : all <;> simp [ts, hall, Look.blank]
    unfold FC.servePut
    simp only [FC.lookCheck_none hl hr, FC.view_none hl.1 hr, FC.putFrom_blank hr.2.2.1, hdat, hmp, hother, hstranger, Bool.and_false,
      Bool.and_true, Bool.false_eq_true, if_false]
    obtain ⟨hop, hb⟩ | ⟨x, hop, hx, hb⟩ := hb
    · cases hx : c.f.datOf it.flit with
      | none =>
        simp only
        rw [← hb, hrecords, hprobes]
        rfl
      | some x =>
        simp only [beq_iff_eq.2 hop, if_true]
        rw [← hb, hrecords, hprobes]
        rfl
    · simp only [hx, beq_eq_false_iff_ne.2 hop, Bool.false_eq_true, if_false]
      rw [← hb, hrecords, hprobes]
      rfl
end

section
variable {c : FC} {it : PenItem}
theorem isPut_cases {o : ReqOp} (h : o.isPut = true) : o = .putDirty ∨ o = .putCopy ∨ o = .putClean := by
  cases o <;> simp [ReqOp.isPut] at h ⊢

/-- A Put that asks no way ends at once. -/
theorem FC.Ending.put_ends {b : FC} (hb : FC.Ending c b (c.newEntry it 0)) (hem : b.f.NoEarmark) (hput : it.flit.op.isPut = true)
    (dat : Bool) :
    ∃ v, ((b.modEntry 0 (putEntry it dat [])).slot 0).pump = v.comp (c.newEntry it 0) .i false ∧ FC.Ended c b v := by
  let y := putEntry it dat [] (c.newEntry it 0)
  have htt : (b.modEntry 0 (putEntry it dat [])).f.tt = [y] :=
    (congrArg (updateWhere _ _) hb.tt).trans (updateWhere_one rfl)
  have hend : FC.Ending c ((b.modEntry 0 (putEntry it dat [])).slot 0) y := ⟨hb.work.set _, hb.pens, htt, hb.pointers⟩
  have hrow : y.row = .put := by
    change it.flit.row false = .put
    obtain hop | hop | hop := isPut_cases hput <;> rw [ReqFlit.row, hop]
  have hneeds : y.needsData = false := by
    have hopy : y.flit.op.isPut = true := hput
    obtain hop | hop | hop := isPut_cases hopy <;> rw [TTEntry.needsData, hop]
  have hclear : y.Clear := ⟨rfl, ⟨rfl, rfl, rfl, rfl, rfl⟩, rfl, .inl rfl, .inl rfl⟩
  obtain ⟨v, hpump, hended⟩ := hend.pump_put hem hclear hrow hneeds rfl
  exact ⟨v, hpump, hended.work, hended.pens, hended.tt, hended.memQ, hended.poolTag, hended.holds⟩

/-- One that asks ways of an agent waits for its answers. -/
theorem FC.Ending.put_waits {b : FC} (hb : FC.Ending c b (c.newEntry it 0)) {ts : List SnpTarget} (hts : ts ≠ []) (dat : Bool) :
    ∃ v out, ((ts.foldl (fun c x => c.sendSnoop it.flit.cls .wayProbe 0 (lineOf it.flit.addr) x)
        (b.modEntry 0 (putEntry it dat ts))).slot 0).pump = { v with out := out } ∧ FC.Work c v ∧ v.f.pens = [] ∧
      v.f.tt = [putEntry it dat ts (c.newEntry it 0)] ∧ v.f.memQ = b.f.memQ ∧ ∀ l d p, b.f.Holds l d p → v.f.Holds l d p := by
  obtain ⟨out, census, hsnoops⟩ :=
    FC.sendSnoops_shape (b.modEntry 0 (putEntry it dat ts)) it.flit.cls .wayProbe 0 (lineOf it.flit.addr) ts
  have htt : (b.modEntry 0 (putEntry it dat ts)).f.tt = [putEntry it dat ts (c.newEntry it 0)] :=
    (congrArg (updateWhere _ _) hb.tt).trans (updateWhere_one rfl)
  have hphase : (putEntry it dat ts (c.newEntry it 0)).phase = .snoop := if_neg (by simp [hts])
  let v : FC := { b with f := { b.f with
    tt := (b.modEntry 0 (putEntry it dat ts)).f.tt, census := census, slotNow := some 0 } }
  have hpump : FC.pump { v with out := out } = { v with out := out } := FC.pump_snoops htt hphase hts ⟨rfl, rfl, .inl rfl, rfl⟩
  refine ⟨v, out, ?_, hb.work.set _, hb.pens, htt, rfl, fun _ _ _ h => h⟩
  rw [hsnoops]
  exact hpump
end

section
variable {c : FC} {it : PenItem} (h : c.Serving it)
include h

theorem FC.Serving.lineless : ((c.fresh it 0).takeItem it).f.NoEarmark ∧ ((c.fresh it 0).takeItem it).f.tally = [] := by
  obtain ⟨hlines, hrec⟩ := h.lines
  exact ⟨hlines.1, hrec.1⟩

/-- A PutClean of a line that nothing records is answered Comp and leaves nothing (03 R93). -/
theorem FC.Serving.putClean (hop : it.flit.op = .putClean) :
    ∃ v, (c.fresh it 0).servePut it (c.newEntry it 0) = v.comp (c.newEntry it 0) .i false ∧ FC.Work c v ∧
      v.f.pens = [] ∧ v.f.tt = [] ∧ v.f.memQ = [] ∧ v.f.poolTag = [] := by
  obtain ⟨ts, hts, hserve⟩ := h.servePut h.lineless.1 h.lineless.2 (.inl ⟨hop, rfl⟩)
  obtain rfl : ts = [] := by
    by_contra hne
    rw [hop] at hts
    exact absurd (hts hne) (by decide)
  obtain ⟨v, hpump, hwork, hpens, htt, hmemQ, htag, -⟩ := h.alone.ending.put_ends h.lineless.1 (by rw [hop]; rfl) _
  exact ⟨v, hserve.trans hpump, hwork, hpens, htt, hmemQ.trans h.alone.memQ, htag.trans h.alone.lines.2.1.1⟩

/-- A PutDirty or PutCopy of a line that nothing records commits its data (03 R93, 06 R148); a PutDirty is answered Comp and
leaves no entry. -/
theorem FC.Serving.puts {x : DatFlit} (hdat : c.f.datOf it.flit = some x) (hop : it.flit.op = .putDirty ∨ it.flit.op = .putCopy) :
    ∃ v out, (c.fresh it 0).servePut it (c.newEntry it 0) = { v with out := out } ∧ FC.Work c v ∧
      v.f.pens = [] ∧ v.f.Stored it x ∧
      (it.flit.op = .putDirty → v.f.tt = [] ∧ out = (v.comp (c.newEntry it 0) .i false).out) ∧
      ∀ e ∈ v.f.tt, e.flit = it.flit ∧ e.commit = true := by
  let a := (c.fresh it 0).takeItem it
  have ha : FC.Alone c a (c.newEntry it 0) := h.alone
  obtain ⟨census, tag, data, pset, q, hcommit, hstored⟩ := FC.commit_shape (c := a) (l := lineOf it.flit.addr) (d := x.payload)
    (poison := x.poison) ha.lines.2.1 ha.data ha.lines.2.2.1 (c.newEntry it 0).wpolicy it.flit.cls
  let b : FC := { a with f := { a.f with
    census := census, poolTag := tag, poolData := data, poolSet := pset, memQ := a.f.memQ ++ q } }
  have hb : FC.Ending c b (c.newEntry it 0) := ⟨ha.work.set _, ha.pens, ha.tt, ha.pointers⟩
  have hstored' : b.f.Stored it x := by
    obtain hholds | hq := hstored
    · exact .inl hholds
    · refine .inr ?_
      change a.f.memQ ++ q = _
      rw [ha.memQ, hq]
      rfl
  have hput : it.flit.op.isPut = true ∧ it.flit.op ≠ .putClean := by obtain hop | hop := hop <;> rw [hop] <;> decide
  obtain ⟨ts, hts, hserve⟩ := h.servePut (b := b) h.lineless.1 h.lineless.2 (.inr ⟨x, hput.2, hdat, hcommit.symm⟩)
  have hkeeps {v : FC} (hmemQ : v.f.memQ = b.f.memQ) (hholds : ∀ l d p, b.f.Holds l d p → v.f.Holds l d p) : v.f.Stored it x := by
    obtain hs | hs := hstored'
    · exact .inl (hholds _ _ _ hs)
    · exact .inr (hmemQ.trans hs)
  by_cases hnil : ts = []
  · subst hnil
    obtain ⟨v, hpump, hwork, hpens, htt, hmemQ, -, hholds⟩ := hb.put_ends h.lineless.1 hput.1 (c.f.datOf it.flit).isSome
    refine ⟨v, _, hserve.trans hpump, hwork, hpens, hkeeps hmemQ hholds, fun _ => ⟨htt, rfl⟩, fun e he => ?_⟩
    rw [htt] at he
    simp at he
  · obtain ⟨v, out, hpump, hwork, hpens, htt, hmemQ, hholds⟩ := hb.put_waits hnil (c.f.datOf it.flit).isSome
    refine ⟨v, out, hserve.trans hpump, hwork, hpens, hkeeps hmemQ hholds, fun hdirty => ?_, fun e he => ?_⟩
    · exact absurd ((hts hnil).symm.trans hdirty) (by decide)
    · rw [htt, List.mem_singleton] at he
      rw [he]
      exact ⟨rfl, by rw [hdat]; rfl⟩
end

/-! ### The statement -/

section
variable {s : State} {d : Die} {p : PFold} {it : PenItem}

/-- A Put is served as one. -/
theorem State.Serves.servedPut (h : s.Serves d p it) (hput : it.flit.op.isPut = true) :
    (s.fc d p).serve it = ((s.fc d p).fresh it 0).servePut it ((s.fc d p).newEntry it 0) := by
  have hdev : it.flit.op.isDev = false := by obtain hop | hop | hop := isPut_cases hput <;> rw [hop] <;> rfl
  rw [h.serve, hdev, hput]
  rfl

/-- What a pull stored is found by a later lookup, or is what the memory queue holds. -/
theorem Fold.Stored.shown {t : State} {f : Fold} {x : DatFlit} (h : f.Stored it x) (hf : (t.pad d).folds[p] = f) :
    ((t.fc d p).msLook (lineOf it.flit.addr) none).2 = .data x.payload x.poison ∨ ((t.pad d).folds[p]).memQ = [pushWrite it x] := by
  subst hf
  obtain h | h := h
  · exact .inl (FC.msLook_holds (c := t.fc d p) h)
  · exact .inr h

/-- Comp of the request is among what a pull offers. -/
theorem State.comp_offered {v : FC} {l : List InjItem} (hwork : FC.Work (s.fc d p) v)
    (hinj : l = (s.pad d).stream.inj ++ (v.comp ((s.fc d p).newEntry it 0) .i false).out.map
      fun i => { i with held := bitAt (s.pad d).ebb.fenceReq i.pos }) :
    s.foldAnswer d p it.flit (s.compOf d p it.flit .i false 0) ∈ l := by
  have hout : (v.comp ((s.fc d p).newEntry it 0) .i false).out.map
      (fun i => { i with held := bitAt (s.pad d).ebb.fenceReq i.pos }) =
        [s.foldAnswer d p it.flit (s.compOf d p it.flit .i false 0)] := by
    rw [hwork]
    rfl
  rw [hinj, hout]
  exact List.mem_append_right _ (List.mem_singleton_self _)

/-- Settles O22: pushes and Puts commit their data, and a far AtomicOp changes its operand. -/
theorem writesCommitAndAtomicsOperate : Obligations.WritesCommitAndAtomicsOperate := by
  unfold Obligations.WritesCommitAndAtomicsOperate
  refine ⟨fun s d p it h => ⟨fun x hdat c hc hop => ?_, fun hop => ?_⟩, fun f line push n hop hbad hsize => ?_⟩
  · simp only [List.mem_cons, List.not_mem_nil, or_false] at hc
    obtain rfl | hc := hc
    · obtain ⟨v, hserve, hwork, hpens, htt, hstored⟩ := h.serving.pushes hdat hop
      obtain ⟨t, ht, honly, hfold, hinj, hfolds, -⟩ := h.pulls (want := (· == .pushFull)) (by simp [hop])
        (h.served hop rfl rfl) hwork hserve
      refine ⟨t, congrArg Host.Outcome.next ht, honly, ?_, hstored.shown hfold, fun _ => ⟨?_, State.comp_offered hwork hinj⟩,
        fun hcopy => ?_, hfolds⟩
      · rw [hfold, hpens]
      · rw [hfold, htt]
      · exact absurd (hop.symm.trans hcopy) (by simp)
    · have hput : it.flit.op = .putDirty ∨ it.flit.op = .putCopy := by
        obtain rfl | rfl := hc
        · exact .inl hop
        · exact .inr hop
      obtain ⟨v, out, hserve, hwork, hpens, hstored, hdirty, hcopy⟩ := h.serving.puts hdat hput
      obtain ⟨t, ht, honly, hfold, hinj, hfolds, -⟩ := h.pulls (want := (· == c.1)) (by simp [hop])
        (h.servedPut (by obtain h | h := hput <;> rw [h] <;> rfl)) hwork hserve
      refine ⟨t, ?_, honly, ?_, hstored.shown hfold, fun hne => ?_, fun _ e he => ?_, hfolds⟩
      · obtain rfl | rfl := hc <;> exact congrArg Host.Outcome.next ht
      · rw [hfold, hpens]
      · obtain ⟨htt, hout⟩ := hdirty (hput.resolve_right hne)
        exact ⟨by rw [hfold, htt], State.comp_offered hwork (hinj.trans (by rw [hout]))⟩
      · rw [hfold] at he
        exact hcopy e he
  · obtain ⟨v, hserve, hwork, hpens, htt, hmemQ, htag⟩ := h.serving.putClean hop
    obtain ⟨t, ht, honly, hfold, hinj, hfolds, -⟩ := h.pulls (want := (· == .putClean)) (by simp [hop])
      (h.servedPut (by rw [hop]; rfl)) hwork hserve
    refine ⟨t, congrArg Host.Outcome.next ht, honly, ?_, ?_, ?_, ?_, State.comp_offered hwork hinj, hfolds⟩
    · rw [hfold, hpens]
    · rw [hfold, htt]
    · rw [hfold, hmemQ]
    · rw [hfold, htag]
  · obtain ⟨houtside, hold, hnew⟩ := atomicLine_spec line push hop hbad hsize
    exact ⟨houtside, hold, hnew, fun hadd => by rw [hnew, hadd]; rfl⟩
end

end Sys2Proof.Machine
end

section
/-!
Maintenance of a dirty Pool way, and the statement O23 (06 R166).
-/

namespace Sys2Proof.Machine

theorem poolTagBits_seal (r : PoolTagRec) : poolTagBits r.seal = poolTagBits r := by
  obtain ⟨tag, valid, dirty, suspect, poison, dcrc, tcrc⟩ := r
  rw [poolTagBits, PoolTagRec.seal]
  simp only [poolTagBits]

/-- A sealed record is sealed. -/
theorem PoolTagRec.seal_seal (r : PoolTagRec) : r.seal.seal = r.seal := by
  have hcrc : poolTcrc r.seal = poolTcrc r := by rw [poolTcrc, poolTagBits_seal, poolTcrc]
  have h : r.seal.seal = { r.seal with tcrc := poolTcrc r.seal } := rfl
  rw [h, hcrc, PoolTagRec.seal]

theorem PoolTagRec.seal_dflt : poolTagDflt.seal = poolTagDflt := by
  unfold poolTagDflt poolTagRec
  exact PoolTagRec.seal_seal _

/-- A valid dirty record of a line of zeros, sound. -/
def dirtyWay : PoolTagRec := ⟨0, true, true, false, false, dataCrc 0, 0⟩

/-- A fold whose Pool has the record of set 0, way 0 twice over. -/
def twiceDirty : FC :=
  let c := State.oneDie.fc 0 0
  { c with f := { c.f with poolTag := [(0, dirtyWay), (0, dirtyWay)], poolData := [] } }

/-- A Purge of that way drops the first entry of the map alone. -/
theorem twiceDirty_purged : ((twiceDirty.wayMaint .purge 0 0 0 false).1.f.ptag 0 0) = dirtyWay := by
  have hdata : twiceDirty.f.pdata 0 0 = 0 := rfl
  have htag : twiceDirty.f.poolTag = [(0, dirtyWay), (0, dirtyWay)] := rfl
  have hpurge : (twiceDirty.wayMaint .purge 0 0 0 false).1.f = twiceDirty.f.pinval 0 0 := by
    simp [FC.wayMaint]
  have hput : (twiceDirty.f.pinval 0 0).poolTag = [(0, dirtyWay)] := by
    simp only [Fold.pinval, hdata, if_true, Fold.ptagPut]
    split <;> simp [Fold.psetPut, htag, smSet, PoolTagRec.seal_dflt]
  rw [hpurge, Fold.ptag, hput]
  rfl

/-- Refutes O23: in a Pool whose map has an entry twice, as the statement's arbitrary fold may, Purge drops the first alone,
and the way is valid still. -/
theorem not_maintenanceActsByOpcode : ¬ Obligations.MaintenanceActsByOpcode := by
  unfold Obligations.MaintenanceActsByOpcode
  intro h
  have hdcrc : dirtyWay.dcrc = dataCrc (twiceDirty.f.pdata 0 0) := congrArg dataCrc (rfl : (0 : LineData) = twiceDirty.f.pdata 0 0)
  obtain ⟨-, ⟨hpurge, -⟩, -⟩ := h.2 twiceDirty 0 0 0 dirtyWay rfl rfl rfl rfl hdcrc
  rw [twiceDirty_purged] at hpurge
  exact absurd hpurge (by decide)

end Sys2Proof.Machine
end

section
/-!
What the upkeep of a fold's arrays leaves alone: checks, failures, write-backs and the Pool's own work (06, 12 R311, R322).
-/

namespace Sys2Proof.Machine

/-- A fold without what its arrays' upkeep changes: the Pool, the Eddy, the memory queue, ways out of service, what was
counted and found. -/
def Fold.core (f : Fold) : Fold :=
  { f with
    tallyOut := 0, tallyCopy := [], tallyPend := [], emOut := 0, emCopy := [], emPend := [], poolTag := [], poolData := []
    poolSet := [], poolLost := [], poolOut := 0, poolDisabled := 0, poolWorn := 0, poolSweep := [], poolPend := []
    millDirty := [], found := [], census := {}, memQ := [], eddy := [] }

/-- From `c` to `c'` upkeep was done: reports of this fold may be filed and Hurdle told; nothing is sent. -/
structure FC.Upkeep (c c' : FC) : Prop where
  work : c' = { c with f := c'.f, fails := c'.fails, atype := c'.atype, reps := c'.reps, acts := c'.acts }
  reps : ∀ r ∈ c'.reps, r ∈ c.reps ∨ r.fromFold = some (c.die, c.p)
  core : c'.f.core = c.f.core

section
variable {a b c : FC}

theorem FC.Upkeep.refl (c : FC) : c.Upkeep c := ⟨rfl, fun _ h => .inl h, rfl⟩

theorem FC.Upkeep.trans (hab : a.Upkeep b) (hbc : b.Upkeep c) : a.Upkeep c := by
  obtain ⟨hab, hra, hca⟩ := hab
  obtain ⟨hbc, hrb, hcb⟩ := hbc
  have hdie : b.die = a.die := by rw [hab]
  have hp : b.p = a.p := by rw [hab]
  refine ⟨?_, fun r hr => ?_, hcb.trans hca⟩
  · rw [hab] at hbc
    exact hbc
  · obtain h | h := hrb r hr
    · exact hra r h
    · rw [hdie, hp] at h
      exact .inr h

theorem FC.Upkeep.ite {p : Prop} [Decidable p] (ha : c.Upkeep a) (hb : c.Upkeep b) : c.Upkeep (if p then a else b) := by
  split
  · exact ha
  · exact hb

theorem FC.Upkeep.foldl {β : Type} (f : FC → β → FC) (l : List β) (h : ∀ (u : FC) (x : β), u.Upkeep (f u x)) (c : FC) :
    c.Upkeep (l.foldl f c) := by
  induction l generalizing c with
  | nil => exact .refl c
  | cons x l ih => exact (h c x).trans (ih _)

/-- A change of the fold that its core does not see. -/
theorem FC.Upkeep.setFold (c : FC) {f : Fold} (h : f.core = c.f.core) : c.Upkeep { c with f := f } :=
  ⟨rfl, fun _ h => .inl h, h⟩

theorem FC.Upkeep.act (c : FC) (l : List HurdleAct) : c.Upkeep { c with acts := l } := ⟨rfl, fun _ h => .inl h, rfl⟩

theorem FC.Upkeep.setFails (c : FC) (l : List FailStamps) : c.Upkeep { c with fails := l } := ⟨rfl, fun _ h => .inl h, rfl⟩

theorem FC.Upkeep.setType (c : FC) (t : BitVec 6) : c.Upkeep { c with atype := t } := ⟨rfl, fun _ h => .inl h, rfl⟩

theorem FC.Upkeep.ev (c : FC) (sel : Nat) : c.Upkeep (c.ev sel) := by
  obtain ⟨k, hk⟩ := FC.ev_shape c sel
  rw [hk]
  exact .setFold c rfl

/-- A report of a fold joins its reports, and is counted. -/
theorem FC.rep_shape (c : FC) (code : Nat) (subject : AgentId) (addr : Option Addr) (atype : BitVec 6) :
    ∃ r census, c.rep code subject addr atype = { c with reps := c.reps ++ [r], f := { c.f with census := census } } ∧
      r.fromFold = some (c.die, c.p) := by
  unfold FC.rep
  exact ⟨_, _, rfl, rfl⟩

theorem FC.Upkeep.rep (c : FC) (code : Nat) (subject : AgentId) (addr : Option Addr) (atype : BitVec 6) :
    c.Upkeep (c.rep code subject addr atype) := by
  obtain ⟨x, k, hk, hx⟩ := FC.rep_shape c code subject addr atype
  rw [hk]
  refine ⟨rfl, fun r hr => ?_, rfl⟩
  obtain hr | hr := List.mem_append.1 hr
  · exact .inl hr
  · rw [List.mem_singleton.1 hr]
    exact .inr hx

/-- A way that leaves service for want of a spare is reported, Hurdle told, and the fold notes it. -/
theorem FC.Upkeep.spent (h : c.Upkeep a) (acts : List HurdleAct) {f : Fold} (hf : f.core = a.f.core) :
    c.Upkeep { a with acts := acts, f := f } :=
  h.trans ⟨rfl, fun _ h => .inl h, hf⟩

theorem FC.Upkeep.note (c : FC) (k : ArrayKind) (i : Nat) (uc : Bool) : c.Upkeep (c.note k i uc) := .setFold c rfl

theorem FC.Upkeep.memPush (c : FC) (m : MemReq) : c.Upkeep (c.memPush m) := .setFold c rfl

/-! ### Failures (12 R311, R322) -/

theorem FC.Upkeep.recBad (c : FC) (code : Nat) (addr : Option Addr) (k : ArrayKind) (i : Nat) :
    c.Upkeep (c.recBad code addr k i) :=
  (FC.Upkeep.rep ..).trans (.note ..)

theorem FC.Upkeep.disablePoolWay (c : FC) (phys : Nat) : c.Upkeep (c.disablePoolWay phys) := by
  unfold FC.disablePoolWay
  refine .ite (.refl c) (.ite (.ite (.refl c) (.setFold c rfl)) ?_)
  split
  · exact .setFold c rfl
  · refine .ite (.setFold c rfl) (.ite ?_ ?_)
    · have hrep : c.Upkeep (c.repSelf 0xB10 none 0x3E) := .rep ..
      generalize c.repSelf 0xB10 none 0x3E = u at *
      exact .ite (.refl c) (hrep.spent _ rfl)
    · have hrep : c.Upkeep (c.repSelf 0xB10 none 0x3E) := .rep ..
      generalize c.repSelf 0xB10 none 0x3E = u at *
      exact hrep.spent _ rfl

theorem FC.Upkeep.disableTallyWay (c : FC) (phys : Nat) : c.Upkeep (c.disableTallyWay phys) := by
  unfold FC.disableTallyWay
  split
  · exact .ite (.setFold c rfl) (.setFold c rfl)
  · refine .ite (.refl c) ?_
    split
    · exact .setFold c rfl
    · have hrep : c.Upkeep (c.repSelf 0xB10 none 0x3E) := .rep ..
      generalize c.repSelf 0xB10 none 0x3E = u at *
      exact hrep.spent _ rfl

theorem FC.Upkeep.disableEmWay (c : FC) (phys : Nat) : c.Upkeep (c.disableEmWay phys) := by
  unfold FC.disableEmWay
  split
  · exact .ite (.setFold c rfl) (.setFold c rfl)
  · have hrep : c.Upkeep (c.repSelf 0xB10 none 0x3E) := .rep ..
    generalize c.repSelf 0xB10 none 0x3E = u at *
    exact .ite (.refl c) (.ite (.setFold c rfl) (hrep.spent _ rfl))

theorem FC.Upkeep.wayFail (c : FC) (k : ArrayKind) (phys : Nat) : c.Upkeep (c.wayFail k phys) := by
  unfold FC.wayFail
  simp only
  have hfails := FC.Upkeep.setFails c (countFail c.fails c.p.val (wayArray k) phys c.now).1
  generalize { c with fails := (countFail c.fails c.p.val (wayArray k) phys c.now).1 } = u at *
  refine .ite (hfails.trans ?_) hfails
  cases k with
  | tally => exact .disableTallyWay ..
  | emTagA => exact .disableEmWay ..
  | emTagB => exact .disableEmWay ..
  | emPayload => exact .disableEmWay ..
  | poolTag => exact .disablePoolWay ..
  | poolData => exact .disablePoolWay ..
  | poolSet => exact .refl _
  | pred => exact .refl _

theorem FC.Upkeep.recFail (c : FC) (code : Nat) (addr : Option Addr) (k : ArrayKind) (i : Nat) :
    c.Upkeep (c.recFail code addr k i) :=
  (FC.Upkeep.recBad ..).trans (.wayFail ..)

/-! ### The Pool (06 R148, R154, R158) -/

theorem Fold.core_psetPut (f : Fold) (set : Nat) (plru : BitVec 15) (dv : BitVec 17) : (f.psetPut set plru dv).core = f.core := rfl

theorem Fold.core_ptagPut (f : Fold) (set ph : Nat) (r : PoolTagRec) : (f.ptagPut set ph r).core = f.core := by
  unfold Fold.ptagPut
  simp only
  split
  · rfl
  · rfl

theorem Fold.core_pline (f : Fold) (set ph : Nat) (tag : BitVec 32) (d : LineData) (dirty poison : Bool) :
    (f.pline set ph tag d dirty poison).core = f.core := Fold.core_ptagPut ..

theorem Fold.core_pinval (f : Fold) (set ph : Nat) : (f.pinval set ph).core = f.core := Fold.core_ptagPut ..

theorem Fold.core_ptouch (f : Fold) (set : Nat) (w : Fin 16) : (f.ptouch set w).core = f.core := rfl

theorem FC.Upkeep.poolSetCheck (c : FC) (set : Nat) : c.Upkeep (c.poolSetCheck set) := by
  unfold FC.poolSetCheck
  have hbad : c.Upkeep (c.recBad 0x406 none .poolSet set) := .recBad ..
  generalize c.recBad 0x406 none .poolSet set = u at *
  exact .ite (.refl c) (hbad.trans (.setFold u (Fold.core_psetPut ..)))

theorem FC.Upkeep.poolCheckWay (c : FC) (set ph : Nat) : c.Upkeep (c.poolCheckWay set ph) := by
  unfold FC.poolCheckWay
  split
  · exact .refl c
  · have hinval := Fold.core_pinval c.f set ph
    generalize c.f.pinval set ph = f at *
    have hlost (l : List Nat) : Fold.core { f with poolLost := l } = c.f.core := hinval
    simp only
    refine .ite (.refl c) (.ite ?_ (.ite ?_ ?_))
    · exact .trans (.setFold c (Fold.core_ptagPut ..)) (.recFail ..)
    · exact .trans (.setFold c (hlost _)) (.recFail ..)
    · exact .trans (.setFold c hinval) (.recFail ..)

theorem FC.Upkeep.poolCheckBut (c : FC) (skip : Nat → Bool) (set : Nat) : c.Upkeep (c.poolCheckBut skip set) :=
  (FC.Upkeep.poolSetCheck ..).trans (.foldl _ _ (fun u _ => .ite (.refl u) (.poolCheckWay ..)) _)

theorem FC.Upkeep.poolCheck (c : FC) (set : Nat) : c.Upkeep (c.poolCheck set) := .poolCheckBut ..

theorem FC.Upkeep.dirtyCheck (c : FC) (set ph : Nat) : c.Upkeep (c.dirtyCheck set ph) := by
  unfold FC.dirtyCheck
  exact .ite ((FC.Upkeep.setFold c (Fold.core_ptagPut ..)).trans (.recFail ..)) (.refl c)

theorem FC.Upkeep.toEddy (c : FC) (cls : Cls) (l : Line) (d : LineData) (dcrc : BitVec 16) (poison : Bool) :
    c.Upkeep (c.toEddy cls l d dcrc poison) :=
  .setFold c rfl

theorem FC.Upkeep.poolEvict (c : FC) (cls : Cls) (set ph : Nat) : c.Upkeep (c.poolEvict cls set ph) := by
  have hcheck : c.Upkeep ((c.poolCheckOne set ph).dirtyCheck set ph) :=
    (FC.Upkeep.poolSetCheck ..).trans ((FC.Upkeep.poolCheckWay ..).trans (.dirtyCheck ..))
  exact .ite (hcheck.trans (.toEddy ..)) hcheck

theorem FC.Upkeep.poolAlloc (c : FC) (cls : Cls) (l : Line) (w : Fin 16) (d : LineData) (dirty poison touch : Bool) :
    c.Upkeep (c.poolAlloc cls l w d dirty poison touch) := by
  unfold FC.poolAlloc
  simp only
  split
  · exact .refl c
  · refine (FC.Upkeep.poolEvict ..).trans (.setFold _ ?_)
    split
    · exact (Fold.core_ptouch ..).trans (Fold.core_pline ..)
    · exact Fold.core_pline ..

theorem FC.Upkeep.millWrite (c : FC) (slot : Nat × Nat) (d : LineData) (poison : Bool) : c.Upkeep (c.millWrite slot d poison) := by
  unfold FC.millWrite
  split
  · exact .refl c
  · exact (FC.Upkeep.poolSetCheck ..).trans
      (.setFold _ (f := { Fold.pline _ _ _ _ _ _ _ with millDirty := _ }) (Fold.core_pline ..))
end

theorem FC.Upkeep.commitMem_none (c : FC) (l : Line) (d : LineData) (poison : Bool) (cls : Cls) :
    c.Upkeep (c.memWrite cls l d poison .commit) := .memPush ..

/-! ### What a fold at upkeep leaves in its paddock -/

/-- A fold's work sends nothing and reports for itself. -/
structure FC.Local (c : FC) (d : Die) (p : PFold) : Prop where
  place : c.die = d ∧ c.p = p
  out : c.out = []
  reps : ∀ r ∈ c.reps, r.fromFold = some (d, p)

theorem FC.Local.fc (s : State) (d : Die) (p : PFold) : (s.fc d p).Local d p := ⟨⟨rfl, rfl⟩, rfl, fun _ hr => nomatch hr⟩

theorem FC.Local.upkeep {d : Die} {p : PFold} {c c' : FC} (h : c.Local d p) (hu : c.Upkeep c') : c'.Local d p := by
  obtain ⟨⟨hdie, hp⟩, hout, hreps⟩ := h
  obtain ⟨hwork, hreps', -⟩ := hu
  refine ⟨⟨?_, ?_⟩, ?_, fun r hr => ?_⟩
  · rw [hwork, hdie]
  · rw [hwork, hp]
  · rw [hwork, hout]
  · obtain h | h := hreps' r hr
    · exact hreps r h
    · rw [h, hdie, hp]

theorem FC.Local.setFold {d : Die} {p : PFold} {c : FC} (h : c.Local d p) (f : Fold) : FC.Local { c with f := f } d p :=
  ⟨h.place, h.out, h.reps⟩

/-- What of a paddock a fold's upkeep leaves alone, but for the halt of the fold itself (13 R346). -/
def Paddock.beside (p : PFold) (q : Paddock) : Stream × Vector AgentPort 4 × Vector AgentPort 24 × (PFold → Fold) :=
  (q.stream, q.gates, q.stiles, fun n => if n = p then { q.folds[n] with ftHalt := false } else q.folds[n])

section
variable {s t : State} {p : PFold}

theorem Paddock.beside_halt (p : PFold) (q : Paddock) :
    Paddock.beside p { q with folds := vmod q.folds p fun f => { f with ftHalt := true } } = q.beside p := by
  unfold Paddock.beside
  congr 3
  funext n
  split
  next h =>
    subst h
    simp [vmod]
  next h => exact vset_get_other _ _ _ _ h

theorem State.Frame.fileFold (h : s.Frame (Paddock.beside p) t) (d x : Die) {r : Report} (hr : r.fromFold = some (x, p)) :
    s.Frame (Paddock.beside p) (t.file d r) := by
  unfold State.file State.ftReact
  rw [hr]
  have hfiled := h.modPad (if d != dieOf r.subject && t.inRange d && t.reaches d (dieOf r.subject) then dieOf r.subject else d)
    (fun q => { q with bell := { q.bell with inbox := q.bell.inbox ++ [r] } }) fun _ => rfl
  exact .ite ((hfiled.modPad x _ (Paddock.beside_halt p)).modPad x _ fun _ => rfl) hfiled

theorem State.Frame.hurdleAct (h : s.Frame (Paddock.beside p) t) (d : Die) (n : PFold) (a : HurdleAct) :
    s.Frame (Paddock.beside p) (t.hurdleAct d n a) := by
  cases a with
  | exhausted b =>
    have hexh := h.modPad d (fun q => { q with hurdle := { q.hurdle with exh := putBit q.hurdle.exh b true } }) fun _ => rfl
    exact hexh.recheckDue (fun _ _ => rfl) d
  | repair kind arr way => exact .ite h (h.hurdleAppend (fun _ _ _ => rfl) (fun _ _ => rfl) (fun _ _ => rfl) d _)
  | poolSweepDone => exact h

/-- The state that a fold's work leaves: its fold and what Hurdle and Bell took, its Stream and ports as they were. -/
theorem State.putFc_local {d : Die} {c : FC} (h : c.Local d p) :
    (s.putFc c).tether = s.tether ∧ ((s.putFc c).pad d).stream = (s.pad d).stream ∧
      ((s.putFc c).pad d).gates = (s.pad d).gates ∧ ((s.putFc c).pad d).stiles = (s.pad d).stiles ∧
      (∃ halt, ((s.putFc c).pad d).folds[p] = { c.f with ftHalt := halt }) ∧
      ∀ n, n ≠ p → ((s.putFc c).pad d).folds[n] = (s.pad d).folds[n] := by
  obtain ⟨⟨hdie, hp⟩, hout, hreps⟩ := h
  let u := s.modPad d fun q => { q with folds := vset q.folds p c.f, aon := { q.aon with wayFails := c.fails } }
  have hframe : u.Frame (Paddock.beside p) (s.putFc c) := by
    have hu : s.modPad c.die (fun q => Paddock.offer { q with
        folds := vset q.folds c.p c.f, aon := { q.aon with wayFails := c.fails } } c.out) = u := by
      simp only [hdie, hp, hout, Paddock.offer_nil, u]
    unfold State.putFc
    simp only [hu]
    refine State.Frame.foldl ?_ _ _ fun v a hv => hv.hurdleAct _ _ _
    have hfile (l : List Report) (hl : ∀ r ∈ l, r.fromFold = some (d, p)) (v : State) (hv : u.Frame (Paddock.beside p) v) :
        u.Frame (Paddock.beside p) (v.fileAll c.die l) := by
      induction l generalizing v with
      | nil => exact hv
      | cons r l ih =>
        exact ih (fun x hx => hl x (List.mem_cons_of_mem _ hx)) _ (hv.fileFold _ d (hl r (List.mem_cons_self ..)))
    exact hfile c.reps hreps u (.refl _ u)
  have hpad := hframe.pads d
  have hbase : u.pad d = { s.pad d with folds := vset (s.pad d).folds p c.f, aon := { (s.pad d).aon with wayFails := c.fails } } :=
    State.pad_modPad_same ..
  rw [hbase] at hpad
  obtain ⟨hstream, hpad⟩ := Prod.mk.inj hpad
  obtain ⟨hgates, hpad⟩ := Prod.mk.inj hpad
  obtain ⟨hstiles, hfolds⟩ := Prod.mk.inj hpad
  refine ⟨hframe.tether, hstream, hgates, hstiles, ?_, fun n hn => ?_⟩
  · have := congrFun hfolds p
    simp only [if_true, vset_get_same] at this
    generalize ((s.putFc c).pad d).folds[p] = g at this ⊢
    refine ⟨g.ftHalt, ?_⟩
    have hg : g = { ({ g with ftHalt := false } : Fold) with ftHalt := g.ftHalt } := rfl
    rw [hg, this]
  · have := congrFun hfolds n
    simp only [if_neg hn] at this
    rw [this]
    exact vset_get_other _ _ _ _ hn
end

end Sys2Proof.Machine
end

section
/-!
Snoop answers, CompAck and data at a fold, and the statement O25 (02 R48, R67, 03 R79, R80, R86, R91, R96, 11 R292).
-/

namespace Sys2Proof.Machine

/-! ### Data that a commit or a snoop brings -/

section
variable {c : FC} {e : TTEntry}

/-- The step is abstracted first: unfolded, it would be run. -/
theorem FC.evs_succ (c : FC) (sel k : Nat) : c.evs sel (k + 1) = (c.ev sel).evs sel k := by
  delta FC.evs FC.evs._f
  generalize FC.ev = g
  rfl

theorem FC.evs_shape (c : FC) (sel k : Nat) : ∃ census, c.evs sel k = { c with f := { c.f with census := census } } := by
  induction k generalizing c with
  | zero =>
    have h : c.evs sel 0 = c := rfl
    exact ⟨c.f.census, h⟩
  | succ k ih =>
    obtain ⟨x, hx⟩ := FC.ev_shape c sel
    obtain ⟨y, hy⟩ := ih { c with f := { c.f with census := x } }
    exact ⟨y, by rw [FC.evs_succ, hx, hy]⟩

/-- A commit makes miss registers stale, and an entry that waited for one waits no more. -/
theorem FC.markStale_one (htt : c.f.tt = [e]) (l : Line) :
    ∃ mrs ms mr census, c.markStale l = { c with f := { c.f with mrs := mrs, tt := [{ e with ms := ms, mr := mr }], census := census } } := by
  let ids := (c.f.mrs.filter fun m => m.line == l && !m.stale && !m.scrub).flatMap fun m => m.atts
  have hone : ∃ ms mr, updateWhere (fun e : TTEntry => ids.contains e.idx && e.ms == MemSide.waiting)
      (fun e => { e with ms := .unneeded, mr := none }) c.f.tt = [{ e with ms := ms, mr := mr }] := by
    rw [htt]
    cases h : ids.contains e.idx && e.ms == MemSide.waiting with
    | true => exact ⟨_, _, updateWhere_one h⟩
    | false =>
      refine ⟨e.ms, e.mr, updateWhere_never fun x hx => ?_⟩
      rw [List.mem_singleton.1 hx]
      exact h
  obtain ⟨ms, mr, hone⟩ := hone
  let mrs := updateWhere (fun m : MissReg => m.line == l) (fun m => { m with stale := true, atts := [] }) c.f.mrs
  obtain ⟨k, hk⟩ := FC.evs_shape { c with f := { c.f with mrs := mrs, tt := [{ e with ms := ms, mr := mr }] } } 0x19
    (c.f.mrs.filter fun m => m.line == l && !m.stale && !m.scrub).length
  refine ⟨mrs, ms, mr, k, ?_⟩
  rw [← hk, ← hone]
  rfl

theorem FC.Upkeep.commit (c : FC) (l : Line) (d : LineData) (poison : Bool) (wpolicy : BitVec 2) (cls : Cls) (mp : Option (Nat × Nat)) :
    ((c.ev 0x1A).markStale l).Upkeep (c.commit l d poison wpolicy cls mp) := by
  unfold FC.commit
  generalize (c.ev 0x1A).markStale l = u
  simp only
  split
  · exact .millWrite ..
  · refine (FC.Upkeep.poolCheck u (poolSet l)).trans ?_
    generalize u.poolCheck (poolSet l) = v
    split
    · next w ph _ =>
      have hput : v.Upkeep { v with f := (v.f.pline (poolSet l) ph (poolTag l) d (wpolicy == 0) poison).ptouch (poolSet l) w } :=
        .setFold v ((Fold.core_ptouch ..).trans (Fold.core_pline ..))
      exact .ite hput (hput.trans (.memPush ..))
    · refine .ite (.memPush ..) ?_
      split
      · exact .memPush ..
      · have halloc := FC.Upkeep.poolAlloc v cls l (by assumption) d (wpolicy == 0) poison true
        exact .ite halloc (halloc.trans (.memPush ..))

theorem FC.Upkeep.commitMem (c : FC) (l : Line) (d : LineData) (poison : Bool) (cls : Cls) (mp : Option (Nat × Nat)) :
    ((c.ev 0x1A).markStale l).Upkeep (c.commitMem l d poison cls mp) := by
  unfold FC.commitMem
  cases mp with
  | none => exact .memPush ..
  | some slot => exact .millWrite ..

/-- Dirty data that comes for an entry is its line's from then on; a row without a commit of its own commits it (03 R86). -/
theorem FC.takeDirty_one {d : Die} {p : PFold} (htt : c.f.tt = [e]) (hl : c.Local d p) (hphase : e.phase = .snoop)
    (hms : e.ms = .waiting) (x : LineData) (poison : Bool) :
    ∃ ms mr, (c.takeDirty e.idx x poison).Local d p ∧ (ms = .unneeded ∨ ms = .waiting) ∧ (c.takeDirty e.idx x poison).f.tt =
      [{ e with lb := x, dirty := true, poison := poison, commit := !e.row.ownCommit, ms := ms, mr := mr }] := by
  let y : TTEntry := { e with lb := x, dirty := true, poison := poison, commit := false, ms := e.ms.superseded }
  have hy : (c.modEntry e.idx fun z => { z with
      lb := x, dirty := true, poison := poison, commit := false, ms := z.ms.superseded }).f.tt = [y] :=
    (congrArg (updateWhere _ _) htt).trans (updateWhere_one (by simp))
  have hly := hl.setFold (c.modEntry e.idx fun z => { z with
      lb := x, dirty := true, poison := poison, commit := false, ms := z.ms.superseded }).f
  change FC.Local (c.modEntry e.idx _) d p at hly
  unfold FC.takeDirty
  generalize (c.modEntry e.idx fun z => { z with
      lb := x, dirty := true, poison := poison, commit := false, ms := z.ms.superseded }) = u at *
  have hentry : u.entry e.idx = some y := FC.entry_one hy
  have hyphase : (y.phase != .orphan) = true := by rw [show y.phase = .snoop from hphase]; rfl
  simp only [hentry, hyphase, Bool.and_true]
  cases hown : e.row.ownCommit with
  | true =>
    have hown' : y.row.ownCommit = true := hown
    rw [if_pos hown']
    exact ⟨.waiting, e.mr, hly, .inr rfl, by rw [hy]; simp only [y, hms, MemSide.superseded, Bool.not_true]⟩
  | false =>
    have hown' : ¬y.row.ownCommit = true := by
      rw [Bool.not_eq_true]
      exact hown
    rw [if_neg hown']
    obtain ⟨k, hk⟩ := FC.ev_shape u 0x1A
    obtain ⟨mrs, ms, mr, census, hstale⟩ := FC.markStale_one (c := { u with f := { u.f with census := k } }) hy y.line
    have hup : ((u.ev 0x1A).markStale y.line).Upkeep
        (if y.row == .purge || y.row == .sweepPurge then u.commitMem y.line y.lb y.poison y.flit.cls y.mpSlot
          else u.commit y.line y.lb y.poison y.wpolicy y.flit.cls y.mpSlot) :=
      .ite (.commitMem ..) (.commit ..)
    unfold FC.commitLb
    generalize (if y.row == .purge || y.row == .sweepPurge then u.commitMem y.line y.lb y.poison y.flit.cls y.mpSlot
          else u.commit y.line y.lb y.poison y.wpolicy y.flit.cls y.mpSlot) = v at *
    rw [hk, hstale] at hup
    have hv : v.f.tt = [{ y with ms := ms, mr := mr }] := congrArg Fold.tt hup.core
    have hlv : v.Local d p := (hly.setFold _).upkeep hup
    refine ⟨.unneeded, none, hlv.setFold _, .inl rfl, ?_⟩
    exact (congrArg (updateWhere _ _) hv).trans (updateWhere_one (by simp [y]))

/-! ### A snoop answer at its entry -/

theorem FC.emDropPtr_shape (c : FC) (l : Line) (a : AgentId) : ∃ em, c.emDropPtr l a = { c with f := { c.f with em := em } } := by
  unfold FC.emDropPtr
  split
  · split
    · exact ⟨_, rfl⟩
    · exact FC.emSetState_shape ..
  · exact ⟨_, rfl⟩

theorem FC.tallySetState_shape (c : FC) (l : Line) (g : GateN) (st : BitVec 2) :
    ∃ tally, c.tallySetState l g st = { c with f := { c.f with tally := tally } } := by
  unfold FC.tallySetState
  generalize c.tallyHits l = hits
  generalize c.k.rowOfLine l = row
  induction hits generalizing c with
  | nil => exact ⟨_, rfl⟩
  | cons h hits ih =>
    rw [List.foldl_cons]
    split
    · obtain ⟨tally, ht⟩ := ih { c with f := c.f.tallyWrite h.g row h.w (tallyTag l) st }
      exact ⟨tally, ht⟩
    · exact ih c

/-- What the answer of an agent leaves of its entry. -/
def answered (c : FC) (r : RspFlit) (e : TTEntry) : TTEntry :=
  let wb := r.op == .snpAckWB
  let kept := !e.snpOp.invalidates && (if wb then r.state == .e else r.state != .i)
  { e with
    waits := e.waits.filter (fun x => x != .agent r.src)
    wbAcks := if wb then e.wbAcks + 1 else e.wbAcks
    dataAcks := if r.data && !wb then e.dataAcks + 1 else e.dataAcks
    keep := if kept && !c.localGate r.src then putBit e.keep (dieOf r.src).val true else e.keep
    remain := e.remain || kept }

/-- What an answer of an agent with nothing or less left does to the records of its copy. -/
theorem FC.answerRecords_shape (c : FC) (e : TTEntry) (r : RspFlit) (own kept drops : Bool) :
    ∃ f, (if c.localGate r.src then
        if own then c
        else if kept then (if e.snpOp == .share then c.tallySetState e.line (gateOf r.src) 1 else c)
        else c.tallySetState e.line (gateOf r.src) 0
      else if drops then c.emDropPtr e.line r.src
      else c) = { c with f := f } ∧ f.tt = c.f.tt := by
  have hsame : ∃ f, c = { c with f := f } ∧ f.tt = c.f.tt := ⟨c.f, rfl, rfl⟩
  have htally (st : BitVec 2) : ∃ f, c.tallySetState e.line (gateOf r.src) st = { c with f := f } ∧ f.tt = c.f.tt := by
    obtain ⟨tally, ht⟩ := FC.tallySetState_shape c e.line (gateOf r.src) st
    exact ⟨_, ht, rfl⟩
  split
  · split
    · exact hsame
    · split
      · split
        · exact htally 1
        · exact hsame
      · exact htally 0
  · split
    · obtain ⟨em, hem⟩ := FC.emDropPtr_shape c e.line r.src
      exact ⟨_, hem, rfl⟩
    · exact hsame

/-- An awaited agent's answer changes its entry, and the records of its copy (03 R91). -/
theorem FC.rowAck_shape {r : RspFlit} (htt : c.f.tt = [e]) (hin : SnpTarget.agent r.src ∈ e.waits) (hloc : localOf r.src ≠ 124) :
    ∃ f, c.rowAck e r = { c with f := f } ∧ f.tt = [answered c r e] := by
  have hmuster (d : Die) : (r.src == Machine.agent d 124) = false := by
    refine beq_eq_false_iff_ne.2 fun h => hloc ?_
    rw [h]
    exact localOf_agent d (by decide)
  have hrest (u : FC) (g : TTEntry → TTEntry) (hn : c.Noted u) (hg : g e = answered c r e) (own kept drops : Bool) :
      ∃ f, (if (u.modEntry e.idx g).localGate r.src then
          if own then u.modEntry e.idx g
          else if kept then
            (if e.snpOp == .share then (u.modEntry e.idx g).tallySetState e.line (gateOf r.src) 1 else u.modEntry e.idx g)
          else (u.modEntry e.idx g).tallySetState e.line (gateOf r.src) 0
        else if drops then (u.modEntry e.idx g).emDropPtr e.line r.src
        else u.modEntry e.idx g) = { c with f := f } ∧ f.tt = [answered c r e] := by
    obtain ⟨pred, census, tally, slot, rfl⟩ := hn
    obtain ⟨f, hf, hftt⟩ := FC.answerRecords_shape
      (FC.modEntry { c with f := { c.f with pred := pred, census := census, tally := tally, slotNow := slot } } e.idx g) e r own kept drops
    refine ⟨f, hf, hftt.trans ?_⟩
    rw [← hg]
    exact (congrArg (updateWhere _ _) htt).trans (updateWhere_one (by simp))
  unfold FC.rowAck
  rw [if_neg (by
    rw [Bool.not_eq_true, Bool.not_eq_false', List.any_eq_true]
    exact ⟨_, hin, by simp⟩)]
  refine hrest _ _ (.ite (.ev ..) (.ite (.ev ..) (.refl _))) ?_ _ _ _
  have hgate (u : FC) (hn : c.Noted u) : u.localGate r.src = c.localGate r.src := by
    obtain ⟨_, _, _, _, rfl⟩ := hn
    rfl
  unfold answered
  congr 1
  · refine List.filter_congr fun x _ => congrArg (!·) ?_
    cases x with
    | agent a => rw [Bool.eq_iff_iff, beq_iff_eq, beq_iff_eq, SnpTarget.agent.injEq]
    | muster d skip => exact hmuster d
    | probe g way => rfl
  · rw [hgate _ (.ite (.ev ..) (.ite (.ev ..) (.refl _)))]

/-! ### Answers, CompAck and data at the fold -/

theorem idx_of_txid {t : TxId} {i : TTIdx} (h : t.toNat = i.val) : (Fin.ofNat 512 (t.toNat % 512) : TTIdx) = i := by
  apply Fin.ext
  simp [h]

theorem FC.fixOf_row (c : FC) {t : TxId} {i : TTIdx} (h : t.toNat = i.val) : c.fixOf t = none := by
  have hlt := i.isLt
  rw [FC.fixOf, if_neg (by omega)]

/-- An answer that leaves its entry waiting for others (03 R91). -/
theorem FC.snpAnswer_one {r : RspFlit} (htt : c.f.tt = [e]) (hid : r.txid.toNat = e.idx.val) (he : e.AwaitsAnswers)
    (hin : SnpTarget.agent r.src ∈ e.waits) (hmore : ∃ x ∈ e.waits, x ≠ .agent r.src) (hloc : localOf r.src ≠ 124) :
    ∃ f, c.snpAnswer r = { c with f := f, atype := e.atype } ∧ f.tt = [answered c r e] := by
  have hlt := e.idx.isLt
  obtain ⟨f, hf, hftt⟩ := FC.rowAck_shape (c := { c with atype := e.atype }) htt hin hloc
  obtain ⟨x, hx, hne⟩ := hmore
  have hwaits : (answered { c with atype := e.atype } r e).waits ≠ [] :=
    List.ne_nil_of_mem (List.mem_filter.2 ⟨hx, bne_iff_ne.2 hne⟩)
  have hpump := FC.pump_snoops (c := { c with atype := e.atype, f := f }) hftt he.phase hwaits
    ⟨he.plain.2.1, he.plain.1, .inr (.inl he.memory), he.way⟩
  refine ⟨f, ?_, hftt⟩
  unfold FC.snpAnswer
  simp only [FC.fixOf_row c hid, idx_of_txid hid, FC.entry_one htt]
  rw [if_neg (by omega), hf]
  exact hpump

/-- Dirty data is its entry's line from then on (03 R86). -/
theorem FC.snpDataIn_one {d : Die} {p : PFold} {x : DatFlit} (htt : c.f.tt = [e]) (hl : c.Local d p)
    (hid : x.txid.toNat = e.idx.val) (he : e.AwaitsAnswers) (hwaits : e.waits ≠ []) (hsent : e.sent ≠ []) :
    ∃ ms mr, (c.snpDataIn x).Local d p ∧ (c.snpDataIn x).f.tt = [{ e with
      lb := x.payload, dirty := true, poison := x.poison, commit := !e.row.ownCommit, ms := ms, mr := mr
      dataGot := e.dataGot + 1 }] := by
  have hlt := e.idx.isLt
  obtain ⟨k, hk⟩ := FC.ev_shape { c with atype := e.atype } 0x24
  have hlk : FC.Local { c with atype := e.atype, f := { c.f with census := k } } d p := ⟨hl.place, hl.out, hl.reps⟩
  obtain ⟨ms, mr, hlocal, hms, hdirty⟩ := FC.takeDirty_one (e := e)
    (c := { c with atype := e.atype, f := { c.f with census := k } }) htt hlk he.phase he.memory x.payload x.poison
  have hsent' : e.sent.isEmpty = false := by cases h : e.sent <;> simp_all
  refine ⟨ms, mr, ?_⟩
  have hin : c.snpDataIn x = (FC.modEntry (FC.takeDirty { c with atype := e.atype, f := { c.f with census := k } } e.idx x.payload x.poison)
      e.idx fun y => { y with dataGot := y.dataGot + 1 }).pump := by
    unfold FC.snpDataIn
    simp only [FC.fixOf_row c hid, idx_of_txid hid, FC.entry_one htt]
    rw [if_neg (by omega), if_neg (by rw [hsent']; decide), hk]
  generalize FC.takeDirty { c with atype := e.atype, f := { c.f with census := k } } e.idx x.payload x.poison = u at *
  have htt' : (u.modEntry e.idx fun y => { y with dataGot := y.dataGot + 1 }).f.tt = [{ e with
      lb := x.payload, dirty := true, poison := x.poison, commit := !e.row.ownCommit, ms := ms, mr := mr
      dataGot := e.dataGot + 1 }] := (congrArg (updateWhere _ _) hdirty).trans (updateWhere_one (by simp))
  have hpump := FC.pump_snoops htt' he.phase hwaits ⟨he.plain.2.1, he.plain.1, hms.imp_right .inl, he.way⟩
  rw [hin, hpump]
  exact ⟨hlocal.setFold _, htt'⟩

/-- CompAck frees its entry (03 R80). -/
theorem FC.compAckIn_one {r : RspFlit} (htt : c.f.tt = [e]) (hid : r.txid.toNat = e.idx.val) (hphase : e.phase = .ackwait)
    (hsrc : e.flit.src = r.src) (hhead : c.f.ttHead.same = true) (htail : c.f.ttTail.same = true) :
    ∃ f, c.compAckIn r = { c with f := f } ∧ f.tt = [] ∧ f.pens = c.f.pens ∧ f.memQ = c.f.memQ := by
  obtain ⟨mrs, res, un, hfree, -⟩ := FC.free_one htt hhead htail
  unfold FC.compAckIn
  simp only [idx_of_txid hid, FC.entry_one htt, hphase, hsrc, beq_self_eq_true, Bool.and_self, if_true, hfree]
  exact ⟨_, FC.pump_idle rfl, rfl, rfl, rfl⟩
end

/-! ### The statement -/

section
variable {s : State} {d : Die} {a : Spot} {p : PFold}

theorem localOf_fold {x : AgentId} (h : isFold x = true) : localOf x ≠ 124 := by
  simp only [isFold, Bool.and_eq_true, decide_eq_true_eq] at h
  omega

/-- A fold that is clocked does its work where it stands. -/
theorem State.atFold_clocked (hat : s.FoldAt d a p) (g : FC → FC) :
    s.atFold d a g = s.putFc (g (s.fc d p)) := by
  have hungate : s.ungate d p = s := by
    rw [State.ungate, if_neg (by rw [hat.2]; decide)]
  simp only [State.atFold, hat.1, hungate, State.runFold]

/-- Taking a flit off the Stream leaves the fold as it stood. -/
theorem State.FoldAt.took (hat : s.FoldAt d a p) (net : Net) :
    (s.modStream d fun x => x.take net a).FoldAt d a p ∧
      (((s.modStream d fun x => x.take net a).fc d p).f = (s.pad d).folds[p]) := by
  refine ⟨⟨hat.1, ?_⟩, ?_⟩
  · rw [State.modStream, State.pad_modPad_same]
    exact hat.2
  · change ((s.modStream d fun x => x.take net a).pad d).folds[p] = _
    rw [State.modStream, State.pad_modPad_same]

/-- The fold as it takes a flit off the Stream. -/
def State.taking (s : State) (d : Die) (net : Net) (a : Spot) (p : PFold) : FC := (s.modStream d fun x => x.take net a).fc d p

/-- What a fold's work at a flit leaves: the flit is gone, the fold as its work left it, the rest as it was. -/
theorem State.FoldAt.works (hat : s.FoldAt d a p) {net : Net} {g : FC → FC} {c : FC} (hg : g (s.taking d net a p) = c)
    (h : c.Local d p) :
    ∃ t, (s.modStream d fun x => x.take net a).atFold d a g = t ∧ t.tether = s.tether ∧
      (t.pad d).stream = (s.pad d).stream.take net a ∧ (t.pad d).gates = (s.pad d).gates ∧
      (t.pad d).stiles = (s.pad d).stiles ∧ ((t.pad d).folds[p]).tt = c.f.tt ∧
      ∀ n, n ≠ p → (t.pad d).folds[n] = (s.pad d).folds[n] := by
  obtain ⟨htether, hstream, hgates, hstiles, ⟨halt, hfold⟩, hfolds⟩ :=
    State.putFc_local (s := s.modStream d fun x => x.take net a) h
  rw [State.modStream, State.pad_modPad_same] at hstream hgates hstiles
  refine ⟨_, (State.atFold_clocked (hat.took net).1 g).trans (congrArg _ hg), htether, hstream, hgates, hstiles, by rw [hfold],
    fun n hn => (hfolds n hn).trans ?_⟩
  rw [State.modStream, State.pad_modPad_same]
end

theorem answered_dataAcks {c : FC} {r : RspFlit} {e : TTEntry} (h : r.op = .snpAck ∨ r.op = .snpAckWB) :
    (answered c r e).dataAcks = e.dataAcks + (if r.op = .snpAck ∧ r.data = true then 1 else 0) := by
  obtain h | h := h
  · cases hdata : r.data <;> simp [answered, h, hdata]
  · simp [answered, h]

/-- No command changes the parameters or the queue (01 R16). -/
theorem exec_keeps {s t : State} {c : Instr} (h : exec c s = .next t) : t.krovol = s.krovol ∧ t.pending = s.pending := by
  obtain ⟨u, hu, hk, hp, -⟩ := commandsKeepParametersQueueAndTime c s
  obtain rfl := Host.Outcome.next.inj (h.symm.trans hu)
  exact ⟨hk, hp⟩

section
variable {s : State} {d : Die} {a : Spot}

theorem State.snpAnswerAt_fold {r : RspFlit} {op : RspOp} (hstands : s.Stands d .rsp a (.rsp r)) (hfold : isFold r.tgt = true)
    (hop : r.op = op) : s.snpAnswerAt d a true op =
      (s.modStream d fun x => x.take .rsp a).atFold d a fun c => c.snpAnswer r := by
  have hne : (localOf r.tgt == 124) = false := beq_eq_false_iff_ne.2 (localOf_fold hfold)
  simp [State.snpAnswerAt, show s.arrived d .rsp a true = _ from hstands, hop, hne, hfold]

theorem State.compAckAt_fold {r : RspFlit} (hstands : s.Stands d .rsp a (.rsp r)) (hfold : isFold r.tgt = true)
    (hop : r.op = .compAck) : s.compAckAt d a true =
      (s.modStream d fun x => x.take .rsp a).atFold d a fun c => c.compAckIn r := by
  simp [State.compAckAt, show s.arrived d .rsp a true = _ from hstands, hop, hfold]

theorem State.datAt_snpData {x : DatFlit} (hstands : s.Stands d .dat a (.dat x)) (hfold : isFold x.tgt = true)
    (hop : x.op = .snpData) : s.datAt d a true .snpData =
      (s.modStream d fun y => y.take .dat a).atFold d a fun c => c.snpDataIn x := by
  have hne : (localOf x.tgt == 124) = false := beq_eq_false_iff_ne.2 (localOf_fold hfold)
  simp [State.datAt, show s.arrived d .dat a true = _ from hstands, hop, hne, hfold]

theorem State.datAt_request {x : DatFlit} {op : DatOp} (hstands : s.Stands d .dat a (.dat x)) (hfold : isFold x.tgt = true)
    (hop : x.op = op) (hreq : op = .putData ∨ op = .pushData) : s.datAt d a true op =
      (s.modStream d fun y => y.take .dat a).atFold d a fun c => c.datIn x := by
  have hne : (localOf x.tgt == 124) = false := beq_eq_false_iff_ne.2 (localOf_fold hfold)
  obtain rfl | rfl := hreq <;> simp [State.datAt, show s.arrived d .dat a true = _ from hstands, hop, hne, hfold]
end

/-- Settles O25: answers and data change the one entry they are for. -/
theorem foldsTakeAnswersAndData : Obligations.FoldsTakeAnswersAndData := by
  unfold Obligations.FoldsTakeAnswersAndData
  refine ⟨fun s d a p e hat htt => ⟨fun r hstands hfold hid => ⟨fun he hin hmore hloc => ?_, fun hop hphase hsrc hhead htail => ?_⟩,
    fun x hstands hfold hop hid he hwaits hsent => ?_⟩, fun s d a p x hat hstands hfold c hc hop => ?_⟩
  · simp only
    intro c hc hop
    have hf := (hat.took .rsp).2
    obtain ⟨f, hanswer, hftt⟩ := FC.snpAnswer_one (c := s.taking d .rsp a p) (hf ▸ htt) hid he hin hmore hloc
    have hlocal : FC.Local { s.taking d .rsp a p with f := f, atype := e.atype } d p := ⟨⟨rfl, rfl⟩, rfl, fun _ hr => nomatch hr⟩
    obtain ⟨t, ht, htether, hstream, hgates, hstiles, hfolds, hrest⟩ := hat.works (g := fun c => c.snpAnswer r) hanswer hlocal
    have hexec : exec c.2 s = .next t := by
      rw [← ht]
      simp only [List.mem_cons, List.not_mem_nil, or_false] at hc
      obtain rfl | rfl := hc
      · change execSnpAck d a 0 s = _
        simp only [execSnpAck, State.wire_quiet, State.snpAnswerAt_fold hstands hfold hop]
      · change execSnpAckWB d a 0 s = _
        simp only [execSnpAckWB, State.wire_quiet, State.snpAnswerAt_fold hstands hfold hop]
    obtain ⟨hkrovol, hpending⟩ := exec_keeps hexec
    refine ⟨t, answered (s.taking d .rsp a p) r e, hexec, hkrovol, htether, hpending, hstream, hfolds.trans hftt, rfl, rfl, rfl, rfl, ?_,
      ?_, rfl, rfl, hrest, hgates, hstiles⟩
    · by_cases hwb : r.op = .snpAckWB <;> simp [answered, hwb]
    · refine answered_dataAcks ?_
      simp only [List.mem_cons, List.not_mem_nil, or_false] at hc
      obtain rfl | rfl := hc
      · exact .inl hop
      · exact .inr hop
  · have hf := (hat.took .rsp).2
    obtain ⟨f, hanswer, hftt, hpens, hmemQ⟩ := FC.compAckIn_one (c := s.taking d .rsp a p) (hf ▸ htt) hid hphase hsrc
      (by rw [State.taking, hf]; exact hhead) (by rw [State.taking, hf]; exact htail)
    have hexec : exec (.compAck d a 0) s = .next ((s.modStream d fun x => x.take .rsp a).modFold d p fun _ => f) := by
      change execCompAck d a 0 s = _
      simp only [execCompAck, State.wire_quiet, State.compAckAt_fold hstands hfold hop, State.atFold_clocked (hat.took .rsp).1]
      rw [show (((s.modStream d fun x => x.take .rsp a).fc d p).compAckIn r) = _ from hanswer, State.putFc_silent rfl rfl rfl rfl]
      rfl
    refine ⟨_, hexec, ((State.OnlyPad.refl s d).modPad _).modPad _, ?_⟩
    rw [State.modFold, State.pad_modPad_same, State.modStream, State.pad_modPad_same]
    have hp : (vmod (s.pad d).folds p fun _ => f)[p] = f := vset_get_same ..
    rw [State.taking, hf] at hpens hmemQ
    refine ⟨?_, rfl, ?_, ?_, fun n hn => vset_get_other _ _ _ _ hn⟩
    · exact (congrArg Fold.tt hp).trans hftt
    · exact (congrArg Fold.pens hp).trans hpens
    · exact (congrArg Fold.memQ hp).trans hmemQ
  · have hf := (hat.took .dat).2
    have hlocal : (s.taking d .dat a p).Local d p := ⟨⟨rfl, rfl⟩, rfl, fun _ hr => nomatch hr⟩
    obtain ⟨ms, mr, hlocal', htt'⟩ := FC.snpDataIn_one (c := s.taking d .dat a p) (hf ▸ htt) hlocal hid he hwaits hsent
    obtain ⟨t, ht, htether, hstream, -, -, hfolds, hrest⟩ := hat.works (g := fun c => c.snpDataIn x) rfl hlocal'
    have hexec : exec (.snpData d a 0) s = .next t := by
      rw [← ht]
      change execSnpData d a 0 s = _
      simp only [execSnpData, State.wire_quiet, State.datAt_snpData hstands hfold hop]
    obtain ⟨hkrovol, hpending⟩ := exec_keeps hexec
    exact ⟨t, _, hexec, hkrovol, htether, hpending, hstream, hfolds.trans htt', rfl, rfl, rfl, rfl, rfl, rfl,
      fun hown => by simp [hown], fun hown => by simp [hown], hrest⟩
  · have hf := (hat.took .dat).2
    have hexec (hreq : c.1 = .putData ∨ c.1 = .pushData) : exec c.2 s = .next ((s.modStream d fun y => y.take .dat a).putFc
        (((s.modStream d fun y => y.take .dat a).fc d p).datIn x)) := by
      rw [← State.atFold_clocked (hat.took .dat).1 (fun c => c.datIn x), ← State.datAt_request hstands hfold hop hreq]
      simp only [List.mem_cons, List.not_mem_nil, or_false] at hc
      obtain rfl | rfl := hc
      · change execPutData d a 0 s = _
        simp only [execPutData, State.wire_quiet]
      · change execPushData d a 0 s = _
        simp only [execPushData, State.wire_quiet]
    have hreq : c.1 = .putData ∨ c.1 = .pushData := by
      simp only [List.mem_cons, List.not_mem_nil, or_false] at hc
      obtain rfl | rfl := hc
      · exact .inl rfl
      · exact .inr rfl
    refine ⟨fun hdead => ?_, fun hdead => ?_⟩ <;> rw [← hf] at hdead <;> rw [hexec hreq, FC.datIn, hdead] <;>
      refine congrArg Host.Outcome.next ?_
    · rw [if_neg (by decide), State.putFc_silent rfl rfl rfl rfl]
      exact State.modFold_congr rfl
    · rw [if_pos rfl, State.putFc_silent rfl rfl rfl rfl]
      exact State.modFold_congr rfl

end Sys2Proof.Machine
end

section
/-!
The memory port of a fold, and the statement O26 (03 R88, R94, R95, 06 R149, R154, 19 R510 to R513).
-/

namespace Sys2Proof.Machine

/-! ### What the port does next -/

section
variable {f : Fold} {pre rest : List MemReq} {m w : MemReq} {x : MemNext}

/-- A request goes with a credit of its kind, or is a read answered from a line write queued before it. -/
def Fold.MayGo (f : Fold) : MemNext → Prop
  | .issue m => m ∈ f.memQ ∧ f.memCredit m.op = true
  | .answer m w => m ∈ f.memQ ∧ w ∈ f.memQ ∧ m.op = .lineRead ∧ w.op = .lineWrite ∧ w.line = m.line

theorem Fold.mayGo_of_memCan (hm : m ∈ f.memQ) (hpre : ∀ y ∈ pre, y ∈ f.memQ) (h : f.memCan pre m = some x) : f.MayGo x := by
  unfold Fold.memCan at h
  split at h
  · exact nomatch h
  · split at h
    next w hlast =>
      have hmem := List.mem_of_getLast? hlast
      obtain ⟨hin, hcond⟩ := List.mem_filter.1 hmem
      simp only [Bool.and_eq_true, beq_iff_eq] at hcond
      split at h
      next hops =>
        simp only [Bool.and_eq_true, beq_iff_eq] at hops
        obtain rfl := Option.some.inj h
        exact ⟨hm, hpre w hin, hops.1, hops.2, hcond.2⟩
      · exact nomatch h
    next =>
      split at h
      next hcredit =>
        obtain rfl := Option.some.inj h
        exact ⟨hm, hcredit⟩
      · exact nomatch h

theorem Fold.mayGo_of_memOfClass {c : Cls} (hq : ∀ y ∈ pre ++ rest, y ∈ f.memQ) (h : f.memOfClass c pre rest = some x) :
    f.MayGo x := by
  induction rest generalizing pre with
  | nil => exact nomatch h
  | cons m rest ih =>
    rw [Fold.memOfClass] at h
    split at h
    next y hy =>
      obtain rfl := Option.some.inj h
      split at hy
      · exact Fold.mayGo_of_memCan (hq m (by simp)) (fun z hz => hq z (by simp [hz])) hy
      · exact nomatch hy
    next => exact ih (fun z hz => hq z (by simpa using hz)) h

theorem Fold.mayGo_of_nextMem (h : f.nextMem = some x) : f.MayGo x := by
  obtain ⟨c, -, hc⟩ := List.exists_of_findSome?_eq_some h
  exact Fold.mayGo_of_memOfClass (pre := []) (fun y hy => hy) hc

theorem Fold.freeTag_unused {t : MemTag} (h : f.freeTag = some t) : ∀ x ∈ f.mpOpen, x.1 ≠ t := by
  obtain ⟨i, hi, rfl⟩ := Option.map_eq_some_iff.1 h
  have hlt : i < 512 := List.mem_range.1 (List.mem_of_find?_eq_some hi)
  have hfree := List.find?_some hi
  intro y hy heq
  simp only [Bool.not_eq_true', List.any_eq_false, beq_iff_eq] at hfree
  refine hfree y hy ?_
  rw [heq, BitVec.toNat_ofNat, Nat.mod_eq_of_lt hlt]
end

/-! ### Read data -/

section
variable {c : FC} {e : TTEntry} {r : MissReg}

theorem FC.Upkeep.fill (c : FC) (l : Line) (d : LineData) (wpolicy : BitVec 2) (cls : Cls) (touch : Bool) :
    c.Upkeep (c.fill l d wpolicy cls touch) := by
  unfold FC.fill
  refine .ite (.refl c) (.ite (.poolCheck ..) ?_)
  split
  · exact .poolCheck ..
  · exact (FC.Upkeep.poolCheck ..).trans (.poolAlloc ..)

/-- Data of a miss register with one transaction is held by it; the register is free (06 R149). -/
theorem FC.missData_one {d : Die} {p : PFold} (htt : c.f.tt = [e]) (hmrs : c.f.mrs = [r]) (hl : c.Local d p)
    (hr : r.stale = false ∧ r.scrub = false ∧ r.rider = none ∧ r.atts = [e.idx]) (he : e.AwaitsAnswers) (hwaits : e.waits ≠ [])
    (hdirty : e.couldDirty = true) (hlost : FC.setLost { c with atype := e.atype } r = false) (x : LineData) (bad : Bool) :
    (c.missData r x bad).Local d p ∧
      (c.missData r x bad).f.core = { c.f.core with tt := [{ e with ms := .held x bad, mr := none }], mrs := [] } := by
  obtain ⟨hstale, hscrub, hrider, hatts⟩ := hr
  have htype : c.mrAtype r = e.atype := by
    simp [FC.mrAtype, hatts, hrider, FC.entry_one htt]
  have hride (u : FC) : u.ridePoison r x = u := by simp [FC.ridePoison, hrider]
  have hcheck : FC.Upkeep c (if r.wpolicy == 2 then { c with atype := e.atype } else FC.poolCheck { c with atype := e.atype } (poolSet r.line)) :=
    .trans (.setType c e.atype) (.ite (.refl _) (.poolCheck ..))
  unfold FC.setLost at hlost
  unfold FC.missData
  simp only [hstale, hscrub, Bool.false_eq_true, if_false, htype, hride, ite_self]
  generalize (if r.wpolicy == 2 then { c with atype := e.atype } else FC.poolCheck { c with atype := e.atype } (poolSet r.line)) = u at *
  have hutt : u.f.tt = [e] := (congrArg Fold.tt hcheck.core).trans htt
  have humrs : u.f.mrs = [r] := (congrArg Fold.mrs hcheck.core).trans hmrs
  have hheld : updateWhere (fun y : TTEntry => r.atts.contains y.idx && y.ms == .waiting)
      (fun y => { y with ms := .held x bad, mr := none }) u.f.tt = [{ e with ms := .held x bad, mr := none }] := by
    rw [hutt, updateWhere_one (by simp [hatts, he.memory])]
  simp only [hlost, Bool.or_false, hheld]
  have hfill : FC.Upkeep { u with f := { u.f with tt := [{ e with ms := .held x bad, mr := none }] } }
      (if bad || r.noWrite then { u with f := { u.f with tt := [{ e with ms := .held x bad, mr := none }] } }
        else FC.fill { u with f := { u.f with tt := [{ e with ms := .held x bad, mr := none }] } } r.line x r.wpolicy r.cls r.touch) :=
    .ite (.refl _) (.fill ..)
  generalize (if bad || r.noWrite then { u with f := { u.f with tt := [{ e with ms := .held x bad, mr := none }] } }
        else FC.fill { u with f := { u.f with tt := [{ e with ms := .held x bad, mr := none }] } } r.line x r.wpolicy r.cls r.touch)
    = v at *
  have hvtt : v.f.tt = [{ e with ms := .held x bad, mr := none }] := congrArg Fold.tt hfill.core
  have hvmrs : v.f.mrs.filter (fun y => y.idx ≠ r.idx) = [] := by
    rw [show v.f.mrs = [r] from (congrArg Fold.mrs hfill.core).trans humrs]
    simp
  have hfree : v.freeMissReg r = { v with f := { v.f with mrs := [] } } := by
    simp only [FC.freeMissReg, hrider, hvmrs]
    exact FC.pump_snoops hvtt he.phase hwaits ⟨he.plain.2.1, he.plain.1, .inr (.inr ⟨⟨x, bad, rfl⟩, hdirty⟩), he.way⟩
  rw [hfree]
  have hlocal : v.Local d p := ((hl.upkeep hcheck).setFold _).upkeep hfill
  refine ⟨hlocal.setFold _, ?_⟩
  have hcore : Fold.core { v.f with mrs := [] } = { v.f.core with mrs := [] } := rfl
  rw [hcore, hfill.core, ← hcheck.core]
  rfl
end

section
variable {c : FC} {e : TTEntry} {r : MissReg}

/-- A read's data goes to the miss register that asked for it. -/
theorem FC.readDone_one {m : MemReq} (hm : m.purpose = .mr r.idx) (hmrs : c.f.mrs = [r]) (x : LineData) (bad : Bool) :
    c.readDone m x bad = c.missData r x bad := by
  simp [FC.readDone, hm, hmrs]

theorem FC.closeTag_one {tag : MemTag} {m : MemReq} (hopen : c.f.mpOpen = [(tag, m)]) :
    c.closeTag tag m.op.isWrite = some ({ c with f := { c.f with mpOpen := [] } }, m) := by
  simp only [FC.closeTag, hopen]
  rw [takeFirst_one (by simp)]

/-- A device request's answer frees its entry (03 R94). -/
theorem FC.devDone_one (htt : c.f.tt = [e]) (hhead : c.f.ttHead.same = true) (htail : c.f.ttTail.same = true)
    (x : LineData) (bad : Bool) :
    ∃ f, c.devDone e.idx (some x) bad = { (if bad then c.err e.flit 3
        else (c.dataToReq e.flit (keepBytes x (offOf e.flit.addr) e.flit.len.toNat) false).comp e .i true) with f := f } ∧
      f.tt = [] ∧ f.mpOpen = c.f.mpOpen := by
  have hfree (u : FC) (hu : u.f = c.f) : ∃ f, (u.free e.idx).pump = { u with f := f } ∧ f.tt = [] ∧ f.mpOpen = c.f.mpOpen := by
    obtain ⟨mrs, res, un, hfree, -⟩ := FC.free_one (c := u) (hu ▸ htt) (hu ▸ hhead) (hu ▸ htail)
    rw [hfree]
    exact ⟨_, FC.pump_idle rfl, rfl, by rw [hu]⟩
  simp only [FC.devDone, FC.entry_one htt]
  refine hfree _ ?_
  split <;> rfl
end

/-! ### The statement -/

section
variable {s : State} {d : Die} {p : PFold}

/-- A fold that changes itself alone. -/
theorem State.runFold_self {g : FC → FC} {f : Fold} (hg : g (s.fc d p) = { s.fc d p with f := f }) :
    s.runFold d p g = s.modFold d p fun _ => f := by
  rw [State.runFold, hg]
  exact State.putFc_silent rfl rfl rfl rfl

/-- What the fold's work on read data leaves: the transaction holds the data, the register is free, and no flit goes out. -/
theorem State.runFold_missData {g : FC → FC} {c : FC} {e : TTEntry} {r : MissReg} {x : LineData} {bad : Bool}
    (hg : g (s.fc d p) = c.missData r x bad) (hl : c.Local d p) (htt : c.f.tt = [e]) (hmrs : c.f.mrs = [r])
    (hr : r.stale = false ∧ r.scrub = false ∧ r.rider = none ∧ r.atts = [e.idx]) (he : e.AwaitsAnswers) (hwaits : e.waits ≠ [])
    (hdirty : e.couldDirty = true) (hlost : FC.setLost { c with atype := e.atype } r = false) :
    let t := s.runFold d p g
    ((t.pad d).folds[p]).tt = [{ e with ms := .held x bad, mr := none }] ∧ ((t.pad d).folds[p]).mrs = [] ∧
      ((t.pad d).folds[p]).mpOpen = c.f.mpOpen ∧ ((t.pad d).folds[p]).wcred = c.f.wcred ∧
      ((t.pad d).folds[p]).rcred = c.f.rcred ∧ (t.pad d).stream = (s.pad d).stream ∧
      ∀ k, k ≠ p → (t.pad d).folds[k] = (s.pad d).folds[k] := by
  obtain ⟨hlocal, hcore⟩ := FC.missData_one htt hmrs hl hr he hwaits hdirty hlost x bad
  obtain ⟨-, hstream, -, -, ⟨halt, hfold⟩, hrest⟩ := State.putFc_local (s := s) hlocal
  simp only [State.runFold, hg]
  rw [hfold]
  have hopen := congrArg Fold.mpOpen hcore
  have hwcred := congrArg Fold.wcred hcore
  have hrcred := congrArg Fold.rcred hcore
  exact ⟨congrArg Fold.tt hcore, congrArg Fold.mrs hcore, hopen, hwcred, hrcred, hstream, hrest⟩

theorem State.memIssue_runs (hrun : (s.pad d).foldRuns p = true) (hcarry : ((s.pad d).repl.carries d p).isSome = true) :
    exec (.memoryRequestIssue d p) s = .next (s.runFold d p FC.memIssue) := by
  refine congrArg Host.Outcome.next (if_pos ?_)
  rw [hrun]
  exact hcarry

theorem State.readData_runs {n : LFold} (hport : (s.pad d).repl.pfoldOf d n = some p) (hrun : (s.pad d).portRuns p = true)
    (tag : MemTag) (x : LineData) (poison err : Bool) : exec (.memoryReadData d n tag x poison err) s =
      .next (s.runFold d p fun c => c.readData tag x (poison || err)) := by
  change execMemoryReadData d n tag x poison err s = _
  simp only [execMemoryReadData, State.portFold, hport, hrun, if_true]

theorem State.writeAck_runs {n : LFold} (hport : (s.pad d).repl.pfoldOf d n = some p) (hrun : (s.pad d).portRuns p = true)
    (tag : MemTag) (err : Bool) : exec (.memoryWriteResponse d n tag err) s =
      .next (s.runFold d p fun c => c.writeAck tag err) := by
  change execMemoryWriteResponse d n tag err s = _
  simp only [execMemoryWriteResponse, State.portFold, hport, hrun, if_true]

/-- A write that is no Eddy entry's carries its own data. -/
theorem FC.writeData_own {c : FC} {m : MemReq} (h : m.purpose ≠ .eddy) : c.writeData m = (c, m.data, m.poison) := by
  have hne : (m.purpose == .eddy) = false := beq_eq_false_iff_ne.2 h
  simp [FC.writeData, hne]

/-- The port's request goes out under a free tag, its credit spent (19 R510, R511). -/
theorem FC.issueReq_given {c : FC} {m : MemReq} {t : MemTag} {x : LineData} {poison : Bool}
    (hdata : c.writeData m = (c, x, poison)) : c.issueReq m t = { c with f := { c.f with
      memQ := c.f.memQ.erase m, memFrom := c.cyc + 1, mwd := c.f.mwd ++ m.beats x
      mpOpen := c.f.mpOpen ++ [(t, { m with data := x, poison := poison })]
      wcred := if m.op.isWrite then c.f.wcred - 1 else c.f.wcred
      rcred := if m.op.isWrite then c.f.rcred else c.f.rcred - 1 } } := by
  simp only [FC.issueReq, hdata]
  split <;> rfl

/-- A fold that changes itself and sends. -/
theorem State.runFold_sends {g : FC → FC} {f : Fold} {out : List InjItem}
    (hg : g (s.fc d p) = { s.fc d p with f := f, out := out }) :
    let t := s.runFold d p g
    s.OnlyPad t d ∧ (t.pad d).folds[p] = f ∧
      (t.pad d).stream.inj = (s.pad d).stream.inj ++ out.map (fun i => { i with held := bitAt (s.pad d).ebb.fenceReq i.pos }) ∧
      ∀ k, k ≠ p → (t.pad d).folds[k] = (s.pad d).folds[k] := by
  simp only [State.runFold_plain hg rfl ⟨rfl, fun r hr => nomatch hr⟩]
  refine ⟨(State.OnlyPad.refl s d).modPad _, ?_⟩
  simp only [State.pad_modPad_same]
  exact ⟨Paddock.worked_fold (s.pad d) { s.fc d p with f := f, out := out }, rfl, fun k hk => Paddock.worked_folds _ _ hk⟩

/-- What a device's answer leaves: its entry is free, the port's request closed, and what was sent stands at the ford. -/
theorem State.runFold_devDone {g : FC → FC} {e : TTEntry} {x : LineData} {bad : Bool}
    (hg : g (s.fc d p) = FC.devDone { s.fc d p with f := { (s.pad d).folds[p] with mpOpen := [] } } e.idx (some x) bad)
    (htt : ((s.pad d).folds[p]).tt = [e]) (hhead : ((s.pad d).folds[p]).ttHead.same = true)
    (htail : ((s.pad d).folds[p]).ttTail.same = true) :
    let t := s.runFold d p g
    s.OnlyPad t d ∧ ((t.pad d).folds[p]).tt = [] ∧ ((t.pad d).folds[p]).mpOpen = [] ∧
      (t.pad d).stream.inj = (s.pad d).stream.inj ++ (if bad then
        [s.foldAnswer d p e.flit { op := .err, src := (s.fc d p).agent, tgt := e.flit.src, txid := e.flit.txid, ecode := 3 }]
      else [s.foldSends d p .dat e.flit.cls
          (.dat { op := .dataToReq, src := (s.fc d p).agent, tgt := e.flit.src, txid := e.flit.txid
                  payload := keepBytes x (offOf e.flit.addr) e.flit.len.toNat }),
        s.foldAnswer d p e.flit (s.compOf d p e.flit .i true e.idx)]) ∧
      ∀ k, k ≠ p → (t.pad d).folds[k] = (s.pad d).folds[k] := by
  obtain ⟨f, hdone, hftt, hfopen⟩ := FC.devDone_one
    (c := { s.fc d p with f := { (s.pad d).folds[p] with mpOpen := [] } }) htt hhead htail x bad
  rw [hdone] at hg
  cases bad with
  | true =>
    obtain ⟨honly, hfold, hinj, hrest⟩ := State.runFold_sends (f := f) hg
    exact ⟨honly, by rw [hfold, hftt], by rw [hfold, hfopen], hinj, hrest⟩
  | false =>
    obtain ⟨honly, hfold, hinj, hrest⟩ := State.runFold_sends (f := f) hg
    exact ⟨honly, by rw [hfold, hftt], by rw [hfold, hfopen], hinj, hrest⟩

end

/-- Settles O26: the port's next request is found by `nextMem`; what comes back finds the one request that is open. -/
theorem memoryPortServesTheFold : Obligations.MemoryPortServesTheFold := by
  unfold Obligations.MemoryPortServesTheFold
  intro s d p n
  refine ⟨fun m t x poison hrun hcarry hnext htag hdata => ?_,
    fun m w r e x poison hrun hcarry hnext hdata hm hmrs hstale hscrub hrider hatts htt he hwaits hdirty hlost => ?_,
    fun hport => ⟨fun write => ?_, fun hrun => ⟨fun tag m x err hopen hop hm heddy hline htt => ?_,
      fun tag m e data poison err hopen hop hm htt hhead htail => ?_,
      fun tag m r e data poison err hopen hop hm hmrs hstale hscrub hrider hatts htt he hwaits hdirty hlost => ?_⟩⟩⟩
  · obtain ⟨hin, hcredit⟩ := Fold.mayGo_of_nextMem hnext
    have hissue : (s.fc d p).memIssue =
        if ((s.pad d).folds[p]).memFrom ≤ (s.pad d).aon.hcycle then (s.fc d p).issueReq m t else s.fc d p := by
      simp only [FC.memIssue, show (s.fc d p).f.nextMem = _ from hnext, show (s.fc d p).f.freeTag = _ from htag]
      rfl
    refine ⟨fun hown => ?_, Fold.freeTag_unused htag, hin, ?_, fun hlate => ?_, fun hnow => ?_⟩
    · have := (FC.writeData_own hown).symm.trans hdata
      simp only [Prod.mk.injEq, true_and] at this
      exact ⟨this.1.symm, this.2.symm⟩
    · unfold Fold.memCredit at hcredit
      split at hcredit
      next hw => rw [if_pos hw]; exact of_decide_eq_true hcredit
      next hw => rw [if_neg hw]; exact of_decide_eq_true hcredit
    · rw [if_neg (by omega)] at hissue
      rw [State.memIssue_runs hrun hcarry, State.runFold_self hissue]
      exact congrArg Host.Outcome.next (State.modPad_eq_self _ _ _ (by rw [vmod_eq_self]; rfl))
    · rw [if_pos hnow, FC.issueReq_given hdata] at hissue
      rw [State.memIssue_runs hrun hcarry, State.runFold_self hissue]
      exact congrArg Host.Outcome.next (State.modFold_congr rfl)
  · obtain ⟨hin, hwin, -, hop, hline⟩ := Fold.mayGo_of_nextMem hnext
    have hexec := State.memIssue_runs hrun hcarry
    have hissue : (s.fc d p).memIssue = FC.missData
        { s.fc d p with f := { (s.pad d).folds[p] with memQ := ((s.pad d).folds[p]).memQ.erase m } } r x poison := by
      simp only [FC.memIssue, show (s.fc d p).f.nextMem = _ from hnext, hdata]
      exact FC.readDone_one hm hmrs x poison
    obtain ⟨hkrovol, hpending⟩ := exec_keeps hexec
    exact ⟨hin, hwin, hop, hline, _, hexec, hkrovol, hpending,
      State.runFold_missData hissue ((FC.Local.fc s d p).setFold _) htt hmrs ⟨hstale, hscrub, hrider, hatts⟩ he hwaits hdirty hlost⟩
  · change execMemoryCreditReturn d n write s = _
    simp only [execMemoryCreditReturn, State.portFold, hport]
  · have hack : (s.fc d p).writeAck tag err = { s.fc d p with f := { (s.pad d).folds[p] with mpOpen := [], eddy := [] } } := by
      have hclose := FC.closeTag_one (c := s.fc d p) hopen
      rw [hop] at hclose
      simp only [FC.writeAck, show (s.fc d p).closeTag tag true = _ from hclose, hm]
      rw [show ({ (s.fc d p).f with mpOpen := [] } : Fold).eddy = [x] from heddy, takeFirst_one (by simp [hline])]
      exact FC.pump_idle htt
    rw [State.writeAck_runs hport hrun, State.runFold_self hack]
    exact congrArg Host.Outcome.next (State.modFold_congr rfl)
  · have hread : (s.fc d p).readData tag data (poison || err) =
        FC.devDone { s.fc d p with f := { (s.pad d).folds[p] with mpOpen := [] } } e.idx (some data) (poison || err) := by
      have hclose := FC.closeTag_one (c := s.fc d p) hopen
      rw [hop] at hclose
      simp only [FC.readData, show (s.fc d p).closeTag tag false = _ from hclose, FC.readDone, hm]
      rfl
    obtain ⟨honly, htt', hopen', hinj, hrest⟩ :=
      State.runFold_devDone (g := fun c => c.readData tag data (poison || err)) hread htt hhead htail
    refine ⟨_, State.readData_runs hport hrun tag data poison err, honly, htt', hopen', fun hp he => ?_, fun hbad => ?_, hrest⟩
    · rw [hinj, if_neg (by simp [hp, he])]
    · rw [hinj, if_pos (by simpa using hbad)]
  · have hexec := State.readData_runs hport hrun tag data poison err
    have hread : (s.fc d p).readData tag data (poison || err) =
        FC.missData { s.fc d p with f := { (s.pad d).folds[p] with mpOpen := [] } } r data (poison || err) := by
      have hclose := FC.closeTag_one (c := s.fc d p) hopen
      rw [hop] at hclose
      simp only [FC.readData, show (s.fc d p).closeTag tag false = _ from hclose]
      exact FC.readDone_one hm hmrs data _
    obtain ⟨hkrovol, hpending⟩ := exec_keeps hexec
    obtain ⟨htt', hmrs', hopen', -, -, hrest⟩ := State.runFold_missData (g := fun c => c.readData tag data (poison || err)) hread
      ((FC.Local.fc s d p).setFold _) htt hmrs ⟨hstale, hscrub, hrider, hatts⟩ he hwaits hdirty hlost
    exact ⟨_, hexec, hkrovol, hpending, htt', hmrs', hopen', hrest⟩

end Sys2Proof.Machine
end

section
/-!
Nightfold's points, and the statement O46 (14 R378, R379, 15 R401, R417).
-/

namespace Sys2Proof.Machine

/-! ### What commands leave alone as they end -/

/-- What of a paddock says where Nightfold stands, and whose Range it is. -/
def Paddock.night (q : Paddock) : NfPhase × BitVec 3 × BitVec 8 := (q.ebb.nf, q.aon.nfLastAbort, q.repl.present)

/-- From `s` to `t` commands may have ended and folds been switched: no command began, and Nightfold stands where it stood. -/
structure State.Winds (s t : State) : Prop where
  frame : s.Frame Paddock.night t
  deferred : ∀ x, (t.pad x).shep.deferred ⊆ (s.pad x).shep.deferred

section
variable {s t u : State}

theorem State.Winds.refl (s : State) : s.Winds s := ⟨.refl _ s, fun _ _ h => h⟩

theorem State.Winds.trans (h : s.Winds t) (g : t.Winds u) : s.Winds u :=
  ⟨h.frame.trans g.frame, fun x _ ho => h.deferred x (g.deferred x ho)⟩

theorem State.Winds.ite {c : Prop} [Decidable c] (ht : s.Winds t) (hu : s.Winds u) : s.Winds (if c then t else u) := by
  split
  · exact ht
  · exact hu

theorem State.Winds.foldl {β : Type} (f : State → β → State) (l : List β) (hf : ∀ u x, s.Winds u → s.Winds (f u x))
    (h : s.Winds t) : s.Winds (l.foldl f t) := by
  induction l generalizing t with
  | nil => exact h
  | cons x l ih => exact ih (hf t x h)

theorem State.Winds.of_frame (h : s.Frame (fun q => (q.night, q.shep.deferred)) t) : s.Winds t := by
  refine ⟨⟨h.tether, h.fresh, fun x => (Prod.mk.inj (h.pads x)).1⟩, fun x o ho => ?_⟩
  rw [← show _ = _ from (Prod.mk.inj (h.pads x)).2]
  exact ho

theorem State.Winds.modPad (h : s.Winds t) (d : Die) (f : Paddock → Paddock) (hf : ∀ q, (f q).night = q.night)
    (hdef : ∀ q, (f q).shep.deferred = q.shep.deferred) : s.Winds (t.modPad d f) :=
  h.trans (.of_frame ((State.Frame.refl _ t).modPad d f fun q => Prod.ext (hf q) (hdef q)))

theorem takeFirst_subset {α : Type} {f : α → Bool} {l rest : List α} {x : α} (h : takeFirst f l = some (x, rest)) : rest ⊆ l := by
  induction l generalizing x rest with
  | nil => exact nomatch h
  | cons a l ih =>
    rw [takeFirst] at h
    split at h
    · obtain ⟨-, rfl⟩ := Prod.mk.inj (Option.some.inj h)
      exact List.subset_cons_self a l
    · split at h
      next y r hr =>
        obtain ⟨-, rfl⟩ := Prod.mk.inj (Option.some.inj h)
        exact List.cons_subset_cons a (ih hr)
      next => exact nomatch h

theorem State.Winds.modRq (h : s.Winds t) (d : Die) (q : QN) (f : ReplyQueue → ReplyQueue) : s.Winds (t.modRq d q f) :=
  h.modPad d _ (fun _ => rfl) fun _ => rfl

theorem State.Winds.answer (h : s.Winds t) (d : Die) (k : Taken) (st : Status) (data : List Word) (first : Bool) :
    s.Winds (t.answer d k st data first) := by
  have hcheck (u : State) (hu : s.Winds u) (q : QN) : s.Winds (u.rqCheck d q) := by
    refine .ite hu (.modRq ?_ d q _)
    refine (hu.modRq d q fun y => { y.flush with held := [] }).trans (.of_frame ?_)
    exact (State.Frame.refl _ _).file (fun _ _ => rfl) d rfl
  have hfirst : s.Winds (if first then t.modCq d k.q fun x => { x with busyFirst := false } else t) :=
    .ite (h.modPad d _ (fun _ => rfl) fun _ => rfl) h
  exact .ite hfirst (.modRq (hcheck _ hfirst k.q) d k.q _)

theorem State.Winds.finish (h : s.Winds t) (d : Die) (id : Nat) (st : Status) (data : List Word) : s.Winds (t.finish d id st data) := by
  unfold State.finish
  split
  · exact h
  next o rest htake =>
    have hrest : t.Winds (t.modShep d fun x => { x with deferred := rest }) := by
      refine ⟨(State.Frame.refl _ t).modPad d (fun q => { q with shep := { q.shep with deferred := rest } }) fun _ => rfl, fun x => ?_⟩
      rw [State.modShep, State.pad_modPad]
      split
      next hx =>
        rw [hx]
        exact takeFirst_subset htake
      next => exact fun _ ho => ho
    exact (h.trans hrest).answer d o.pkt st data false

theorem State.Winds.finishAll (h : s.Winds t) (f : DefKind → Bool) (st : Status) : s.Winds (t.finishAll f st) :=
  .foldl _ _ (fun _ l hu => .foldl _ _ (fun _ _ hv => hv.finish l _ st []) hu) h

/-! ### Folds that are switched -/

theorem Ebb.raiseNext_nf (e : Ebb) (ticks : Nat) : (e.raiseNext ticks).nf = e.nf := by
  unfold Ebb.raiseNext
  simp only
  split
  · rfl
  · split <;> rfl

theorem State.Winds.modEbb (h : s.Winds t) (d : Die) (f : Ebb → Ebb) (hf : ∀ e, (f e).nf = e.nf) : s.Winds (t.modEbb d f) :=
  h.modPad d _ (fun q => congrArg (·, q.aon.nfLastAbort, q.repl.present) (hf q.ebb)) fun _ => rfl

theorem State.Winds.modPower (h : s.Winds t) (d : Die) (p : PFold) (f : FoldPower → FoldPower) : s.Winds (t.modPower d p f) :=
  h.modEbb d _ fun _ => rfl

theorem State.Winds.domOnReq (h : s.Winds t) (d : Die) (i : DomN) : s.Winds (t.domOnReq d i) :=
  .ite h (h.modEbb d _ fun _ => Ebb.raiseNext_nf ..)

theorem State.Winds.startWake (h : s.Winds t) (d : Die) (p : PFold) : s.Winds (t.startWake d p) := by
  unfold State.startWake
  have hwaking := h.modPower d p fun x => { x with waking := some (t.pad d).now }
  have hfa := State.Winds.ite (c := ((t.modPower d p fun x => { x with waking := some (t.pad d).now }).pad d).domOn (domFA p) = true)
    hwaking ((hwaking.modPad d (fun q => { q with boot := { q.boot with
      selfTested := putBit q.boot.selfTested p.val false
      arrayInit := putBit q.boot.arrayInit p.val false } }) (fun _ => rfl) fun _ => rfl).domOnReq d (domFA p))
  exact .ite h (.ite (hfa.domOnReq d _) hfa)

theorem State.Winds.ungate (h : s.Winds t) (d : Die) (p : PFold) : s.Winds (t.ungate d p) :=
  .ite (State.Winds.modPad (h.modPower d p fun x => { x with gated := false, state := .run }) d
    (fun q => { q with folds := vmod q.folds p fun f => { f with census := foldCount 0x38 8 f.census } }) (fun _ => rfl) fun _ => rfl) h

theorem State.Winds.addJob (h : s.Winds t) (d : Die) (j : Nat) (l : List Line) : s.Winds (t.addJob d j l) :=
  h.trans (.of_frame ((State.Frame.refl _ t).addJob (fun _ _ => rfl) d j l))

theorem State.Winds.startDrain (h : s.Winds t) (d : Die) (p : PFold) (x : FoldState) : s.Winds (t.startDrain d p x) := by
  have hdrain := (h.modPower d p fun y => { y with state := .drain, target := x, gated := false, waking := none }).modPad d
    (fun q => { q with folds := vmod q.folds p fun f => { f with refuseReq := true } }) (fun _ => rfl) fun _ => rfl
  exact .ite (hdrain.addJob d _ _) hdrain

theorem State.Winds.parked (h : s.Winds t) (d : Die) (p : PFold) : s.Winds (t.parked d p) := by
  unfold State.parked
  have hstate := h.modPower d p fun x => { x with state := x.target, heldWake := false }
  simp only
  split
  · exact hstate
  next n _ =>
    have hdone := hstate.finishAll (fun k => k.isPark d n) .done
    refine .ite ?_ ?_
    · refine State.Winds.finishAll ?_ _ .failed
      exact hdone.foldl _ _ fun _ _ hu => hu.modPad _ _ (fun _ => rfl) fun _ => rfl
    · have hheld := State.Winds.ite (c := (t.power d p).heldWake = true)
        (hdone.modPower d p fun y => { y with target := .doze, woken := true }) hdone
      split
      next x _ => exact (hheld.modPower d p fun y => { y with target := x }).startWake d p
      next => exact .ite (hheld.startWake d p) hheld

theorem State.Winds.setTarget (h : s.Winds t) (d : Die) (p : PFold) (x : FoldState) : s.Winds (t.setTarget d p x) := by
  have hset := h.modPower d p fun y => { y with target := x }
  exact .ite (h.startDrain d p x) (.ite (.ite (hset.ungate d p) hset) (.ite (hset.parked d p) (hset.startWake d p)))

theorem State.Winds.nfTargets (h : s.Winds t) (lead : Die) : s.Winds (t.nfTargets lead) :=
  .foldl _ _ (fun _ d hu => .foldl _ _ (fun _ p hv => .ite hv (hv.setTarget d p _)) hu) h

theorem State.Winds.nfReply (h : s.Winds t) (lead : Die) : s.Winds (t.nfReply lead) := by
  unfold State.nfReply
  split
  · exact h
  · exact h.finish lead _ _ _

theorem State.Winds.members (h : s.Winds t) (lead : Die) : t.members lead = s.members lead := by
  have := h.frame.pads lead
  simp only [Paddock.night, Prod.mk.injEq] at this
  rw [State.members, this.2.2, State.members]
end

/-! ### One Range with Nightfold in progress -/

section
variable {s t u : State} {lead : Die} {o : Deferred} {ph : NfPhase}

theorem State.nfOp_none_of_subset {l : Die} (h : s.nfOp l = none) (hsub : (t.pad l).shep.deferred ⊆ (s.pad l).shep.deferred) :
    t.nfOp l = none := by
  rw [State.nfOp, State.defAt, List.find?_eq_none] at h ⊢
  exact fun x hx => h x (hsub hx)

/-- What goes leader by leader, and does nothing where no entry to Nightfold is in progress. -/
theorem State.leaders_foldl_night {f : State → Die → State} (hat : s.NightAt lead o ph)
    (hidle : ∀ (u : State) (l : Die), u.nfOp l = none → f u l = u)
    (hdef : ∀ x, ((f s lead).pad x).shep.deferred ⊆ (s.pad x).shep.deferred) : s.leaders.foldl f s = f s lead := by
  obtain ⟨hlead, hothers, -, -⟩ := hat
  have hstays (u : State) (l : List Die) (hu : ∀ x, (u.pad x).shep.deferred ⊆ (s.pad x).shep.deferred)
      (hl : ∀ x ∈ l, x ∈ s.leaders ∧ x ≠ lead) : l.foldl f u = u := by
    induction l with
    | nil => rfl
    | cons x l ih =>
      obtain ⟨hx, hne⟩ := hl x (List.mem_cons_self ..)
      rw [List.foldl_cons, hidle u x (State.nfOp_none_of_subset (hothers x hx hne) (hu x))]
      exact ih fun y hy => hl y (List.mem_cons_of_mem _ hy)
  have hnodup : s.leaders.Nodup := (List.nodup_finRange 8).filter _
  obtain ⟨a, b, hab⟩ := List.append_of_mem hlead
  have hin (x : Die) (hx : x ∈ a ∨ x ∈ b) : x ∈ s.leaders ∧ x ≠ lead := by
    rw [hab] at hnodup ⊢
    obtain ⟨-, hb, hdis⟩ := List.nodup_append.mp hnodup
    obtain hx | hx := hx
    · exact ⟨List.mem_append_left _ hx, hdis x hx lead (List.mem_cons_self ..)⟩
    · exact ⟨List.mem_append_right _ (List.mem_cons_of_mem _ hx), fun h => (List.nodup_cons.mp hb).1 (h ▸ hx)⟩
  calc s.leaders.foldl f s = b.foldl f (f (a.foldl f s) lead) := by
        conv_lhs => rw [hab]
        rw [List.foldl_append, List.foldl_cons]
    _ = f s lead := by rw [hstays s a (fun _ _ h => h) fun x hx => hin x (.inl hx), hstays _ b hdef fun x hx => hin x (.inr hx)]

theorem State.allNf_at (hat : s.NightAt lead o ph) : s.allNf lead ph = true := by
  rw [State.allNf, List.all_eq_true]
  exact fun x hx => beq_iff_eq.2 (hat.2.2.2 x hx)
end

/-! ### The points -/

section
variable {s t u : State} {lead : Die} {o : Deferred} {ph : NfPhase}

theorem State.pad_modEbbs (f : Ebb → Ebb) (x : Die) : (s.modEbbs lead f).pad x =
    if x ∈ s.members lead then { s.pad x with ebb := f (s.pad x).ebb } else s.pad x :=
  State.pad_members s lead (fun q => { q with ebb := f q.ebb }) x

theorem State.pad_nfCount (k : BitVec 3) (x : Die) : (s.nfCount lead k).pad x =
    if x ∈ s.members lead then { s.pad x with aon := (s.pad x).aon.aborted k } else s.pad x :=
  State.pad_members s lead (fun q => { q with aon := q.aon.aborted k }) x

theorem State.members_of_pads (h : (t.pad lead).repl = (s.pad lead).repl) : t.members lead = s.members lead := by
  rw [State.members, h, State.members]

theorem State.members_nfCount (k : BitVec 3) : (s.nfCount lead k).members lead = s.members lead := by
  refine State.members_of_pads ?_
  rw [State.pad_nfCount]
  split <;> rfl

theorem State.members_modEbbs (f : Ebb → Ebb) : (s.modEbbs lead f).members lead = s.members lead := by
  refine State.members_of_pads ?_
  rw [State.pad_modEbbs]
  split <;> rfl

/-- An entry that is abandoned is over in every member, and counted there (14 R379). -/
theorem State.nfAbandon_spec (k : BitVec 3) :
    s.NowIn (s.nfAbandon lead k) lead .idle ∧ (∀ x ∈ s.members lead, ((s.nfAbandon lead k).pad x).aon.nfLastAbort = k) ∧
      ∀ x, ((s.nfAbandon lead k).pad x).shep.deferred ⊆ (s.pad x).shep.deferred := by
  have hwinds : (s.nfCount lead k).Winds (((s.nfCount lead k).nfTargets lead).nfReply lead) :=
    ((State.Winds.refl _).nfTargets lead).nfReply lead
  have hpad (x : Die) : ((s.nfAbandon lead k).pad x) = _ := State.pad_modEbbs (fun e => { e with nf := .idle }) x
  rw [hwinds.members, State.members_nfCount] at hpad
  refine ⟨fun x hx => ?_, fun x hx => ?_, fun x => ?_⟩
  · rw [hpad, if_pos hx]
  · have hnight := hwinds.frame.pads x
    simp only [Paddock.night, Prod.mk.injEq] at hnight
    rw [hpad, if_pos hx]
    refine hnight.2.1.trans ?_
    rw [State.pad_nfCount, if_pos hx]
    rfl
  · have hdef := hwinds.deferred x
    rw [State.pad_nfCount] at hdef
    rw [hpad]
    split at hdef <;> split <;> exact hdef

/-- Every member stands in the phase that was set, whatever else was begun. -/
theorem State.setNf_spec (hu : ∀ x, u.pad x = (s.setNf lead ph).pad x) (h : u.Winds t) :
    s.NowIn t lead ph ∧ ∀ x, (t.pad x).shep.deferred ⊆ (s.pad x).shep.deferred := by
  refine ⟨fun x hx => ?_, fun x => ?_⟩
  · have hnight := h.frame.pads x
    simp only [Paddock.night, Prod.mk.injEq] at hnight
    rw [hnight.1, hu, State.setNf, State.pad_modEbbs, if_pos hx]
  · have hdef := h.deferred x
    rw [hu, State.setNf, State.pad_modEbbs] at hdef
    split at hdef <;> exact hdef

/-- What an entry at an abort point does, and what it leaves (14 R379). -/
theorem State.night_ended (hat : s.NightAt lead o ph) {f : State → Die → State} (hidle : ∀ u l, u.nfOp l = none → f u l = u)
    {k : BitVec 3} (hf : f s lead = s.nfAbandon lead k) :
    s.NowIn (s.leaders.foldl f s) lead .idle ∧ ∀ x ∈ s.members lead, ((s.leaders.foldl f s).pad x).aon.nfLastAbort = k := by
  obtain ⟨hnow, habort, hdef⟩ := State.nfAbandon_spec (s := s) (lead := lead) k
  rw [State.leaders_foldl_night hat hidle (by rw [hf]; exact hdef), hf]
  exact ⟨hnow, habort⟩

theorem State.nfN1Of_idle (u : State) (l : Die) (h : u.nfOp l = none) : u.nfN1Of l = u := by rw [State.nfN1Of, h]

/-- The work of step 2: the sweep of every recorded line. -/
def State.nfSweep (s : State) (lead : Die) (j : Nat) : State :=
  (s.members lead).foldl (fun s d =>
    s.addJob d j (((s.carriers d).flatMap fun p => s.heldLines d p fun _ => true).eraseDups)) s

theorem State.nfN1Of_at (hat : s.NightAt lead o .step1) : s.nfN1Of lead =
    if ∀ x ∈ s.members lead, ∀ p : PFold, ((s.pad x).folds[p]).pens = [] ∧ ((s.pad x).folds[p]).tt = [] then
      if (s.pad lead).ebb.nfAbort = true then s.nfAbandon lead 1 else (s.setNf lead .step2).nfSweep lead (jobOf o.id)
    else s := by
  have hempty : ((s.members lead).all fun d => (s.pad d).folds.all fun f => f.pens.isEmpty && f.tt.isEmpty) = true ↔
      ∀ x ∈ s.members lead, ∀ p : PFold, ((s.pad x).folds[p]).pens = [] ∧ ((s.pad x).folds[p]).tt = [] := by
    simp only [List.all_eq_true]
    refine forall₂_congr fun x _ => ?_
    simp only [Vector.all_eq_true, Bool.and_eq_true, List.isEmpty_iff]
    exact ⟨fun h p => h p.val p.isLt, fun h i hi => h ⟨i, hi⟩⟩
  unfold State.nfN1Of
  simp only [hat.2.2.1, State.allNf_at hat, Bool.true_and, Bool.not_eq_true', ← Bool.not_eq_true, hempty, ite_not]
  rfl

theorem State.nfSweep_winds (j : Nat) : s.Winds (s.nfSweep lead j) :=
  .foldl _ _ (fun _ d hu => hu.addJob d j _) (.refl s)

theorem execN1_at (hat : s.NightAt lead o .step1) :
    ((¬∀ x ∈ s.members lead, ∀ p : PFold, ((s.pad x).folds[p]).pens = [] ∧ ((s.pad x).folds[p]).tt = []) → exec .n1 s = .next s) ∧
      ((∀ x ∈ s.members lead, ∀ p : PFold, ((s.pad x).folds[p]).pens = [] ∧ ((s.pad x).folds[p]).tt = []) →
        ∃ t, exec .n1 s = .next t ∧ ((s.pad lead).ebb.nfAbort ≠ true → s.NowIn t lead .step2) ∧
          ((s.pad lead).ebb.nfAbort = true → s.NowIn t lead .idle ∧ ∀ x ∈ s.members lead, (t.pad x).aon.nfLastAbort = 1)) := by
  have hof := State.nfN1Of_at hat
  refine ⟨fun hnot => ?_, fun hempty => ⟨_, rfl, fun hwake => ?_, fun hwake => ?_⟩⟩
  · rw [if_neg hnot] at hof
    refine congrArg Host.Outcome.next ((State.leaders_foldl_night hat State.nfN1Of_idle fun x => ?_).trans hof)
    rw [hof]
    exact List.Subset.refl _
  · rw [if_pos hempty, if_neg hwake] at hof
    obtain ⟨hnow, hdef⟩ := State.setNf_spec (s := s) (fun _ => rfl) (State.nfSweep_winds (jobOf o.id))
    rw [← hof] at hnow hdef
    rw [State.nfN1, State.leaders_foldl_night hat State.nfN1Of_idle hdef]
    exact hnow
  · rw [if_pos hempty, if_pos hwake] at hof
    exact State.night_ended hat State.nfN1Of_idle hof
end

/-! ### Step 3: the folds go to RETAIN -/

section
variable {s t u : State} {lead d x : Die} {p : PFold} {o : Deferred}

theorem State.power_modPower (q : PFold) (f : FoldPower → FoldPower) :
    (s.modPower d q f).power x p = if x = d ∧ p = q then f (s.power x p) else s.power x p := by
  rw [State.power, State.modPower, State.modEbb, State.pad_modPad]
  by_cases hx : x = d
  · subst hx
    rw [if_pos rfl]
    change (vmod (s.pad x).ebb.fold q f)[p] = _
    by_cases hp : p = q
    · subst hp
      rw [if_pos ⟨rfl, rfl⟩]
      exact vset_get_same ..
    · rw [if_neg fun h => hp h.2]
      exact vset_get_other _ _ _ _ hp
  · rw [if_neg hx, if_neg fun h => hx h.1]
    rfl

theorem State.power_of_ebb (h : (t.pad x).ebb = (s.pad x).ebb) : t.power x p = s.power x p := by
  rw [State.power, h, State.power]

/-- A fold that drains on its way to RETAIN. -/
def State.Retiring (s : State) (x : Die) (p : PFold) : Prop := (s.power x p).state = .drain ∧ (s.power x p).target = .retain

/-- What the drain of one fold does on the way to Nightfold. -/
def State.nfDrainFold (s : State) (d : Die) (p : PFold) : State :=
  let x := s.power d p
  if x.state == .run || x.state == .doze then s.startDrain d p .retain
  else if x.waking.isSome then s.modPower d p fun y => { y with target := .retain }
  else s

theorem State.power_startDrain (q : PFold) : (s.startDrain d q .retain).power x p =
    if x = d ∧ p = q then { s.power x p with state := .drain, target := .retain, gated := false, waking := none }
    else s.power x p := by
  rw [← State.power_modPower q fun y => { y with state := .drain, target := .retain, gated := false, waking := none }]
  refine State.power_of_ebb ?_
  change (((s.modPower d q _).modFold d q fun f => { f with refuseReq := true }).pad x).ebb = _
  rw [State.modFold, State.pad_modPad]
  split
  next h => rw [h]
  next => rfl

/-- A fold in RUN drains towards RETAIN, one that does so goes on, and no other fold is touched. -/
theorem State.nfDrainFold_spec (q : PFold) :
    (s.Retiring x p → (s.nfDrainFold d q).Retiring x p) ∧
      ((s.power x p).state = .run ∨ s.Retiring x p →
        ((s.nfDrainFold d q).power x p).state = .run ∨ (s.nfDrainFold d q).Retiring x p) ∧
      ((s.power x p).state = .run ∨ s.Retiring x p → (s.nfDrainFold x p).Retiring x p) := by
  have hdrain : (s.startDrain x p .retain).Retiring x p := by
    rw [State.Retiring, State.power_startDrain, if_pos ⟨rfl, rfl⟩]
    exact ⟨rfl, rfl⟩
  have hkeeps (h : s.Retiring x p) : (s.nfDrainFold d q).Retiring x p := by
    obtain ⟨hstate, htarget⟩ := h
    unfold State.nfDrainFold State.Retiring
    simp only
    split
    · rw [State.power_startDrain]
      split
      · exact ⟨rfl, rfl⟩
      · exact ⟨hstate, htarget⟩
    · split
      · rw [State.power_modPower]
        split
        · exact ⟨hstate, rfl⟩
        · exact ⟨hstate, htarget⟩
      · exact ⟨hstate, htarget⟩
  refine ⟨hkeeps, fun h => ?_, fun h => ?_⟩
  · obtain hrun | h := h
    · unfold State.nfDrainFold State.Retiring
      simp only
      split
      · rw [State.power_startDrain]
        split
        · exact .inr ⟨rfl, rfl⟩
        · exact .inl hrun
      · split
        · rw [State.power_modPower]
          split
          · exact .inl hrun
          · exact .inl hrun
        · exact .inl hrun
    · exact .inr (hkeeps h)
  · obtain hrun | ⟨hstate, htarget⟩ := h
    · rw [State.nfDrainFold, if_pos (by rw [hrun]; rfl)]
      exact hdrain
    · rw [State.nfDrainFold, if_neg (by rw [hstate]; decide), State.Retiring]
      split
      · rw [State.power_modPower, if_pos ⟨rfl, rfl⟩]
        exact ⟨hstate, rfl⟩
      · exact ⟨hstate, htarget⟩

/-- What one step of a fold brings about, every step keeping it. -/
theorem foldl_reaches {α β : Type} {P Q : α → Prop} {f : α → β → α} {l : List β} {b : β} (hb : b ∈ l)
    (hP : ∀ u y, P u → P (f u y)) (hQ : ∀ u y, Q u → Q (f u y)) (hPQ : ∀ u, P u → Q (f u b)) {a : α} (ha : P a) : Q (l.foldl f a) := by
  have hstays (m : List β) (a : α) (ha : Q a) : Q (m.foldl f a) := by
    induction m generalizing a with
    | nil => exact ha
    | cons y m ih => exact ih _ (hQ a y ha)
  induction l generalizing a with
  | nil => exact nomatch hb
  | cons y l ih =>
    obtain rfl | hb := List.mem_cons.1 hb
    · exact hstays l _ (hPQ a ha)
    · exact ih hb (hP a y ha)

theorem foldl_keeps {α β : Type} {P : α → Prop} {f : α → β → α} (l : List β) (hP : ∀ u y, P u → P (f u y)) {a : α} (ha : P a) :
    P (l.foldl f a) := by
  induction l generalizing a with
  | nil => exact ha
  | cons y l ih => exact ih (hP a y ha)

/-- The folds as they are signed. -/
theorem State.nfSign_frame {α : Type} {v : Paddock → α} (hsig : ∀ q y, v { q with aon := { q.aon with nfSig := y } } = v q) :
    s.Frame v (s.nfSign d) := by
  unfold State.nfSign
  split
  · exact .refl v s
  · exact (State.Frame.refl v s).modPad d _ fun q => hsig q _

/-- A member whose Earmark is revived and whose folds are signed, as step 3 begins. -/
def State.nfSigned (s : State) (d : Die) : State := (s.modPad d fun q => { q with folds := q.folds.map Fold.revive }).nfSign d

theorem State.nfSigned_frame {α : Type} {v : Paddock → α} (hfolds : ∀ q y, v { q with folds := y } = v q)
    (hsig : ∀ q y, v { q with aon := { q.aon with nfSig := y } } = v q) : s.Frame v (s.nfSigned d) :=
  ((State.Frame.refl v s).modPad d (fun q => { q with folds := q.folds.map Fold.revive }) fun q => hfolds q _).trans
    (State.nfSign_frame hsig)

theorem State.nfSigned_rest : ((s.nfSigned d).pad x).repl = (s.pad x).repl ∧ ((s.nfSigned d).pad x).ebb = (s.pad x).ebb :=
  Prod.mk.inj ((State.nfSigned_frame (v := fun q => (q.repl, q.ebb)) (fun _ _ => rfl) fun _ _ => rfl).pads x)

theorem State.nfSigned_power : (s.nfSigned d).power x p = s.power x p :=
  State.power_of_ebb State.nfSigned_rest.2

theorem State.nfSigned_carriers : (s.nfSigned d).carriers x = s.carriers x := by
  rw [State.carriers, State.nfSigned_rest.1, State.carriers]

/-- A fold in RUN, or on its way to RETAIN. -/
def State.Sleepy (s : State) (x : Die) (p : PFold) : Prop := (s.power x p).state = .run ∨ s.Retiring x p

theorem State.nfDrain_spec :
    (s.Retiring x p → (s.nfDrain d).Retiring x p) ∧ (s.Sleepy x p → (s.nfDrain d).Sleepy x p) ∧
      (p ∈ s.carriers x → s.Sleepy x p → (s.nfDrain x).Retiring x p) := by
  refine ⟨fun h => ?_, fun h => ?_, fun hp h => ?_⟩
  · exact foldl_keeps (P := fun u => u.Retiring x p) (f := fun (u : State) q => u.nfDrainFold d q) (s.carriers d)
      (fun _ q => (State.nfDrainFold_spec q).1) h
  · exact foldl_keeps (P := fun u => u.Sleepy x p) (f := fun (u : State) q => u.nfDrainFold d q) (s.carriers d)
      (fun _ q => (State.nfDrainFold_spec q).2.1) h
  · exact foldl_reaches (P := fun u => u.Sleepy x p) (Q := fun u => u.Retiring x p) (f := fun (u : State) q => u.nfDrainFold x q) hp
      (fun _ q => (State.nfDrainFold_spec q).2.1) (fun _ q => (State.nfDrainFold_spec q).1)
      (fun _ => (State.nfDrainFold_spec (d := x) p).2.2) h

theorem State.nfPark_spec :
    (s.Retiring x p → ((s.nfSigned d).nfDrain d).Retiring x p) ∧ (s.Sleepy x p → ((s.nfSigned d).nfDrain d).Sleepy x p) ∧
      (p ∈ s.carriers x → s.Sleepy x p → ((s.nfSigned x).nfDrain x).Retiring x p) := by
  have hretiring (d : Die) : (s.nfSigned d).Retiring x p ↔ s.Retiring x p := by
    rw [State.Retiring, State.nfSigned_power, State.Retiring]
  have hsleepy (d : Die) : (s.nfSigned d).Sleepy x p ↔ s.Sleepy x p := by
    rw [State.Sleepy, State.nfSigned_power, hretiring, State.Sleepy]
  obtain ⟨hkeeps, hstays, -⟩ := State.nfDrain_spec (s := s.nfSigned d) (d := d) (x := x) (p := p)
  obtain ⟨-, -, hdrains⟩ := State.nfDrain_spec (s := s.nfSigned x) (d := x) (x := x) (p := p)
  rw [hretiring] at hkeeps
  rw [hsleepy] at hstays hdrains
  rw [State.nfSigned_carriers] at hdrains
  exact ⟨hkeeps, hstays, hdrains⟩

theorem State.nfDrain_repl : ((s.nfDrain d).pad x).repl = (s.pad x).repl := by
  refine (State.Frame.foldl (p := fun q => q.repl) (.refl _ s) (fun u q => u.nfDrainFold d q) _ fun u q hu => ?_).pads x
  have hpower (f : FoldPower → FoldPower) : s.Frame (fun q => q.repl) (u.modPower d q f) := hu.modPad d _ fun _ => rfl
  have hdrain := (hpower fun y => { y with state := .drain, target := .retain, gated := false, waking := none }).modPad d
    (fun y => { y with folds := vmod y.folds q fun f => { f with refuseReq := true } }) fun _ => rfl
  exact .ite hdrain (.ite (hpower _) hu)

/-! ### N2 -/

theorem State.Winds.nfPark (h : s.Winds t) (d : Die) : s.Winds ((t.nfSigned d).nfDrain d) := by
  have hsigned : t.Winds (t.nfSigned d) := .of_frame (State.nfSigned_frame (fun _ _ => rfl) fun _ _ => rfl)
  have hdrain (u : State) (q : PFold) (hu : s.Winds u) : s.Winds (u.nfDrainFold d q) :=
    .ite (hu.startDrain d q _) (.ite (hu.modPower d q _) hu)
  exact State.Winds.foldl (fun u q => u.nfDrainFold d q) _ hdrain (h.trans hsigned)

theorem State.nfN2Of_idle (u : State) (l : Die) (h : u.nfOp l = none) : u.nfN2Of l = u := by rw [State.nfN2Of, h]

/-- The Tether of a Range in step 3 takes no TLP. -/
def State.nfMute (s : State) (lead : Die) : State := if s.leadsTether lead then s.modTether fun t => { t with noTlp := true } else s

/-- What N2 waits for. -/
def State.NightSwept (s : State) (lead : Die) (o : Deferred) : Prop :=
  s.jobOpen (jobOf o.id) = false ∧ (∀ x ∈ s.members lead, s.sweptOut x = true) ∧ ∀ y ∈ (s.pad lead).shep.deferred, y.kind = .nightfold

theorem State.nfN2Of_swept (hat : s.NightAt lead o .step2) (hswept : s.NightSwept lead o) : s.nfN2Of lead =
    if (s.pad lead).ebb.nfAbort = true then s.nfAbandon lead 2
    else (((s.setNf lead .step3).nfMute lead).members lead).foldl (fun u d => (u.nfSigned d).nfDrain d) ((s.setNf lead .step3).nfMute lead) := by
  obtain ⟨hjob, hmembers, hdef⟩ := hswept
  have hothers : (s.anyDef lead fun k => k != .nightfold) = false := by
    simp only [State.anyDef, List.any_eq_false, bne_iff_ne, ne_eq, not_not]
    exact hdef
  have hall : (s.members lead).all s.sweptOut = true := List.all_eq_true.2 hmembers
  unfold State.nfN2Of
  simp only [hat.2.2.1, State.allNf_at hat, hjob, hothers, hall]
  rfl

theorem State.nfN2Of_unswept (hat : s.NightAt lead o .step2) (hswept : ¬s.NightSwept lead o) : s.nfN2Of lead = s := by
  unfold State.nfN2Of
  simp only [hat.2.2.1]
  refine if_pos ?_
  rw [Bool.not_eq_true', ← Bool.not_eq_true]
  intro hyes
  refine hswept ?_
  simp only [Bool.and_eq_true, Bool.not_eq_true', List.all_eq_true, State.anyDef, List.any_eq_false, bne_iff_ne, ne_eq, not_not] at hyes
  obtain ⟨⟨⟨-, hjob⟩, hdef⟩, hmembers⟩ := hyes
  exact ⟨hjob, hmembers, hdef⟩

/-- What step 3 leaves: its phase, a Tether that takes no TLP, and folds on their way to RETAIN. -/
theorem State.nfStep3_spec (ht : t = (((s.setNf lead .step3).nfMute lead).members lead).foldl (fun u d => (u.nfSigned d).nfDrain d)
      ((s.setNf lead .step3).nfMute lead)) :
    s.NowIn t lead .step3 ∧ (∀ x, (t.pad x).shep.deferred ⊆ (s.pad x).shep.deferred) ∧
      t.tether = { s.tether with noTlp := s.leadsTether lead || s.tether.noTlp } ∧
      ∀ x ∈ s.members lead, ∀ p : PFold, ((s.pad x).repl.carries x p).isSome = true → (s.power x p).state = .run →
        t.Retiring x p := by
  have hmute (x : Die) : ((s.setNf lead .step3).nfMute lead).pad x = (s.setNf lead .step3).pad x := by
    unfold State.nfMute
    split <;> rfl
  have hset (x : Die) : ((s.setNf lead .step3).pad x).repl = (s.pad x).repl ∧
      ((s.setNf lead .step3).pad x).ebb.fold = (s.pad x).ebb.fold := by
    rw [State.setNf, State.pad_modEbbs]
    split <;> exact ⟨rfl, rfl⟩
  have hkept := State.foldl_modPad_rest (fun q => { q with ebb := { q.ebb with nf := .step3 } }) (s.members lead) s
  have htether : ((s.setNf lead .step3).nfMute lead).tether = { s.tether with noTlp := s.leadsTether lead || s.tether.noTlp } := by
    have hleads : (s.setNf lead .step3).leadsTether lead = s.leadsTether lead := by
      simp only [State.leadsTether, State.member, (hset lead).1]
      rw [show (s.setNf lead .step3).krovol = s.krovol from hkept.1]
    have hset : (s.setNf lead .step3).tether = s.tether := hkept.2.1
    unfold State.nfMute
    rw [hleads]
    split
    next h =>
      simp only [h, Bool.true_or]
      exact congrArg (fun t : Tether => { t with noTlp := true }) hset
    next h => simp only [h, Bool.false_or, hset]
  have hmembers : ((s.setNf lead .step3).nfMute lead).members lead = s.members lead := by
    rw [State.members, hmute, (hset lead).1, State.members]
  have hpower (x : Die) (p : PFold) : ((s.setNf lead .step3).nfMute lead).power x p = s.power x p := by
    rw [State.power, hmute, (hset x).2, State.power]
  have hcarriers (x : Die) : ((s.setNf lead .step3).nfMute lead).carriers x = s.carriers x := by
    rw [State.carriers, hmute, (hset x).1, State.carriers]
  generalize (s.setNf lead .step3).nfMute lead = w at *
  have hwinds : w.Winds t := by
    rw [ht]
    exact State.Winds.foldl (fun u d => (u.nfSigned d).nfDrain d) _ (fun _ d hu => hu.nfPark d) (.refl w)
  obtain ⟨hnow, hdef⟩ := State.setNf_spec (s := s) hmute hwinds
  refine ⟨hnow, hdef, hwinds.frame.tether.trans htether, fun x hx p hp hrun => ?_⟩
  rw [hmembers] at ht
  have hrepl (u : State) (d : Die) : ((u.nfSigned d).nfDrain d).carriers x = u.carriers x := by
    have hdrain := (State.nfDrain_repl (s := u.nfSigned d) (d := d) (x := x)).trans State.nfSigned_rest.1
    rw [State.carriers, hdrain, State.carriers]
  have hin : p ∈ s.carriers x := List.mem_filter.2 ⟨mem_pfolds p, hp⟩
  have hfold := foldl_reaches (P := fun u : State => p ∈ u.carriers x ∧ u.Sleepy x p) (Q := fun u => u.Retiring x p)
    (f := fun (u : State) d => (u.nfSigned d).nfDrain d) hx
    (fun u d h => ⟨by rw [hrepl]; exact h.1, State.nfPark_spec.2.1 h.2⟩) (fun u d h => State.nfPark_spec.1 h)
    (fun u h => (State.nfPark_spec (d := x)).2.2 h.1 h.2) (a := w) ⟨by rw [hcarriers]; exact hin, .inl (by rw [hpower]; exact hrun)⟩
  rw [ht]
  exact hfold

theorem execN2_at (hat : s.NightAt lead o .step2) :
    (¬s.NightSwept lead o → exec .n2 s = .next s) ∧
      (s.NightSwept lead o → ∃ t, exec .n2 s = .next t ∧
        ((s.pad lead).ebb.nfAbort ≠ true → s.NowIn t lead .step3 ∧
          t.tether = { s.tether with noTlp := s.leadsTether lead || s.tether.noTlp } ∧
          ∀ x ∈ s.members lead, ∀ p : PFold, ((s.pad x).repl.carries x p).isSome = true → (s.power x p).state = .run →
            (t.power x p).state = .drain ∧ (t.power x p).target = .retain) ∧
        ((s.pad lead).ebb.nfAbort = true → s.NowIn t lead .idle ∧ ∀ x ∈ s.members lead, (t.pad x).aon.nfLastAbort = 2)) := by
  refine ⟨fun hnot => ?_, fun hswept => ⟨_, rfl, fun hwake => ?_, fun hwake => ?_⟩⟩
  · have hof := State.nfN2Of_unswept hat hnot
    refine congrArg Host.Outcome.next ((State.leaders_foldl_night hat State.nfN2Of_idle fun x => ?_).trans hof)
    rw [hof]
    exact List.Subset.refl _
  · have hof := State.nfN2Of_swept hat hswept
    rw [if_neg hwake] at hof
    obtain ⟨hnow, hdef, htether, hfolds⟩ := State.nfStep3_spec hof
    rw [State.nfN2, State.leaders_foldl_night hat State.nfN2Of_idle hdef]
    exact ⟨hnow, htether, hfolds⟩
  · have hof := State.nfN2Of_swept hat hswept
    rw [if_pos hwake] at hof
    exact State.night_ended hat State.nfN2Of_idle hof
end

/-! ### N3 and N4 -/

section
variable {s t u : State} {lead d x : Die} {o : Deferred}

theorem State.nfN3Of_idle (u : State) (l : Die) (h : u.nfOp l = none) : u.nfN3Of l = u := by rw [State.nfN3Of, h]

theorem State.nfN4Of_idle (u : State) (l : Die) (h : u.nfOp l = none) : u.nfN4Of l = u := by rw [State.nfN4Of, h]

/-- HCLK has stopped in every member. -/
abbrev State.NightStill (s : State) (lead : Die) : Prop :=
  ∀ x ∈ s.members lead, (s.pad x).ebb.hclkReq = false ∧ (s.pad x).ebb.hclkAck = false

theorem State.nfN3Of_at (hat : s.NightAt lead o .step3) : s.nfN3Of lead =
    if s.NightStill lead then
      if (s.pad lead).ebb.nfAbort = true then (s.members lead).foldl State.nfBack (s.nfCount lead 3)
      else (s.setNf lead .step4).writeSupplies lead Config.retentionMv
    else s := by
  have hstill : ((s.members lead).all fun d => !(s.pad d).ebb.hclkReq && !(s.pad d).ebb.hclkAck) = true ↔ s.NightStill lead := by
    simp [State.NightStill]
  unfold State.nfN3Of
  simp only [hat.2.2.1, State.allNf_at hat, Bool.true_and, Bool.not_eq_true', ← Bool.not_eq_true, hstill, ite_not]

theorem State.nfBack_spec : ((s.pad x).ebb.nf = .exit2 → ((s.nfBack d).pad x).ebb.nf = .exit2) ∧ ((s.nfBack x).pad x).ebb.nf = .exit2 := by
  have hnf (d : Die) : ((s.nfBack d).pad x).ebb.nf = if x = d then .exit2 else (s.pad x).ebb.nf := by
    have := ((State.Winds.refl (s.modEbb d fun e => { e with nf := .exit2 })).domOnReq d domSH).frame.pads x
    simp only [Paddock.night, Prod.mk.injEq] at this
    rw [State.nfBack, this.1, State.modEbb, State.pad_modPad]
    split <;> rfl
  refine ⟨fun h => ?_, ?_⟩
  · rw [hnf, h, ite_self]
  · rw [hnf, if_pos rfl]

theorem State.nfBack_frame : s.Frame (fun q => (q.aon, q.shep)) (s.nfBack d) :=
  ((State.Frame.refl _ s).modPad d (fun q => { q with ebb := { q.ebb with nf := .exit2 } }) fun _ => rfl).domOnReq
    (fun _ _ => rfl) d domSH

/-- Nightfold is left from step E2 on, its abandonment counted. -/
theorem State.nfBacks_spec (k : BitVec 3) (ht : t = (s.members lead).foldl State.nfBack (s.nfCount lead k)) :
    s.NowIn t lead .exit2 ∧ (∀ x ∈ s.members lead, (t.pad x).aon.nfLastAbort = k) ∧
      ∀ x, (t.pad x).shep.deferred ⊆ (s.pad x).shep.deferred := by
  have hframe : (s.nfCount lead k).Frame (fun q => (q.aon, q.shep)) t := by
    rw [ht]
    exact State.Frame.foldl (.refl _ _) State.nfBack _ fun _ _ hu => hu.trans State.nfBack_frame
  have hpads (x : Die) := Prod.mk.inj (hframe.pads x)
  refine ⟨fun x hx => ?_, fun x hx => ?_, fun x => ?_⟩
  · rw [ht]
    exact foldl_reaches (P := fun _ => True) (Q := fun u : State => (u.pad x).ebb.nf = .exit2) (f := State.nfBack) hx (fun _ _ _ => trivial)
      (fun _ _ => State.nfBack_spec.1) (fun _ _ => (State.nfBack_spec (d := x)).2) trivial
  · rw [(hpads x).1, State.pad_nfCount, if_pos hx]
    rfl
  · rw [(hpads x).2, State.pad_nfCount]
    split <;> exact List.Subset.refl _

theorem State.writeSupplies_spec (mv : Nat) : s.Winds (s.writeSupplies lead mv) ∧
    ∀ x ∈ s.members lead, ((s.writeSupplies lead mv).pad x).ebb.avs[(0 : RailN)] = some { mv := mv, tick := (s.pad x).aon.ticks } := by
  refine ⟨.foldl _ _ (fun _ d hu => hu.modEbb d _ fun _ => rfl) (.refl s), fun x hx => ?_⟩
  rw [State.writeSupplies, State.writeSupply_foldl, State.pad_members, if_pos hx]
  exact Paddock.supplied_first ..

theorem State.nfSupplyUp_winds : (s.setNf lead .exit1).Winds (s.nfSupplyUp lead) :=
  .foldl _ _ (fun _ d hu => hu.modEbb d _ fun _ => rfl) (.refl _)

theorem State.nfN4Of_at (hat : s.NightAt lead o .step4) : s.nfN4Of lead =
    if ∀ x ∈ s.members lead, ∀ r : RailN, (s.pad x).ebb.avs[r] = none then
      if (s.pad lead).ebb.nfAbort = true then (s.nfCount lead 4).nfSupplyUp lead
      else (s.members lead).foldl (fun u d => u.modPad d fun q =>
        { q with ebb := { q.ebb with nf := .inside q.aon.ticks, nfNext := 1 } }) s
    else s := by
  have hall : s.allAcked lead = true ↔ ∀ x ∈ s.members lead, ∀ r : RailN, (s.pad x).ebb.avs[r] = none := by
    simp only [State.allAcked, List.all_eq_true, Ebb.acked, Vector.all_eq_true, Option.isNone_iff_eq_none]
    exact forall₂_congr fun x _ => ⟨fun h r => h r.val r.isLt, fun h i hi => h ⟨i, hi⟩⟩
  have hinside : (fun (u : State) (d : Die) => u.modEbb d fun e => { e with nf := .inside (u.pad d).ticks, nfNext := 1 }) =
      fun u d => u.modPad d fun q => { q with ebb := { q.ebb with nf := .inside q.aon.ticks, nfNext := 1 } } :=
    funext fun _ => funext fun _ => State.modPad_congr rfl
  unfold State.nfN4Of
  simp only [hat.2.2.1, State.allNf_at hat, Bool.true_and, Bool.not_eq_true', ← Bool.not_eq_true, hall, ite_not, hinside]

theorem execN3_at (hat : s.NightAt lead o .step3) :
    (¬s.NightStill lead → exec .n3 s = .next s) ∧
      (s.NightStill lead → (s.pad lead).ebb.nfAbort = true → ∃ t, exec .n3 s = .next t ∧ s.NowIn t lead .exit2 ∧
        ∀ x ∈ s.members lead, (t.pad x).aon.nfLastAbort = 3) ∧
      (s.NightStill lead → ¬(s.pad lead).ebb.nfAbort = true → ∃ t, exec .n3 s = .next t ∧ t.tether = s.tether ∧
        s.NowIn t lead .step4 ∧
        ∀ x ∈ s.members lead, (t.pad x).ebb.avs[(0 : RailN)] = some { mv := 450, tick := (s.pad x).aon.ticks }) := by
  have hof := State.nfN3Of_at hat
  refine ⟨fun hnot => ?_, fun hstill hwake => ⟨_, rfl, ?_⟩, fun hstill hwake => ⟨_, rfl, ?_⟩⟩
  · rw [if_neg hnot] at hof
    refine congrArg Host.Outcome.next ((State.leaders_foldl_night hat State.nfN3Of_idle fun x => ?_).trans hof)
    rw [hof]
    exact List.Subset.refl _
  · rw [if_pos hstill, if_pos hwake] at hof
    obtain ⟨hnow, habort, hdef⟩ := State.nfBacks_spec 3 hof
    rw [State.nfN3, State.leaders_foldl_night hat State.nfN3Of_idle hdef]
    exact ⟨hnow, habort⟩
  · rw [if_pos hstill, if_neg hwake] at hof
    obtain ⟨hwinds, havs⟩ := State.writeSupplies_spec (s := s.setNf lead .step4) (lead := lead) Config.retentionMv
    obtain ⟨hnow, hdef⟩ := State.setNf_spec (s := s) (fun _ => rfl) hwinds
    rw [← hof] at hnow hdef hwinds havs
    rw [State.nfN3, State.leaders_foldl_night hat State.nfN3Of_idle hdef]
    refine ⟨hwinds.frame.tether.trans (State.foldl_modPad_rest _ (s.members lead) s).2.1, hnow, fun x hx => ?_⟩
    rw [havs x (by rw [State.setNf, State.members_modEbbs]; exact hx), State.setNf, State.pad_modEbbs]
    split <;> rfl

theorem execN4_at (hat : s.NightAt lead o .step4) :
    ((¬∀ x ∈ s.members lead, ∀ r : RailN, (s.pad x).ebb.avs[r] = none) → exec .n4 s = .next s) ∧
      ((∀ x ∈ s.members lead, ∀ r : RailN, (s.pad x).ebb.avs[r] = none) → (s.pad lead).ebb.nfAbort = true →
        ∃ t, exec .n4 s = .next t ∧ s.NowIn t lead .exit1 ∧ ∀ x ∈ s.members lead, (t.pad x).aon.nfLastAbort = 4) ∧
      ((∀ x ∈ s.members lead, ∀ r : RailN, (s.pad x).ebb.avs[r] = none) → ¬(s.pad lead).ebb.nfAbort = true →
        ∃ t, exec .n4 s = .next t ∧ t.tether = s.tether ∧
          ∀ x, (t.pad x).ebb = if x ∈ s.members lead then { (s.pad x).ebb with nf := .inside (s.pad x).aon.ticks, nfNext := 1 }
            else (s.pad x).ebb) := by
  have hof := State.nfN4Of_at hat
  refine ⟨fun hnot => ?_, fun hacked hwake => ⟨_, rfl, ?_⟩, fun hacked hwake => ⟨_, rfl, ?_⟩⟩
  · rw [if_neg hnot] at hof
    refine congrArg Host.Outcome.next ((State.leaders_foldl_night hat State.nfN4Of_idle fun x => ?_).trans hof)
    rw [hof]
    exact List.Subset.refl _
  · rw [if_pos hacked, if_pos hwake] at hof
    obtain ⟨hnow, hdef⟩ := State.setNf_spec (s := s.nfCount lead 4) (fun _ => rfl) (State.nfSupplyUp_winds (lead := lead))
    have habort := State.nfSupplyUp_winds (s := s.nfCount lead 4) (lead := lead)
    rw [State.NowIn, State.members_nfCount] at hnow
    rw [← hof] at hnow hdef habort
    have hdef' (x : Die) : ((s.nfN4Of lead).pad x).shep.deferred ⊆ (s.pad x).shep.deferred := by
      have := hdef x
      rw [State.pad_nfCount] at this
      split at this <;> exact this
    rw [State.nfN4, State.leaders_foldl_night hat State.nfN4Of_idle hdef']
    refine ⟨hnow, fun x hx => ?_⟩
    have hnight := habort.frame.pads x
    simp only [Paddock.night, Prod.mk.injEq] at hnight
    rw [hnight.2.1, State.setNf, State.pad_modEbbs, State.members_nfCount, if_pos hx, State.pad_nfCount, if_pos hx]
    rfl
  · rw [if_pos hacked, if_neg hwake] at hof
    have hpad (x : Die) := State.pad_members s lead (fun q => { q with ebb := { q.ebb with nf := .inside q.aon.ticks, nfNext := 1 } }) x
    rw [← hof] at hpad
    rw [State.nfN4, State.leaders_foldl_night hat State.nfN4Of_idle fun x => by
      rw [hpad]
      split <;> exact List.Subset.refl _]
    refine ⟨?_, fun x => ?_⟩
    · rw [hof]
      exact (State.foldl_modPad_rest _ (s.members lead) s).2.1
    · rw [hpad]
      split <;> rfl

end

/-- Settles O46: each point acts in the one Range whose NIGHTFOLD_ENTER is in progress. -/
theorem nightfoldGoesByItsPoints : Obligations.NightfoldGoesByItsPoints := by
  unfold Obligations.NightfoldGoesByItsPoints
  intro s lead o
  refine ⟨fun hat => ?_, fun hat => ?_, fun hat => ?_, fun hat => ?_⟩
  · obtain ⟨hnot, hgoes⟩ := execN1_at hat
    refine ⟨hnot, fun hempty => ?_⟩
    obtain ⟨t, hexec, hon, hoff⟩ := hgoes hempty
    exact ⟨t, hexec, fun h => ⟨exec_keeps hexec, hon h⟩, fun h => ⟨exec_keeps hexec, hoff h⟩⟩
  · obtain ⟨hnot, hgoes⟩ := execN2_at hat
    refine ⟨hnot, fun hswept => ?_⟩
    obtain ⟨t, hexec, hon, hoff⟩ := hgoes hswept
    exact ⟨t, hexec, fun h => ⟨exec_keeps hexec, hon h⟩, fun h => ⟨exec_keeps hexec, hoff h⟩⟩
  · obtain ⟨hnot, hoff, hon⟩ := execN3_at hat
    refine ⟨hnot, fun hstill h => ?_, fun hstill h => ?_⟩
    · obtain ⟨t, hexec, hrest⟩ := hoff hstill h
      exact ⟨t, hexec, exec_keeps hexec, hrest⟩
    · obtain ⟨t, hexec, hrest⟩ := hon hstill h
      exact ⟨t, hexec, exec_keeps hexec, hrest⟩
  · obtain ⟨hnot, hoff, hon⟩ := execN4_at hat
    refine ⟨hnot, fun hacked h => ?_, fun hacked h => ?_⟩
    · obtain ⟨t, hexec, hrest⟩ := hoff hacked h
      exact ⟨t, hexec, exec_keeps hexec, hrest⟩
    · obtain ⟨t, hexec, hrest⟩ := hon hacked h
      exact ⟨t, hexec, exec_keeps hexec, hrest⟩

end Sys2Proof.Machine
end

section
/-!
Wakes and samples in Nightfold, and the statement O47 (14 R379 to R382, R393).
-/

namespace Sys2Proof.Machine

/-! ### Wakes -/

theorem Ebb.endSample_spec (e : Ebb) (ticks : Nat) : (e.endSample ticks).sample = none ∧ (e.endSample ticks).point = e.point ∧
    ∀ i, bitAt e.pswReq i = false → bitAt (e.endSample ticks).pswReq i = false := by
  unfold Ebb.endSample
  split
  next h => exact ⟨h, rfl, fun _ hi => hi⟩
  next x _ =>
    simp only
    split
    · refine ⟨rfl, rfl, fun i hi => ?_⟩
      change bitAt (putBit e.pswReq (domFL x.p).val false) i = false
      rw [bitAt_putBit]
      split
      · rfl
      · exact hi
    · exact ⟨rfl, rfl, fun _ hi => hi⟩

section
variable {q : Paddock} {rails : Bool}

theorem Paddock.nfWoken_inside {a : Nat} (h : q.ebb.nf = .inside a) :
    (q.nfWoken rails).ebb.nf = .exit1 ∧ (q.nfWoken rails).ebb.sample = none ∧
      (q.nfWoken rails).ebb.avs[(0 : RailN)] = some { mv := Config.supplyMv q.ebb.point, tick := q.aon.ticks } ∧
      (q.nfWoken rails).aon.nfSamples = q.aon.nfSamples ∧ (q.nfWoken rails).aon.nfMismatch = q.aon.nfMismatch ∧
      ∀ i, bitAt q.ebb.pswReq i = false → bitAt (q.nfWoken rails).ebb.pswReq i = false := by
  obtain ⟨hsample, hpoint, hreq⟩ := Ebb.endSample_spec q.ebb q.aon.ticks
  have havs : (q.ebb.supplyBack rails q.aon.ticks).avs[(0 : RailN)] =
      some { mv := Config.supplyMv q.ebb.point, tick := q.aon.ticks } := rfl
  unfold Paddock.nfWoken
  rw [h]
  simp only
  split
  · exact ⟨rfl, hsample, havs, rfl, rfl, hreq⟩
  · exact ⟨rfl, hsample, havs, rfl, rfl, hreq⟩

theorem Paddock.nfWoken_spec : (q.nfWoken rails).ebb.nf = q.ebb.nf.waked ∧ (q.nfWoken rails).folds = q.folds ∧
    (q.ebb.entering = true → (q.nfWoken rails).ebb.nfAbort = true) := by
  by_cases hin : ∃ a, q.ebb.nf = .inside a
  · obtain ⟨a, ha⟩ := hin
    refine ⟨(Paddock.nfWoken_inside ha).1.trans (by rw [ha]; rfl), ?_, fun h => ?_⟩
    · unfold Paddock.nfWoken
      rw [ha]
      simp only
      split <;> rfl
    · rw [Ebb.entering, ha] at h
      exact nomatch h
  · have hother : q.nfWoken rails = if q.ebb.entering then { q with ebb := { q.ebb with nfAbort := true } } else q := by
      unfold Paddock.nfWoken
      split
      next a ha => exact absurd ⟨a, ha⟩ hin
      next => rfl
    have hwaked : q.ebb.nf.waked = q.ebb.nf := by
      unfold NfPhase.waked
      split
      next a ha => exact absurd ⟨a, ha⟩ hin
      next => rfl
    rw [hother, hwaked]
    split
    · exact ⟨rfl, rfl, fun _ => rfl⟩
    next h => exact ⟨rfl, rfl, fun hyes => absurd hyes h⟩
end

section
variable {s : State} {d : Die}

/-- What a wake of the package leaves (14 R379, R380). -/
theorem State.nfWake_spec : s.nfWake.krovol = s.krovol ∧ s.nfWake.tether = s.tether ∧ s.nfWake.pending = s.pending ∧
    ∀ x, (s.nfWake.pad x).ebb.nf = ((s.pad x).ebb.nf).waked ∧
    (s.nfWake.pad x).folds = (s.pad x).folds ∧ ((s.pad x).ebb.entering = true → (s.nfWake.pad x).ebb.nfAbort = true) ∧
    ∀ a, (s.pad x).ebb.nf = .inside a → (s.nfWake.pad x).ebb.sample = none ∧ (s.nfWake.pad x).ebb.avs[(0 : RailN)] =
      some { mv := Config.supplyMv (s.pad x).ebb.point, tick := (s.pad x).aon.ticks } := by
  rw [State.nfWake_eq]
  refine ⟨rfl, rfl, rfl, fun x => ?_⟩
  rw [State.pad_modPads]
  obtain ⟨hnf, hfolds, habort⟩ := Paddock.nfWoken_spec (q := s.pad x) (rails := s.krovol.rails)
  refine ⟨hnf, hfolds, habort, fun a ha => ?_⟩
  obtain ⟨-, hsample, havs, -⟩ := Paddock.nfWoken_inside (rails := s.krovol.rails) ha
  exact ⟨hsample, havs⟩

/-- The alarm of a paddock falls due (14 R393). -/
theorem Paddock.alarmDue_of {q : Paddock} (h : q.aon.alarm.toNat ≤ q.now ∧ q.now < q.aon.alarm.toNat + 1000 ∧ q.wakeEn 2 = true) :
    q.alarmDue = true := by
  obtain ⟨hfrom, hto, hen⟩ := h
  simp [Paddock.alarmDue, AlwaysOn.alarmTide, hfrom, hto, hen]

theorem Paddock.alarmDue_not {q : Paddock} (h : q.now < q.aon.alarm.toNat ∨ q.wakeEn 2 = false) : q.alarmDue = false := by
  obtain h | h := h
  · simp [Paddock.alarmDue, AlwaysOn.alarmTide, Nat.not_le.2 h]
  · simp [Paddock.alarmDue, h]

/-! ### A sample begins (14 R381) -/

variable {a : Nat} {pr : NfProgram} (hnf : (s.pad d).ebb.nf = .inside a) (hprog : (s.pad d).aon.nfProg = some pr)
include hnf hprog

theorem State.sample_early (h : ((s.pad d).aon.ticks - a) / (1000 * max 1 pr.interval) < (s.pad d).ebb.nfNext)
    (bad : Option (BitVec 13)) : s.sample d bad = s := by
  unfold State.sample
  simp only [hnf, hprog, Paddock.ticks]
  refine if_pos ?_
  simp [h]

variable {n : LFold} {p : PFold} {k : Nat} (hk : k = ((s.pad d).aon.ticks - a) / (1000 * max 1 pr.interval))
  (hturn : (s.pad d).aon.retained[(k - 1) % (s.pad d).aon.retained.length]? = some n) (hsent : 0 < pr.sentinels)
  (hnext : (s.pad d).ebb.nfNext ≤ k)
include hk hturn hsent hnext

omit hnf hprog in
theorem State.sample_due : ¬(decide (pr.sentinels = 0) || (s.pad d).aon.retained.isEmpty ||
    decide (((s.pad d).aon.ticks - a) / (1000 * max 1 pr.interval) < (s.pad d).ebb.nfNext)) = true := by
  have hne : (s.pad d).aon.retained ≠ [] := fun h => by simp [h] at hturn
  simp only [Bool.or_eq_true, decide_eq_true_eq, List.isEmpty_iff, not_or]
  exact ⟨⟨by omega, hne⟩, by omega⟩

theorem State.sample_wakes {x : Die} (hdue : (s.pad x).alarmDue = true) (bad : Option (BitVec 13)) : s.sample d bad = s.nfWake := by
  have hgo := State.sample_due hk hturn hsent hnext
  have hany : (dies.any fun y => (s.pad y).alarmDue) = true := List.any_eq_true.2 ⟨x, List.mem_finRange x, hdue⟩
  unfold State.sample
  simp only [hnf, hprog, Paddock.ticks] at hgo ⊢
  exact (if_neg hgo).trans (if_pos hany)

/-- The paddock whose sample k is begun or let go. -/
def Paddock.sampled (q : Paddock) (k skip : Nat) : Paddock := { q with
  ebb := { q.ebb with nfNext := k + 1 }, aon := { q.aon with nfSkipped := BitVec.ofNat 16 (min 65535 skip) } }

theorem State.sample_goes (hquiet : ∀ x, (s.pad x).alarmDue = false) (hp : (s.pad d).repl.pfoldOf d n = some p)
    (bad : Option (BitVec 13)) : s.sample d bad =
      let u := s.modPad d fun q => q.sampled k ((s.pad d).aon.nfSkipped.toNat + (k - (s.pad d).ebb.nfNext) + bit (s.pad d).ebb.sample.isSome)
      if (s.pad d).ebb.sample.isSome then u
      else
        let v := (u.modEbb d fun e => { e with sample := some { n := n, p := p, bad := bad } }).writeSupply d 550
        if (s.pad d).aon.islandOk then v else v.stick d 6 := by
  have hgo := State.sample_due hk hturn hsent hnext
  have hany : ¬(dies.any fun y => (s.pad y).alarmDue) = true := by
    simp [hquiet]
  unfold State.sample
  simp only [hnf, hprog, Paddock.ticks] at hgo ⊢
  refine (if_neg hgo).trans ((if_neg hany).trans ?_)
  simp only [← hk, hturn, hp]
  rfl
end

/-! ### The rails of a sample (14 R381) -/

theorem Ebb.raiseNext_shape (e : Ebb) (ticks : Nat) :
    ∃ req sw, e.raiseNext ticks = { e with pswReq := req, switching := sw } := by
  unfold Ebb.raiseNext
  simp only
  split
  · exact ⟨_, _, rfl⟩
  · split
    · exact ⟨_, _, rfl⟩
    · exact ⟨_, _, rfl⟩

theorem putBit_self {n : Nat} {b : BitVec n} {i : Nat} {v : Bool} (h : bitAt b i = v) : putBit b i v = b := by
  refine BitVec.eq_of_getLsbD_eq fun j hj => ?_
  change bitAt (putBit b i v) j = bitAt b j
  rw [bitAt_putBit]
  split
  next hij => rw [← hij.1, h]
  next => rfl

/-- A switch that waits alone is asked for. -/
theorem Ebb.raiseNext_one {e : Ebb} {x : DomSwitch} (hsw : e.switching = [x]) (hon : x.on = true) (hack : e.pswAck = 0) (ticks : Nat) :
    (e.raiseNext ticks).pswReq = putBit e.pswReq x.dom.val true := by
  have hwait : bitAt e.pswAck x.dom.val = false := by rw [hack]; exact bitAt_zero ..
  unfold Ebb.raiseNext
  simp only [hsw, List.any_cons, List.any_nil, hon, hwait, Bool.not_false, Bool.and_self, Bool.true_and, Bool.or_false,
    List.find?_cons]
  split
  next h => exact (putBit_self h).symm
  next => rfl

theorem avs_answered (r : RailN) (w : AvsWrite) :
    (vset (vset (Vector.replicate 2 none) r (some w)) r none).all (fun y => y.isNone) = true := by
  have hnone (j : RailN) : (vset (vset (Vector.replicate 2 none) r (some w)) r none)[j] = none := by
    by_cases h : j = r
    · subst h
      exact vset_get_same ..
    · rw [vset_get_other _ _ _ _ h, vset_get_other _ _ _ _ h]
      exact Vector.getElem_replicate ..
  rw [Vector.all_eq_true]
  exact fun i hi => Option.isNone_iff_eq_none.2 (hnone ⟨i, hi⟩)

/-- Ebb as the rails of a sample have their supply and its fold's logic is asked for. -/
def Ebb.sampleRails (e : Ebb) (x : SampleRun) (r : RailN) (w : AvsWrite) (ticks : Nat) : Ebb :=
  { e with
    avs := vset e.avs r none, volt := vset e.volt r w.mv, sample := some { x with phase := .power }
    switching := [{ dom := domFL x.p, on := true, tick := ticks }] }

section
variable {s : State} {d : Die} {x : SampleRun} {r : RailN} {w : AvsWrite}

/-- The rails of a sample have their supply: its fold's logic is to come on. -/
theorem State.avsAck_sample {a : Nat} (hnf : (s.pad d).ebb.nf = .inside a) (hsample : (s.pad d).ebb.sample = some x)
    (hphase : x.phase = .rails) (havs : (s.pad d).ebb.avs = vset (Vector.replicate 2 none) r (some w))
    (hoff : (s.pad d).domOn (domFL x.p) = false) (hsw : (s.pad d).ebb.switching = [])
    (hopp : ∀ l, s.leadOf d = some l → s.oppOp l = none) :
    s.avsAck d r = s.modEbb d fun e => (e.sampleRails x r w (s.pad d).aon.ticks).raiseNext (s.pad d).aon.ticks := by
  let f (e : Ebb) : Ebb := { e with avs := vset e.avs r none, volt := vset e.volt r w.mv }
  let u := s.modEbb d f
  have hview := ((State.Frame.refl Paddock.rangeView s).modPad d (fun q => { q with ebb := f q.ebb }) fun _ => rfl).pads
  have hu : u.pad d = { s.pad d with ebb := f (s.pad d).ebb } := State.pad_modPad_same ..
  have hgoes : u.oppGoes d = u := State.oppGoes_none fun l hl => by
    have := State.oppOp_view hview l
    rw [show u.oppOp l = _ from this]
    exact hopp l ((State.leadOf_view hview).symm.trans hl)
  have hinside : (u.pad d).ebb.nf = .inside a := by rw [hu]; exact hnf
  have hexit : u.nfExit d = u := State.nfExit_not (by rw [hinside]; exact nofun) (by rw [hinside]; exact nofun)
    (by rw [hinside]; exact nofun)
  have hat : (s.pad d).ebb.avs[r] = some w := by rw [havs]; exact vset_get_same ..
  have hacked : (u.pad d).ebb.acked = true := by
    rw [hu]
    change (vset (s.pad d).ebb.avs r none).all (fun y => y.isNone) = true
    rw [havs]
    exact avs_answered r w
  have hrails : u.sampleGoes d = (u.modEbb d fun e => { e with sample := some { x with phase := .power } }).domOnReq d (domFL x.p) := by
    unfold State.sampleGoes
    rw [show (u.pad d).ebb.sample = some x by rw [hu]; exact hsample]
    simp only [hphase, hacked, if_true]
  have hack : s.avsAck d r = ((u.oppGoes d).nfExit d).sampleGoes d := by
    unfold State.avsAck
    rw [hat]
  rw [hack, hgoes, hexit, hrails]
  have hv : ((u.modEbb d fun e => { e with sample := some { x with phase := .power } }).pad d) = { s.pad d with
      ebb := { f (s.pad d).ebb with sample := some { x with phase := .power } } } := by
    rw [State.modEbb, State.pad_modPad_same, hu]
  unfold State.domOnReq
  rw [hv]
  refine (if_neg ?_).trans ?_
  · change ¬((s.pad d).domOn (domFL x.p) || (s.pad d).ebb.switching.any _) = true
    rw [hoff, hsw]
    simp
  · simp only [u, State.modEbb, State.modPad_modPad]
    refine State.modPad_congr ?_
    simp only [f, Ebb.sampleRails, hsw]
    rfl
end

/-! ### The check of a sample (14 R381, R382) -/

/-- The paddock whose sample is checked: its fold's logic goes off again, and the rails to the retention supply. -/
def Paddock.checked (q : Paddock) (x : SampleRun) (rails : List RailN) : Paddock :=
  Paddock.supplied { q with
    ebb := Ebb.domOff { q.ebb with sample := some { x with phase := .back } } (domFL x.p) q.aon.ticks
    aon := { q.aon with nfSamples := q.aon.nfSamples + 1 } } rails Config.retentionMv

/-- The paddock whose fold's logic is up for a sample. -/
def Paddock.sampleUp (q : Paddock) (p : PFold) : Paddock := (q.switched (domFL p) true).flUp (domFL p)

section
variable {s : State} {d : Die} {x : SampleRun}

theorem State.mpWays_of_folds {t : State} (h : (t.pad d).folds.map (fun f => f.poolMpWays) = (s.pad d).folds.map fun f => f.poolMpWays) :
    t.mpWays d = s.mpWays d := by
  have := congrArg Vector.toList h
  simp only [Vector.toList_map] at this
  rw [State.mpWays, this, State.mpWays]

theorem Paddock.sampleUp_mpWays (q : Paddock) (p : PFold) :
    (q.sampleUp p).folds.map (fun f => f.poolMpWays) = q.folds.map fun f => f.poolMpWays := by
  refine Vector.ext fun i hi => ?_
  simp only [Vector.getElem_map]
  have := Paddock.folds_flUp (q.switched (domFL p) true) (domFL p) ⟨i, hi⟩
  change ((q.sampleUp p).folds[(⟨i, hi⟩ : PFold)]).poolMpWays = _
  rw [show (q.sampleUp p).folds[(⟨i, hi⟩ : PFold)] = _ from this]
  split <;> rfl

theorem domFL_lone (p : PFold) : domFL p ≠ domSH ∧ domFL p ≠ domSD := by
  revert p
  decide

/-- The logic of a sample's fold is up: its sentinels are checked. -/
theorem State.domUp_sample {u : State} {a : Nat} {p : PFold} (hnf : (u.pad d).ebb.nf = .inside a) (hsample : (u.pad d).ebb.sample = some x)
    (hstep : (u.pad d).boot.step = 10) :
    u.domUp d (domFL p) = (u.modPad d fun q => q.flUp (domFL p)).sampleGoes d := by
  obtain ⟨hlt, hp⟩ := (domFL_iff p (domFL p)).1 rfl
  have hfold : u.foldDomUp d (domFL p) = u.modPad d fun q => q.flUp (domFL p) := by
    unfold State.foldDomUp
    have hpad : ((u.modFold d (Fin.ofNat 5 (domFL p).val) Fold.flReset).pad d).ebb.sample = some x := by
      rw [State.modFold, State.pad_modPad_same]
      exact hsample
    simp only [hlt, if_true, hpad, Option.isNone_some, Bool.and_false, Bool.false_eq_true, if_false]
    exact State.modPad_congr (by simp only [Paddock.flUp, hlt, if_true])
  have hv : (u.modPad d fun q => q.flUp (domFL p)).pad d = (u.pad d).flUp (domFL p) := State.pad_modPad_same ..
  have hsh : (domFL p == domSH) = false := beq_eq_false_iff_ne.2 (domFL_lone p).1
  have hsd : (domFL p == domSD) = false := beq_eq_false_iff_ne.2 (domFL_lone p).2
  have hboot : (u.modPad d fun q => q.flUp (domFL p)).bootGo d = u.modPad d fun q => q.flUp (domFL p) := by
    unfold State.bootGo
    simp only [hv, show ((u.pad d).flUp (domFL p)).boot.step = 10 from hstep]
    exact ite_self _
  have hinside : ((u.modPad d fun q => q.flUp (domFL p)).pad d).ebb.nf = .inside a := by rw [hv]; exact hnf
  have hexit := State.nfExit_not (d := d) (s := u.modPad d fun q => q.flUp (domFL p)) (by rw [hinside]; exact nofun)
    (by rw [hinside]; exact nofun) (by rw [hinside]; exact nofun)
  unfold State.domUp
  simp only [hfold, hsh, hsd, Bool.false_and, Bool.false_eq_true, if_false, hboot, hexit]

/-- What the check of a sample finds (14 R381). -/
def State.sampleFinds (s : State) (d : Die) (x : SampleRun) (pr : NfProgram) : Option Nat :=
  let ks := pr.ways d (s.mpWays d)
  ((s.pad d).folds[x.p]).sentinelBad ks (min pr.sentinels (4096 * ks.length)) (((s.pad d).aon.nfSig[x.n]).getD 0)

/-- The mismatch that a sample keeps. -/
def State.sampleFault (s : State) (d : Die) (x : SampleRun) (pr : NfProgram) (i : Nat) : NfMismatch :=
  let ks := pr.ways d (s.mpWays d)
  { addr := (s.pad d).repl.millAddr d x.n (sentinelAt ks (min pr.sentinels (4096 * ks.length)) i), pfold := x.p, tide := (s.pad d).now }

/-- What is kept of a sample's check over the ways `ks` with `sn` sentinels. -/
def State.sampleKept (s : State) (d : Die) (x : SampleRun) (ks : List Nat) (sn : Nat) : State :=
  let q := s.pad d
  match (q.folds[x.p]).sentinelBad ks sn ((q.aon.nfSig[x.n]).getD 0) with
  | none => s
  | some i =>
    let m : NfMismatch := { addr := q.repl.millAddr d x.n (sentinelAt ks sn i), pfold := x.p, tide := q.now }
    (s.modPad d fun q => { q with aon := { q.aon with nfMismatch := some m } }).nfWake

theorem State.sampleCheck_spec {pr : NfProgram} (hprog : (s.pad d).aon.nfProg = some pr) (hbad : x.bad = none) :
    (s.sampleFinds d x pr = none → s.sampleCheck d x = s.modPad d fun q => q.checked x s.krovol.railList) ∧
      ∀ i, s.sampleFinds d x pr = some i → s.sampleCheck d x = State.nfWake (s.modPad d fun q =>
        { q.checked x s.krovol.railList with aon := { (q.checked x s.krovol.railList).aon with
          nfMismatch := some (s.sampleFault d x pr i) } }) := by
  have hw : ((s.modPad d fun q => { q with
      ebb := { q.ebb with sample := some { x with phase := .back } }
      aon := { q.aon with nfSamples := q.aon.nfSamples + 1 } }).domOffReq d (domFL x.p)).writeSupply d Config.retentionMv =
        s.modPad d fun q => q.checked x s.krovol.railList := by
    simp only [State.writeSupply, State.domOffReq, State.modEbb, State.pad_modPad_same, State.modPad_modPad]
    exact State.modPad_congr rfl
  have hpad : (s.modPad d fun q => q.checked x s.krovol.railList).pad d = (s.pad d).checked x s.krovol.railList :=
    State.pad_modPad_same ..
  have hcheck : s.sampleCheck d x = State.sampleKept (s.modPad d fun q => q.checked x s.krovol.railList) d x
      (pr.ways d (s.mpWays d)) (min pr.sentinels (4096 * (pr.ways d (s.mpWays d)).length)) := by
    rw [← hw]
    unfold State.sampleCheck
    rw [hprog]
    simp only [hbad]
    rfl
  have hfinds : ((((s.pad d).checked x s.krovol.railList).folds[x.p]).sentinelBad (pr.ways d (s.mpWays d))
      (min pr.sentinels (4096 * (pr.ways d (s.mpWays d)).length))
      ((((s.pad d).checked x s.krovol.railList).aon.nfSig[x.n]).getD 0)) = s.sampleFinds d x pr := rfl
  rw [hcheck, State.sampleKept]
  simp only [hpad, hfinds]
  refine ⟨fun hnone => ?_, fun i hi => ?_⟩
  · rw [hnone]
  · rw [hi]
    simp only [State.modPad_modPad]
    rfl

/-- The logic of a sample's fold comes on, and what it retains is checked. -/
theorem exec_pswAck_sample {a : Nat} {y : DomSwitch} (hnf : (s.pad d).ebb.nf = .inside a) (hsample : (s.pad d).ebb.sample = some x)
    (hphase : x.phase = .power) (hone : (s.pad d).ebb.switching = [y]) (hdom : y.dom = domFL x.p) (hon : y.on = true)
    (hreq : bitAt (s.pad d).ebb.pswReq (domFL x.p).val = true) (hack : bitAt (s.pad d).ebb.pswAck (domFL x.p).val = false)
    (hstep : (s.pad d).boot.step = 10) :
    exec (.pswAck d (domFL x.p) true) s = .next (State.sampleCheck (s.modPad d fun q => q.sampleUp x.p) d x) := by
  have hu : (s.modPad d fun q => q.switched (domFL x.p) true).pad d = (s.pad d).switched (domFL x.p) true := State.pad_modPad_same ..
  have hup := State.domUp_sample (d := d) (p := x.p) (u := s.modPad d fun q => q.switched (domFL x.p) true)
    (by rw [hu]; exact hnf) (by rw [hu]; exact hsample) (by rw [hu]; exact hstep)
  have hmod : (s.modPad d fun q => q.switched (domFL x.p) true).modPad d (fun q => q.flUp (domFL x.p)) =
      s.modPad d fun q => q.sampleUp x.p := State.modPad_modPad ..
  have hv : (s.modPad d fun q => q.sampleUp x.p).pad d = (s.pad d).sampleUp x.p := State.pad_modPad_same ..
  have hdomOn : ((s.pad d).sampleUp x.p).domOn (domFL x.p) = true := by
    change (bitAt (putBit (s.pad d).ebb.pswAck (domFL x.p).val true) (domFL x.p).val &&
      !bitAt (putBit (s.pad d).ebb.iso (domFL x.p).val false) (domFL x.p).val) = true
    rw [bitAt_putBit_same _ _ (domFL x.p).isLt, bitAt_putBit_same _ _ (domFL x.p).isLt]
    rfl
  have hgoes : (s.modPad d fun q => q.sampleUp x.p).sampleGoes d = State.sampleCheck (s.modPad d fun q => q.sampleUp x.p) d x := by
    unfold State.sampleGoes
    rw [hv, show ((s.pad d).sampleUp x.p).ebb.sample = some x from hsample]
    simp only [hphase, hdomOn, if_true]
  refine (exec_pswAck hreq hack hone hdom hon).trans (congrArg Host.Outcome.next ((if_pos rfl).trans (hup.trans ?_)))
  rw [hmod, hgoes]

theorem State.sampleUp_finds (pr : NfProgram) : (s.modPad d fun q => q.sampleUp x.p).sampleFinds d x pr =
    (((s.pad d).folds[x.p]).flReset).sentinelBad (pr.ways d (s.mpWays d))
      (min pr.sentinels (4096 * (pr.ways d (s.mpWays d)).length)) (((s.pad d).aon.nfSig[x.n]).getD 0) ∧
    ∀ i, (s.modPad d fun q => q.sampleUp x.p).sampleFault d x pr i = {
      addr := (s.pad d).repl.millAddr d x.n (sentinelAt (pr.ways d (s.mpWays d))
        (min pr.sentinels (4096 * (pr.ways d (s.mpWays d)).length)) i), pfold := x.p, tide := (s.pad d).now } := by
  have hv : (s.modPad d fun q => q.sampleUp x.p).pad d = (s.pad d).sampleUp x.p := State.pad_modPad_same ..
  have hways : (s.modPad d fun q => q.sampleUp x.p).mpWays d = s.mpWays d :=
    State.mpWays_of_folds (by rw [hv]; exact Paddock.sampleUp_mpWays ..)
  have hfold : ((s.pad d).sampleUp x.p).folds[x.p] = ((s.pad d).folds[x.p]).flReset :=
    (Paddock.folds_flUp ((s.pad d).switched (domFL x.p) true) (domFL x.p) x.p).trans (if_pos rfl)
  refine ⟨?_, fun i => ?_⟩
  · unfold State.sampleFinds
    simp only [hways, hv, hfold]
    rfl
  · unfold State.sampleFault
    simp only [hways, hv]
    rfl

/-- What of a paddock the check of a sample leaves. -/
theorem Paddock.checked_spec (q : Paddock) (k : Krovol) :
    (q.checked x k.railList).ebb.sample = some { x with phase := .back } ∧
      (q.checked x k.railList).ebb.avs[(0 : RailN)] = some { mv := 450, tick := q.aon.ticks } ∧
      bitAt (q.checked x k.railList).ebb.pswReq (domFL x.p).val = false :=
  ⟨rfl, Paddock.supplied_first .., bitAt_putBit_same _ _ (domFL x.p).isLt⟩
end

/-- Settles O47: wakes go through `nfWake`, and a sample through its phases. -/
theorem wakesAndSamplesInNightfold : Obligations.WakesAndSamplesInNightfold := by
  unfold Obligations.WakesAndSamplesInNightfold
  intro s d
  refine ⟨fun h => ?_, fun hdue => ?_, fun a pr hnf hprog => ⟨fun hearly bad => ?_, fun n p bad hturn hp hsent hnext =>
    ⟨fun x hdue => ?_, fun hquiet hnone hok => ?_, fun hquiet hsome => ?_⟩, fun x hsample => ⟨fun r w hphase havs hoff hsw hopp => ?_,
      fun y hphase hbad hone hdom hon hreq hack hstep => ?_⟩⟩⟩
  · refine congrArg Host.Outcome.next (if_neg ?_)
    rw [Paddock.alarmDue_not h]
    decide
  · have hexec : exec (.ebbAlarm d) s = .next s.nfWake := congrArg Host.Outcome.next (if_pos (Paddock.alarmDue_of hdue))
    exact ⟨_, hexec, State.nfWake_spec⟩
  · exact congrArg Host.Outcome.next (State.sample_early hnf hprog hearly bad)
  · have hexec : exec (.sentinelSample d bad) s = .next s.nfWake :=
      congrArg Host.Outcome.next (State.sample_wakes hnf hprog rfl hturn hsent hnext (Paddock.alarmDue_of hdue) bad)
    exact ⟨_, hexec, State.nfWake_spec⟩
  · refine congrArg Host.Outcome.next ((State.sample_goes hnf hprog rfl hturn hsent hnext hquiet hp bad).trans ?_)
    simp only [hnone, hok, Option.isSome_none, Bool.false_eq_true, if_false, if_true, State.modEbb, State.modPad_modPad]
    rfl
  · refine congrArg Host.Outcome.next ((State.sample_goes hnf hprog rfl hturn hsent hnext hquiet hp bad).trans ?_)
    simp only [Option.isSome_iff_ne_none.2 hsome, if_true]
    rfl
  · have hack := State.avsAck_sample hnf hsample hphase havs hoff hsw hopp
    refine ⟨_, congrArg Host.Outcome.next hack, (State.OnlyPad.refl s d).modPad _, ?_⟩
    rw [State.modEbb, State.pad_modPad_same]
    obtain ⟨req, sw, hshape⟩ := Ebb.raiseNext_shape ((s.pad d).ebb.sampleRails x r w (s.pad d).aon.ticks) (s.pad d).aon.ticks
    refine ⟨rfl, congrArg Ebb.sample hshape, congrArg Ebb.volt hshape, fun hack => ?_⟩
    exact Ebb.raiseNext_one (e := (s.pad d).ebb.sampleRails x r w (s.pad d).aon.ticks) rfl rfl hack _
  · have hexec := exec_pswAck_sample hnf hsample hphase hone hdom hon hreq hack hstep
    obtain ⟨hfinds, hfault⟩ := State.sampleUp_finds (s := s) (d := d) (x := x) pr
    have hv : (s.modPad d fun q => q.sampleUp x.p).pad d = (s.pad d).sampleUp x.p := State.pad_modPad_same ..
    obtain ⟨hnone, hsome⟩ := State.sampleCheck_spec (s := s.modPad d fun q => q.sampleUp x.p) (d := d) (by rw [hv]; exact hprog) hbad
    obtain ⟨hkrovol, hpending⟩ := exec_keeps hexec
    obtain ⟨hback, havs, hoff⟩ := Paddock.checked_spec (x := x) ((s.pad d).sampleUp x.p) s.krovol
    refine ⟨_, hexec, hkrovol, hpending, ?_⟩
    cases hfound : (s.modPad d fun q => q.sampleUp x.p).sampleFinds d x pr with
    | none =>
      rw [← hfinds, hfound, hnone hfound, State.pad_modPad_same, hv]
      exact ⟨rfl, hoff, fun _ => ⟨((State.OnlyPad.refl s d).modPad _).modPad _, hback, havs, rfl⟩, fun i hi => nomatch hi⟩
    | some j =>
      rw [← hfinds, hfound, hsome j hfound, State.nfWake_eq, State.pad_modPads, State.pad_modPad_same, hv]
      obtain ⟨hexit, hended, -, hcount, hkept, hreqs⟩ := Paddock.nfWoken_inside (rails := s.krovol.rails) (a := a)
        (q := { ((s.pad d).sampleUp x.p).checked x s.krovol.railList with
          aon := { (((s.pad d).sampleUp x.p).checked x s.krovol.railList).aon with
            nfMismatch := some ((s.modPad d fun q => q.sampleUp x.p).sampleFault d x pr j) } }) hnf
      refine ⟨hcount, hreqs _ hoff, fun h => absurd h (Option.some_ne_none j), fun i hi => ⟨hexit, hended, ?_⟩⟩
      obtain rfl := Option.some.inj hi
      exact hkept.trans (congrArg some (hfault j))

end Sys2Proof.Machine
end

section
/-!
The statement O39 (06 R158, R163).
-/

namespace Sys2Proof.Machine

/-- A sweep at set 0 of way 3. -/
def sweepOfWay3 : PoolSweep := { way := 3, old := 3, new := 16, ptr := 0, kind := .disable }

/-- A tag entry whose check fails. -/
def badWay : PoolTagRec := ⟨0, false, false, false, false, 0, 0⟩

/-- Its way is being swept, and its entry stands before that of a dirty line under the same index. -/
def State.twiceSwept : State := State.oneDie.modPad 0 fun q => { q with
  folds := vmod q.folds 0 fun f => { f with poolSweep := [sweepOfWay3], poolTag := [(3, badWay), (3, dirtyWay.seal)] } }

set_option maxRecDepth 8000 in
/-- The sweep's step writes the dirty line to memory. -/
theorem twiceSwept_writes : (((State.twiceSwept.waySweepAt 0 0).pad 0).folds[(0 : PFold)]).memQ.length = 1 := by decide +kernel

/-- Refutes O39: where the Pool's map holds an index twice, as the statement's arbitrary fold may, the sweep drops the entry
that fails, finds the dirty line behind it, and writes that to memory. -/
theorem not_sweepsGoSetBySet : ¬ Obligations.SweepsGoSetBySet := by
  unfold Obligations.SweepsGoSetBySet
  intro h
  have hrun : (State.twiceSwept.pad 0).foldRuns 0 = true := by decide +kernel
  have hset : (((State.twiceSwept.pad 0).folds[(0 : PFold)]).pset 0).ok = true := by decide +kernel
  have hslot : ((State.twiceSwept.pad 0).folds[(0 : PFold)]).pullFrom ≤ (State.twiceSwept.pad 0).aon.hcycle := by decide +kernel
  have hpull : (State.twiceSwept.fc 0 0).pull = none := by decide +kernel
  have hbad : (((State.twiceSwept.pad 0).folds[(0 : PFold)]).ptag 0 3).ok = false := by decide +kernel
  have hfails : (State.twiceSwept.pad 0).aon.wayFails = [] := by decide +kernel
  have hways : ∀ w, ((State.twiceSwept.pad 0).folds[(0 : PFold)]).poolPhysAt 0 w = some 3 →
      ((State.twiceSwept.pad 0).folds[(0 : PFold)]).isCacheWay 0 w = true := by decide +kernel
  obtain ⟨-, hgoes⟩ := h State.twiceSwept 0 0 sweepOfWay3 hrun rfl (by decide) hset
  obtain ⟨hfailing, -⟩ := hgoes hslot hpull
  obtain ⟨t, hexec, -, -, -, -, hmem, -⟩ := hfailing (.inl rfl) hbad hfails hways
  have hswept : t = State.twiceSwept.waySweepAt 0 0 := (Host.Outcome.next.inj hexec).symm
  have hwritten := twiceSwept_writes
  rw [← hswept, hmem] at hwritten
  exact absurd hwritten (by decide +kernel)

end Sys2Proof.Machine
end

section
/-!
The statement O40 (12 R322, R333, 17 R457).
-/

namespace Sys2Proof.Machine

/-- A Tally way copy at its last row. -/
def lastRow : WayCopy := { way := 2, old := 2, new := 16, ptr := 8191 }

/-- A fold at the last row of a copy, whose first Census counter counts what it files of class CE. -/
def State.countedCopy : State := State.oneDie.modPad 0 fun q => { q with
  folds := vmod q.folds 0 fun f => { f with
    tallyCopy := [lastRow]
    census := { f.census with ctr := vset f.census.ctr 0 { sel := 0x32, en := true } } } }

/-- The report 0x220 at the end of the copy is counted. -/
theorem countedCopy_counts :
    ∃ t, exec (.wayCopy 0 0 .tally) State.countedCopy = .next t ∧
      (((t.pad 0).folds[(0 : PFold)]).census.ctr[(0 : Fin 8)]).val = 1 := by
  refine ⟨_, rfl, ?_⟩
  decide +kernel

/-- Refutes O40: the end of a Tally copy files 0x220, which a Census counter set to it counts, where the statement has the
fold's Census as it was. -/
theorem not_copiesAndScrubsGoByEntry : ¬ Obligations.CopiesAndScrubsGoByEntry := by
  unfold Obligations.CopiesAndScrubsGoByEntry
  intro h
  have hclocked : State.countedCopy.Clocked 0 0 := by decide +kernel
  have hidle : ((State.countedCopy.pad 0).folds[(0 : PFold)]).pullFrom ≤ (State.countedCopy.pad 0).aon.hcycle ∧
      (State.countedCopy.fc 0 0).pull = none := by decide +kernel
  have hold : smFind ((State.countedCopy.pad 0).folds[(0 : PFold)]).tally (lastRow.ptr * 17 + lastRow.old) = none := by decide +kernel
  have hlog : (State.countedCopy.pad 0).aon.hlog = [] := by decide +kernel
  have hpend : ((State.countedCopy.pad 0).folds[(0 : PFold)]).tallyPend = [] := by decide +kernel
  obtain ⟨-, hcopies, -⟩ := h State.countedCopy 0 0 hclocked
  obtain ⟨-, -, -, hlast⟩ := hcopies lastRow [] hidle rfl
  obtain ⟨t, hexec, -, -, hfold, -⟩ := hlast rfl hold hpend hlog
  obtain ⟨u, hcounted, hval⟩ := countedCopy_counts
  obtain rfl := Host.Outcome.next.inj (hcounted.symm.trans hexec)
  rw [hfold] at hval
  exact absurd hval (by decide +kernel)

end Sys2Proof.Machine
end

section
/-!
The switch of a logical fold to the incoming one, and the statement O41 (12 R324, R327).
-/

namespace Sys2Proof.Machine

section
variable {s : State} {d lead : Die} {n : LFold} {id : Nat} {m : FoldMove}

/-- The fold that comes in takes the scrub of the fold left, and its memory credits. -/
def State.raceFolds (s : State) (d : Die) (m : FoldMove) : State :=
  ((s.modFold d m.dst fun g => { g with scrub := ((s.pad d).folds[m.src]).scrub }).modFold d m.src fun f =>
    { f with scrub := none }).modFold d m.dst fun f => { f with rcred := s.krovol.rcred, wcred := s.krovol.wcred }

/-- A fold map in which physical fold `q` carries logical fold `n`. -/
def FoldMap.moved (y : FoldMap) (n : LFold) (q : PFold) : FoldMap :=
  { y with pfold := vset y.pfold n q, vacant := putBit y.vacant n.val false }

/-- The state whose fold maps are changed, and whose move waits for the fold left. -/
def State.raceMoved (s : State) (d lead : Die) (n : LFold) (id : Nat) (m : FoldMove) : State :=
  (((s.raceFolds d m).modFoldmap d fun y => y.moved n m.dst).modPad d fun q => { q with
    hurdle := { q.hurdle with switching := q.hurdle.switching.filter fun y => y != n } }).modMove lead id fun m => { m with step := 5 }

/-- The state after RACE_SWITCH: the fold left drains to OFF behind its fence. -/
def State.raced (s : State) (d lead : Die) (n : LFold) (id : Nat) (m : FoldMove) : State :=
  ((s.raceMoved d lead n id m).modPower d m.src fun x => { x with state := .drain, target := .off, gated := false }).fenceFold d m.src

/-- What RACE_SWITCH waits for (12 R324). -/
abbrev State.RaceReady (s : State) (d : Die) (id : Nat) (m : FoldMove) : Prop :=
  ((s.pad d).folds[m.src]).quiet = true ∧ s.jobOpen (jobOf id) = false ∧ (s.fc d m.src).recorded = [] ∧
    ((s.pad d).folds[m.src]).dirtyLines = [] ∧ m.millDone ((s.pad d).folds[m.src]) = true

theorem State.raceSwitchAt_eq (h : s.moveOf (fun m => m.d == d && m.n == n && m.step == 2) = some (lead, id, m)) :
    s.raceSwitchAt d n = if s.RaceReady d id m then s.raced d lead n id m else s := by
  unfold State.raceSwitchAt
  simp only [h]
  refine if_congr ?_ rfl rfl
  simp only [State.RaceReady, Bool.and_eq_true, Bool.not_eq_true', List.isEmpty_iff, and_assoc]

theorem State.raceMoved_frame {α : Type} {v : Paddock → α} (hhurdle : ∀ q y, v { q with hurdle := y } = v q)
    (hshep : ∀ q y, v { q with shep := y } = v q) :
    State.Frame v ((s.raceFolds d m).modFoldmap d fun y => y.moved n m.dst) (s.raceMoved d lead n id m) :=
  ((State.Frame.refl v _).modPad d _ fun q => hhurdle q _).modPad lead _ fun q => hshep q _

theorem State.raced_frame {α : Type} {v : Paddock → α} (hebb : ∀ q y, v { q with ebb := y } = v q) :
    (s.raceMoved d lead n id m).Frame v (s.raced d lead n id m) :=
  ((State.Frame.refl v _).modPad d _ fun q => hebb q _).modPad d _ fun q => hebb q _

theorem State.raceFolds_frame {α : Type} {v : Paddock → α} (hfolds : ∀ q y, v { q with folds := y } = v q) :
    s.Frame v (s.raceFolds d m) :=
  (((State.Frame.refl v s).modPad d _ fun q => hfolds q _).modPad d _ fun q => hfolds q _).modPad d _ fun q => hfolds q _

/-- Every copy of the fold map gives the logical fold to the fold that comes in. -/
theorem State.repl_raced (x : Die) : ((s.raced d lead n id m).pad x).repl = { (s.pad x).repl with
    foldmap := vmod (s.pad x).repl.foldmap d fun y => y.moved n m.dst } := by
  have hlate := (State.raced_frame (s := s) (d := d) (lead := lead) (n := n) (id := id) (m := m) (v := fun q => q.repl)
    fun _ _ => rfl).pads x
  have hmoved := (State.raceMoved_frame (s := s) (d := d) (lead := lead) (n := n) (id := id) (m := m) (v := fun q => q.repl)
    (fun _ _ => rfl) fun _ _ => rfl).pads x
  have hfolds := (State.raceFolds_frame (s := s) (d := d) (m := m) (v := fun q => q.repl) fun _ _ => rfl).pads x
  refine hlate.trans (hmoved.trans ?_)
  simp only [State.modFoldmap, State.pad_modPads]
  rw [show ((s.raceFolds d m).pad x).repl = _ from hfolds]

/-- The folds of the paddock after the switch. -/
theorem State.folds_raced : ((s.raced d lead n id m).pad d).folds = ((s.raceFolds d m).pad d).folds := by
  have hlate := (State.raced_frame (s := s) (d := d) (lead := lead) (n := n) (id := id) (m := m) (v := fun q => q.folds)
    fun _ _ => rfl).pads d
  have hmoved := (State.raceMoved_frame (s := s) (d := d) (lead := lead) (n := n) (id := id) (m := m) (v := fun q => q.folds)
    (fun _ _ => rfl) fun _ _ => rfl).pads d
  refine hlate.trans (hmoved.trans ?_)
  simp only [State.modFoldmap, State.pad_modPads]

theorem State.raceFolds_spec (hne : m.src ≠ m.dst) :
    ((s.raceFolds d m).pad d).folds[m.dst] = { (s.pad d).folds[m.dst] with
      scrub := ((s.pad d).folds[m.src]).scrub, rcred := s.krovol.rcred, wcred := s.krovol.wcred } ∧
    ((s.raceFolds d m).pad d).folds[m.src] = { (s.pad d).folds[m.src] with scrub := none } := by
  simp only [State.raceFolds, State.modFold, State.pad_modPad_same]
  refine ⟨?_, ?_⟩
  · rw [vmod_get_same, vmod_get_other _ _ _ _ hne.symm, vmod_get_same]
  · rw [vmod_get_other _ _ _ _ hne, vmod_get_same, vmod_get_other _ _ _ _ hne]

theorem State.modFoldmap_tether (u : State) (x : Die) (f : FoldMap → FoldMap) : (u.modFoldmap x f).tether = u.tether := by
  unfold State.modFoldmap
  exact State.modPads_tether ..

theorem State.tether_raced : (s.raced d lead n id m).tether = s.tether := by
  have hmap : ((s.raceFolds d m).modFoldmap d fun y => y.moved n m.dst).tether = (s.raceFolds d m).tether :=
    State.modFoldmap_tether ..
  have hlate : (s.raced d lead n id m).tether = (s.raceMoved d lead n id m).tether :=
    (State.raced_frame (v := fun _ => ()) fun _ _ => rfl).tether
  have hmoved : (s.raceMoved d lead n id m).tether = ((s.raceFolds d m).modFoldmap d fun y => y.moved n m.dst).tether :=
    (State.raceMoved_frame (v := fun _ => ()) (fun _ _ => rfl) fun _ _ => rfl).tether
  rw [hlate, hmoved, hmap]
  exact (State.raceFolds_frame (v := fun _ => ()) fun _ _ => rfl).tether

/-- Ebb of the paddock after the switch. -/
theorem State.ebb_raced : ((s.raced d lead n id m).pad d).ebb = { (s.pad d).ebb with
    fold := vmod (s.pad d).ebb.fold m.src fun x => { x with state := .drain, target := .off, gated := false }
    fenceReq := putBit (s.pad d).ebb.fenceReq (fordOfFold m.src) true } := by
  have hmoved := (State.raceMoved_frame (s := s) (d := d) (lead := lead) (n := n) (id := id) (m := m) (v := fun q => q.ebb)
    (fun _ _ => rfl) fun _ _ => rfl).pads d
  have hfolds := (State.raceFolds_frame (s := s) (d := d) (m := m) (v := fun q => q.ebb) fun _ _ => rfl).pads d
  simp only [State.modFoldmap, State.pad_modPads] at hmoved
  simp only [State.raced, State.fenceFold, State.fencePos, State.modPower, State.modEbb, State.pad_modPad_same]
  rw [hmoved, hfolds]
end

/-- Settles O41: the switch changes every fold map in one step, or nothing. -/
theorem raceSwitchMovesTheFold : Obligations.RaceSwitchMovesTheFold := by
  unfold Obligations.RaceSwitchMovesTheFold
  intro s d lead n id m hmove hne
  have hswitch := State.raceSwitchAt_eq hmove
  refine ⟨fun hnot => ?_, fun hready => ?_⟩
  · rw [if_neg hnot] at hswitch
    exact congrArg Host.Outcome.next hswitch
  · rw [if_pos hready] at hswitch
    have hexec : exec (.raceSwitch d n) s = .next (s.raced d lead n id m) := congrArg Host.Outcome.next hswitch
    obtain ⟨hdst, hsrc⟩ := State.raceFolds_spec (s := s) (d := d) hne
    rw [← State.folds_raced (lead := lead) (n := n) (id := id)] at hdst hsrc
    refine ⟨_, hexec, (exec_keeps hexec).1, State.tether_raced, (exec_keeps hexec).2, State.repl_raced, ?_, ?_, ?_, hsrc, ?_, ?_⟩
    · rw [hdst]
    · rw [hdst]
    · rw [hdst]
    · rw [State.ebb_raced]
      exact vset_get_same ..
    · rw [State.ebb_raced]

end Sys2Proof.Machine
end

section
/-!
The route-epoch switch of a leader, from its tables to the event that tells the new population (10 R273).
-/

namespace Sys2Proof.Machine

/-- What a switch may change of a paddock, and what it keeps for sure: all but routes, reports, events and the leader's
own notes. -/
def Paddock.switchView (q : Paddock) : Repl × BitVec 8 × Bool × Vector AgentPort 4 × Vector AgentPort 24 × Boot ×
    Patch × List Deferred × Vector ReplyQueue 64 × BitVec 8 :=
  (q.repl, q.stream.epoch, q.stream.hold, q.gates, q.stiles, q.boot, q.shep.patch, q.shep.deferred, q.shep.rq, q.conf.unreach)

section
variable {α : Type} {p : Paddock → α} {s t : State}

/-- An event changes its leader's event queues; a queue whose pointers differ is reported. -/
theorem State.Frame.eventQueues (h : s.Frame p t) (hbell : ∀ q b, p { q with bell := b } = p q)
    (heq : ∀ q x, p { q with shep := { q.shep with eq := x } } = p q) (own : Die) (kind : Nat) (d : Die) (arg : Nat) :
    s.Frame p (t.eventFrom own kind d arg) := by
  unfold State.eventFrom
  split
  · exact h
  next l _ =>
    refine State.Frame.modPad (h.foldl _ _ fun u e hu => .ite ?_ hu) _ _ fun q => heq q _
    unfold State.eqCheck
    exact .ite hu ((hu.modPad _ _ fun q => heq q _).file hbell _ rfl)

theorem State.Frame.turned (h : s.Frame p t) (hturn : ∀ q e b, p { q with stream := q.stream.setTurn e b } = p q)
    (ds : List Die) : s.Frame p (t.setTurns ds) :=
  h.foldl _ _ fun _ d hu => hu.foldl _ _ fun _ _ hv => hv.modPad d _ fun q => hturn q _ _

/-- The tables of a switch are detours, edges and the switch's own record. -/
theorem State.Frame.switchTables (h : s.Frame p t) (hdetour : ∀ q x, p { q with stream := { q.stream with detour := x } } = p q)
    (hedge : ∀ q x, p { q with conf := { q.conf with edge := x } } = p q)
    (hsw : ∀ q x, p { q with shep := { q.shep with sw := x } } = p q) (lead : Die) (w : EpochSwitch) :
    s.Frame p (t.switchTables lead w) := by
  refine State.Frame.ite (h.modPad _ _ fun q => hsw q _) (State.Frame.modPad (State.Frame.writePaces ?_ hedge _ _) _ _ fun q => hsw q _)
  exact h.foldl _ _ fun _ d hu => (hu.foldl _ _ fun _ _ hv => hv.modPad d _ fun q => hedge q _).modPad d _ fun q => hdetour q _

end

/-- A paddock that the switch concerns: its tables are the new population's, it admits requests, and a member of the old
population `old` shows the new one. -/
def Paddock.joinsEpoch (q : Paddock) (d : Die) (old present : BitVec 8) : Paddock :=
  { q with
    repl := { q.repl with present := if bitAt old d.val then present else q.repl.present }
    stream := { q.stream with epoch := q.stream.epoch + 1, hold := false }
    folds := q.folds.map Fold.shareRecords }

/-- The switch up to the event of the new population. -/
def State.switches (s : State) (lead : Die) (w : EpochSwitch) : State :=
  let u := s.switchTables lead w
  let old := (u.pad lead).repl.present
  let ds := u.switchDies lead w
  let u := ds.foldl (fun u d => u.modPad d fun q => q.joinsEpoch d old w.present) (u.setTurns ds)
  let u := u.modShep lead fun x => { x with sw := none }
  if w.present == old then u
  else u.eventFrom lead 5 ((dies.find? fun d => bitAt (w.present ^^^ old) d.val).getD lead) w.present.toNat

section
variable {s : State} {l : Die} {w : EpochSwitch}

theorem State.switchCycleOf_early (hsw : (s.pad l).shep.sw = some w) (h : (s.pad l).now < w.start + 12000) :
    s.switchCycleOf l = s := by
  simp only [State.switchCycleOf, hsw, if_pos h]

theorem State.switchCycleOf_alone (hsw : (s.pad l).shep.sw = some w) (hop : w.forOp = none)
    (h : w.start + 12000 ≤ (s.pad l).now) : s.switchCycleOf l = (s.switches l w).recheckDue l := by
  simp only [State.switchCycleOf, hsw, hop, if_neg (Nat.not_lt.mpr h)]
  rfl

theorem State.switchCycleOf_op {id : Nat} (hsw : (s.pad l).shep.sw = some w) (hop : w.forOp = some id)
    (h : w.start + 12000 ≤ (s.pad l).now) :
    s.switchCycleOf l = ((s.switches l w).switchEnd l id).recheckDue l := by
  simp only [State.switchCycleOf, hsw, hop, if_neg (Nat.not_lt.mpr h)]
  rfl

theorem exec_switch (hl : s.leaders = [l]) : exec .routeEpochSwitchCycle s = .next (s.switchCycleOf l) :=
  congrArg Host.Outcome.next (congrArg (fun a : List Die => a.foldl State.switchCycleOf s) hl)

theorem State.frame_switchTables (s : State) (l : Die) (w : EpochSwitch) : s.Frame Paddock.switchView (s.switchTables l w) :=
  (State.Frame.refl _ s).switchTables (fun _ _ => rfl) (fun _ _ => rfl) (fun _ _ => rfl) l w

theorem State.switchDies_congr {t : State} (h : ∀ x, (t.pad x).switchView = (s.pad x).switchView) :
    t.switchDies l w = s.switchDies l w := by
  have hl := h l
  simp only [Paddock.switchView, Prod.mk.injEq] at hl
  obtain ⟨hrepl, -, -, -, -, -, -, -, -, hunreach⟩ := hl
  simp only [State.switchDies, State.reaches, State.member, hrepl, hunreach]

theorem State.nodup_switchDies (s : State) (l : Die) (w : EpochSwitch) : (s.switchDies l w).Nodup :=
  (List.nodup_finRange 8).filter _

/-- Every paddock after the switch: those concerned as `Paddock.joinsEpoch` says, the others as they were. -/
theorem State.switches_spec (s : State) (l : Die) (w : EpochSwitch) :
    (s.switches l w).tether = s.tether ∧ ((s.switches l w).pad l).shep.sw = none ∧
    ∀ d, ((s.switches l w).pad d).switchView =
      (if d ∈ s.switchDies l w then (s.pad d).joinsEpoch d (s.pad l).repl.present w.present else s.pad d).switchView := by
  let u1 := s.switchTables l w
  let old := (u1.pad l).repl.present
  let ds := u1.switchDies l w
  let u2 := u1.setTurns ds
  let u3 := ds.foldl (fun u d => u.modPad d fun q => q.joinsEpoch d old w.present) u2
  let u4 := u3.modShep l fun x => { x with sw := none }
  have h1 := s.frame_switchTables l w
  have hds : ds = s.switchDies l w := State.switchDies_congr h1.pads
  have hold : old = (s.pad l).repl.present := congrArg (fun v => v.1.present) (h1.pads l)
  have h2 : s.Frame Paddock.switchView u2 := h1.turned (fun _ e _ => by cases e <;> rfl) ds
  have h3 (d : Die) : u3.pad d = if d ∈ ds then (u2.pad d).joinsEpoch d old w.present else u2.pad d :=
    State.pad_foldl_modPad (fun d q => q.joinsEpoch d old w.present) ds (u1.nodup_switchDies l w) u2 d
  have h3t : u3.tether = s.tether := by
    have hfold : u2.Frame (fun _ => ()) u3 := (State.Frame.refl _ u2).foldl _ _ fun _ d hu => hu.modPad d _ fun _ => rfl
    exact hfold.tether.trans h2.tether
  have h4 : u3.Frame Paddock.switchView u4 := (State.Frame.refl _ u3).modPad l _ fun _ => rfl
  have hframe {α : Type} {p : Paddock → α} (hbell : ∀ q b, p { q with bell := b } = p q)
      (heq : ∀ q x, p { q with shep := { q.shep with eq := x } } = p q) : u4.Frame p (s.switches l w) :=
    .ite (.refl _ u4) ((State.Frame.refl p u4).eventQueues hbell heq l 5 _ _)
  have h5 : u4.Frame Paddock.switchView (s.switches l w) := hframe (fun _ _ => rfl) fun _ _ => rfl
  have h5s : u4.Frame (fun q => q.shep.sw) (s.switches l w) := hframe (fun _ _ => rfl) fun _ _ => rfl
  refine ⟨h5.tether.trans (h4.tether.trans h3t), (h5s.pads l).trans ?_, fun d => ?_⟩
  · rw [State.pad_modShep_same]
  · rw [h5.pads, h4.pads, h3, hds, hold]
    have hd := h2.pads d
    split
    · simp only [Paddock.switchView, Prod.mk.injEq] at hd
      obtain ⟨hrepl, hepoch, -, hgates, hstiles, hboot, hpatch, hdef, hrq, hunreach⟩ := hd
      simp only [Paddock.switchView, Paddock.joinsEpoch, hrepl, hepoch, hgates, hstiles, hboot, hpatch, hdef, hrq, hunreach]
    · exact hd

/-- A switch that ends no command (10 R273). -/
theorem exec_switch_alone (hl : s.leaders = [l]) (hsw : (s.pad l).shep.sw = some w) (hop : w.forOp = none)
    (hdue : w.start + 12000 ≤ (s.pad l).now) :
    ∃ t, exec .routeEpochSwitchCycle s = .next t ∧ t.krovol = s.krovol ∧ t.tether = s.tether ∧ t.pending = s.pending ∧
      (t.pad l).shep.sw = none ∧ ∀ d,
      (d ∈ s.switchDies l w →
        (t.pad d).stream.epoch = (s.pad d).stream.epoch + 1 ∧ (t.pad d).stream.hold = false ∧
        (bitAt (s.pad l).repl.present d.val = true → (t.pad d).repl.present = w.present)) ∧
      (d ∉ s.switchDies l w →
        (t.pad d).stream.epoch = (s.pad d).stream.epoch ∧ (t.pad d).stream.hold = (s.pad d).stream.hold) ∧
      (t.pad d).gates = (s.pad d).gates ∧ (t.pad d).stiles = (s.pad d).stiles := by
  have hexec := (exec_switch hl).trans (congrArg Host.Outcome.next (State.switchCycleOf_alone hsw hop hdue))
  obtain ⟨hk, hp⟩ := exec_keeps hexec
  obtain ⟨htether, hnone, hview⟩ := s.switches_spec l w
  have hrecheck {α : Type} {p : Paddock → α} (hp : ∀ q x, p { q with shep := { q.shep with recheck := x } } = p q) :
      (s.switches l w).Frame p ((s.switches l w).recheckDue l) := (State.Frame.refl _ _).recheckDue hp l
  have hcalm := hrecheck (p := Paddock.switchView) fun _ _ => rfl
  refine ⟨_, hexec, hk, hcalm.tether.trans htether, hp, ((hrecheck (p := fun q => q.shep.sw) fun _ _ => rfl).pads l).trans hnone,
    fun d => ?_⟩
  have hd := (hcalm.pads d).trans (hview d)
  by_cases hin : d ∈ s.switchDies l w
  · rw [if_pos hin] at hd
    simp only [Paddock.switchView, Paddock.joinsEpoch, Prod.mk.injEq] at hd
    obtain ⟨hrepl, hepoch, hhold, hgates, hstiles, -⟩ := hd
    refine ⟨fun _ => ⟨hepoch, hhold, fun hold => ?_⟩, fun h => absurd hin h, hgates, hstiles⟩
    rw [hrepl]
    exact if_pos hold
  · rw [if_neg hin] at hd
    simp only [Paddock.switchView, Prod.mk.injEq] at hd
    obtain ⟨-, hepoch, hhold, hgates, hstiles, -⟩ := hd
    exact ⟨fun h => absurd h hin, fun _ => ⟨hepoch, hhold⟩, hgates, hstiles⟩

end

end Sys2Proof.Machine
end

section
/-!
The final DONE of a join or a fence, and what flushing a die's queues leaves (10 R272, R276, 15 R426).
-/

namespace Sys2Proof.Machine

/-- The last open command of a Shepherd ends with its final reply, its reply queue empty. -/
theorem State.finish_one {t : State} {d : Die} {o : Deferred} (hdef : (t.pad d).shep.deferred = [o]) (hloud : o.pkt.quiet = false)
    (hrq : ((t.pad d).shep.rq[o.pkt.q]).Empty) :
    t.finish d o.id .done [] = t.modShep d fun x => { x with
      deferred := []
      rq := vmod x.rq o.pkt.q fun y => { y with
        replies := [{ pri := o.pkt.pri, words := replyWords o.pkt.opc o.pkt.tag o.pkt.pri o.pkt.seq .done [] }]
        tail := y.tail.add 2 } } := by
  have htake : takeFirst (fun x : Deferred => x.id == o.id) (t.pad d).shep.deferred = some (o, []) := by
    rw [hdef]
    exact takeFirst_one (beq_self_eq_true _)
  have hempty : (((t.modShep d fun x => { x with deferred := [] }).pad d).shep.rq[o.pkt.q]).Empty := by
    rw [State.pad_modShep_same]
    exact hrq
  simp only [State.finish, htake]
  rw [State.answer_final (by rw [hloud]; rfl) hempty (Nat.zero_le _), State.modRq, State.modShep, State.modShep, State.modPad_modPad]
  rfl

/-! ### Every queue of a Shepherd is flushed -/

/-- What the flush of a Shepherd's queues keeps of every paddock. -/
def Paddock.flushView (q : Paddock) : Repl × Boot × Conf × Patch × List Deferred × Option EpochSwitch :=
  (q.repl, q.boot, q.conf, q.shep.patch, q.shep.deferred, q.shep.sw)

/-- Only the queues of `x`, its reports and register ports differ: no other Shepherd. -/
def State.Flushes (s t : State) (x : Die) : Prop :=
  ∀ y, (t.pad y).flushView = (s.pad y).flushView ∧ (y ≠ x → (t.pad y).shep = (s.pad y).shep)

section
variable {s t : State} {x : Die}

theorem State.Flushes.refl (s : State) (x : Die) : s.Flushes s x := fun _ => ⟨rfl, fun _ => rfl⟩

theorem State.Flushes.modPad (h : s.Flushes t x) {f : Paddock → Paddock} (hf : ∀ q, (f q).flushView = q.flushView) :
    s.Flushes (t.modPad x f) x := by
  intro y
  obtain ⟨hview, hshep⟩ := h y
  by_cases hy : y = x
  · subst hy
    rw [State.pad_modPad_same]
    exact ⟨(hf _).trans hview, fun hne => absurd rfl hne⟩
  · rw [State.pad_modPad, if_neg hy]
    exact ⟨hview, hshep⟩

theorem State.Flushes.modRq (h : s.Flushes t x) (q : QN) (f : ReplyQueue → ReplyQueue) : s.Flushes (t.modRq x q f) x :=
  h.modPad (f := fun p => { p with shep := { p.shep with rq := vmod p.shep.rq q f } }) fun _ => rfl

theorem State.Flushes.modCq (h : s.Flushes t x) (q : QN) (f : CmdQueue → CmdQueue) : s.Flushes (t.modCq x q f) x :=
  h.modPad (f := fun p => { p with shep := { p.shep with cq := vmod p.shep.cq q f } }) fun _ => rfl

theorem State.Flushes.modEq (h : s.Flushes t x) (f : Vector EventQueue 32 → Vector EventQueue 32) :
    s.Flushes (t.modShep x fun y => { y with eq := f y.eq }) x :=
  h.modPad (f := fun p => { p with shep := { p.shep with eq := f p.shep.eq } }) fun _ => rfl

theorem State.Flushes.portDone (h : s.Flushes t x) (w : Who) : s.Flushes (t.portDone w) x := by
  intro y
  unfold State.portDone State.portEnds
  split
  · exact h y
  · rw [State.pad_modPad]
    split
    next hy => subst hy; split <;> exact h _
    next => exact h y

theorem State.Flushes.file (h : s.Flushes t x) {r : Report} (hsubj : dieOf r.subject = x) (hr : r.fromFold = none) :
    s.Flushes (t.file x r) x := by
  rw [State.file_own hsubj hr]
  exact h.modPad fun _ => rfl

theorem State.Flushes.queueRep (h : s.Flushes t x) (code detail : Nat) : s.Flushes (t.queueRep x code detail) x :=
  h.file (by simp [shepAgent]) rfl

theorem State.Flushes.ite {c : Prop} [Decidable c] {u : State} (ht : s.Flushes t x) (hu : s.Flushes u x) :
    s.Flushes (if c then t else u) x := by
  split <;> assumption

theorem State.Flushes.rqCheck (h : s.Flushes t x) (q : QN) : s.Flushes (t.rqCheck x q) x := by
  unfold State.rqCheck
  exact .ite h (((h.modRq q _).queueRep _ _).modRq q _)

theorem State.Flushes.cqEmpty (h : s.Flushes t x) (q : QN) : s.Flushes (t.cqEmpty x q) x := by
  have hreset : s.Flushes (t.cqReset x q) x := by
    unfold State.cqReset State.post
    exact .ite h ((((h.modCq q _).queueRep _ _).rqCheck q).modRq q _)
  exact foldl_keeps (P := fun u => State.Flushes s u x) _ (fun u y hu => hu.portDone y.1) (hreset.modCq q _)

theorem State.Flushes.rqEmpty (h : s.Flushes t x) (q : QN) : s.Flushes (t.rqEmpty x q) x :=
  .ite (h.modRq q _) (h.rqCheck q)

theorem State.Flushes.eqEmpty (h : s.Flushes t x) (e : EQN) : s.Flushes (t.eqEmpty x e) x := by
  unfold State.eqEmpty State.eqCheck
  exact .ite (h.modEq fun v => vmod v e _) (.ite h ((h.modEq fun v => vset v e _).queueRep _ _))

theorem State.flushes_queuesEmpty (s : State) (x : Die) : s.Flushes (s.queuesEmpty x) x :=
  foldl_keeps (P := fun u => State.Flushes s u x) _ (fun _ e hu => hu.eqEmpty e)
    (foldl_keeps (P := fun u => State.Flushes s u x) _ (fun _ q hu => (hu.cqEmpty q).rqEmpty q) (.refl s x))

/-- A command queue holds no word. -/
def State.CqClear (s : State) (x : Die) (q : QN) : Prop := ((s.pad x).shep.cq[q]).packets = [] ∧ ((s.pad x).shep.cq[q]).words = []

theorem State.CqClear.congr {q : QN} (h : s.CqClear x q) (hcq : (t.pad x).shep.cq = (s.pad x).shep.cq) : t.CqClear x q := by
  unfold State.CqClear at h ⊢
  rwa [hcq]

/-- A change of one queue that empties it clears it and leaves a clear queue clear. -/
theorem State.cqClear_modCq {q r : QN} {f : CmdQueue → CmdQueue} (hf : ∀ y, (f y).packets = [] ∧ (f y).words = [])
    (h : q = r ∨ s.CqClear x q) : (s.modCq x r f).CqClear x q := by
  have hcq : ((s.modCq x r f).pad x).shep.cq = vmod (s.pad x).shep.cq r f := by rw [State.modCq, State.pad_modShep_same]
  simp only [State.CqClear, hcq]
  by_cases hq : q = r
  · subst hq
    rw [vmod_get_same]
    exact hf _
  · rw [vmod_get_other (h := hq)]
    exact h.resolve_left hq

theorem State.cq_portDone (w : Who) : ((s.portDone w).pad x).shep.cq = (s.pad x).shep.cq := by
  unfold State.portDone State.portEnds
  split
  · rfl
  · rw [State.pad_modPad]
    split
    next hx => subst hx; split <;> rfl
    next => rfl

theorem State.frame_rqCheck (s : State) (x : Die) (q : QN) : s.Frame (fun p => p.shep.cq) (s.rqCheck x q) := by
  unfold State.rqCheck
  have hrq {u v : State} (h : u.Frame (fun p => p.shep.cq) v) (f : ReplyQueue → ReplyQueue) :
      u.Frame (fun p => p.shep.cq) (v.modRq x q f) :=
    h.modPad x (fun p => { p with shep := { p.shep with rq := vmod p.shep.rq q f } }) fun _ => rfl
  exact .ite (.refl _ s) (hrq ((hrq (.refl _ s) _).file (fun _ _ => rfl) x rfl) _)

theorem State.cqClear_cqEmpty {q r : QN} (h : q = r ∨ s.CqClear x q) : ((s.cqEmpty x r).rqEmpty x r).CqClear x q := by
  have hreset : q = r ∨ (s.cqReset x r).CqClear x q := by
    refine h.imp_right fun hq => ?_
    unfold State.cqReset State.post
    dsimp only
    split
    · exact hq
    · have hrep {u : State} (hu : u.CqClear x q) (code detail : Nat) : (u.queueRep x code detail).CqClear x q :=
        hu.congr (((State.Frame.refl (fun p => p.shep.cq) u).file (fun _ _ => rfl) x rfl).pads x)
      have hcheck := hrep (State.cqClear_modCq (r := r) (f := fun y => { y.flush with stalled := y.stalled }) (fun _ => ⟨rfl, rfl⟩) (.inr hq)) 0xC20 r.val
      refine (hcheck.congr ((State.frame_rqCheck _ x r).pads x)).congr ?_
      rw [State.modRq, State.pad_modShep_same]
  have hempty : (s.cqEmpty x r).CqClear x q :=
    foldl_keeps (P := fun u => State.CqClear u x q) _ (fun _ y hu => hu.congr (State.cq_portDone y.1))
      (State.cqClear_modCq (fun _ => ⟨rfl, rfl⟩) hreset)
  unfold State.rqEmpty
  split
  · refine hempty.congr ?_
    rw [State.modRq, State.pad_modShep_same]
  · exact hempty.congr ((State.frame_rqCheck _ x r).pads x)

theorem State.frame_eqEmpty (s : State) (x : Die) (e : EQN) : s.Frame (fun p => p.shep.cq) (s.eqEmpty x e) := by
  have heq {v : State} (h : s.Frame (fun p => p.shep.cq) v) (f : Vector EventQueue 32 → Vector EventQueue 32) :
      s.Frame (fun p => p.shep.cq) (v.modShep x fun y => { y with eq := f y.eq }) :=
    h.modPad x (fun p => { p with shep := { p.shep with eq := f p.shep.eq } }) fun _ => rfl
  unfold State.eqEmpty State.eqCheck
  exact .ite (heq (.refl _ s) fun v => vmod v e _) (.ite (.refl _ s) ((heq (.refl _ s) fun v => vset v e _).file (fun _ _ => rfl) x rfl))

theorem State.cqClear_queuesEmpty (s : State) (x : Die) (q : QN) : (s.queuesEmpty x).CqClear x q := by
  have hqueues : ((List.finRange 64).foldl (fun u r => (u.cqEmpty x r).rqEmpty x r) s).CqClear x q :=
    foldl_reaches (P := fun _ => True) (Q := fun u => State.CqClear u x q) (l := List.finRange 64) (f := fun u r => (u.cqEmpty x r).rqEmpty x r)
      (List.mem_finRange q) (fun _ _ _ => trivial) (fun _ _ hu => State.cqClear_cqEmpty (.inr hu))
      (fun _ _ => State.cqClear_cqEmpty (.inl rfl)) trivial
  unfold State.queuesEmpty
  exact foldl_keeps (P := fun u => State.CqClear u x q) _ (fun u e hu => hu.congr ((u.frame_eqEmpty x e).pads x)) hqueues

end

end Sys2Proof.Machine
end

section
/-!
What the switch of a join and of a fence completes (10 R271, R272, R276, 15 R421, R426).
-/

namespace Sys2Proof.Machine

/-- What a final reply and the recheck that follows keep of every paddock. -/
def Paddock.endView (q : Paddock) : Repl × Boot × BitVec 8 × Patch × Vector CmdQueue 64 × Option EpochSwitch :=
  (q.repl, q.boot, q.conf.fenced, q.shep.patch, q.shep.cq, q.shep.sw)

/-- A switch's command ends with its final DONE, and the recheck of the envelopes is due. -/
theorem State.ended_spec {u : State} {l : Die} {o : Deferred} (hdef : (u.pad l).shep.deferred = [o]) (hloud : o.pkt.quiet = false)
    (hrq : ((u.pad l).shep.rq[o.pkt.q]).Empty) :
    let t := (u.finish l o.id .done []).recheckDue l
    (∀ y, (t.pad y).endView = (u.pad y).endView) ∧ (t.pad l).shep.deferred = [] ∧
      ((t.pad l).shep.rq[o.pkt.q]).replies =
        [{ pri := o.pkt.pri, words := replyWords o.pkt.opc o.pkt.tag o.pkt.pri o.pkt.seq .done [] }] := by
  intro t
  let v := u.finish l o.id .done []
  have hv : v = u.finish l o.id .done [] := rfl
  rw [State.finish_one hdef hloud hrq] at hv
  have hview : ∀ y, (v.pad y).endView = (u.pad y).endView := by
    intro y
    rw [hv, State.modShep, State.pad_modPad]
    split
    next hy => subst hy; rfl
    next => rfl
  have hdue : v.Frame (fun q => (q.endView, q.shep.deferred, q.shep.rq)) t := (State.Frame.refl _ v).recheckDue (fun _ _ => rfl) l
  have hl := hdue.pads l
  simp only [Prod.mk.injEq] at hl
  obtain ⟨-, hldef, hlrq⟩ := hl
  refine ⟨fun y => (congrArg Prod.fst (hdue.pads y)).trans (hview y), ?_, ?_⟩
  · rw [hldef, hv, State.pad_modShep_same]
  · rw [hlrq, hv, State.pad_modShep_same, vmod_get_same]

/-! ### A join -/

/-- A die that joins, its queues flushed: every replicated register of the leader `q`, the Range's patch and Census, READY;
`k` is the leader after the flush. -/
def Paddock.admitted (p q k : Paddock) (d : Die) : Paddock :=
  { p with
    repl := { q.repl with tideHi := p.repl.tideHi }
    conf := { p.conf with fenced := putBit k.conf.fenced d.val false }
    boot := { p.boot with ready := true, step := 10 }
    aon := { p.aon with nfProg := k.aon.nfProg }
    census := p.census.joined q.census p.now
    shep := { p.shep with patch := q.shep.patch } }

theorem State.pad_admitNow (s : State) (l x y : Die) : (s.admitNow l x).pad y =
    if y = x then ((s.queuesEmpty x).pad x).admitted (s.pad l) ((s.queuesEmpty x).pad l) x else (s.queuesEmpty x).pad y := by
  have hlock (u : State) (z : Die) : (u.lockAperture x).pad z = u.pad z := by
    unfold State.lockAperture
    split <;> rfl
  unfold State.admitNow
  generalize s.queuesEmpty x = u at hlock ⊢
  dsimp only
  rw [State.pad_modPad, hlock, hlock]
  split
  next hy => subst hy; rfl
  next => rfl

/-- The leader's registers once a join ends. -/
def Repl.joined (r : Repl) (x : Die) : Repl := { r with joinBusy := false, readyDies := putBit r.readyDies x.val false }

/-- The leader's registers once a fence ends. -/
def Repl.fenced (r : Repl) (x : Die) : Repl := { r with fenceBusy := false, leaving := putBit r.leaving x.val false }

section
variable {u : State} {l x : Die} {o : Deferred}

theorem State.switchEnd_join {b : Bool} (hdef : (u.pad l).shep.deferred = [o]) (hkind : o.kind = .join x b) :
    u.switchEnd l o.id = ((u.modRepl l fun r => r.joined x).admitNow l x).finish l o.id .done [] := by
  simp only [State.switchEnd, hdef, List.find?_cons, beq_self_eq_true, hkind]
  rfl

theorem State.switchEnd_fence {n : Nat} (hdef : (u.pad l).shep.deferred = [o]) (hkind : o.kind = .fence x n) :
    u.switchEnd l o.id =
      (let v := (u.modRepl l fun r => r.fenced x).modPad x fun q => { q with repl := q.repl.fenced x, boot := { q.boot with ready := false } }
       let v := (v.members l).foldl (fun v y => v.modConf y fun c => { c with fenced := putBit c.fenced x.val true }) v
       pfolds.foldl (fun v p => v.modFold x p fun f => { f with scrub := none }) v).finish l o.id .done [] := by
  simp only [State.switchEnd, hdef, List.find?_cons, beq_self_eq_true, hkind]
  rfl

theorem State.pad_modRepl (u : State) (l : Die) (f : Repl → Repl) (y : Die) : (u.modRepl l f).pad y =
    if y ∈ u.members l then { u.pad y with repl := f (u.pad y).repl } else u.pad y :=
  State.pad_members (s := u) (d := l) (fun q => { q with repl := f q.repl }) y

end

/-! ### The two parts of the switch together -/

section
variable {s : State} {l x : Die} {w : EpochSwitch}

theorem State.formed_of_leaders (hl : s.leaders = [l]) : bitAt (s.pad l).repl.present l.val = true := by
  have hmem : l ∈ s.leaders := hl ▸ List.mem_cons_self ..
  simp only [State.leaders, List.mem_filter, Bool.and_eq_true, State.inRange] at hmem
  obtain ⟨-, ⟨-, hmember⟩, -⟩ := hmem
  exact hmember

theorem State.mem_switchDies {d : Die} : d ∈ s.switchDies l w ↔ (bitAt (s.pad l).repl.present d.val = true ∧ s.reaches l d = true) ∨
    (bitAt w.present d.val = true ∧ bitAt (s.pad l).repl.present d.val = false) := by
  simp [State.switchDies, mem_dies]

/-- The leader after the switch: the new population, its own commands and replies as before. -/
theorem State.leader_switches (hl : s.leaders = [l]) :
    ((s.switches l w).pad l).repl = { (s.pad l).repl with present := w.present } ∧
    ((s.switches l w).pad l).shep.deferred = (s.pad l).shep.deferred ∧ ((s.switches l w).pad l).shep.rq = (s.pad l).shep.rq ∧
    ((s.switches l w).pad l).shep.patch = (s.pad l).shep.patch ∧ ((s.switches l w).pad l).shep.sw = none := by
  have hself := State.formed_of_leaders hl
  have hin : l ∈ s.switchDies l w := State.mem_switchDies.mpr (.inl ⟨hself, by simp [State.reaches]⟩)
  obtain ⟨-, hsw, hview⟩ := s.switches_spec l w
  have hd := hview l
  rw [if_pos hin] at hd
  simp only [Paddock.switchView, Paddock.joinsEpoch, Prod.mk.injEq, hself, if_true] at hd
  obtain ⟨hrepl, -, -, -, -, -, hpatch, hdef, hrq, -⟩ := hd
  exact ⟨hrepl, hdef, hrq, hpatch, hsw⟩

/-- What a switch ended with a command leaves, whatever the command changed outside its leader's queues. -/
theorem State.switched_ends {u : State} {o : Deferred} (hl : s.leaders = [l]) (hsw : (s.pad l).shep.sw = some w)
    (hop : w.forOp = some o.id) (hdef : (s.pad l).shep.deferred = [o]) (hdue : w.start + 12000 ≤ (s.pad l).now)
    (hrq : ((s.pad l).shep.rq[o.pkt.q]).Empty) (hloud : o.pkt.quiet = false)
    (hend : (s.switches l w).switchEnd l o.id = u.finish l o.id .done [])
    (hshep : (u.pad l).shep = ((s.switches l w).pad l).shep) (hpresent : (u.pad l).repl.present = w.present) :
    ∃ t, (exec .routeEpochSwitchCycle s = .next t ∧ t.krovol = s.krovol ∧ t.pending = s.pending ∧
       (t.pad l).shep.sw = none ∧ (t.pad l).shep.deferred = [] ∧ (t.pad l).repl.present = w.present ∧
       ((t.pad l).shep.rq[o.pkt.q]).replies =
         [{ pri := o.pkt.pri, words := replyWords o.pkt.opc o.pkt.tag o.pkt.pri o.pkt.seq .done [] }]) ∧
      ∀ y, (t.pad y).endView = (u.pad y).endView := by
  have hexec := (exec_switch hl).trans (congrArg Host.Outcome.next (State.switchCycleOf_op hsw hop hdue))
  obtain ⟨hk, hp⟩ := exec_keeps hexec
  obtain ⟨-, hdef', hrq', -, hnone⟩ := State.leader_switches (w := w) hl
  obtain ⟨hview, hempty, hreply⟩ := State.ended_spec (u := u) (l := l) (by rw [hshep, hdef', hdef]) hloud (by rw [hshep, hrq']; exact hrq)
  rw [hend] at hexec hk hp
  have hlv := hview l
  simp only [Paddock.endView, Prod.mk.injEq] at hlv
  obtain ⟨hrepl, -, -, -, -, hswl⟩ := hlv
  exact ⟨_, ⟨hexec, hk, hp, by rw [hswl, hshep, hnone], hempty, by rw [hrepl, hpresent], hreply⟩, hview⟩

end

end Sys2Proof.Machine
end

section
/-!
The ends of a join and of a fence, the recheck of the envelopes, the announcement of a ready die, and the statement O15
(10 R271 to R273, R276, 11 R302, R308).
-/

namespace Sys2Proof.Machine

/-! ### The switch of a join and of a fence -/

section
variable {s : State} {l x : Die} {w : EpochSwitch} {o : Deferred}

/-- The flush of a Shepherd's queues keeps every die's replicated registers, and other dies' Shepherds. -/
theorem State.queuesEmpty_repl_shep (v : State) (x y : Die) : ((v.queuesEmpty x).pad y).repl = (v.pad y).repl ∧
    (y ≠ x → ((v.queuesEmpty x).pad y).shep = (v.pad y).shep) := by
  obtain ⟨hview, hshep⟩ := v.flushes_queuesEmpty x y
  simp only [Paddock.flushView, Prod.mk.injEq] at hview
  obtain ⟨hrepl, -⟩ := hview
  exact ⟨hrepl, hshep⟩

/-- The leader's registers after the switch and what its command writes in every member. -/
theorem State.leader_modRepl (hl : s.leaders = [l]) (f : Repl → Repl) (hpresent : bitAt w.present l.val = true) :
    (((s.switches l w).modRepl l f).pad l).repl = f { (s.pad l).repl with present := w.present } := by
  obtain ⟨hrepl, -⟩ := State.leader_switches (w := w) hl
  have hmem : l ∈ (s.switches l w).members l := mem_diesOf.mpr (by rw [hrepl]; exact hpresent)
  rw [State.pad_modRepl, if_pos hmem, hrepl]

/-- DIE_JOIN's end (10 R272, 15 R421, R426). -/
theorem exec_switch_join {b : Bool} (hl : s.leaders = [l]) (hsw : (s.pad l).shep.sw = some w)
    (hop : w.forOp = some o.id) (hdef : (s.pad l).shep.deferred = [o]) (hdue : w.start + 12000 ≤ (s.pad l).now)
    (hrq : ((s.pad l).shep.rq[o.pkt.q]).Empty) (hloud : o.pkt.quiet = false) (hx : x ≠ l) (hkind : o.kind = .join x b)
    (hpresent : w.present = putBit (s.pad l).repl.present x.val true) :
    ∃ t, (exec .routeEpochSwitchCycle s = .next t ∧ t.krovol = s.krovol ∧ t.pending = s.pending ∧
       (t.pad l).shep.sw = none ∧ (t.pad l).shep.deferred = [] ∧ (t.pad l).repl.present = w.present ∧
       ((t.pad l).shep.rq[o.pkt.q]).replies =
         [{ pri := o.pkt.pri, words := replyWords o.pkt.opc o.pkt.tag o.pkt.pri o.pkt.seq .done [] }]) ∧
      (t.pad l).repl.joinBusy = false ∧ bitAt (t.pad l).repl.readyDies x.val = false ∧
      (t.pad x).repl = { (t.pad l).repl with tideHi := (s.pad x).repl.tideHi } ∧
      (t.pad x).boot.ready = true ∧ (t.pad x).boot.step = 10 ∧ (t.pad x).shep.patch = (s.pad l).shep.patch ∧
      ∀ q : QN, ((t.pad x).shep.cq[q]).packets = [] ∧ ((t.pad x).shep.cq[q]).words = [] := by
  have hbit : bitAt w.present l.val = true := by
    rw [hpresent, bitAt_putBit_of_ne _ _ fun h => hx (Fin.ext h)]
    exact State.formed_of_leaders hl
  let v := (s.switches l w).modRepl l fun r => r.joined x
  obtain ⟨u, hu⟩ : ∃ u, u = v.admitNow l x := ⟨_, rfl⟩
  obtain ⟨-, hdef', -, hpatch, -⟩ := State.leader_switches (w := w) hl
  have hvl : (v.pad l).repl = Repl.joined { (s.pad l).repl with present := w.present } x := State.leader_modRepl hl _ hbit
  obtain ⟨hlrepl, hlshep⟩ := v.queuesEmpty_repl_shep x l
  have hul : u.pad l = (v.queuesEmpty x).pad l := by rw [hu, State.pad_admitNow, if_neg hx.symm]
  have hux : u.pad x = ((v.queuesEmpty x).pad x).admitted (v.pad l) ((v.queuesEmpty x).pad l) x := by
    rw [hu, State.pad_admitNow, if_pos rfl]
  have hulrepl : (u.pad l).repl = (v.pad l).repl := by rw [hul, hlrepl]
  have htide : ((v.queuesEmpty x).pad x).repl.tideHi = (s.pad x).repl.tideHi := by
    obtain ⟨-, -, hview⟩ := s.switches_spec l w
    have hs : ((s.switches l w).pad x).repl.tideHi = (s.pad x).repl.tideHi := by
      have hd : ((s.switches l w).pad x).repl.tideHi = _ := congrArg (fun p => p.1.tideHi) (hview x)
      rw [hd]
      split <;> rfl
    rw [(v.queuesEmpty_repl_shep x x).1, ← hs, State.pad_modRepl]
    split <;> rfl
  obtain ⟨t, hends, htview⟩ := State.switched_ends (u := u) hl hsw hop hdef hdue hrq hloud
    (by rw [State.switchEnd_join (hdef'.trans hdef) hkind, hu])
    (by rw [hul, hlshep hx.symm]; exact State.shep_modRepl ..)
    (by rw [hulrepl, hvl]; rfl)
  have htl := htview l
  have htx := htview x
  simp only [Paddock.endView, Prod.mk.injEq] at htl htx
  obtain ⟨htlrepl, -⟩ := htl
  obtain ⟨htxrepl, htxboot, -, htxpatch, htxcq, -⟩ := htx
  have hclear := v.cqClear_queuesEmpty x
  simp only [State.CqClear] at hclear
  generalize (v.queuesEmpty x).pad x = p, (v.queuesEmpty x).pad l = k at hux htide hclear
  refine ⟨t, hends, ?_, ?_, ?_, ?_, ?_, ?_, fun q => ?_⟩
  · rw [htlrepl, hulrepl, hvl]; rfl
  · rw [htlrepl, hulrepl, hvl]
    exact bitAt_putBit_same _ _ x.isLt
  · rw [htxrepl, htlrepl, hulrepl, hux, ← htide]; rfl
  · rw [htxboot, hux]; rfl
  · rw [htxboot, hux]; rfl
  · rw [htxpatch, hux, ← hpatch, ← State.shep_modRepl _ l fun r => r.joined x]; rfl
  · rw [htxcq, hux]
    exact hclear q

/-- A member with what the leaving die's fence ends: the die waits for a PADRESET_N. -/
def Paddock.fencing (q : Paddock) (x : Die) : Paddock := { q with conf := { q.conf with fenced := putBit q.conf.fenced x.val true } }

/-- A paddock that a fence took out of the Range. -/
def Paddock.leaves (q : Paddock) (x : Die) : Paddock := { q with repl := q.repl.fenced x, boot := { q.boot with ready := false } }

/-- DIE_FENCE's end (10 R271, R276). -/
theorem exec_switch_fence {n : Nat} (hl : s.leaders = [l]) (hsw : (s.pad l).shep.sw = some w)
    (hop : w.forOp = some o.id) (hdef : (s.pad l).shep.deferred = [o]) (hdue : w.start + 12000 ≤ (s.pad l).now)
    (hrq : ((s.pad l).shep.rq[o.pkt.q]).Empty) (hloud : o.pkt.quiet = false) (hx : x ≠ l) (hkind : o.kind = .fence x n)
    (hpresent : w.present = putBit (s.pad l).repl.present x.val false) :
    ∃ t, (exec .routeEpochSwitchCycle s = .next t ∧ t.krovol = s.krovol ∧ t.pending = s.pending ∧
       (t.pad l).shep.sw = none ∧ (t.pad l).shep.deferred = [] ∧ (t.pad l).repl.present = w.present ∧
       ((t.pad l).shep.rq[o.pkt.q]).replies =
         [{ pri := o.pkt.pri, words := replyWords o.pkt.opc o.pkt.tag o.pkt.pri o.pkt.seq .done [] }]) ∧
      (t.pad l).repl.fenceBusy = false ∧ bitAt (t.pad l).repl.leaving x.val = false ∧
      (t.pad x).boot.ready = false ∧ ∀ y ∈ s.members l, y ≠ x → bitAt (t.pad y).conf.fenced x.val = true := by
  have hbit (y : Die) (hy : y ≠ x) : bitAt w.present y.val = bitAt (s.pad l).repl.present y.val := by
    rw [hpresent, bitAt_putBit_of_ne _ _ fun h => hy (Fin.ext h.symm)]
  have hself : bitAt w.present l.val = true := (hbit l hx.symm).trans (State.formed_of_leaders hl)
  let v1 := (s.switches l w).modRepl l fun r => r.fenced x
  let v2 := v1.modPad x fun q => q.leaves x
  let v3 := (v2.members l).foldl (fun v y => v.modPad y fun q => q.fencing x) v2
  let u := pfolds.foldl (fun v p => v.modFold x p fun f => { f with scrub := none }) v3
  obtain ⟨-, hdef', -, -, -⟩ := State.leader_switches (w := w) hl
  have hv2l : v2.pad l = v1.pad l := (State.pad_modPad ..).trans (if_neg hx.symm)
  have hv3 (y : Die) : v3.pad y = if y ∈ v2.members l then (v2.pad y).fencing x else v2.pad y :=
    State.pad_members (s := v2) (d := l) (fun q => q.fencing x) y
  have hu : v3.Frame (fun q => (q.repl, q.boot, q.conf, q.shep)) u :=
    (State.Frame.refl _ v3).foldl _ _ fun _ p hv => hv.modPad x (fun q => { q with folds := vmod q.folds p fun f => { f with scrub := none } }) fun _ => rfl
  have hview (y : Die) : (u.pad y).repl = (v2.pad y).repl ∧ (u.pad y).boot = (v2.pad y).boot ∧
      (y ∈ v2.members l → bitAt (u.pad y).conf.fenced x.val = true) ∧ (u.pad y).shep = (v2.pad y).shep := by
    have hy := hu.pads y
    simp only [Prod.mk.injEq, hv3] at hy
    obtain ⟨hrepl, hboot, hconf, hshep⟩ := hy
    rw [hrepl, hboot, hconf, hshep]
    split
    next => exact ⟨rfl, rfl, fun _ => bitAt_putBit_same _ _ x.isLt, rfl⟩
    next h => exact ⟨rfl, rfl, fun hm => absurd hm h, rfl⟩
  have hlrepl : (v2.pad l).repl = Repl.fenced { (s.pad l).repl with present := w.present } x := by
    rw [hv2l]
    exact State.leader_modRepl hl _ hself
  have hmem (y : Die) (hy : y ∈ s.members l) (hne : y ≠ x) : y ∈ v2.members l :=
    mem_diesOf.mpr (by rw [hlrepl]; exact (hbit y hne).trans (mem_diesOf.mp hy))
  obtain ⟨hul, -, -, hulshep⟩ := hview l
  obtain ⟨t, hends, htview⟩ := State.switched_ends (u := u) hl hsw hop hdef hdue hrq hloud
    (State.switchEnd_fence (hdef'.trans hdef) hkind)
    (by rw [hulshep, hv2l]; exact State.shep_modRepl ..) (by rw [hul, hlrepl]; rfl)
  have hparts (y : Die) : (t.pad y).repl = (u.pad y).repl ∧ (t.pad y).boot = (u.pad y).boot ∧
      (t.pad y).conf.fenced = (u.pad y).conf.fenced := by
    have hy := htview y
    simp only [Paddock.endView, Prod.mk.injEq] at hy
    obtain ⟨hrepl, hboot, hfenced, -⟩ := hy
    exact ⟨hrepl, hboot, hfenced⟩
  refine ⟨t, hends, ?_, ?_, ?_, fun y hy hne => ?_⟩
  · rw [(hparts l).1, hul, hlrepl]; rfl
  · rw [(hparts l).1, hul, hlrepl]
    exact bitAt_putBit_same _ _ x.isLt
  · rw [(hparts x).2.1, (hview x).2.1]
    exact congrArg (fun q => q.boot.ready) (State.pad_modPad_same ..)
  · rw [(hparts y).2.2]
    exact (hview y).2.2.1 (hmem y hy hne)

end

end Sys2Proof.Machine
end

section
/-!
The recheck of the envelopes, the announcement of a ready die, and the statement O15 (10 R271, 11 R302, R308).
-/

namespace Sys2Proof.Machine

/-! ### The recheck of the envelopes -/

/-- A word in which the numbers that pass `f` are set one by one. -/
theorem bitAt_foldl_putBit {k : Nat} (f : Nat → Bool) (l : List Nat) (b : BitVec k) {n : Nat} (hn : n < k) :
    bitAt (l.foldl (fun b m => if f m then putBit b m true else b) b) n = (bitAt b n || (decide (n ∈ l) && f n)) := by
  induction l generalizing b with
  | nil => simp
  | cons m l ih =>
    rw [List.foldl_cons, ih]
    by_cases hm : n = m
    · subst hm
      cases hf : f n
      · simp
      · simp [bitAt_putBit_same _ _ hn]
    · have hkeep : bitAt (if f m then putBit b m true else b) n = bitAt b n := by
        split
        · exact bitAt_putBit_of_ne _ _ fun h => hm h.symm
        · rfl
      rw [hkeep]
      simp [hm]

/-- What the reports of the recheck keep of every paddock. -/
def Paddock.envView (q : Paddock) : Repl × Vector Fold 5 × Stream × Shep := (q.repl, q.folds, q.stream, q.shep)

/-- A member's registers with the test's result (11 R308). -/
def Repl.tested (r : Repl) (v : Env) : Repl :=
  { r with
    envBad := (List.range 64).foldl (fun b n => if v.bad n then putBit b n true else b) 0
    envBadDef := v.bad 64, envWorst := v.worstNs }

section
variable {s : State} {l : Die}

theorem State.frame_recheck {at' : Nat} (h : (s.pad l).shep.recheck = some at') :
    ((s.modShep l fun x => { x with recheck := none }).publishEnv l).Frame Paddock.envView (s.recheck l) := by
  unfold State.recheck
  rw [h]
  exact (State.Frame.refl _ _).foldl _ _ fun _ n hu => hu.file (fun _ _ => rfl) l rfl

/-- The members once the test's result is published: their TIDE_ENV, and nothing of their folds and Stream. -/
theorem State.pad_publishEnv (u : State) (l d : Die) (hd : d ∈ u.members l) :
    ((u.publishEnv l).pad d).repl = (u.pad d).repl.tested (u.envNow l) ∧ ((u.publishEnv l).pad d).folds = (u.pad d).folds ∧
      ((u.publishEnv l).pad d).stream = (u.pad d).stream := by
  let v := u.modRepl l fun r => r.tested (u.envNow l)
  have hv : v.pad d = { u.pad d with repl := (u.pad d).repl.tested (u.envNow l) } := (State.pad_modRepl ..).trans (if_pos hd)
  have hpub : v.Frame (fun q => (q.repl, q.folds, q.stream)) (u.publishEnv l) := (State.Frame.refl _ v).modPad l _ fun _ => rfl
  have hpad := hpub.pads d
  simp only [hv, Prod.mk.injEq] at hpad
  exact hpad

/-- ENVELOPE_RECHECK in a Range (11 R302, R308). -/
theorem exec_envelopeRecheck {at' : Nat} (hl : s.leaders = [l]) (h : (s.pad l).shep.recheck = some at') :
    let v := (s.modShep l fun x => { x with recheck := none }).envNow l
    ∃ t, exec .envelopeRecheck s = .next t ∧ t.krovol = s.krovol ∧ t.tether = s.tether ∧ t.pending = s.pending ∧
      (t.pad l).shep.recheck = none ∧ ∀ d ∈ s.members l,
      (t.pad d).repl.envBadDef = v.bad 64 ∧ (t.pad d).repl.envWorst = v.worstNs ∧
      (∀ n : Fin 64, bitAt (t.pad d).repl.envBad n.val = v.bad n.val) ∧
      (t.pad d).folds = (s.pad d).folds ∧ (t.pad d).stream = (s.pad d).stream := by
  intro v
  have hexec : exec .envelopeRecheck s = .next (s.recheck l) :=
    congrArg Host.Outcome.next (congrArg (fun a : List Die => a.foldl State.recheck s) hl)
  obtain ⟨hk, hp⟩ := exec_keeps hexec
  let u := s.modShep l fun x => { x with recheck := none }
  have hu : s.Frame (fun q => (q.repl, q.folds, q.stream)) u := (State.Frame.refl _ s).modPad l _ fun _ => rfl
  have hrep := State.frame_recheck h
  have hpub : u.Frame (fun q => q.shep.recheck) (u.publishEnv l) :=
    ((State.Frame.refl _ u).modRepl l _ fun _ => rfl).modPad l _ fun _ => rfl
  have hend (d : Die) : ((s.recheck l).pad d).repl = ((u.publishEnv l).pad d).repl ∧
      ((s.recheck l).pad d).folds = ((u.publishEnv l).pad d).folds ∧ ((s.recheck l).pad d).stream = ((u.publishEnv l).pad d).stream ∧
      ((s.recheck l).pad d).shep = ((u.publishEnv l).pad d).shep := by
    have hd := hrep.pads d
    simp only [Paddock.envView, Prod.mk.injEq] at hd
    exact hd
  refine ⟨_, hexec, hk, hrep.tether.trans (hpub.tether.trans hu.tether), hp, ?_, fun d hd => ?_⟩
  · obtain ⟨-, -, -, hshep⟩ := hend l
    rw [hshep]
    refine (hpub.pads l).trans ?_
    rw [State.pad_modShep_same]
  · have hud := hu.pads d
    simp only [Prod.mk.injEq] at hud
    obtain ⟨-, hufolds, hustream⟩ := hud
    have hlu := hu.pads l
    simp only [Prod.mk.injEq] at hlu
    obtain ⟨hlrepl, -⟩ := hlu
    have hmem : d ∈ u.members l := by
      simp only [State.members, hlrepl]
      exact hd
    obtain ⟨hrepl, hfolds, hstream, -⟩ := hend d
    obtain ⟨hprepl, hpfolds, hpstream⟩ := u.pad_publishEnv l d hmem
    rw [hrepl, hfolds, hstream, hprepl, hpfolds, hpstream]
    refine ⟨rfl, rfl, fun n => ?_, hufolds, hustream⟩
    refine (bitAt_foldl_putBit v.bad (List.range 64) 0 n.isLt).trans ?_
    simp [bitAt]

end

/-! ### A die that is ready (10 R271) -/

section
variable {s : State} {d x : Die} {e : Edge}

/-- The neighbour's start-up is complete, and its edge to the member trained. -/
structure State.Joins (s : State) (d x : Die) (e : Edge) : Prop where
  inRange : s.inRange d = true
  outside : s.member d x = false
  planned : s.planned x = true
  next : neighbour d e = some x
  up : s.edgeUp d e = true
  upThere : s.edgeUp x (facing e) = true
  step : 9 ≤ (s.pad x).boot.step.toNat
  unfenced : bitAt (s.pad d).conf.fenced x.val = false

/-- The member's event queues and every member's READY_DIES once the die is announced. -/
def State.announces (s : State) (d x : Die) : State :=
  ((s.file d (s.segReport d 0x802 (streamAgent x) 0)).modRepl d fun r =>
    { r with readyDies := putBit r.readyDies x.val true }).eventFrom d 4 x 0

theorem State.dieReadyAt_eq (h : s.Joins d x e) :
    s.dieReadyAt d x = if bitAt (s.pad d).repl.readyDies x.val = true then s else s.announces d x := by
  have hedge : (edges.any fun e => neighbour d e == some x && s.edgeUp d e && s.edgeUp x (facing e)) = true :=
    List.any_eq_true.mpr ⟨e, by cases e <;> decide, by simp [h.next, h.up, h.upThere]⟩
  unfold State.dieReadyAt
  simp only [h.inRange, h.outside, h.planned, hedge, h.step, h.unfenced, Bool.not_false, Bool.and_self, Bool.true_and, decide_true]
  cases bitAt (s.pad d).repl.readyDies x.val <;> rfl

theorem State.bell_file_away (h : s.member d x = false) :
    s.segReport d 0x802 (streamAgent x) 0 ∈ ((s.file d (s.segReport d 0x802 (streamAgent x) 0)).pad d).bell.inbox := by
  have hfar : s.reaches d x = decide (d = x) := by
    rw [Bool.eq_iff_iff]
    simp [State.reaches, h]
  have hhome : (if d != x && s.inRange d && s.reaches d x then x else d) = d := by
    rw [hfar]
    by_cases hx : d = x <;> simp [hx]
  have hsubj : dieOf (s.segReport d 0x802 (streamAgent x) 0).subject = x := by simp [State.segReport, streamAgent]
  unfold State.file
  simp only [hsubj, hhome]
  simp [State.ftReact, State.segReport]

/-- DIE_READY of a die not announced before. -/
theorem exec_dieReady (h : s.Joins d x e) (hnew : bitAt (s.pad d).repl.readyDies x.val = false) :
    ∃ t, exec (.dieReady d x) s = .next t ∧ t.krovol = s.krovol ∧ t.tether = s.tether ∧ t.pending = s.pending ∧
      s.segReport d 0x802 (streamAgent x) 0 ∈ (t.pad d).bell.inbox ∧
      (∀ y ∈ s.members d, (t.pad y).repl = { (s.pad y).repl with
        readyDies := putBit (s.pad y).repl.readyDies x.val true }) ∧
      ∀ y, y ∉ s.members d → (t.pad y).repl = (s.pad y).repl := by
  have hexec : exec (.dieReady d x) s = .next (s.announces d x) := by
    refine congrArg Host.Outcome.next ((State.dieReadyAt_eq h).trans (if_neg ?_))
    rw [hnew]
    exact Bool.false_ne_true
  obtain ⟨hk, hp⟩ := exec_keeps hexec
  let u := s.file d (s.segReport d 0x802 (streamAgent x) 0)
  let v := u.modRepl d fun r => { r with readyDies := putBit r.readyDies x.val true }
  have hfile : s.Frame (fun q => q.repl) u := (State.Frame.refl _ s).file (fun _ _ => rfl) d rfl
  have hevent : v.Frame (fun q => q.repl) (s.announces d x) :=
    (State.Frame.refl _ v).eventQueues (fun _ _ => rfl) (fun _ _ => rfl) d 4 x 0
  have hinbox : u.InboxesKept (s.announces d x) := by
    have hv : u.InboxesKept v := (State.InboxesKept.refl u).foldl _ _ fun w y => (State.InboxesKept.refl w).modPad y _ fun _ => List.Subset.refl _
    unfold State.announces State.eventFrom
    split
    · exact hv
    · exact (hv.eqChecks _ _).modPad _ _ fun _ => List.Subset.refl _
  have htether : v.tether = u.tether := ((State.Frame.refl (fun _ => ()) u).modRepl d _ fun _ => rfl).tether
  have hmembers : u.members d = s.members d := congrArg (fun r : Repl => diesOf r.present) (hfile.pads d)
  have hrepl (y : Die) : ((s.announces d x).pad y).repl =
      if y ∈ s.members d then { (s.pad y).repl with readyDies := putBit (s.pad y).repl.readyDies x.val true } else (s.pad y).repl := by
    have hy : (u.pad y).repl = (s.pad y).repl := hfile.pads y
    refine (hevent.pads y).trans ?_
    simp only [v, State.pad_modRepl, hmembers]
    split
    · simp only [hy]
    · exact hy
  exact ⟨_, hexec, hk, hevent.tether.trans (htether.trans hfile.tether), hp, hinbox d (State.bell_file_away h.outside),
    fun y hy => (hrepl y).trans (if_pos hy), fun y hy => (hrepl y).trans (if_neg hy)⟩

end

/-- Settles O15: the switch changes each paddock it concerns once, and its command, the recheck of the envelopes and the
announcement of a ready die go by what a report, an event and a final reply keep. -/
theorem leaderSwitchesRechecksAndAnnounces : Obligations.LeaderSwitchesRechecksAndAnnounces := by
  unfold Obligations.LeaderSwitchesRechecksAndAnnounces
  refine ⟨fun s l w hl hsw hop => ⟨fun hearly => ?_, exec_switch_alone hl hsw hop⟩,
    fun s l x b n w o hl hsw hop hdef hdue hrq hloud hx => ⟨fun hkind _ hpresent => ?_, fun hkind _ hpresent => ?_⟩,
    fun s l at' hl h => exec_envelopeRecheck hl h,
    fun s d x e hin hout hplanned hnext hup hthere hstep hunfenced => ?_⟩
  · exact (exec_switch hl).trans (congrArg Host.Outcome.next (State.switchCycleOf_early hsw hearly))
  · exact exec_switch_join hl hsw hop hdef hdue hrq hloud hx hkind hpresent
  · exact exec_switch_fence hl hsw hop hdef hdue hrq hloud hx hkind hpresent
  · have hjoins : s.Joins d x e := ⟨hin, hout, hplanned, hnext, hup, hthere, hstep, hunfenced⟩
    exact ⟨fun hready => congrArg Host.Outcome.next ((State.dieReadyAt_eq hjoins).trans (if_pos hready)), exec_dieReady hjoins⟩

end Sys2Proof.Machine
end
